-- ==== Sys2Proof/Word.lean ====
section
/-! DEFINITION. The word types of the E40: bytes, words, registers, and sparse maps. -/

namespace Sys2Proof

/-- A byte. -/
abbrev Byte := BitVec 8

/-- A 16-bit field. -/
abbrev W16 := BitVec 16

/-- A 32-bit word: a vector lane, an accumulator word, a BAR0 register. -/
abbrev W32 := BitVec 32

/-- A 64-bit word: a general register, a 64-bit register. -/
abbrev W64 := BitVec 64

/-- A vector register or a tile row: 256 bytes (R220, R246). -/
abbrev Row := BitVec 2048

/-- An accumulator row: 256 words of 32 bits (R179). -/
abbrev AccRow := BitVec 8192

/-- A numbered collection: (number, value) pairs in one canonical form, numbers strictly rising and no value equal to
the one that an unlisted number has. -/
abbrev Sparse (α : Type) := List (Nat × α)

end Sys2Proof
end

