-- ==== Sys2Proof/Syntax.lean ====
section
/-! DEFINITION. The commands of the E40 block: one constructor of `Instr` per row of spec/opcode_table.json, and the
operand types they carry. An operand that is a field of an encoding has the field's width. Times are datum ns. -/

namespace Sys2Proof

/-- Who gives an order (R112, R117): the management instance with the parcel it names in FE_ORD_PARCEL, a PCIe
function, or a Vangir session. -/
inductive Source where
  | mgmt (parcel : Fin 16)
  | fn (f : Fin 8)
  | sess (n : Fin 256)
  deriving DecidableEq, Repr

/-- Who makes a register access (R556): a PCIe function, or an endpoint of the management bus, with the SPDM
session its message came in (none: outside any secured session). -/
inductive Accessor where
  | fn (f : Fin 8)
  | mgmt (eid : Byte) (sess : Option (Fin 4))
  deriving DecidableEq, Repr

/-- The common part of every cell instruction (R194): the cell it issues on, its guard, and whether any reserved
field or value of the word that the operands below do not carry is non-zero (R216, ILLEGAL). -/
structure Hdr where
  cell : Fin 128
  pn : Bool
  pg : Fin 8
  resv : Bool
  deriving DecidableEq, Repr

/-- The second word of a shaped instruction (R225): RB − 1 and ROWS − 1; absent in the 32-bit form. -/
structure Shape where
  rb : BitVec 3
  rows : BitVec 6
  deriving DecidableEq, Repr

/-- What the ECC of a stack sector found (R445). -/
inductive Ecc where
  | clean
  | corrected
  | uncorrectable
  deriving DecidableEq, Repr

/-- What an order carries beside its own fields (R115): its source, its ORDER_ID, whether a field that the opcode
does not use is non-zero, and whether it is evaluated in the same hub-die cycle as the order before it (R143). -/
structure OrdHdr where
  src : Source
  id : W64
  resv : Bool
  same : Bool
  deriving DecidableEq, Repr

/-- What every received Vangir message carries beside its body (R401, R403): the session, whether the header is
malformed under the first four conditions of R403, its ENC bit, whether its protection verifies under R409, SEQ, ACK. -/
structure VHdr where
  sid : Fin 256
  bad : Bool
  enc : Bool
  auth : Bool
  seq : W32
  ack : W32
  deriving DecidableEq, Repr

/-- The body of a RANK or GATHER request (R412); `resv`: a reserved field is not zero. -/
structure WorkBody where
  tag : W64
  qindex : Byte
  ctx : Byte
  pbOff : W16
  pbLen : W16
  resv : Bool
  patch : List Byte
  deriving DecidableEq, Repr

/-- The window of a STAGE or PUSH body (R412). -/
structure WinBody where
  ctx : Byte
  seg : Byte
  off : W64
  resv : Bool
  deriving DecidableEq, Repr

/-- The body of a reliable message of a partner (R402, R412). -/
inductive VBody where
  | rank (b : WorkBody)
  | gather (b : WorkBody)
  | update (body : List Byte)
  | order (desc : List Byte)
  | stage (w : WinBody) (data : List Byte)
  | push (w : WinBody) (len : W32)
  deriving DecidableEq, Repr

/-- What a Vangir message of a partner carries after its header (R402, R406, R412). -/
inductive VMsg where
  | opening (nonce : BitVec 56) (isn : W32) (resv : Bool)
  | close (code : Byte) (resv : Bool)
  | ack (blocks : List (W32 × W32)) (resv : Bool)
  | body (b : VBody)
  deriving DecidableEq, Repr

/-- A MACsec key record (R383), its OP apart; `resv`: a reserved byte is not zero. -/
structure SaRec where
  subport : Byte
  dir : Byte
  rsc : Byte
  an : Byte
  sci : W64
  pn : W64
  ssci : W32
  salt : BitVec 96
  sak : BitVec 256
  resv : Bool
  deriving DecidableEq, Repr

/-- The SecTAG of a received frame (R381, R386): the peer SCI, the association number, the packet number, and
whether ICV verification passes under the key it names. -/
structure SecTag where
  sci : W64
  an : Fin 4
  pn : Nat
  icvOk : Bool
  deriving DecidableEq, Repr

/-- The dataset of an Announce (R390), as IEEE 1588-2019 compares it, field by field in order. -/
structure PtpDataset where
  prio1 : Byte
  clockClass : Byte
  accuracy : Byte
  variance : W16
  prio2 : Byte
  identity : W64
  steps : W16
  deriving DecidableEq, Repr

/-- What a frame carries to the Vangir engine or the time receiver, as far as R398 to R400 look at it. -/
inductive Payload where
  | vangir (v6 : Bool) (ipOk : Bool) (sumOk : Bool) (dst : BitVec 128) (src : BitVec 128) (sport : W16) (dport : W16)
      (hdr : VHdr) (msg : VMsg)
  /-- an IPv6 Neighbor Solicitation, an ARP request, and an advertisement or reply (R399) -/
  | solicitation (target src : BitVec 128) (mac : BitVec 48)
  | arpRequest (target src : BitVec 32) (mac : BitVec 48)
  | resolved (addr : BitVec 128) (mac : BitVec 48)
  /-- PTP messages (R388 to R391) -/
  | ptpSync (origin : Nat) (corr : Int) (rx : Nat)
  | ptpDelayResp (t3 t4 : Nat) (corr : Int)
  | ptpAnnounce (d : PtpDataset)
  | other
  deriving DecidableEq, Repr

/-- A received frame as R376 and R377 look at it. -/
structure Frame where
  fcsOk : Bool
  size : Nat
  dst : BitVec 48
  etype : W16
  tag : Option SecTag
  payload : Payload
  deriving DecidableEq, Repr

/-- A CXL.cache snoop of the host (R360). -/
inductive Snoop where
  | data
  | inv
  | cur
  deriving DecidableEq, Repr

/-- What the host answers a Welt request with (R361, R366). -/
inductive HostAnswer where
  | line (bytes : List Byte)
  | owned (bytes : List Byte)
  | poison (bytes : List Byte)
  | error
  deriving DecidableEq, Repr

/-- One sample of the temperature and power sensors (R458, R459), in the units of R477: signed 0.125 °C, and W.
A list entry is (unit, raw sample); a unit without an entry keeps its present sample. -/
structure Sample where
  cells : List (Fin 128 × W16)
  stks : List ((Fin 8 × Fin 4) × W16)
  hub : List (Fin 4 × W16)
  vr : List (Fin 8 × W16)
  cool : Option W16
  power : Option (W16 × W16 × W16)
  filtered : List (Fin 137 × Int)
  deriving DecidableEq, Repr

/-- A survey agent (R482). -/
inductive Agent where
  | cell (n : Fin 128)
  | pch (stack : Fin 8) (c : Fin 32)
  | welt
  deriving DecidableEq, Repr

/-- What a survey or power-on test found in its region (R489, R490): the failing words as (word, bit), the element of
the first failing read, and the syndrome. Empty list: no fault. -/
structure TestFind where
  fails : List (Nat × Nat)
  elem : Byte
  syndrome : W64
  deriving DecidableEq, Repr

/-- What the power-on self-test finds (R479, R481). -/
structure PostFind where
  /-- cells that fail the logic test -/
  logic : List (Fin 128)
  /-- failing regions of cells, by bank or 256 for the tile file with the accumulator (R482) -/
  cells : List (Fin 128 × Fin 257 × TestFind)
  /-- failing Welt way segments -/
  welt : List (Fin 1024 × TestFind)
  /-- failing row ranges of stacks, by pseudo-channel -/
  ranges : List (Fin 8 × Fin 32 × Nat × TestFind)
  /-- channels that fail their pattern test -/
  channels : List (Fin 8 × Fin 16)
  /-- a hub-die logic failure or unmendable hub-die SRAM defect -/
  hub : Bool
  /-- failures of each part of R479, parts 1 to 6 -/
  parts : List Nat
  deriving DecidableEq, Repr

/-- The lists of a gather that lie in a HOST window, as the Welt delivers them (R288), and whether a line is poisoned;
`took`: ns from the request to the last of its data. -/
structure HostLists where
  idx : List Byte
  offs : List Byte
  wgt : List Byte
  poison : Bool
  took : Nat
  deriving DecidableEq, Repr

/-- A step of the front end's read of a graph image in a HOST window (R151): the bytes the host delivered and the
offset of the first poisoned byte, if one was met; `took`: ns from the request to the last of its data. -/
structure HostImage where
  bytes : List Byte
  poison : Option Nat
  took : Nat
  deriving DecidableEq, Repr

/-- How the host answers the front end's read of a descriptor and its patch (R130): whether a line is poisoned, and the ns
from the request to the data (R364). -/
structure HostRead where
  poison : Bool
  took : Nat
  deriving DecidableEq, Repr

/-- A block of a firmware update (R595), and whether its write to the slot fails (R84). -/
structure FwBlock where
  data : List Byte
  fail : Bool
  deriving DecidableEq, Repr

/-- A unit with a command queue (R181). -/
inductive UnitId where
  | array
  | mv
  | cag
  | vec
  | tmove
  deriving DecidableEq, Repr

/-- Who asks for an SPDM or PLDM service: the requester's MCTP endpoint ID and the session the message came in. -/
structure Requester where
  eid : Byte
  sess : Option (Fin 4)
  deriving DecidableEq, Repr

/-- The commands of the block: one constructor per row of spec/opcode_table.json. -/
inductive Instr where
  -- register arithmetic and logic (R198, R200)
  | add (h : Hdr) (w : Bool) (rd rs1 rs2 : Fin 32)
  | sub (h : Hdr) (w : Bool) (rd rs1 rs2 : Fin 32)
  | andR (h : Hdr) (rd rs1 rs2 : Fin 32)
  | orR (h : Hdr) (rd rs1 rs2 : Fin 32)
  | xorR (h : Hdr) (rd rs1 rs2 : Fin 32)
  | andn (h : Hdr) (rd rs1 rs2 : Fin 32)
  | sll (h : Hdr) (w : Bool) (rd rs1 rs2 : Fin 32)
  | srl (h : Hdr) (w : Bool) (rd rs1 rs2 : Fin 32)
  | sra (h : Hdr) (w : Bool) (rd rs1 rs2 : Fin 32)
  | neg (h : Hdr) (w : Bool) (rd rs1 : Fin 32)
  | abs (h : Hdr) (w : Bool) (rd rs1 : Fin 32)
  | minR (h : Hdr) (rd rs1 rs2 : Fin 32)
  | maxR (h : Hdr) (rd rs1 rs2 : Fin 32)
  | minu (h : Hdr) (rd rs1 rs2 : Fin 32)
  | maxu (h : Hdr) (rd rs1 rs2 : Fin 32)
  | clz (h : Hdr) (rd rs1 : Fin 32)
  | popc (h : Hdr) (rd rs1 : Fin 32)
  | mul (h : Hdr) (w : Bool) (rd rs1 rs2 : Fin 32)
  | mulh (h : Hdr) (rd rs1 rs2 : Fin 32)
  | mulhu (h : Hdr) (rd rs1 rs2 : Fin 32)
  | div (h : Hdr) (w : Bool) (rd rs1 rs2 : Fin 32)
  | divu (h : Hdr) (w : Bool) (rd rs1 rs2 : Fin 32)
  | rem (h : Hdr) (w : Bool) (rd rs1 rs2 : Fin 32)
  | remu (h : Hdr) (w : Bool) (rd rs1 rs2 : Fin 32)
  -- immediates, compares, predicates (R199)
  | addi (h : Hdr) (rd rs1 : Fin 32) (imm : BitVec 11)
  | andi (h : Hdr) (rd rs1 : Fin 32) (imm : BitVec 11)
  | ori (h : Hdr) (rd rs1 : Fin 32) (imm : BitVec 11)
  | xori (h : Hdr) (rd rs1 : Fin 32) (imm : BitVec 11)
  | shi (h : Hdr) (rd rs1 : Fin 32) (imm : BitVec 11)
  | lui (h : Hdr) (rd : Fin 32) (imm : W16)
  | li (h : Hdr) (rd : Fin 32) (imm : W32)
  | lih (h : Hdr) (rd : Fin 32) (imm : W32)
  | cmp (h : Hdr) (pd : Fin 8) (cond : BitVec 3) (rs1 rs2 : Fin 32)
  | cmpi (h : Hdr) (pd : Fin 8) (cond : BitVec 3) (rs1 : Fin 32) (imm : BitVec 10)
  | predAnd (h : Hdr) (pd pa pb : Fin 8)
  | predOr (h : Hdr) (pd pa pb : Fin 8)
  | predXor (h : Hdr) (pd pa pb : Fin 8)
  | predAndn (h : Hdr) (pd pa pb : Fin 8)
  | predNot (h : Hdr) (pd pa : Fin 8)
  -- loads and stores (R203), the store buffer (R209)
  | lb (h : Hdr) (rd rs1 : Fin 32) (imm : Byte)
  | lbu (h : Hdr) (rd rs1 : Fin 32) (imm : Byte)
  | lh (h : Hdr) (rd rs1 : Fin 32) (imm : Byte)
  | lhu (h : Hdr) (rd rs1 : Fin 32) (imm : Byte)
  | lw (h : Hdr) (rd rs1 : Fin 32) (imm : Byte)
  | lwu (h : Hdr) (rd rs1 : Fin 32) (imm : Byte)
  | ld (h : Hdr) (rd rs1 : Fin 32) (imm : Byte)
  | sb (h : Hdr) (rs2 rs1 : Fin 32) (imm : Byte)
  | sh (h : Hdr) (rs2 rs1 : Fin 32) (imm : Byte)
  | sw (h : Hdr) (rs2 rs1 : Fin 32) (imm : Byte)
  | sd (h : Hdr) (rs2 rs1 : Fin 32) (imm : Byte)
  | storeBufferDrain (cell : Fin 128)
  -- atomics (R205)
  | amoswap (h : Hdr) (d : Bool) (rd rs1 rs2 : Fin 32)
  | amoadd (h : Hdr) (d : Bool) (rd rs1 rs2 : Fin 32)
  | amoand (h : Hdr) (d : Bool) (rd rs1 rs2 : Fin 32)
  | amoor (h : Hdr) (d : Bool) (rd rs1 rs2 : Fin 32)
  | amoxor (h : Hdr) (d : Bool) (rd rs1 rs2 : Fin 32)
  | amomin (h : Hdr) (d : Bool) (rd rs1 rs2 : Fin 32)
  | amomax (h : Hdr) (d : Bool) (rd rs1 rs2 : Fin 32)
  | amominu (h : Hdr) (d : Bool) (rd rs1 rs2 : Fin 32)
  | amomaxu (h : Hdr) (d : Bool) (rd rs1 rs2 : Fin 32)
  | cas (h : Hdr) (d : Bool) (rd rs1 rs2 : Fin 32)
  -- control flow, fences, queue instructions (R201, R208, R211)
  | br (h : Hdr) (off : BitVec 21)
  | call (h : Hdr) (off : BitVec 21)
  | jalr (h : Hdr) (rd rs1 : Fin 32) (imm : BitVec 11)
  | fenceSl (h : Hdr)
  | uwait (h : Hdr) (mask : Byte)
  | waitq (h : Hdr) (rd : Fin 32)
  | endI (h : Hdr)
  -- cs registers (R210)
  | csrr (h : Hdr) (rd rs1 : Fin 32) (cs : BitVec 9)
  | csrw (h : Hdr) (rd rs1 : Fin 32) (cs : BitVec 9)
  | csrs (h : Hdr) (rd rs1 : Fin 32) (cs : BitVec 9)
  | csrc (h : Hdr) (rd rs1 : Fin 32) (cs : BitVec 9)
  -- long operations (R213)
  | vcopy (h : Hdr) (rd rs1 rs2 : Fin 32)
  | hsweepR (h : Hdr) (rd rs1 rs2 : Fin 32)
  | hsweepW (h : Hdr) (rd rs1 rs2 : Fin 32)
  -- integer lanes (R247, R267)
  | vadd (h : Hdr) (sc : Bool) (rd rs1 rs2 : Fin 32)
  | vsub (h : Hdr) (sc : Bool) (rd rs1 rs2 : Fin 32)
  | vmul (h : Hdr) (sc : Bool) (rd rs1 rs2 : Fin 32)
  | vmulh (h : Hdr) (sc : Bool) (rd rs1 rs2 : Fin 32)
  | vand (h : Hdr) (sc : Bool) (rd rs1 rs2 : Fin 32)
  | vor (h : Hdr) (sc : Bool) (rd rs1 rs2 : Fin 32)
  | vxor (h : Hdr) (sc : Bool) (rd rs1 rs2 : Fin 32)
  | vsll (h : Hdr) (sc : Bool) (rd rs1 rs2 : Fin 32)
  | vsrl (h : Hdr) (sc : Bool) (rd rs1 rs2 : Fin 32)
  | vsra (h : Hdr) (sc : Bool) (rd rs1 rs2 : Fin 32)
  | vneg (h : Hdr) (rd rs1 : Fin 32)
  | vabs (h : Hdr) (rd rs1 : Fin 32)
  | vmin (h : Hdr) (sc : Bool) (rd rs1 rs2 : Fin 32)
  | vmax (h : Hdr) (sc : Bool) (rd rs1 rs2 : Fin 32)
  | vminu (h : Hdr) (sc : Bool) (rd rs1 rs2 : Fin 32)
  | vmaxu (h : Hdr) (sc : Bool) (rd rs1 rs2 : Fin 32)
  | vadds (h : Hdr) (sc : Bool) (rd rs1 rs2 : Fin 32)
  | vsubs (h : Hdr) (sc : Bool) (rd rs1 rs2 : Fin 32)
  | vmuls (h : Hdr) (sc : Bool) (rd rs1 rs2 : Fin 32)
  | vceq (h : Hdr) (sc : Bool) (rd rs1 rs2 : Fin 32)
  | vclt (h : Hdr) (sc : Bool) (rd rs1 rs2 : Fin 32)
  | vcltu (h : Hdr) (sc : Bool) (rd rs1 rs2 : Fin 32)
  | vsel (h : Hdr) (sc : Bool) (rd rs1 rs2 : Fin 32)
  -- fp32 lanes (R248, R268)
  | vfadd (h : Hdr) (sc : Bool) (rd rs1 rs2 : Fin 32)
  | vfsub (h : Hdr) (sc : Bool) (rd rs1 rs2 : Fin 32)
  | vfmul (h : Hdr) (sc : Bool) (rd rs1 rs2 : Fin 32)
  | vfma (h : Hdr) (sc : Bool) (rd rs1 rs2 : Fin 32)
  | vfmin (h : Hdr) (sc : Bool) (rd rs1 rs2 : Fin 32)
  | vfmax (h : Hdr) (sc : Bool) (rd rs1 rs2 : Fin 32)
  | vfneg (h : Hdr) (rd rs1 : Fin 32)
  | vfabs (h : Hdr) (rd rs1 : Fin 32)
  | vfceq (h : Hdr) (sc : Bool) (rd rs1 rs2 : Fin 32)
  | vfclt (h : Hdr) (sc : Bool) (rd rs1 rs2 : Fin 32)
  | vfcle (h : Hdr) (sc : Bool) (rd rs1 rs2 : Fin 32)
  -- conversion, vector memory, moves, reductions (R246, R249, R250, R251)
  | vcvt (h : Hdr) (vd vs : Fin 32) (sfmt dfmt : BitVec 4) (rnd : BitVec 2) (part : BitVec 3)
  | vld (h : Hdr) (vd rs1 : Fin 32) (imm : Byte)
  | vst (h : Hdr) (vs rs1 : Fin 32) (imm : Byte)
  | vbcast (h : Hdr) (vd rs1 : Fin 32)
  | vmvg (h : Hdr) (rd vs : Fin 32) (lane : Fin 64)
  | vins (h : Hdr) (vd rs1 : Fin 32) (lane : Fin 64)
  | vrsum (h : Hdr) (rd vs : Fin 32)
  | vrfsum (h : Hdr) (rd vs : Fin 32)
  | vrmax (h : Hdr) (rd vs : Fin 32)
  | vrfmax (h : Hdr) (rd vs : Fin 32)
  | vtr (h : Hdr) (v : Fin 32) (t : Fin 16) (row : Fin 64)
  | vtw (h : Hdr) (v : Fin 32) (t : Fin 16) (row : Fin 64)
  -- tiles, array, convolution, matrix-vector path (R230 to R244)
  | tld (h : Hdr) (t : Fin 16) (rs1 rs2 : Fin 32) (shape : Option Shape)
  | tst (h : Hdr) (t : Fin 16) (rs1 rs2 : Fin 32) (shape : Option Shape)
  | tzero (h : Hdr) (t : Fin 16)
  | tfree (h : Hdr) (mask : BitVec 17)
  | tcopy (h : Hdr) (td ts : Fin 16)
  | accz (h : Hdr)
  | mma (h : Hdr) (ta tw : Fin 16) (afmt wfmt : BitVec 4) (acol : BitVec 2) (acc : Bool) (shape : Option Shape)
  | accmv (h : Hdr) (td : Fin 16) (fmt : BitVec 4) (rnd : BitVec 2) (rs : Fin 32) (nrows : BitVec 6)
  | arr (h : Hdr) (a : BitVec 2)
  | cagset (h : Hdr) (rs1 : Fin 32)
  | conv (h : Hdr) (tw : Fin 16) (rs1 rs2 : Fin 32) (acol : BitVec 2) (acc : Bool)
  | mvm (h : Hdr) (td : Fin 16) (rs1 rs2 : Fin 32) (batch xfmt wfmt : Bool) (kq : Byte) (nblk : BitVec 7)
  -- Awl commands and steps (R285 to R294)
  | agath (h : Hdr) (rs1 : Fin 32) (arg : Byte)
  | await (h : Hdr) (arg : Byte)
  | atab (h : Hdr) (rd rs1 : Fin 32)
  | aupd (h : Hdr) (rd rs1 : Fin 32)
  | gatherAccept (cell : Fin 128) (slot : Fin 2) (host : HostLists)
  | awlSectorData (cell : Fin 128) (slot : Fin 2) (pos sec : Nat) (ecc : Ecc)
  | gatherCommit (cell : Fin 128) (slot : Fin 2)
  -- the tick and its phases (R90 to R107), update windows (R309 to R312), survey (R482 to R492)
  | tickBoundary (t : Nat)
  | updateWindowStart (p : Fin 16) (t : Nat)
  | updateApply (p : Fin 16) (t : Nat) (ecc : Ecc)
  | updateWindowEnd (p : Fin 16) (t : Nat)
  | computePhaseStart (p : Fin 16) (t : Nat)
  | computePhaseEnd (p : Fin 16) (t : Nat)
  | queueTimeoutExpiry (p : Fin 16) (inst : Nat) (t : Nat)
  | surveySliceStart (t : Nat)
  | surveyTestEnd (a : Agent) (find : TestFind) (t : Nat)
  | surveyAbandon (a : Agent) (find : TestFind) (t : Nat)
  -- doorbells, launches, records, interrupts (R128 to R140, R356)
  | sqTail (f : Fin 8) (g : Fin 256) (v : W32) (wide : Bool)
  | cqHead (f : Fin 8) (g : Fin 256) (v : W32) (wide : Bool)
  | launchDescriptorRead (p : Fin 16) (q : Fin 32) (desc patch : List Byte) (host : HostRead)
  | completionRecordWrite (p : Fin 16) (q : Fin 32)
  | msixMessage (f : Fin 8) (v : Nat)
  | msixVectorUnmask (f : Fin 8) (v : Nat)
  -- orders (R116, R330, R512) and their ends
  | graphLoad (o : OrdHdr) (slot ctx seg : Byte) (off len : W64)
  | graphLoadComplete (p : Fin 16) (slot : Fin 64) (img : HostImage)
  | graphUnload (o : OrdHdr) (slot : Byte)
  | queueBind (o : OrdHdr) (q slot mode : Byte) (count : W16)
  | queueUnbind (o : OrdHdr) (q : Byte)
  | queueUnbindComplete (p : Fin 16) (q : Fin 32)
  | queueTimeout (o : OrdHdr) (q : Byte) (ns : W64)
  | queueRings (o : OrdHdr) (q ctx seg : Byte) (count : W16) (sq cq vec : W64)
  | queueReset (o : OrdHdr) (q : Byte)
  | cancel (o : OrdHdr) (q : Byte) (tag : W64)
  | quiesce (o : OrdHdr)
  | resume (o : OrdHdr)
  | parcelQuiet (p : Fin 16)
  | segSet (o : OrdHdr) (ctx seg mode : Byte) (count : W16) (vbase tbase limit : W64)
  | segClear (o : OrdHdr) (ctx seg : Byte)
  | ctxClear (o : OrdHdr) (ctx : Byte)
  | segFence (o : OrdHdr) (mode : Byte) (base len : W64)
  | segFenceComplete (p : Fin 16)
  | parcelReset (o : OrdHdr) (mode : Byte)
  -- images and builds (R66, R78, R80)
  | lastImagePush (who : Accessor) (bytes : List Byte)
  | parcelBuildEnd (p : Fin 16)
  | deviceBuildEnd (t : Nat)
  -- device-wide orders and management writes (R518, R562, R564, R383, R404, R472, R529, R539, R544, R548, R500, R452)
  | mgOrderCold (who : Accessor)
  | mgOrderWarm (who : Accessor)
  | mgOrderRetire (who : Accessor)
  | keySlotProgram (who : Accessor) (slot : Byte) (qx qy : BitVec 384) (resv : Bool)
  | keySlotRevoke (who : Accessor) (slot : Byte) (qx qy : BitVec 384) (resv : Bool)
  | serialFloorWrite (who : Accessor) (v : W64)
  | saInstall (who : Accessor) (r : SaRec)
  | saDelete (who : Accessor) (r : SaRec)
  | saActivate (who : Accessor) (r : SaRec)
  | sessionKeyInstall (who : Accessor) (index : W16) (key : BitVec 256) (resv : Bool)
  | sessionKeyDelete (who : Accessor) (index : W16) (resv : Bool)
  | powerLimitWrite (who : Accessor) (v : W32)
  | errorLogClear (who : Accessor)
  | traceStart (who : Accessor) (v : W64)
  | traceStop (who : Accessor) (v : W64)
  | traceReconfigure (who : Accessor) (v : W64)
  | traceRecordWrite
  | counterSelect (who : Accessor) (i : Fin 1024) (v : W32)
  | snapshotLatch (who : Accessor)
  | wearCommit (who : Accessor)
  | marginRun (who : Accessor)
  | registerWrite (who : Accessor) (off width : Nat) (v : W64)
  | lowerHalfRead (who : Accessor) (off : Nat) (logFail : Bool)
  | mailboxGo (who : Accessor) (v : W32)
  | errorLogEntryWrite (fail : Bool)
  | pldmEventResend (t : Nat)
  -- Vangir messages and timers (R402 to R420)
  | sessOpen (h : VHdr) (nonce : BitVec 56) (isn : W32) (resv : Bool)
  | sessClose (h : VHdr) (code : Byte) (resv : Bool)
  | sessAck (h : VHdr) (blocks : List (W32 × W32)) (resv : Bool)
  | rank (h : VHdr) (b : WorkBody)
  | gather (h : VHdr) (b : WorkBody)
  | update (h : VHdr) (body : List Byte)
  | order (h : VHdr) (desc : List Byte)
  | stage (h : VHdr) (w : WinBody) (data : List Byte)
  | push (h : VHdr) (w : WinBody) (len : W32)
  | retransmitTimeout (sid : Fin 256) (seq : W32) (t : Nat)
  | ackDelayExpiry (sid : Fin 256) (t : Nat)
  | keepalive (sid : Fin 256) (t : Nat)
  | idleTimeout (sid : Fin 256) (t : Nat)
  -- neighbours, frames, PTP, modules (R374 to R399)
  | neighborSolicitation (i : Fin 16) (target src : BitVec 128) (mac : BitVec 48)
  | arpRequest (i : Fin 16) (target src : BitVec 32) (mac : BitVec 48)
  | neighborResolved (i : Fin 16) (addr : BitVec 128) (mac : BitVec 48)
  | neighborRefresh (i : Fin 16) (addr : BitVec 128)
  | frameReceive (i : Fin 16) (fr : Frame)
  | frameTransmit (i : Fin 16)
  | ptpSync (p : Fin 4) (origin : Nat) (corr : Int) (rx : Nat)
  | ptpDelayResp (p : Fin 4) (t3 t4 : Nat) (corr : Int)
  | ptpAnnounce (p : Fin 4) (d : PtpDataset)
  | announceTimeout (p : Fin 4)
  | moduleInsert (p : Fin 4) (hostIf : BitVec 2)
  | moduleReady (p : Fin 4)
  | subportDown (i : Fin 16)
  | subportUp (i : Fin 16)
  -- host link, Welt (R347 to R369)
  | perstAssert
  | perstDeassert
  | linkUp (width speed : Nat) (flit cache : Bool)
  | linkDown
  | functionLevelReset (f : Fin 8)
  | powerStateChange (f : Fin 8) (d3 : Bool)
  | hostSnoop (kind : Snoop) (addr : Nat)
  | hostResponse (addr : Nat) (a : HostAnswer) (took : Nat)
  | cacheWritebackInvalidate
  | cacheWritebackComplete
  | cacheDisable (b : Bool)
  -- temperature and power (R458 to R474, R577 to R583)
  | sensorSample (t : Nat) (smp : Sample)
  | cellThrottleStep (t : Nat)
  | cellClockRise (t : Nat)
  | stackCapStep (t : Nat)
  | stackCapRelease (t : Nat)
  | powerLimiterStep (t : Nat)
  | powerEmergency (t : Nat)
  | railFault (stage : Fin 11)
  | mainInputLoss
  | pwrEnLow
  | cblPresDeassert (c : Fin 2)
  -- start-up (R514)
  | powerOn (sense : List (Bool × Bool × Bool))
  | stackTraining (fails : List (Fin 8 × Fin 16))
  | powerOnSelfTest (find : PostFind)
  | postPackageRepair
  | imageFetch (badA badB : Bool)
  | startupBuild
  | ready (t : Nat)
  -- stacked memory (R443 to R454), hub errors (R525), wear (R499 to R503)
  | refresh (stack : Fin 8) (pch : Fin 32) (bank : Fin 16)
  | scrubRead (stack : Fin 8) (sector : Nat) (ecc : Ecc)
  | remapCopyEnd (stack : Fin 8)
  | stackLost (stack : Fin 8) (chan : Fin 16) (cause : Byte)
  | hubUncorrectableError (unit : W16) (addr : W64)
  | oscillatorMeasure (drifts : List (Fin 536 × W32))
  | wearHourly (t : Nat)
  -- the management bus (R584 to R598)
  | i3cEntdaa (addr : BitVec 7)
  | i3cSetdasa (static dyn : BitVec 7)
  | setEndpointId (eid : Byte)
  | getEndpointId
  | getEndpointUuid
  | getMctpVersionSupport (type : Byte)
  | getMessageTypeSupport
  | getVendorDefinedMessageSupport (sel : Byte)
  | regAccessRead (who : Requester) (tag width count : Byte) (off : W32) (bad logFail : Bool)
  | regAccessWrite (who : Requester) (tag width count : Byte) (off : W32) (data : List Byte) (bad : Bool)
  | getTid
  | setTid (tid : Byte)
  | getPldmVersion (type : Byte)
  | getPldmTypes
  | getPldmCommands (type : Byte)
  | setEventReceiver (eid : Byte) (mctp : Bool)
  | getSensorReading (id : W16)
  | getStateSensorReadings (id : W16)
  | getPdrRepositoryInfo
  | getPdr (handle : W32)
  | pollForPlatformEventMessage (ack : Option W16)
  | platformEventAck (id : W16)
  | queryDeviceIdentifiers (who : Requester)
  | getFirmwareParameters (who : Requester)
  | requestUpdate (who : Requester)
  | passComponentTable (who : Requester) (comp : W16)
  | updateComponent (who : Requester) (comp : W16) (size : W32)
  | firmwareDataReceive (who : Requester) (block : FwBlock)
  | activateFirmware (who : Requester) (selfContained : Bool)
  | getStatus (who : Requester)
  | cancelUpdate (who : Requester)
  | getVersion (who : Requester)
  | getCapabilities (who : Requester)
  | negotiateAlgorithms (who : Requester) (p384 sha384 dhe aead : Bool)
  | getDigests (who : Requester)
  | getCertificate (who : Requester) (slot : Byte) (off len : W16)
  | challenge (who : Requester) (slot : Byte) (nonce : BitVec 256)
  | getMeasurements (who : Requester) (index : Byte) (sig : Bool) (nonce : BitVec 256)
  | keyExchange (who : Requester) (slot : Byte) (t : Nat)
  | finish (who : Requester) (sess : Fin 4) (ok : Bool) (t : Nat)
  | heartbeat (who : Requester) (t : Nat)
  | keyUpdate (who : Requester) (t : Nat)
  | endSession (who : Requester)
  | spdmSessionExpiry (sess : Fin 4) (t : Nat)
  -- the remaining rows, in the table's order
  | standbySupplyLoss
  | moduleRemoval (p : Fin 4)
  | ppsOut (t : Nat)
  | unitCommandCommit (cell : Fin 128) (u : UnitId)
  | externalAccessComplete (cell : Fin 128) (ecc : Ecc)
  | bar0Read (f : Fin 8) (off width : Nat) (logFail : Bool)
  | marginPassEnd (results : List Byte)
  | graphUnloadComplete (p : Fin 16) (slot : Fin 64)
  | parcelResetComplete (p : Fin 16)
  | encapsulatedRequest (who : Requester) (sess : Fin 4) (rootKey : BitVec 384 × BitVec 384) (verified : Bool)
  deriving DecidableEq, Repr

end Sys2Proof
end

