-- ==== Sys2Proof/Decode.lean ====
section
/-! DEFINITION. The command that a word of the table's bits spells, and the command that a cell's instruction word spells
(R194 to R213, R225 to R251, R285). -/

namespace Sys2Proof

/-- No row of spec/opcode_table.json gives bits, so no word spells a command. -/
def decodeTableWord (_nbits _w : Nat) : Option Instr := none

/-! Fields of a cell's instruction words (R194, R195). -/

/-- Bits [lo + n − 1 : lo] of a word. -/
def fieldOf (w lo n : Nat) : Nat := w / 2 ^ lo % 2 ^ n

/-- A field that names a general or a vector register. -/
def regField (w lo : Nat) : Fin 32 := Fin.ofNat 32 (fieldOf w lo 5)
/-- A field that names a tile. -/
def tileField (w lo : Nat) : Fin 16 := Fin.ofNat 16 (fieldOf w lo 4)
/-- A field that names a predicate. -/
def predField (w lo : Nat) : Fin 8 := Fin.ofNat 8 (fieldOf w lo 3)

/-- R194: LEN and MAJOR of a first word. -/
def wordLong (w : Nat) : Bool := decide (fieldOf w 0 1 = 1)
def wordMajor (w : Nat) : Nat := fieldOf w 1 6

/-- R194: the common part of a word; `resv`: a reserved field of it is not zero. -/
def wordHdr (cell : Fin 128) (w : Nat) (resv : Bool) : Hdr :=
  { cell := cell, pn := decide (fieldOf w 31 1 = 1), pg := predField w 28, resv := resv }

/-- A word that R196, R227 or an instruction's table leaves reserved, of its length: some command of that length whose
reserved fields are not zero, which is ILLEGAL (R216). -/
def reservedWord (cell : Fin 128) (w : Nat) : Instr :=
  if wordLong w then .li (wordHdr cell w true) 0 0 else .add (wordHdr cell w true) false 0 0 0

/-- Whether bits [lo + n − 1 : lo] are not all zero. -/
def nonZero (w lo n : Nat) : Bool := decide (fieldOf w lo n ≠ 0)

/-! The formats (R195): each function takes a word and the instruction's selection. -/

/-- R198: MAJOR 0x00. -/
def decodeScalar (cell : Fin 128) (w : Nat) : Instr :=
  let h := wordHdr cell w false
  let rd := regField w 23
  let rs1 := regField w 18
  let rs2 := regField w 13
  let wide := nonZero w 12 1
  let noW : Hdr := wordHdr cell w wide
  let unary : Hdr := wordHdr cell w (nonZero w 13 5)
  let unaryNoW : Hdr := wordHdr cell w (nonZero w 13 5 || wide)
  match fieldOf w 7 5 with
  | 0x00 => .add h wide rd rs1 rs2
  | 0x01 => .sub h wide rd rs1 rs2
  | 0x02 => .andR noW rd rs1 rs2
  | 0x03 => .orR noW rd rs1 rs2
  | 0x04 => .xorR noW rd rs1 rs2
  | 0x05 => .andn noW rd rs1 rs2
  | 0x06 => .sll h wide rd rs1 rs2
  | 0x07 => .srl h wide rd rs1 rs2
  | 0x08 => .sra h wide rd rs1 rs2
  | 0x09 => .neg unary wide rd rs1
  | 0x0A => .abs unary wide rd rs1
  | 0x0B => .minR noW rd rs1 rs2
  | 0x0C => .maxR noW rd rs1 rs2
  | 0x0D => .minu noW rd rs1 rs2
  | 0x0E => .maxu noW rd rs1 rs2
  | 0x0F => .clz unaryNoW rd rs1
  | 0x10 => .popc unaryNoW rd rs1
  | 0x11 => .mul h wide rd rs1 rs2
  | 0x12 => .mulh noW rd rs1 rs2
  | 0x13 => .mulhu noW rd rs1 rs2
  | 0x14 => .div h wide rd rs1 rs2
  | 0x15 => .divu h wide rd rs1 rs2
  | 0x16 => .rem h wide rd rs1 rs2
  | 0x17 => .remu h wide rd rs1 rs2
  | _ => reservedWord cell w

/-- R199: MAJOR 0x01 to 0x05 and 0x1A, format I. -/
def decodeImm (cell : Fin 128) (w : Nat) (mk : Hdr → Fin 32 → Fin 32 → BitVec 11 → Instr) : Instr :=
  mk (wordHdr cell w false) (regField w 23) (regField w 18) (BitVec.ofNat 11 (fieldOf w 7 11))

/-- R199: MAJOR 0x09. -/
def decodePred (cell : Fin 128) (w : Nat) : Instr :=
  let h := wordHdr cell w (nonZero w 13 6)
  let pd := predField w 25
  let pa := predField w 22
  let pb := predField w 19
  match fieldOf w 7 6 with
  | 0 => .predAnd h pd pa pb
  | 1 => .predOr h pd pa pb
  | 2 => .predXor h pd pa pb
  | 3 => .predAndn h pd pa pb
  | 4 => .predNot (wordHdr cell w (nonZero w 13 6 || nonZero w 19 3)) pd pa
  | _ => reservedWord cell w

/-- R203: MAJOR 0x10 and 0x11. -/
def decodeAccess (cell : Fin 128) (w : Nat) (store : Bool) : Instr :=
  let h := wordHdr cell w false
  let r := regField w 23
  let rs1 := regField w 18
  let imm : Byte := BitVec.ofNat 8 (fieldOf w 7 8)
  match store, fieldOf w 15 3 with
  | false, 0 => .lb h r rs1 imm
  | false, 1 => .lbu h r rs1 imm
  | false, 2 => .lh h r rs1 imm
  | false, 3 => .lhu h r rs1 imm
  | false, 4 => .lw h r rs1 imm
  | false, 5 => .lwu h r rs1 imm
  | false, 6 => .ld h r rs1 imm
  | true, 0 => .sb h r rs1 imm
  | true, 2 => .sh h r rs1 imm
  | true, 4 => .sw h r rs1 imm
  | true, 6 => .sd h r rs1 imm
  | _, _ => reservedWord cell w

/-- R205: MAJOR 0x14. -/
def decodeAtomic (cell : Fin 128) (w : Nat) : Instr :=
  let h := wordHdr cell w false
  let d := nonZero w 12 1
  let rd := regField w 23
  let rs1 := regField w 18
  let rs2 := regField w 13
  match fieldOf w 7 5 with
  | 0 => .amoswap h d rd rs1 rs2
  | 1 => .amoadd h d rd rs1 rs2
  | 2 => .amoand h d rd rs1 rs2
  | 3 => .amoor h d rd rs1 rs2
  | 4 => .amoxor h d rd rs1 rs2
  | 5 => .amomin h d rd rs1 rs2
  | 6 => .amomax h d rd rs1 rs2
  | 7 => .amominu h d rd rs1 rs2
  | 8 => .amomaxu h d rd rs1 rs2
  | 9 => .cas h d rd rs1 rs2
  | _ => reservedWord cell w

/-- R285: MAJOR 0x15. -/
def decodeAwl (cell : Fin 128) (w : Nat) : Instr :=
  let rd := regField w 23
  let rs1 := regField w 18
  let arg : Byte := BitVec.ofNat 8 (fieldOf w 10 8)
  match fieldOf w 7 3 with
  | 0 => .agath (wordHdr cell w (nonZero w 23 5)) rs1 arg
  | 1 => .await (wordHdr cell w (nonZero w 18 10)) arg
  | 2 => .atab (wordHdr cell w (nonZero w 10 8)) rd rs1
  | 3 => .aupd (wordHdr cell w (nonZero w 10 8)) rd rs1
  | _ => reservedWord cell w

/-- R208: MAJOR 0x1B. -/
def decodeSys (cell : Fin 128) (w : Nat) : Instr :=
  match fieldOf w 7 3 with
  | 0 => .fenceSl (wordHdr cell w (nonZero w 10 18))
  | 1 => .uwait (wordHdr cell w (nonZero w 18 10)) (BitVec.ofNat 8 (fieldOf w 10 8))
  | 2 => .waitq (wordHdr cell w (nonZero w 10 13)) (regField w 23)
  | 3 => .endI (wordHdr cell w (nonZero w 10 18))
  | _ => reservedWord cell w

/-- R210: MAJOR 0x1C. -/
def decodeCs (cell : Fin 128) (w : Nat) : Instr :=
  let h := wordHdr cell w false
  let rd := regField w 23
  let rs1 := regField w 18
  let cs : BitVec 9 := BitVec.ofNat 9 (fieldOf w 9 9)
  match fieldOf w 7 2 with
  | 0 => .csrr h rd rs1 cs
  | 1 => .csrw h rd rs1 cs
  | 2 => .csrs h rd rs1 cs
  | _ => .csrc h rd rs1 cs

/-- R213: MAJOR 0x1E. -/
def decodeLong (cell : Fin 128) (w : Nat) : Instr :=
  let h := wordHdr cell w false
  let rd := regField w 23
  let rs1 := regField w 18
  let rs2 := regField w 13
  match fieldOf w 7 6 with
  | 0 => .vcopy h rd rs1 rs2
  | 1 => .hsweepR h rd rs1 rs2
  | 2 => .hsweepW h rd rs1 rs2
  | _ => reservedWord cell w

/-- R247: MAJOR 0x20. -/
def decodeIntLane (cell : Fin 128) (w : Nat) : Instr :=
  let h := wordHdr cell w false
  let unary := wordHdr cell w (nonZero w 12 6)
  let sc := nonZero w 12 1
  let rd := regField w 23
  let rs1 := regField w 18
  let rs2 := regField w 13
  match fieldOf w 7 5 with
  | 0 => .vadd h sc rd rs1 rs2
  | 1 => .vsub h sc rd rs1 rs2
  | 2 => .vmul h sc rd rs1 rs2
  | 3 => .vmulh h sc rd rs1 rs2
  | 4 => .vand h sc rd rs1 rs2
  | 5 => .vor h sc rd rs1 rs2
  | 6 => .vxor h sc rd rs1 rs2
  | 7 => .vsll h sc rd rs1 rs2
  | 8 => .vsrl h sc rd rs1 rs2
  | 9 => .vsra h sc rd rs1 rs2
  | 10 => .vneg unary rd rs1
  | 11 => .vabs unary rd rs1
  | 12 => .vmin h sc rd rs1 rs2
  | 13 => .vmax h sc rd rs1 rs2
  | 14 => .vminu h sc rd rs1 rs2
  | 15 => .vmaxu h sc rd rs1 rs2
  | 16 => .vadds h sc rd rs1 rs2
  | 17 => .vsubs h sc rd rs1 rs2
  | 18 => .vmuls h sc rd rs1 rs2
  | 19 => .vceq h sc rd rs1 rs2
  | 20 => .vclt h sc rd rs1 rs2
  | 21 => .vcltu h sc rd rs1 rs2
  | 22 => .vsel h sc rd rs1 rs2
  | _ => reservedWord cell w

/-- R248: MAJOR 0x21. -/
def decodeFpLane (cell : Fin 128) (w : Nat) : Instr :=
  let h := wordHdr cell w false
  let unary := wordHdr cell w (nonZero w 12 6)
  let sc := nonZero w 12 1
  let rd := regField w 23
  let rs1 := regField w 18
  let rs2 := regField w 13
  match fieldOf w 7 5 with
  | 0 => .vfadd h sc rd rs1 rs2
  | 1 => .vfsub h sc rd rs1 rs2
  | 2 => .vfmul h sc rd rs1 rs2
  | 3 => .vfma h sc rd rs1 rs2
  | 4 => .vfmin h sc rd rs1 rs2
  | 5 => .vfmax h sc rd rs1 rs2
  | 6 => .vfneg unary rd rs1
  | 7 => .vfabs unary rd rs1
  | 8 => .vfceq h sc rd rs1 rs2
  | 9 => .vfclt h sc rd rs1 rs2
  | 10 => .vfcle h sc rd rs1 rs2
  | _ => reservedWord cell w

/-- R250: MAJOR 0x24; an ARG8 that names a lane uses bits [5:0]. -/
def decodeReduce (cell : Fin 128) (w : Nat) : Instr :=
  let noArg := wordHdr cell w (nonZero w 10 8)
  let lane := wordHdr cell w (nonZero w 16 2)
  let rd := regField w 23
  let rs1 := regField w 18
  let l : Fin 64 := Fin.ofNat 64 (fieldOf w 10 6)
  match fieldOf w 7 3 with
  | 0 => .vbcast noArg rd rs1
  | 1 => .vmvg lane rd rs1 l
  | 2 => .vins lane rd rs1 l
  | 3 => .vrsum noArg rd rs1
  | 4 => .vrfsum noArg rd rs1
  | 5 => .vrmax noArg rd rs1
  | 6 => .vrfmax noArg rd rs1
  | _ => reservedWord cell w

/-- R246: MAJOR 0x23. -/
def decodeVecAccess (cell : Fin 128) (w : Nat) : Instr :=
  let h := wordHdr cell w false
  let imm : Byte := BitVec.ofNat 8 (fieldOf w 7 8)
  match fieldOf w 15 3 with
  | 0 => .vld h (regField w 23) (regField w 18) imm
  | 1 => .vst h (regField w 23) (regField w 18) imm
  | _ => reservedWord cell w

/-- R251: MAJOR 0x25. -/
def decodeTileRow (cell : Fin 128) (w : Nat) : Instr :=
  let h := wordHdr cell w (nonZero w 9 4)
  let row : Fin 64 := Fin.ofNat 64 (fieldOf w 13 6)
  match fieldOf w 7 2 with
  | 0 => .vtr h (regField w 23) (tileField w 19) row
  | 1 => .vtw h (regField w 23) (tileField w 19) row
  | _ => reservedWord cell w

/-- R225: the shape that a second word carries, where there is one, and whether its reserved bits are not zero. -/
def shapeField (w w2 : Nat) : Option Shape × Bool :=
  if wordLong w then (some ⟨BitVec.ofNat 3 (fieldOf w2 6 3), BitVec.ofNat 6 (fieldOf w2 0 6)⟩, nonZero w2 9 23) else (none, false)

/-- R230: MAJOR 0x30 and 0x31. -/
def decodeTileMove (cell : Fin 128) (w w2 : Nat) (mk : Hdr → Fin 16 → Fin 32 → Fin 32 → Option Shape → Instr) : Instr :=
  let sh := shapeField w w2
  mk (wordHdr cell w (nonZero w 7 7 || sh.2)) (tileField w 24) (regField w 19) (regField w 14) sh.1

/-- R232: MAJOR 0x32. -/
def decodeTileMisc (cell : Fin 128) (w : Nat) : Instr :=
  match fieldOf w 25 3 with
  | 0 => .tzero (wordHdr cell w (nonZero w 7 14)) (tileField w 21)
  | 1 => .tfree (wordHdr cell w (nonZero w 7 1)) (BitVec.ofNat 17 (fieldOf w 8 17))
  | 2 => .tcopy (wordHdr cell w (nonZero w 7 10)) (tileField w 21) (tileField w 17)
  | 3 => .accz (wordHdr cell w (nonZero w 7 18))
  | _ => reservedWord cell w

/-- R236: MAJOR 0x33. -/
def decodeMma (cell : Fin 128) (w w2 : Nat) : Instr :=
  let sh := shapeField w w2
  .mma (wordHdr cell w (nonZero w 7 2 || sh.2)) (tileField w 24) (tileField w 20) (BitVec.ofNat 4 (fieldOf w 16 4))
    (BitVec.ofNat 4 (fieldOf w 12 4)) (BitVec.ofNat 2 (fieldOf w 10 2)) (nonZero w 9 1) sh.1

/-- R196, R227: a word of LEN 0. -/
def decodeShort (cell : Fin 128) (w : Nat) : Instr :=
  match wordMajor w with
  | 0x00 => decodeScalar cell w
  | 0x01 => decodeImm cell w .addi
  | 0x02 => decodeImm cell w .andi
  | 0x03 => decodeImm cell w .ori
  | 0x04 => decodeImm cell w .xori
  | 0x05 => decodeImm cell w .shi
  | 0x06 => .lui (wordHdr cell w false) (regField w 23) (BitVec.ofNat 16 (fieldOf w 7 16))
  | 0x07 => .cmp (wordHdr cell w (nonZero w 7 5)) (predField w 25) (BitVec.ofNat 3 (fieldOf w 22 3)) (regField w 17) (regField w 12)
  | 0x08 => .cmpi (wordHdr cell w false) (predField w 25) (BitVec.ofNat 3 (fieldOf w 22 3)) (regField w 17)
      (BitVec.ofNat 10 (fieldOf w 7 10))
  | 0x09 => decodePred cell w
  | 0x10 => decodeAccess cell w false
  | 0x11 => decodeAccess cell w true
  | 0x14 => decodeAtomic cell w
  | 0x15 => decodeAwl cell w
  | 0x18 => .br (wordHdr cell w false) (BitVec.ofNat 21 (fieldOf w 7 21))
  | 0x19 => .call (wordHdr cell w false) (BitVec.ofNat 21 (fieldOf w 7 21))
  | 0x1A => decodeImm cell w .jalr
  | 0x1B => decodeSys cell w
  | 0x1C => decodeCs cell w
  | 0x1E => decodeLong cell w
  | 0x20 => decodeIntLane cell w
  | 0x21 => decodeFpLane cell w
  | 0x23 => decodeVecAccess cell w
  | 0x24 => decodeReduce cell w
  | 0x25 => decodeTileRow cell w
  | 0x30 => decodeTileMove cell w 0 .tld
  | 0x31 => decodeTileMove cell w 0 .tst
  | 0x32 => decodeTileMisc cell w
  | 0x33 => decodeMma cell w 0
  | 0x34 => .accmv (wordHdr cell w false) (tileField w 24) (BitVec.ofNat 4 (fieldOf w 20 4)) (BitVec.ofNat 2 (fieldOf w 18 2))
      (regField w 13) (BitVec.ofNat 6 (fieldOf w 7 6))
  | 0x35 => .arr (wordHdr cell w (nonZero w 7 19)) (BitVec.ofNat 2 (fieldOf w 26 2))
  | 0x36 => .conv (wordHdr cell w (nonZero w 7 4)) (tileField w 24) (regField w 19) (regField w 14)
      (BitVec.ofNat 2 (fieldOf w 12 2)) (nonZero w 11 1)
  | 0x37 => .cagset (wordHdr cell w (nonZero w 7 12 || nonZero w 24 4)) (regField w 19)
  | _ => reservedWord cell w

/-- R196, R227: a word of LEN 1 with its second word. -/
def decodeWide (cell : Fin 128) (w w2 : Nat) : Instr :=
  match wordMajor w with
  | 0x0C => .li (wordHdr cell w (nonZero w 7 16)) (regField w 23) (BitVec.ofNat 32 w2)
  | 0x0D => .lih (wordHdr cell w (nonZero w 7 16)) (regField w 23) (BitVec.ofNat 32 w2)
  | 0x22 => .vcvt (wordHdr cell w (nonZero w 7 11 || nonZero w2 10 1 || nonZero w2 14 18)) (regField w 23) (regField w 18)
      (BitVec.ofNat 4 (fieldOf w2 0 4)) (BitVec.ofNat 4 (fieldOf w2 4 4)) (BitVec.ofNat 2 (fieldOf w2 8 2))
      (BitVec.ofNat 3 (fieldOf w2 11 3))
  | 0x30 => decodeTileMove cell w w2 .tld
  | 0x31 => decodeTileMove cell w w2 .tst
  | 0x33 => decodeMma cell w w2
  | 0x38 => .mvm (wordHdr cell w (nonZero w 7 7 || nonZero w2 18 14)) (tileField w 24) (regField w 19) (regField w 14)
      (nonZero w2 17 1) (nonZero w2 16 1) (nonZero w2 15 1) (BitVec.ofNat 8 (fieldOf w2 7 8)) (BitVec.ofNat 7 (fieldOf w2 0 7))
  | _ => reservedWord cell w

/-- R194, R195: the command that an instruction at a cell spells: its first word and, for LEN 1, the second. -/
def decodeCell (cell : Fin 128) (w w2 : Nat) : Instr := if wordLong w then decodeWide cell w w2 else decodeShort cell w

end Sys2Proof
end

