-- ==== Sys2Proof/Config.lean ====
section
/-! DEFINITION. The values the spec leaves open (free values: constants without a body) and the functions of published
standards that the model uses without computing them. -/

namespace Sys2Proof

/-- The value of a byte of stacked memory that the spec calls undefined (R284, R329): a function of the mark of the
placement change and of the device address. Free value. -/
opaque Config.freeByte : Nat → Nat → Byte

/-- A 64-bit value the spec does not state, for the n-th such use. Free value. -/
opaque Config.freeWord : Nat → W64

/-- What a free tile row (tile × 64 + row) or accumulator row (1,024 + row) holds after a survey test of the tile file
(R486), by the mark of the test. Free value. -/
opaque Config.freeRow : Nat → Nat → AccRow

/-- The filtered offset that the time receiver derives from the last one and an offset measured, ns (R392). Free value. -/
opaque Config.filterOffset : Int → Int → Int

/-- The rate adjustment that the servo derives from the last one and an offset measured, ppb (R391). Free value. -/
opaque Config.slewRate : Int → Int → Int

/-- SHA-384 of a message (FIPS 180-4), as 384 bits. -/
opaque Config.sha384 : List Byte → BitVec 384

/-- ECDSA over P-384 verification (FIPS 186-5): public key (Qx, Qy), digest, signature (r, s). -/
opaque Config.ecdsaVerify : BitVec 384 → BitVec 384 → BitVec 384 → BitVec 384 → BitVec 384 → Bool

/-- The tag of AES-GCM (NIST SP 800-38D) under a 256-bit key: initialisation vector, additional data, plaintext. -/
opaque Config.gcmTag : BitVec 256 → List Byte → List Byte → List Byte → BitVec 128

/-- The key stream of AES-GCM (NIST SP 800-38D) under a 256-bit key: initialisation vector, byte of the text. -/
opaque Config.gcmStream : BitVec 256 → List Byte → Nat → Byte

/-- The AES-256 block cipher (FIPS 197): key, block of 16 bytes, the first the least significant. -/
opaque Config.aes256 : BitVec 256 → BitVec 128 → BitVec 128

/-- Whether a point lies on curve P-384 and is a valid public key (FIPS 186-5). -/
opaque Config.keyValid : BitVec 384 → BitVec 384 → Bool

/-- The certificate chain of slot 0, made at manufacture (R597). Free value. -/
opaque Config.certChain : List Byte

/-- The UUID of the MCTP endpoint (R585). Free value. -/
opaque Config.endpointUuid : List Byte

/-- The SHA-384 digest of the boot ROM and the management-plane firmware (R598). Free value. -/
opaque Config.romDigest : BitVec 384

/-- The version entries that the E40 answers for an MCTP message type (0 to 0xFF) or a PLDM type (0x100 + type). Free
value. -/
opaque Config.versions : Nat → List Byte

end Sys2Proof
end

