-- ==== Sys2Proof/Machine/CellState.lean ====
section
/-! DEFINITION. What one cell holds (R169 to R193, R220 to R224, R239, R272, R286). Everything numbered is a sparse map
whose unlisted entries are zero or the given default. -/

namespace Sys2Proof.Machine

/-- Where a cell address leads (R202, R204, R336). -/
inductive ExtTarget where
  /-- the store of another cell of the replica -/
  | replica (cell : Fin 128)
  /-- a STORE window outside the replica: a near-array store of the parcel -/
  | storeSeg (cell : Fin 128)
  /-- a STACK window, by device physical address, with the placement of its segment (R329) -/
  | stack (stks gran : Nat)
  /-- a HOST window, by host address -/
  | host
  deriving DecidableEq, Repr

/-- The ten operations of R205. -/
inductive AmoOp where
  | swap | add | and | or | xor | min | max | minu | maxu | cas
  deriving DecidableEq, Repr

/-- What an outstanding access of the control core does when it completes. -/
inductive ExtKind where
  /-- a load of `size` bytes into g[rd], sign-extended or not -/
  | load (rd : Fin 32) (size : Nat) (signed : Bool)
  /-- the store at the head of the store buffer -/
  | store
  /-- an atomic: operand and, for CAS, the compared value -/
  | amo (op : AmoOp) (d : Bool) (rd : Fin 32) (operand expected : W64)
  /-- one line of HSWEEP.R into own store offset `dst` -/
  | sweepR (dst : Nat)
  /-- one line of HSWEEP.W with the bytes read when it was issued -/
  | sweepW (bytes : List Byte)
  deriving DecidableEq, Repr

/-- An access of the control core that has left the cell and not completed (R204, R212). -/
structure ExtAcc where
  kind : ExtKind
  target : ExtTarget
  /-- store offset, device address or host address in the target -/
  addr : Nat
  /-- PC of the instruction, and the segment of its window (R336) -/
  pc : Nat
  /-- an HSWEEP line: its number from the start of the operation, and whether it is done -/
  line : Nat := 0
  done : Bool := false
  /-- its place in the cell's program order -/
  seq : Nat
  /-- the local time counter when it left (R107) -/
  sent : Nat := 0
  /-- its request has gone to the host (R369) -/
  asked : Bool := true
  deriving DecidableEq, Repr

/-- A store in the store buffer (R209), with the cell address already resolved to its target. -/
structure SbEntry where
  /-- none: the cell's own store -/
  target : Option ExtTarget
  addr : Nat
  bytes : List Byte
  pc : Nat
  seq : Nat
  /-- the store has left for its target and waits to be performed -/
  sent : Bool := false
  deriving DecidableEq, Repr

/-- A window descriptor of the convolution address generator (R239). -/
structure WinDesc where
  base : Nat
  rowPitch : Nat
  pixPitch : Nat
  c : Nat
  h : Nat
  w : Nat
  oh : Nat
  ow : Nat
  sy : Nat
  sx : Nat
  dy : Nat
  dx : Nat
  pt : Nat
  pl : Nat
  kh : Nat
  kw : Nat
  afmt : BitVec 4
  wfmt : BitVec 4
  deriving DecidableEq, Repr

/-- A unit command in a queue of R181, its operands captured at issue. -/
inductive UnitCmd where
  | tld (t : Fin 16) (base stride rows rb : Nat)
  | tst (t : Fin 16) (base stride rows rb : Nat)
  | tzero (t : Fin 16)
  | tcopy (td ts : Fin 16)
  | accz
  | mma (ta tw : Fin 16) (afmt wfmt : BitVec 4) (acol : BitVec 2) (acc : Bool) (rows : Nat) (arr : BitVec 2)
  | accmv (td : Fin 16) (fmt : BitVec 4) (rnd : BitVec 2) (mul : Option W32) (rows : Nat)
  | arr
  | conv (tw : Fin 16) (p0 t0 nt choff m : Nat) (acol : BitVec 2) (acc : Bool) (arr : BitVec 2)
  | cagset (addr : Nat)
  | mvm (td : Fin 16) (wbase xbase : Nat) (batch xfmt wfmt : Bool) (kq nblk : Nat)
  /-- with the bytes left and the next source and destination cell addresses -/
  | vcopy (rd rs1 rs2 : Fin 32) (count src dst : W64)
  deriving DecidableEq, Repr

/-- A queued command and the PC of its instruction. -/
structure QCmd where
  cmd : UnitCmd
  pc : Nat
  /-- its place in the cell's program order -/
  seq : Nat
  deriving DecidableEq, Repr

/-- A weight latch of the array (R237): the first tile it was loaded from, the width and the arrangement. -/
structure Latch where
  tw : Nat
  width : Nat
  arr : BitVec 2
  deriving DecidableEq, Repr

/-- The fields of a gather descriptor (R287). -/
structure GatherDesc where
  tid : Nat
  pool : Nat
  ofmt : Nat
  iform : Nat
  baglen : Nat
  nbag : Nat
  nidx : Nat
  idx : W64
  offs : W64
  wgt : W64
  out : Nat
  ostride : Nat
  oscale : W32
  status : Nat
  deriving DecidableEq, Repr

/-- A table descriptor (R279). -/
structure TableDesc where
  train : Bool
  code4 : Bool
  stks : Byte
  dim : Nat
  base : Nat
  rows : Nat
  seed : W64
  deriving DecidableEq, Repr

/-- A row of a gather at the Awl: its list position, the sectors still to come, whether one was poisoned and the lowest
poisoned device address, and its bytes as they stood at each read. -/
structure GatherRow where
  pos : Nat
  index : Nat
  got : List (Nat × List Byte)
  poison : Option Nat
  /-- its reads go at P2: the instance had passed a declared count before them (R163, R295) -/
  p2 : Bool := false
  deriving DecidableEq, Repr

/-- A gather slot (R286, R292). -/
inductive GatherPhase where
  | idle
  /-- issued, not yet accepted -/
  | issued
  /-- accepted, its rows being read -/
  | reading
  deriving DecidableEq, Repr

structure GatherSlot where
  phase : GatherPhase
  desc : GatherDesc
  table : TableDesc
  /-- the lists as the Awl read them -/
  idx : List Nat
  offs : List Nat
  wgt : List Nat
  rows : List GatherRow
  badIdx : Nat
  firstBad : Option Nat
  /-- the first bad position alone (R293's log entry) -/
  firstBadIdx : Option Nat
  poison : Nat
  pc : Nat
  deriving DecidableEq, Repr

/-- An idle gather slot. -/
def GatherSlot.none : GatherSlot :=
  { phase := .idle
    desc := ⟨0, 0, 0, 0, 0, 0, 0, 0, 0, 0, 0, 0, 0, 0⟩
    table := ⟨false, false, 0, 0, 0, 0, 0⟩
    idx := [], offs := [], wgt := [], rows := [], badIdx := 0, firstBad := .none, firstBadIdx := .none
    poison := 0, pc := 0 }

/-- Where a cell's issue stands between instructions. -/
inductive CellWait where
  /-- free to issue while an instance runs -/
  | run
  /-- its END has executed and the rest of its replica has not (R211) -/
  | atEnd
  /-- its WAITQ has executed and waits for the replica or for a request (R132, R211) -/
  | atWaitq (rd : Fin 32)
  deriving DecidableEq, Repr

/-- An HSWEEP in progress (R213, R214). -/
structure Sweep where
  write : Bool
  rd : Fin 32
  rs1 : Fin 32
  rs2 : Fin 32
  pc : Nat
  seq : Nat
  /-- bytes left and next cell addresses after the completed prefix -/
  count : W64
  src : W64
  dst : W64
  /-- lines: sent, in all, and in the completed prefix -/
  issued : Nat
  lines : Nat
  prefixDone : Nat
  deriving DecidableEq, Repr

/-- What a graph gives one of its cells (R147, R148, R154). -/
structure CellGraph where
  slot : Nat
  replica : Nat
  index : Nat
  ncell : Nat
  first : Nat
  entry : Nat
  size : Nat
  storeBytes : Nat
  tileMask : Nat
  code : List Byte
  deriving DecidableEq, Repr

/-- One cell. -/
structure Cell where
  /-- g1 to g31 (R191); g0 is never listed -/
  g : Sparse W64 := []
  /-- p1 to p7 in bits 1 to 7 (R191); bit 0 is 0 and p0 reads 1 -/
  p : Byte := 0
  pc : Nat := 0
  /-- cs.status, cs.qh, cs.fault and the resume record (R192) -/
  status : W64 := 0
  qh : W64 := 0
  faultPc : W16 := 0
  faultCause : Byte := 0
  rsmpc : W64 := 0
  rsmcnt : W64 := 0
  rsmsrc : W64 := 0
  rsmdst : W64 := 0
  /-- cs.rng (R272) -/
  rng : W64 := 0
  /-- cs.cycle (R192) -/
  cycle : W64 := 0
  /-- thirtieths of a cycle run towards the next (the clock ratio of R43 against the hub die) -/
  cycleFrac : Nat := 0
  /-- cs.tuse and cs.tsat (R223): bit 16 ACC -/
  tuse : BitVec 17 := 0
  tsat : BitVec 17 := 0
  /-- cs.tcfg fields (R223) -/
  acct : Bool := false
  cagv : Bool := false
  arr : BitVec 2 := 0
  /-- cs.cell fields the image gives (R189): parcel, RT, and TILES of the parcel (DEFARR, MODE, SHAPES) -/
  parcel : Option (Fin 16) := none
  rt : Bool := false
  defarr : BitVec 2 := 0
  fixedMode : Bool := false
  tshape : List W64 := []
  /-- present clock code (R189); 0 while gated -/
  clk : Nat := 0
  /-- v0 to v31 -/
  v : Sparse Row := []
  /-- tile row t × 64 + r -/
  tiles : Sparse Row := []
  acc : Sparse AccRow := []
  /-- the near-array store (R171) by offset -/
  store : Sparse Byte := []
  /-- poisoned words of the cell's SRAM, by store offset / 8 (R523) -/
  storePoison : Sparse Bool := []
  /-- store ranges whose bytes are undefined (R121): from, up to, and a mark for the free value -/
  storeFree : List (Nat × Nat × Nat) := []
  /-- poisoned 64-bit words of the tiles, (t × 64 + r) × 32 + word, and of the accumulator, r × 128 + word (R523) -/
  tilePoison : Sparse Bool := []
  accPoison : Sparse Bool := []
  sbuf : List SbEntry := []
  /-- the command queues of R181, by unit: 0 array, 1 matrix-vector, 2 CAG, 3 vector, 4 tile move -/
  queues : Sparse (List QCmd) := []
  ext : List ExtAcc := []
  /-- accesses and gathers of aborted instances that had left the cell and have not completed (R137, R185, R294) -/
  gone : List ExtAcc := []
  goneGather : List (Fin 2 × GatherSlot) := []
  sweep : Option Sweep := none
  gather : Sparse GatherSlot := []
  /-- weight latches, youngest first (R237) -/
  latches : List Latch := []
  cagDesc : Option WinDesc := none
  wait : CellWait := .run
  /-- instructions issued by the running instance: the place of the next one in program order -/
  seq : Nat := 0
  /-- the graph loaded on the cell, and the instance that runs on it -/
  graph : Option CellGraph := none
  inst : Option Nat := none
  deriving DecidableEq, Repr

end Sys2Proof.Machine
end

