-- ==== Sys2Proof/Machine/Num.lean ====
section
/-! DEFINITION. The twelve number formats of the E40 (R257 to R263), exact values, rounding and conversion (R270 to
R275), and the fp32 operations (R265, R268, R269). -/

namespace Sys2Proof.Machine

/-- The exact value an encoding stands for (R257 to R259): a NaN (signalling or not), an infinity, or the finite
value (−1)^neg × m × 2^e, zeros with their sign. -/
inductive Num where
  | nan (sig : Bool)
  | inf (neg : Bool)
  | fin (neg : Bool) (m : Nat) (e : Int)
  deriving DecidableEq, Repr

/-- The exception flags of one floating-point result (R269); DZ is never set. -/
structure FpFlags where
  nv : Bool := false
  of : Bool := false
  uf : Bool := false
  nx : Bool := false
  deriving DecidableEq, Repr

/-- Flags of several results together (R275: each register takes the OR). -/
def FpFlags.or (a b : FpFlags) : FpFlags :=
  { nv := a.nv || b.nv, of := a.of || b.of, uf := a.uf || b.uf, nx := a.nx || b.nx }

/-- The formats of R228, in the order of their codes. -/
inductive Fmt where
  | int4 | uint4 | e2m1 | int8 | uint8 | e4m3 | e5m2 | e3m2 | fp16 | bf16 | fp32 | int32
  deriving DecidableEq, Repr

/-- R228: the format of a code; codes 12 to 15 are reserved. -/
def fmtOf (code : BitVec 4) : Option Fmt :=
  match code.toNat with
  | 0 => some .int4 | 1 => some .uint4 | 2 => some .e2m1 | 3 => some .int8 | 4 => some .uint8 | 5 => some .e4m3
  | 6 => some .e5m2 | 7 => some .e3m2 | 8 => some .fp16 | 9 => some .bf16 | 10 => some .fp32 | 11 => some .int32
  | _ => none

/-- The width of an element in bits where it is stored (R220: E3M2 takes one byte). -/
def Fmt.bits : Fmt → Nat
  | .int4 | .uint4 | .e2m1 => 4
  | .int8 | .uint8 | .e4m3 | .e5m2 | .e3m2 => 8
  | .fp16 | .bf16 => 16
  | .fp32 | .int32 => 32

/-- The fields of a float format (R258, R259): exponent bits, mantissa bits, bias, the largest finite encoding, the
encoding of +infinity if it has one, and its canonical NaN (R260) if it has one. -/
structure FloatFmt where
  ebits : Nat
  mbits : Nat
  bias : Nat
  maxCode : Nat
  infCode : Option Nat
  nanCode : Option Nat
  deriving DecidableEq, Repr

/-- A format is an integer format with its range (R257) or a float format (R259). -/
inductive FmtKind where
  | int (lo hi : Int)
  | float (f : FloatFmt)
  deriving DecidableEq, Repr

/-- binary32 (R259). -/
def fp32Fmt : FloatFmt := ⟨8, 23, 127, 0x7F7FFFFF, some 0x7F800000, some 0x7FC00000⟩
/-- binary16 (R259). -/
def fp16Fmt : FloatFmt := ⟨5, 10, 15, 0x7BFF, some 0x7C00, some 0x7E00⟩
/-- bf16 (R259). -/
def bf16Fmt : FloatFmt := ⟨8, 7, 127, 0x7F7F, some 0x7F80, some 0x7FC0⟩

/-- The kind of each format (R257, R259). -/
def Fmt.kind : Fmt → FmtKind
  | .int4 => .int (-8) 7
  | .uint4 => .int 0 15
  | .int8 => .int (-128) 127
  | .uint8 => .int 0 255
  | .int32 => .int (-2147483648) 2147483647
  | .e2m1 => .float ⟨2, 1, 1, 0x7, none, none⟩
  | .e3m2 => .float ⟨3, 2, 3, 0x1F, none, none⟩
  | .e4m3 => .float ⟨4, 3, 7, 0x7E, none, some 0x7F⟩
  | .e5m2 => .float ⟨5, 2, 15, 0x7B, some 0x7C, some 0x7E⟩
  | .fp16 => .float fp16Fmt
  | .bf16 => .float bf16Fmt
  | .fp32 => .float fp32Fmt

/-- The value of an encoding of a float format (R258, R259). A NaN is signalling when its most significant mantissa
bit is 0, which does not apply to E4M3 (R259). -/
def FloatFmt.value (f : FloatFmt) (raw : Nat) : Num :=
  let mant := raw % 2 ^ f.mbits
  let ex := raw / 2 ^ f.mbits % 2 ^ f.ebits
  let neg := decide (raw / 2 ^ (f.mbits + f.ebits) % 2 = 1)
  let body := raw % 2 ^ (f.mbits + f.ebits)
  if f.infCode = some body then .inf neg
  else if decide (f.maxCode < body) then
    .nan (f.infCode.isSome && decide (mant / 2 ^ (f.mbits - 1) = 0))
  else if ex = 0 then .fin neg mant (1 - (f.bias : Int) - f.mbits)
  else .fin neg (2 ^ f.mbits + mant) ((ex : Int) - f.bias - f.mbits)

/-- The exact value of an integer, as a number without a negative zero. -/
def Num.ofInt (i : Int) : Num := .fin (decide (i < 0)) i.natAbs 0

/-- The value of an encoding of any of the twelve formats; `raw` is taken at the format's own width. -/
def Fmt.value (f : Fmt) (raw : Nat) : Num :=
  match f.kind with
  | .int lo _ =>
    let r := raw % 2 ^ f.bits
    if lo < 0 ∧ 2 ^ (f.bits - 1) ≤ r then .ofInt ((r : Int) - 2 ^ f.bits) else .ofInt r
  | .float g => g.value raw

/-- The rounding modes of R270 (RND codes 0 to 2) and the directed ones of R314. -/
inductive Rnd where
  | rne | stoch | rtz | up | down
  deriving DecidableEq, Repr

/-- R238: the mode of an RND code; 3 is reserved. -/
def rndOf (c : BitVec 2) : Option Rnd :=
  match c.toNat with
  | 0 => some .rne | 1 => some .stoch | 2 => some .rtz | _ => none

/-- How the magnitude is rounded, given the mode and the sign. -/
inductive How where
  | rne | trunc | away | stoch
  deriving DecidableEq, Repr

/-- A directed mode rounds the magnitude up or down as the sign says. -/
def Rnd.how : Rnd → Bool → How
  | .rne, _ => .rne
  | .stoch, _ => .stoch
  | .rtz, _ => .trunc
  | .up, neg => if neg then .trunc else .away
  | .down, neg => if neg then .away else .trunc

/-- Rounds m × 2^e to a multiple of 2^q: (n, exact) with the result n × 2^q. `r` is the 16-bit number drawn from the
rounding generator, used by stochastic rounding only (R271). -/
def roundMag (m : Nat) (e q : Int) (how : How) (r : Nat) : Nat × Bool :=
  if q ≤ e then (m * 2 ^ (e - q).toNat, true)
  else
    let k := (q - e).toNat
    let n := m / 2 ^ k
    let rem := m % 2 ^ k
    if rem = 0 then (n, true)
    else
      let up := match how with
        | .rne => decide (2 ^ k < 2 * rem) || (decide (2 * rem = 2 ^ k) && decide (n % 2 = 1))
        | .trunc => false
        | .away => true
        | .stoch => decide (65536 ≤ rem * 65536 / 2 ^ k + r)
      (if up then n + 1 else n, false)

/-- What a conversion delivers: the encoding, its flags, whether it saturated (R275), and whether it was inexact by
rounding (an inexact element draws under stochastic rounding, R272). -/
structure Conv where
  raw : Nat
  flags : FpFlags := {}
  sat : Bool := false
  drew : Bool := false
  deriving DecidableEq, Repr

/-- The sign bit of a float format set on an encoding. -/
def FloatFmt.signed (f : FloatFmt) (neg : Bool) (code : Nat) : Nat :=
  if neg then code + 2 ^ (f.ebits + f.mbits) else code

/-- Rounds the finite non-zero value (−1)^neg × m × 2^e into a float format (R270, R271, R273). -/
def FloatFmt.round (f : FloatFmt) (mode : Rnd) (neg : Bool) (m : Nat) (e : Int) (r : Nat) : Conv :=
  if m = 0 then { raw := f.signed neg 0 }
  else
    let how := mode.how neg
    let ex : Int := Nat.log2 m + e
    let emin : Int := 1 - f.bias
    let lead := max ex emin
    let q := lead - f.mbits
    let (n, exact) := roundMag m e q how r
    let code := (lead + f.bias - 1).toNat * 2 ^ f.mbits + n
    if f.maxCode < code then
      let flags : FpFlags := { of := true, nx := true }
      match f.infCode, mode with
      | some i, .rne => { raw := f.signed neg i, flags := flags, drew := true }
      | _, _ => { raw := f.signed neg f.maxCode, flags := flags, sat := true, drew := true }
    else
      let tiny := match how with
        | .stoch => decide (code < 2 ^ f.mbits)
        | h => decide (ex < emin) &&
            decide ((roundMag m e (ex - f.mbits) h 0).1 < 2 ^ (f.mbits + (emin - ex).toNat))
      { raw := f.signed neg code, flags := { nx := !exact, uf := tiny && !exact }, drew := !exact }

/-- Rounds a finite value to an integer and clamps it to a range (R269, R274): a clamped value is not exact. -/
def roundInt (lo hi : Int) (width : Nat) (mode : Rnd) (neg : Bool) (m : Nat) (e : Int) (r : Nat) (fromFloat : Bool) :
    Conv :=
  let (n, exact) := roundMag m e 0 (mode.how neg) r
  let v : Int := if neg then -n else n
  let enc (i : Int) : Nat := (i % 2 ^ width).toNat
  let flags : FpFlags := { nv := fromFloat, nx := fromFloat }
  if v < lo then { raw := enc lo, flags := flags, sat := true, drew := true }
  else if hi < v then { raw := enc hi, flags := flags, sat := true, drew := true }
  else { raw := enc v, flags := { nx := !exact && fromFloat }, drew := !exact }

/-- Converts an exact value into a format (R270 to R275). `fromFloat`: the source format is a float format. -/
def convertNum (v : Num) (dst : Fmt) (mode : Rnd) (r : Nat) (fromFloat : Bool) : Conv :=
  match dst.kind with
  | .int lo hi =>
    match v with
    | .nan _ => { raw := 0, flags := { nv := true } }
    | .inf neg => { raw := ((if neg then lo else hi) % 2 ^ dst.bits).toNat, flags := { nv := true }, sat := true }
    | .fin neg m e => roundInt lo hi dst.bits mode neg m e r fromFloat
  | .float f =>
    match v with
    | .nan sig => match f.nanCode with
      | some c => { raw := c, flags := { nv := sig } }
      | none => { raw := 0, flags := { nv := true } }
    | .inf neg => match f.infCode with
      | some c => { raw := f.signed neg c }
      | none => { raw := f.signed neg f.maxCode, flags := { nv := true }, sat := true }
    | .fin neg m e => f.round mode neg m e r

/-- Whether a format is a float format. -/
def Fmt.isFloat (f : Fmt) : Bool := match f.kind with
  | .int _ _ => false
  | .float _ => true

/-- One element conversion from an encoding of `src` to an encoding of `dst`. -/
def convert (src dst : Fmt) (mode : Rnd) (raw r : Nat) : Conv :=
  convertNum (src.value raw) dst mode r src.isFloat

/-- R272: the next state of the rounding generator of cell `n` (step 1, then step 2). -/
def rngNext (n : Nat) (state : W64) : W64 :=
  let s0 : W64 := if state = 0 then 0x9E3779B97F4A7C15#64 ^^^ BitVec.ofNat 64 n else state
  let s1 := s0 ^^^ (s0 <<< 13)
  let s2 := s1 ^^^ (s1 >>> 7)
  s2 ^^^ (s2 <<< 17)

/-- A conversion with the generator state: a draw moves the state only when the mode is stochastic and the element is
inexact (R272). -/
def convertRng (src dst : Fmt) (mode : Rnd) (raw : Nat) (cell : Nat) (rng : W64) : Conv × W64 :=
  let nxt := rngNext cell rng
  let c := convert src dst mode raw (nxt.toNat % 65536)
  (c, if mode = .stoch ∧ c.drew = true then nxt else rng)

/-! The fp32 operations (R268, R269): an encoding and its flags. -/

/-- A result of an fp32 operation. -/
abbrev F32Res := W32 × FpFlags

/-- The canonical fp32 NaN (R260). -/
def f32NaN : W32 := 0x7FC00000#32

/-- The value of an fp32 encoding. -/
def f32Value (a : W32) : Num := fp32Fmt.value a.toNat

/-- An exact finite value rounded to fp32 by round to nearest even. -/
def f32Round (neg : Bool) (m : Nat) (e : Int) : F32Res :=
  let c := fp32Fmt.round .rne neg m e 0
  (BitVec.ofNat 32 c.raw, c.flags)

/-- Infinity of a sign in fp32. -/
def f32Inf (neg : Bool) : W32 := if neg then 0xFF800000#32 else 0x7F800000#32

/-- Whether a value is a signalling NaN. -/
def Num.isSNaN : Num → Bool
  | .nan s => s
  | _ => false

/-- Whether a value is a NaN. -/
def Num.isNaN : Num → Bool
  | .nan _ => true
  | _ => false

/-- A value as an integer multiple of 2^e, for an e at or below its own exponent. -/
def scaledInt (neg : Bool) (m : Nat) (e0 e : Int) : Int :=
  let v : Int := (m * 2 ^ (e0 - e).toNat : Nat)
  if neg then -v else v

/-- The exact sum of two finite values rounded once to fp32; an exact zero is −0 only when both are negative zeros. -/
def f32SumFin (n1 : Bool) (m1 : Nat) (e1 : Int) (n2 : Bool) (m2 : Nat) (e2 : Int) : F32Res :=
  let e := min e1 e2
  let v := scaledInt n1 m1 e1 e + scaledInt n2 m2 e2 e
  if v = 0 then f32Round (n1 && n2 && decide (m1 = 0) && decide (m2 = 0)) 0 0
  else f32Round (decide (v < 0)) v.natAbs e

/-- a + b on exact values (R268): invalid for infinities of both signs. -/
def f32AddNum (x y : Num) : F32Res :=
  let snan := x.isSNaN || y.isSNaN
  match x, y with
  | .nan _, _ | _, .nan _ => (f32NaN, { nv := snan })
  | .inf a, .inf b => if a = b then (f32Inf a, {}) else (f32NaN, { nv := true })
  | .inf a, .fin .. => (f32Inf a, {})
  | .fin .., .inf b => (f32Inf b, {})
  | .fin n1 m1 e1, .fin n2 m2 e2 => f32SumFin n1 m1 e1 n2 m2 e2

/-- The exact product of two values; none where it is invalid (0 × ∞). A NaN operand gives a NaN. -/
def mulNum (x y : Num) : Option Num :=
  match x, y with
  | .nan a, .nan b => some (.nan (a || b))
  | .nan a, _ => some (.nan a)
  | _, .nan b => some (.nan b)
  | .inf a, .inf b => some (.inf (a != b))
  | .inf a, .fin b m _ | .fin b m _, .inf a => if m = 0 then none else some (.inf (a != b))
  | .fin a m e, .fin b n f => some (.fin (a != b) (m * n) (e + f))

/-- a × b + d on exact values with one rounding (R268): a product of zero and infinity is invalid whatever d is. -/
def f32FmaNum (x y d : Num) : F32Res :=
  let snan := x.isSNaN || y.isSNaN || d.isSNaN
  match mulNum x y with
  | none => (f32NaN, { nv := true })
  | some p =>
    if p.isNaN || d.isNaN then (f32NaN, { nv := snan })
    else f32AddNum p d

/-- a × b rounded to fp32. -/
def f32MulNum (x y : Num) : F32Res :=
  match mulNum x y with
  | none => (f32NaN, { nv := true })
  | some (.nan _) => (f32NaN, { nv := x.isSNaN || y.isSNaN })
  | some (.inf s) => (f32Inf s, {})
  | some (.fin s m e) => f32Round s m e

/-- The negation of a value (the sign of a NaN plays no part). -/
def Num.neg : Num → Num
  | .nan s => .nan s
  | .inf n => .inf (!n)
  | .fin n m e => .fin (!n) m e

/-- VFADD. -/
def f32Add (a b : W32) : F32Res := f32AddNum (f32Value a) (f32Value b)
/-- VFSUB. -/
def f32Sub (a b : W32) : F32Res := f32AddNum (f32Value a) (f32Value b).neg
/-- VFMUL. -/
def f32Mul (a b : W32) : F32Res := f32MulNum (f32Value a) (f32Value b)
/-- VFMA: a × b + d. -/
def f32Fma (a b d : W32) : F32Res := f32FmaNum (f32Value a) (f32Value b) (f32Value d)

/-- The quotient of two values rounded once to fp32 (R290's mean): 64 quotient bits and a sticky bit round right. -/
def f32DivNum (x y : Num) : F32Res :=
  let snan := x.isSNaN || y.isSNaN
  match x, y with
  | .nan _, _ | _, .nan _ => (f32NaN, { nv := snan })
  | .inf _, .inf _ => (f32NaN, { nv := true })
  | .inf a, .fin b _ _ => (f32Inf (a != b), {})
  | .fin a _ _, .inf b => f32Round (a != b) 0 0
  | .fin a m e, .fin b n f =>
    if n = 0 then (if m = 0 then (f32NaN, { nv := true }) else (f32Inf (a != b), {}))
    else
      let k := 66 + Nat.log2 n
      let q := m * 2 ^ k / n
      let sticky := if m * 2 ^ k % n = 0 then 0 else 1
      f32Round (a != b) (2 * q + sticky) (e - f - k - 1)

/-- The integer square root, bit by bit from the top: `fuel` bits. -/
def isqrtAux (n : Nat) : Nat → Nat → Nat
  | 0, r => r
  | k + 1, r =>
    let c := r + 2 ^ k
    isqrtAux n k (if c * c ≤ n then c else r)

/-- The integer square root. -/
def isqrt (n : Nat) : Nat := isqrtAux n (Nat.log2 n / 2 + 1) 0

/-- The square root of a value rounded once to fp32 (R313's ADAGRAD). -/
def f32SqrtNum (x : Num) : F32Res :=
  match x with
  | .nan s => (f32NaN, { nv := s })
  | .inf false => (f32Inf false, {})
  | .inf true => (f32NaN, { nv := true })
  | .fin neg m e =>
    if m = 0 then f32Round neg 0 0
    else if neg then (f32NaN, { nv := true })
    else
      let odd : Nat := if e % 2 = 0 then 0 else 1
      let n := m * 2 ^ (odd + 80)
      let s := isqrt n
      let sticky := if s * s = n then 0 else 1
      f32Round false (2 * s + sticky) ((e - odd - 80) / 2 - 1)

/-- The order of two finite or infinite values: a < b. -/
def ltNum (x y : Num) : Bool :=
  match x, y with
  | .inf a, .inf b => a && !b
  | .inf a, .fin .. => a
  | .fin .., .inf b => !b
  | .fin n1 m1 e1, .fin n2 m2 e2 =>
    let e := min e1 e2
    decide (scaledInt n1 m1 e1 e < scaledInt n2 m2 e2 e)
  | _, _ => false

/-- Whether two values are equal (zeros of both signs are; a NaN equals nothing). -/
def eqNum (x y : Num) : Bool :=
  match x, y with
  | .nan _, _ | _, .nan _ => false
  | _, _ => !ltNum x y && !ltNum y x

/-- Whether a value has its sign bit set. -/
def Num.isNeg : Num → Bool
  | .nan _ => false
  | .inf n => n
  | .fin n _ _ => n

/-- minimumNumber (`least`) or maximumNumber of IEEE 754-2019 (R268): −0 counts as less than +0. -/
def f32Extreme (least : Bool) (a b : W32) : F32Res :=
  let x := f32Value a
  let y := f32Value b
  let fl : FpFlags := { nv := x.isSNaN || y.isSNaN }
  match x.isNaN, y.isNaN with
  | true, true => (f32NaN, fl)
  | true, false => (b, fl)
  | false, true => (a, fl)
  | false, false =>
    let aLess := ltNum x y || (eqNum x y && x.isNeg)
    (if aLess = least then a else b, fl)

/-- VFMIN. -/
def f32Min (a b : W32) : F32Res := f32Extreme true a b
/-- VFMAX. -/
def f32Max (a b : W32) : F32Res := f32Extreme false a b

/-- All ones or zero, the result of a lane compare. -/
def laneMask (c : Bool) : W32 := if c then 0xFFFFFFFF#32 else 0#32

/-- VFCEQ, a quiet comparison. -/
def f32Eq (a b : W32) : F32Res :=
  let x := f32Value a
  let y := f32Value b
  (laneMask (eqNum x y), { nv := x.isSNaN || y.isSNaN })
/-- VFCLT, a signalling comparison. -/
def f32Lt (a b : W32) : F32Res :=
  let x := f32Value a
  let y := f32Value b
  (laneMask (ltNum x y), { nv := x.isNaN || y.isNaN })
/-- VFCLE, a signalling comparison. -/
def f32Le (a b : W32) : F32Res :=
  let x := f32Value a
  let y := f32Value b
  (laneMask (ltNum x y || eqNum x y), { nv := x.isNaN || y.isNaN })
/-- VFNEG: only the sign bit changes, no flag. -/
def f32Neg (a : W32) : F32Res := (a ^^^ 0x80000000#32, {})
/-- VFABS: only the sign bit changes, no flag. -/
def f32Abs (a : W32) : F32Res := (a &&& 0x7FFFFFFF#32, {})

/-- One group of the array's accumulation (R265): v plus the exact products, rounded once, with its special cases. -/
def f32Group (v : W32) (products : List (Option Num)) : W32 :=
  let x := f32Value v
  let parts := some x :: products
  if parts.any (fun p => match p with | none => true | some n => n.isNaN) then f32NaN
  else
    let hasInf (neg : Bool) : Bool := parts.any (fun p => p == some (.inf neg))
    if hasInf true && hasInf false then f32NaN
    else if hasInf true then f32Inf true
    else if hasInf false then f32Inf false
    else
      let fins := parts.filterMap (fun p => match p with | some (.fin n m e) => some (n, m, e) | _ => none)
      let e := fins.foldl (fun a t => min a t.2.2) 0
      let total := fins.foldl (fun a t => a + scaledInt t.1 t.2.1 t.2.2 e) 0
      if total = 0 then (if fins.all (fun t => t.1 && decide (t.2.1 = 0)) then 0x80000000#32 else 0#32)
      else (f32Round (decide (total < 0)) total.natAbs e).1

/-- One level of a pairwise tree: adjacent pairs combined. -/
def treeLevel {α : Type} (f : α → α → α) : List α → List α
  | a :: b :: t => f a b :: treeLevel f t
  | l => l

/-- Combines 64 values by the pairwise tree of R250: six levels. -/
def tree64 {α : Type} (f : α → α → α) (l : List α) : List α :=
  treeLevel f (treeLevel f (treeLevel f (treeLevel f (treeLevel f (treeLevel f l)))))

/-- An fp32 operation on values that carry their flags. -/
def liftF32 (f : W32 → W32 → F32Res) (a b : F32Res) : F32Res :=
  let r := f a.1 b.1
  (r.1, (a.2.or b.2).or r.2)

end Sys2Proof.Machine
end

