-- ==== Sys2Proof/Machine/Ops.lean ====
section
/-! DEFINITION. The named operations over numbered collections, bytes, rows and registers. -/

namespace Sys2Proof.Machine

/-! Sparse maps. -/

/-- The value of number `k`; `d` is the value of every number not listed. -/
def spGet {α : Type} (d : α) : Sparse α → Nat → α
  | [], _ => d
  | (a, x) :: t, k => if a = k then x else spGet d t k

/-- Gives number `k` the value `v`, keeping the canonical form. -/
def spPut {α : Type} [DecidableEq α] (d v : α) (k : Nat) : Sparse α → Sparse α
  | [] => if v = d then [] else [(k, v)]
  | (a, x) :: t =>
    if a < k then (a, x) :: spPut d v k t
    else if a = k then (if v = d then t else (k, v) :: t)
    else if v = d then (a, x) :: t
    else (k, v) :: (a, x) :: t

/-- The canonical form: numbers strictly rising, no value equal to the default. -/
def spWf {α : Type} [DecidableEq α] (d : α) : Sparse α → Bool
  | [] => true
  | (a, x) :: t => decide (x ≠ d) && (match t with | [] => true | (b, _) :: _ => decide (a < b)) && spWf d t

/-- Changes the value of number `k` by `f`. -/
def spMod {α : Type} [DecidableEq α] (d : α) (m : Sparse α) (k : Nat) (f : α → α) : Sparse α :=
  spPut d (f (spGet d m k)) k m

/-- Keeps only the numbers that satisfy `p`. -/
def spKeep {α : Type} (p : Nat → Bool) (m : Sparse α) : Sparse α := m.filter (fun e => p e.1)

/-! Byte memories. -/

/-- A byte memory: (address, byte) pairs; an address it does not list reads zero (R480: all memory is zero after the
power-on self-test). -/
abbrev Memory := List Host.Cell

/-- The canonical form of a memory: addresses strictly rising, no byte zero. -/
def Memory.wf (m : Memory) : Bool := spWf 0 m

/-! Bytes (R11: little-endian). -/

/-- The number that bytes, lowest address first, hold. -/
def leNat : List Byte → Nat
  | [] => 0
  | b :: t => b.toNat + 256 * leNat t

/-- The `n` bytes of a number, lowest first. -/
def leBytes : Nat → Nat → List Byte
  | 0, _ => []
  | n + 1, v => BitVec.ofNat 8 v :: leBytes n (v / 256)

/-- The field of `n` bytes at offset `off` of a structure. -/
def field (bs : List Byte) (off n : Nat) : Nat := leNat ((bs.drop off).take n)

/-- Whether every byte from `off` for `n` bytes is zero. -/
def zeroBytes (bs : List Byte) (off n : Nat) : Bool := ((bs.drop off).take n).all (· == 0)

/-- The `n` bytes of a byte memory from address `a`. -/
def readBytes (m : Sparse Byte) (a : Nat) : Nat → List Byte
  | 0 => []
  | n + 1 => spGet 0 m a :: readBytes m (a + 1) n

/-- Writes bytes from address `a` on. -/
def writeBytes (m : Sparse Byte) (a : Nat) : List Byte → Sparse Byte
  | [] => m
  | b :: t => writeBytes (spPut 0 b a m) (a + 1) t

/-- Bits [lo + w − 1 : lo] of a number. -/
def bits (v lo w : Nat) : Nat := v / 2 ^ lo % 2 ^ w

/-! Rows of 256 bytes: vector registers and tile rows (R220, R246). -/

/-- Lane i of a vector register. -/
def laneOf (r : Row) (i : Nat) : W32 := r.extractLsb' (32 * i) 32

/-- The 64 lanes of a vector register. -/
def lanesOf (r : Row) : List W32 := (List.range 64).map (laneOf r)

/-- Words packed from the lowest, each `w` bits. -/
def packNat (w : Nat) (l : List Nat) : Nat := l.foldr (fun x a => x % 2 ^ w + 2 ^ w * a) 0

/-- A vector register from its lanes. -/
def rowOfLanes (l : List W32) : Row := BitVec.ofNat 2048 (packNat 32 (l.map (·.toNat)))

/-- A row from its bytes. -/
def rowOfBytes (bs : List Byte) : Row := BitVec.ofNat 2048 (leNat bs)

/-- The first `n` bytes of a row. -/
def rowBytes (r : Row) (n : Nat) : List Byte := leBytes n r.toNat

/-- The number `v` with the `w` bits at `lo` replaced by `x`. -/
def setBits (v lo w x : Nat) : Nat := v - bits v lo w * 2 ^ lo + x % 2 ^ w * 2 ^ lo

/-! Registers of a cell (R191). -/

/-- g[r]: g0 reads zero. -/
def Cell.greg (c : Cell) (r : Fin 32) : W64 := if r = 0 then 0 else spGet 0 c.g r

/-- Writes g[r]: a write to g0 is discarded. -/
def Cell.setG (c : Cell) (r : Fin 32) (v : W64) : Cell :=
  if r = 0 then c else { c with g := spPut 0 v r c.g }

/-- p[k]: p0 reads 1. -/
def Cell.preg (c : Cell) (k : Fin 8) : Bool := decide (k = 0) || c.p.getLsbD k

/-- Writes p[k]: a write to p0 is discarded. -/
def Cell.setP (c : Cell) (k : Fin 8) (b : Bool) : Cell :=
  if k = 0 then c
  else { c with p := if b then c.p ||| (1#8 <<< k.val) else c.p &&& ~~~(1#8 <<< k.val) }

/-- v[r]. -/
def Cell.vreg (c : Cell) (r : Fin 32) : Row := spGet 0 c.v r

/-- Writes v[r]. -/
def Cell.setV (c : Cell) (r : Fin 32) (v : Row) : Cell := { c with v := spPut 0 v r c.v }

/-- Row `r` of tile `t`. -/
def Cell.tileRow (c : Cell) (t r : Nat) : Row := spGet 0 c.tiles (t * 64 + r)

/-- Writes row `r` of tile `t`; the words written are no longer poisoned (R523). -/
def Cell.setTileRow (c : Cell) (t r : Nat) (v : Row) : Cell :=
  { c with
    tiles := spPut 0 v (t * 64 + r) c.tiles
    tilePoison := spKeep (fun k => decide (k / 32 ≠ t * 64 + r)) c.tilePoison }

/-- Writes rows of a tile from row `r` on. -/
def Cell.setTileRows (c : Cell) (t : Nat) (r : Nat) : List Row → Cell
  | [] => c
  | v :: rest => (c.setTileRow t r v).setTileRows t (r + 1) rest

/-- R222: sets the in-use flag of tiles t to t + n − 1. -/
def Cell.useTiles (c : Cell) (t n : Nat) : Cell :=
  { c with tuse := c.tuse ||| BitVec.ofNat 17 ((2 ^ n - 1) * 2 ^ t) }

/-- R222: sets cs.tuse.ACC. -/
def Cell.useAcc (c : Cell) : Cell := { c with tuse := c.tuse ||| 0x10000#17 }

/-- Row r of the accumulator. -/
def Cell.accRow (c : Cell) (r : Nat) : AccRow := spGet 0 c.acc r

/-- Word i of an accumulator row. -/
def accWord (a : AccRow) (i : Nat) : W32 := a.extractLsb' (32 * i) 32

/-- Sets sticky bits of cs.status (R192). -/
def Cell.orStatus (c : Cell) (m : W64) : Cell := { c with status := c.status ||| m }

/-- The command queue of a unit (R181). -/
def unitIndex : UnitId → Nat
  | .array => 0 | .mv => 1 | .cag => 2 | .vec => 3 | .tmove => 4

/-- The commands a unit of the cell holds, oldest first. -/
def Cell.queue (c : Cell) (u : UnitId) : List QCmd := spGet [] c.queues (unitIndex u)

/-- Replaces the commands a unit holds. -/
def Cell.setQueue (c : Cell) (u : UnitId) (q : List QCmd) : Cell :=
  { c with queues := spPut [] q (unitIndex u) c.queues }

/-- Every unit command the cell holds. -/
def Cell.allCmds (c : Cell) : List UnitCmd :=
  (c.queue .array ++ c.queue .mv ++ c.queue .cag ++ c.queue .vec ++ c.queue .tmove).map (·.cmd)

/-- A gather slot of the cell (R286). -/
def Cell.slot (c : Cell) (n : Fin 2) : GatherSlot := spGet GatherSlot.none c.gather n

/-- Replaces a gather slot. -/
def Cell.setSlot (c : Cell) (n : Fin 2) (g : GatherSlot) : Cell :=
  { c with gather := spPut GatherSlot.none g n c.gather }

/-- The mark of an undefined address in a list of ranges. -/
def markAt (rs : List (Nat × Nat × Nat)) (a : Nat) : Option Nat :=
  (rs.find? (fun r => decide (r.1 ≤ a) && decide (a < r.2.1))).map (·.2.2)

/-- Takes a range out of the undefined ones. -/
def settleRange (rs : List (Nat × Nat × Nat)) (lo hi : Nat) : List (Nat × Nat × Nat) :=
  rs.flatMap (fun r =>
    [(r.1, min r.2.1 lo, r.2.2), (max r.1 hi, r.2.1, r.2.2)].filter (fun q => decide (q.1 < q.2.1)))

/-- One own-store byte; an undefined one is a free value (R121). -/
def Cell.storeByte (c : Cell) (a : Nat) : Byte :=
  match markAt c.storeFree a with
  | some m => Config.freeByte m a
  | none => spGet 0 c.store a

/-- Own-store bytes. -/
def Cell.loadOwn (c : Cell) (a n : Nat) : List Byte := (List.range n).map (fun i => c.storeByte (a + i))

/-- Writes own-store bytes; a written word is no longer poisoned (R523), and a written byte is defined. -/
def Cell.storeOwn (c : Cell) (a : Nat) (bs : List Byte) : Cell :=
  { c with
    store := writeBytes c.store a bs
    storeFree := settleRange c.storeFree a (a + bs.length)
    storePoison := spKeep (fun k => !(decide (a ≤ 8 * k) && decide (8 * k + 8 ≤ a + bs.length))) c.storePoison }

/-- Whether a read of `n` bytes from `a` touches a poisoned store word (R523). -/
def Cell.storeBad (c : Cell) (a n : Nat) : Bool :=
  c.storePoison.any (fun e => decide (e.1 * 8 < a + n) && decide (a < e.1 * 8 + 8))

/-- Whether rows r to r + n − 1 of tile t hold a poisoned word in their first `w` 64-bit words (R523). -/
def Cell.tileBad (c : Cell) (t r n w : Nat) : Bool :=
  c.tilePoison.any (fun e =>
    decide (t * 64 + r ≤ e.1 / 32) && decide (e.1 / 32 < t * 64 + r + n) && decide (e.1 % 32 < w))

/-- Whether one of the first `n` accumulator rows holds a poisoned word (R523). -/
def Cell.accBad (c : Cell) (n : Nat) : Bool := c.accPoison.any (fun e => decide (e.1 / 128 < n))

end Sys2Proof.Machine
end

