-- ==== Sys2Proof/Machine/Flags.lean ====
section
/-! DEFINITION. The results and the sticky flags of scalar arithmetic (R198, R200) and of integer lanes (R247, R267). -/

namespace Sys2Proof.Machine

/-- cs.status bits (R192). -/
def stOV : W64 := 1#64
def stDZ : W64 := 2#64
def stVOV : W64 := 4#64
def stVSAT : W64 := 8#64
def stNX : W64 := 0x100#64
def stUF : W64 := 0x200#64
def stOF : W64 := 0x400#64
def stNV : W64 := 0x1000#64

/-- The bits of cs.status.FPF for a set of flags (R269). -/
def FpFlags.mask (f : FpFlags) : W64 :=
  (if f.nv then stNV else 0) ||| (if f.of then stOF else 0) ||| (if f.uf then stUF else 0) |||
    (if f.nx then stNX else 0)

/-- A result and the cs.status bits it sets. -/
abbrev AluRes := W64 × W64

/-- R198: with W set, an operand is its low 32 bits. -/
def lowW (x : W64) : W32 := x.setWidth 32

/-- R198: a 32-bit result sign-extended from bit 31. -/
def sext32 (x : W32) : W64 := x.signExtend 64

/-- An operation with a width: `f` on 64-bit operands or, with W set, on their low halves. -/
def atWidth (w : Bool) (f : (n : Nat) → BitVec n → BitVec n → BitVec n × W64) (a b : W64) : AluRes :=
  if w then
    let r := f 32 (lowW a) (lowW b)
    (sext32 r.1, r.2)
  else f 64 a b

/-- R200: a left shift by the whole 64-bit amount; 0 at or above the width. -/
def shiftL (w : Bool) (a amount : W64) : W64 :=
  if w then sext32 (if 32 ≤ amount.toNat then 0 else lowW a <<< amount.toNat)
  else if 64 ≤ amount.toNat then 0 else a <<< amount.toNat

/-- R200: a logical right shift; 0 at or above the width. -/
def shiftR (w : Bool) (a amount : W64) : W64 :=
  if w then sext32 (if 32 ≤ amount.toNat then 0 else lowW a >>> amount.toNat)
  else if 64 ≤ amount.toNat then 0 else a >>> amount.toNat

/-- R200: an arithmetic right shift; every bit the sign bit at or above the width. -/
def shiftA (w : Bool) (a amount : W64) : W64 :=
  if w then sext32 ((lowW a).sshiftRight (min amount.toNat 31))
  else a.sshiftRight (min amount.toNat 63)

/-- 0 − a, with OV for the most negative number (R200). -/
def negN (n : Nat) (a : BitVec n) : BitVec n × W64 :=
  (-a, if a = BitVec.intMin n then stOV else 0)

/-- |a|, with OV for the most negative number (R200). -/
def absN (n : Nat) (a : BitVec n) : BitVec n × W64 :=
  (if a.msb then -a else a, if a = BitVec.intMin n then stOV else 0)

/-- Signed quotient truncated toward zero (R198), all ones by zero, MIN by −1 itself (R200). -/
def divN (n : Nat) (a b : BitVec n) : BitVec n × W64 :=
  if b = 0 then (BitVec.allOnes n, stDZ)
  else if a = BitVec.intMin n ∧ b = BitVec.allOnes n then (a, stOV)
  else (a.sdiv b, 0)

/-- Unsigned quotient (R198), all ones by zero (R200). -/
def divuN (n : Nat) (a b : BitVec n) : BitVec n × W64 :=
  if b = 0 then (BitVec.allOnes n, stDZ) else (a.udiv b, 0)

/-- Signed remainder with the sign of the dividend (R198), the dividend by zero, 0 for MIN by −1 (R200). -/
def remN (n : Nat) (a b : BitVec n) : BitVec n × W64 :=
  if b = 0 then (a, stDZ)
  else if a = BitVec.intMin n ∧ b = BitVec.allOnes n then (0, stOV)
  else (a.srem b, 0)

/-- Unsigned remainder (R198), the dividend by zero (R200). -/
def remuN (n : Nat) (a b : BitVec n) : BitVec n × W64 :=
  if b = 0 then (a, stDZ) else (a.umod b, 0)

/-- Leading zeros, 0 to 64. -/
def clz64 (a : W64) : W64 := if a = 0 then 64 else BitVec.ofNat 64 (63 - Nat.log2 a.toNat)

/-- Set bits. -/
def popc64 (a : W64) : W64 :=
  BitVec.ofNat 64 ((List.range 64).foldl (fun n i => n + (a.getLsbD i).toNat) 0)

/-- High 64 bits of the signed product. -/
def mulh64 (a b : W64) : W64 := BitVec.ofInt 64 (a.toInt * b.toInt / 2 ^ 64)

/-- High 64 bits of the unsigned product. -/
def mulhu64 (a b : W64) : W64 := BitVec.ofNat 64 (a.toNat * b.toNat / 2 ^ 64)

/-- The compares of R199; COND 7 is reserved. -/
def condOf (cond : BitVec 3) (a b : W64) : Bool :=
  match cond.toNat with
  | 0 => a == b
  | 1 => a != b
  | 2 => a.slt b
  | 3 => !a.slt b
  | 4 => a.ult b
  | 5 => !a.ult b
  | _ => a &&& b != 0

/-! Integer lanes at width 32 (R247): the lane result and whether the lane sets VOV or VSAT. -/

/-- A lane result and the cs.status bits it sets. -/
abbrev LaneRes := W32 × W64

/-- A shift of a lane by the whole 32-bit lane read as unsigned (R247). -/
def laneShl (a b : W32) : W32 := if 32 ≤ b.toNat then 0 else a <<< b.toNat
def laneShr (a b : W32) : W32 := if 32 ≤ b.toNat then 0 else a >>> b.toNat
def laneSar (a b : W32) : W32 := a.sshiftRight (min b.toNat 31)

/-- NEG and ABS at width 32, with VOV in place of OV (R247). -/
def laneNeg (a : W32) : LaneRes := (-a, if a = BitVec.intMin 32 then stVOV else 0)
def laneAbs (a : W32) : LaneRes := (if a.msb then -a else a, if a = BitVec.intMin 32 then stVOV else 0)

/-- An exact result clamped to int32, with VSAT when it clamps (R267). -/
def laneSat (v : Int) : LaneRes :=
  if v < -2147483648 then (0x80000000#32, stVSAT)
  else if 2147483647 < v then (0x7FFFFFFF#32, stVSAT)
  else (BitVec.ofInt 32 v, 0)

/-- High 32 bits of the signed product. -/
def laneMulh (a b : W32) : W32 := BitVec.ofInt 32 (a.toInt * b.toInt / 2 ^ 32)

end Sys2Proof.Machine
end

