-- ==== Sys2Proof/Machine/Operands.lean ====
section
/-! DEFINITION. The operand forms of the cell instructions (R194 to R203, R246, R247): immediates, addresses, loaded values
and lane operands. The checks of tile groups and formats stand with the units. -/

namespace Sys2Proof.Machine

/-- An immediate sign-extended to 64 bits (R199). -/
def sext64 {n : Nat} (i : BitVec n) : W64 := i.signExtend 64

/-- R203: the address of a load or store. -/
def memAddr (c : Cell) (rs1 : Fin 32) (imm : Byte) (size : Nat) : W64 :=
  c.greg rs1 + imm.signExtend 64 * BitVec.ofNat 64 size

/-- R203: a loaded value of `n` bytes, sign- or zero-extended. -/
def extend (bs : List Byte) (signed : Bool) : W64 :=
  let n := bs.length
  let v := leNat bs
  if signed && decide (2 ^ (8 * n - 1) ≤ v) then BitVec.ofInt 64 ((v : Int) - 2 ^ (8 * n)) else BitVec.ofNat 64 v

/-- R246: the address of VLD and VST. -/
def vecAddr (c : Cell) (rs1 : Fin 32) (imm : Byte) : W64 := c.greg rs1 + imm.signExtend 64 * 256

/-- The second operand of every lane (R247): a lane of v[RS2], or the low word of g[RS2] with SC set. -/
def laneB (c : Cell) (sc : Bool) (rs2 : Fin 32) : List W32 :=
  if sc then List.replicate 64 (lowW (c.greg rs2)) else lanesOf (c.vreg rs2)

end Sys2Proof.Machine
end

