-- ==== Sys2Proof/Machine/ParcelState.lean ====
section
/-! DEFINITION. What one parcel holds: its configuration from the Last image (R54 to R62), and its queues, graphs,
segments, table directory, update log and registers (R112 to R165, R278, R303 to R344). -/

namespace Sys2Proof.Machine

/-- An order in progress (R117): its source, its ORDER_ID, and for a session its incarnation. -/
structure OrdRef where
  src : Source
  id : W64
  inc : Nat
  deriving DecidableEq, Repr

/-- A segment descriptor (R327). -/
structure SegDesc where
  vbase : Nat
  tbase : Nat
  limit : Nat
  /-- 1 HOST, 2 STACK, 3 STORE -/
  target : Nat
  permR : Bool
  permW : Bool
  mirrored : Bool
  stks : Nat
  gran : Nat
  deriving DecidableEq, Repr

/-- One entry of the QUEUES section. -/
structure QueueCfg where
  q : Nat
  gqueue : Nat
  be : Bool
  carry : Nat
  quota : Nat
  deriving DecidableEq, Repr

/-- One entry of the SESSIONS section. -/
structure SessCfg where
  session : Nat
  subport : Nat
  enc : Bool
  key : Nat
  peerPort : Nat
  peerAddr : BitVec 128
  deriving DecidableEq, Repr

/-- The PARCEL section and the sections of the same parcel (R54 to R62). -/
structure ParcelCfg where
  ownerSess : Bool
  ownerId : Nat
  targetClk : Nat
  floorClk : Nat
  /-- µs -/
  updWin : Nat
  instShare : Nat
  weltWays : Nat
  /-- bit n: cell n -/
  cells : BitVec 128
  rtCells : BitVec 128
  /-- 1 GiB units -/
  memBase : Nat
  memUnits : Nat
  /-- 64 MiB units -/
  ulog : Nat
  hostLat : Nat
  /-- share of S0 to S7 in 32nds -/
  share : List Nat
  queues : List QueueCfg
  nctx : Nat
  segs : List ((Nat × Nat) × SegDesc)
  sessions : List SessCfg
  fixedMode : Bool
  arrange : Nat
  /-- (ROWS, RB) of t0 to t15; empty in SHAPED mode -/
  shapes : List (Nat × Nat)
  deriving DecidableEq, Repr

/-- The parcel states of the part (R42, R75 to R82). -/
inductive PState where
  | absent
  | active
  | draining
  | quiet
  | building
  deriving DecidableEq, Repr

/-- A window (R336, R340): TARGET (0 for a null field), physical base, length, rights, the segment it came from, and
that segment's placement (R329). -/
structure Window where
  target : Nat
  base : Nat
  len : Nat
  r : Bool
  w : Bool
  seg : Nat
  stks : Nat
  gran : Nat
  deriving DecidableEq, Repr

/-- Where a request came from (R112). -/
inductive ReqSrc where
  /-- a doorbell: descriptor index `i` of the queue's SQ -/
  | bell (f : Fin 8) (i : W32)
  /-- a RANK or GATHER message of incarnation `inc` of a session, by its SEQ -/
  | sess (n : Fin 256) (inc : Nat) (gather : Bool) (rseq : W32)
  deriving DecidableEq, Repr

/-- A request from its stamp on (R96, R127, R340). -/
structure Request where
  src : ReqSrc
  tag : W64
  stamp : Nat
  ctx : Nat
  noirq : Bool
  /-- its descriptor and patch are read and translated (R130) -/
  ready : Bool
  pb : List Byte
  windows : List Window
  /-- boundaries at which it was eligible and not admitted (R98) -/
  carried : Nat
  /-- the queue timeout it was admitted with (R136) -/
  timeout : Nat
  /-- the segment table at its stamp, while its descriptor is unread (R334) -/
  segs : Sparse (Option SegDesc)
  /-- its queue was unbound while it waited (R124) -/
  unbound : Bool
  deriving DecidableEq, Repr

/-- A completion record not yet written or sent (R139). -/
structure Record where
  src : ReqSrc
  tag : W64
  stamp : Nat
  done : Nat
  ret : W32
  code : Byte
  detail : Byte
  overrun : Bool
  noirq : Bool
  /-- it holds one instance of INST_SHARE until it is written (R134) -/
  holdsShare : Bool
  windows : List Window
  /-- first cell of the replica that ran it; 0 for none -/
  cell : Nat
  /-- its launch descriptor is still to be read: TAG and NOIRQ are not yet known -/
  unread : Bool
  deriving DecidableEq, Repr

/-- The binding state of a queue (R122, R126). -/
inductive QState where
  | unbound | launched | persistent | unbinding
  deriving DecidableEq, Repr

/-- The host rings of a queue (R125). -/
structure Rings where
  sqBase : Nat
  sqLog : Nat
  cqBase : Nat
  cqLog : Nat
  vector : Option Nat
  deriving DecidableEq, Repr

/-- One queue. -/
structure Queue where
  state : QState := .unbound
  /-- bound persistent (kept while UNBINDING, R157), and the task count -/
  persistent : Bool := false
  tasks : Nat := 0
  slot : Nat := 0
  timeout : Nat := 0
  rings : Option Rings := none
  sqTail : W32 := 0
  /-- SQ entries not yet released (R129) -/
  sqUsed : Nat := 0
  cqHead : W32 := 0
  cqTail : W32 := 0
  /-- waiting or carried, oldest first -/
  waiting : List Request := []
  /-- admitted and not yet taken by a task (R132) -/
  ready : List Request := []
  /-- records produced and not yet written to the CQ (R140) -/
  records : List Record := []
  /-- request count of the handle (R211) -/
  count : W32 := 0
  /-- FE_QLAT, and the value that applies from the next boundary (R159) -/
  lq : Nat := 0
  lqNext : Option Nat := none
  /-- the order that is unbinding the queue -/
  unbind : Option OrdRef := none
  /-- tasks that have no instance of the share yet (R134) -/
  unseated : List Nat := []
  /-- the Welt has asked the host for the line of the next record (R361) -/
  recAsked : Bool := false
  deriving DecidableEq, Repr

/-- A graph slot's state (R119). -/
inductive SlotState where
  | empty | loading | loaded | unloading
  deriving DecidableEq, Repr

/-- An entry of the pointer map (R149). -/
structure PtrEntry where
  pbOff : Nat
  lenOff : Nat
  seg : Nat
  r : Bool
  w : Bool
  deriving DecidableEq, Repr

/-- The header fields of a graph that the E40 keeps (R147). -/
structure GraphHdr where
  be : Bool
  ncell : Nat
  replicas : Nat
  tiles : Nat
  storeBytes : Nat
  wc : Nat
  entryCycles : Nat
  hostRounds : Nat
  hostLines : Nat
  gatherRounds : Nat
  pbSize : Nat
  sectors : List Nat
  pbAddr : Nat
  entryRounds : Nat
  entrySectors : Nat
  deriving DecidableEq, Repr

/-- A graph slot. -/
structure GraphSlot where
  state : SlotState := .empty
  hdr : GraphHdr := ⟨false, 0, 0, 0, 0, 0, 0, 0, 0, 0, 0, [], 0, 0, 0⟩
  ptrs : List PtrEntry := []
  pb : List Byte := []
  /-- LABEL of the header (R147) -/
  label : List Byte := []
  /-- placement in order (R154) -/
  cells : List Nat := []
  /-- the window being loaded from, its length, and the order (R119) -/
  window : Option Window := none
  order : Option OrdRef := none
  deriving DecidableEq, Repr

/-- An update record in the log (R304), with what the sequencer's index keeps. -/
structure UpdRec where
  /-- header and payload as accepted -/
  bytes : List Byte
  /-- the ring lines it holds -/
  lines : List Nat
  accepted : Nat
  /-- the session it came from, its incarnation, its message's SEQ and the record's place there -/
  sess : Option (Fin 256 × Nat × W32 × Nat)
  fence : Nat
  uid : W64
  tid : Nat
  row : Nat
  /-- its eligibility boundary once known (R308) -/
  elig : Option Nat
  /-- the boundary of its fence, the first at or after FENCE, once it has come (R320) -/
  fenceTick : Option Nat
  /-- whether the parcel ran its window in the fence's tick (R320) -/
  fenceRan : Bool
  deriving DecidableEq, Repr

/-- A fence in progress (R342). -/
structure Fence where
  ref : OrdRef
  target : Nat
  base : Nat
  len : Nat
  deriving DecidableEq, Repr

/-- An order that waits for descriptors to be read (R142, R332): a CANCEL by its queue and TAG, or a segment order; the
unread doorbell requests it waits for, by queue and descriptor index; whether a CANCEL has met its TAG. -/
structure ReadWait where
  ref : OrdRef
  cancel : Option (Nat × W64)
  left : List (Nat × W32)
  found : Bool
  deriving DecidableEq, Repr

/-- One parcel. -/
structure Parcel where
  state : PState := .absent
  cfg : ParcelCfg :=
    ⟨false, 0, 0, 0, 0, 0, 0, 0, 0, 0, 0, 0, 0, [], [], 0, [], [], false, 0, []⟩
  queues : Sparse Queue := []
  slots : Sparse GraphSlot := []
  /-- valid segments by context × 16 + segment -/
  segs : Sparse (Option SegDesc) := []
  /-- the table directory (R278) -/
  tables : Sparse (Option TableDesc) := []
  /-- the update log: unretired records in acceptance order, allocation point (R304) -/
  log : List UpdRec := []
  logNext : Nat := 0
  /-- the update window of this tick is open; it was late or rejected: count and first UID (R323) -/
  inWindow : Bool := false
  windowBad : Nat := 0
  windowUid : W64 := 0
  /-- records committed in this window, and the UID of the first record it reached -/
  windowDone : Nat := 0
  windowFirst : Option W64 := none
  /-- on the local time counter: the window's start, the end of the last commit; ns in which a commit was in progress -/
  winStart : Nat := 0
  winBusyTo : Nat := 0
  winBusyNs : Nat := 0
  /-- the compute phase of this tick is open -/
  inCompute : Bool := false
  /-- in the present tick: its window has opened, its compute phase has started, its compute phase is over (R90) -/
  windowRan : Bool := false
  computeRan : Bool := false
  computeOver : Bool := false
  fences : List Fence := []
  /-- CANCELs and segment orders in progress -/
  waits : List ReadWait := []
  /-- sectors read and row opens of the present compute phase, by stack, by bank and by pseudo-channel (R441) -/
  phSect : Sparse Nat := []
  phBank : Sparse Nat := []
  phChan : Sparse Nat := []
  /-- registers: FE_LDCHK, FE_LDCHK_NEED, FE_DECL_EXCESS, TK overrun count of the parcel, SG_, UP_, AW_, SM_ -/
  ldchk : W32 := 0
  ldchkNeed : W32 := 0
  declExcess : W32 := 0
  overruns : W32 := 0
  sgFaults : W32 := 0
  sgLast : W64 := 0
  upDue : W32 := 0
  upWin : W32 := 0
  upApplied : W32 := 0
  upLate : W32 := 0
  upReject : W32 := 0
  upQsat : W32 := 0
  awPbad : W32 := 0
  awPpoison : W32 := 0
  smPlace : W32 := 0
  /-- SM_PLACE has written its log entry of the present tick (R434) -/
  smPlaceLogged : Bool := false
  /-- WL_PPOISON, WL_PLATMAX, SM_HOT, LS_PARCEL_STATUS.NOEFF, LS_PSERIAL -/
  wlPoison : W32 := 0
  wlLatMax : W32 := 0
  smHot : W32 := 0
  noEffect : Bool := false
  serial : W64 := 0
  /-- the digest of the parcel-local image in force, where one is (R598) -/
  digest : BitVec 384 := 0
  /-- a parcel-local build that has ended and waits for the next boundary (R78) -/
  buildDone : Bool := false
  /-- parcel resets in progress, with their orders (R513); none: a reset that no order gave (R353, R368) -/
  resetting : List (Option OrdRef) := []
  /-- DRAINING, and the boundary after the QUIESCE has come (R76) -/
  drained : Bool := false
  deriving DecidableEq, Repr

/-- A running or resident instance (R132 to R138, R163). -/
structure Inst where
  parcel : Fin 16
  q : Nat
  slot : Nat
  replica : Nat
  cells : List Nat
  /-- the task number of a persistent task -/
  task : Option Nat
  req : Option Request
  /-- started: its cells issue -/
  running : Bool
  /-- a task between its entry point and its first WAITQ (R163) -/
  entry : Bool
  /-- when its queue timeout counts from, on the local time counter (R86, R136) -/
  start : Nat
  lines : Nat
  sectors : Sparse Nat
  excess : Bool
  overrun : Bool
  /-- R107 causes met: a cell below the floor, a host line slower than HOSTLAT -/
  thermal : Bool
  slowHost : Bool
  /-- a task to be removed at its next WAITQ or abort (R124) -/
  removing : Bool
  /-- a task that QUIESCE released from its WAITQ (R76) -/
  released : Bool
  deriving DecidableEq, Repr

end Sys2Proof.Machine
end

