-- ==== Sys2Proof/Machine/DeviceState.lean ====
section
/-! DEFINITION. What the blocks of the device hold beside its cells and parcels. -/

namespace Sys2Proof.Machine

/-- The device's operating state (R506, R514, R520). -/
inductive DevState where
  /-- no power, or before start-up step 1 -/
  | off
  /-- start-up, between power-on and READY: the last step done -/
  | starting (step : Nat)
  | running
  | unlasted
  | retired
  | halted
  deriving DecidableEq, Repr

/-- The tick machine (R85 to R91, R109). -/
structure TickSt where
  run : Bool := false
  aligned : Bool := false
  count : W32 := 0
  epoch : W64 := 0
  boundary : Nat := 0
  alignErr : W32 := 0
  overrun : W32 := 0
  /-- at least one boundary has come since the start -/
  started : Bool := false
  deriving DecidableEq, Repr

/-- The local time counter of the tick machine and what it times (R86, R87): it runs at the datum's rate and is never
stepped. -/
structure LocalClk where
  /-- ns counted -/
  ctr : Nat := 0
  /-- the counter at the last boundary, or at the end of the build, and the ns from there to the next boundary -/
  edge : Nat := 0
  len : Nat := 0
  /-- the survey slice of the present tick has come -/
  surveyed : Bool := false
  /-- the last boundary on the datum, kept over a build (R320) -/
  lastB : Option Nat := none
  /-- the cells that ran below their floor in the present tick (R107) -/
  below : BitVec 128 := 0
  deriving DecidableEq, Repr

/-- An entry of the error log (R526). -/
structure LogEntry where
  datum : Nat
  code : W16
  cls : Nat
  parcel : Byte
  unit : W16
  qindex : Byte
  aux : Byte
  arg : W64
  /-- a continuation follows: its bytes 0x10 to 0x1F -/
  cont : Option (List Byte)
  deriving DecidableEq, Repr

/-- A stored entry: its 32 bytes, or an uncorrectable one (R533). -/
structure LogSlot where
  bytes : List Byte
  lost : Bool
  deriving DecidableEq, Repr

/-- The error log (R526 to R533). -/
structure ErrLog where
  queue : List LogEntry := []
  slots : Sparse (Option LogSlot) := []
  count : Nat := 0
  dropped : W32 := 0
  /-- ER_SRAM: UE and CE -/
  sramUe : W32 := 0
  sramCe : W32 := 0
  /-- the sticky block: ER_LOGLOST, ER_LOSTCOUNT, ER_ALERT -/
  lost : Bool := false
  lostFirst : W16 := 0
  lostCount : W32 := 0
  alertFirst : W16 := 0
  alertCause : BitVec 10 := 0
  deriving DecidableEq, Repr

/-- Stacked memory (R432 to R455). -/
structure Stacks where
  /-- bytes by stack × 2^36 + stack-local address -/
  mem : Sparse Byte := []
  /-- poisoned sectors, by the same address / 32 -/
  poison : Sparse Bool := []
  /-- device-address ranges whose bytes are undefined (R284, R329): from, up to, and a mark for the free value -/
  unsettled : List (Nat × Nat × Nat) := []
  /-- where each byte written by a parcel was placed (R284, R329): 1 + its address in `mem`, by device address -/
  wrote : Sparse Nat := []
  /-- SM_ECC of each stack: corrected and uncorrectable counts -/
  ce : Sparse W32 := []
  ue : Sparse W32 := []
  /-- channels trained (SM_STATE.TRAINED) and stacks lost -/
  trained : Byte := 0
  lost : Byte := 0
  /-- refresh doubled, by stack (R443) -/
  refx2 : Byte := 0
  /-- the remap table of each stack: DRAM rows (row × 512 + pseudo-channel × 16 + bank), and the row in copy (R449) -/
  remap : Sparse (List Nat) := []
  copying : Sparse (List Nat) := []
  /-- soft entries counted at the last start-up, rows repaired there, hard-repair spares used by bank (R451) -/
  soft : Sparse Nat := []
  pprLast : Sparse Nat := []
  pprUsed : Sparse Nat := []
  /-- candidate rows, newest first: (row, sector, datum) of each correction (R448) -/
  cand : Sparse (List (Nat × Nat × Nat)) := []
  /-- SM_SCRUB and the sectors scrubbed in the present pass -/
  scrubPasses : W32 := 0
  scrubCount : Nat := 0
  /-- SM_LOSS, SM_LOSS_DATUM (sticky) -/
  loss : W32 := 0
  lossDatum : W64 := 0
  /-- SM_MARGIN_CTRL, SM_MARGIN -/
  marginEn : Bool := false
  marginRun : Bool := false
  margin : List Byte := []
  deriving DecidableEq, Repr

/-- What an accessor of BAR0 holds: order window, mailbox, events, interrupt table and latches. Accessor 0 is the
management plane, 1 + f is function f. -/
structure OrdSt where
  /-- FE_ORD, 64 bytes -/
  window : List Byte := List.replicate 64 0
  /-- FE_ORD_PARCEL (management plane only) -/
  parcel : Nat := 0
  busy : Bool := false
  done : Bool := false
  /-- FE_ORD_RESULT: ORDER_ID, CODE, DETAIL -/
  result : W64 × Byte × Byte := (0, 0, 0)
  /-- LS_MB_DATA, LS_MB_STATUS.BUSY, LS_PUSH_RESULT -/
  mbox : Sparse Byte := []
  /-- mailbox ranges whose bytes are undefined (R358): from, up to, and a mark for the free value -/
  mboxFree : List (Nat × Nat × Nat) := []
  mbBusy : Bool := false
  pushDone : Bool := false
  pushCode : Byte := 0
  /-- WL_EVENT -/
  event : BitVec 4 := 0
  /-- MSI-X: table bytes, each XORed with its value at reset; pending bits, how many messages are called for and not issued, D3hot -/
  msix : Sparse Byte := []
  msixPending : Sparse Bool := []
  msixDue : Sparse Nat := []
  d3 : Bool := false
  /-- the latches of R22, by the offset of the upper half -/
  latch : Sparse (Option W32) := []
  /-- lower halves of 64-bit registers written by two accesses (R558), by their offset -/
  lower : Sparse (Option W32) := []
  /-- OB_SNAP: the held bank, and OB_SNAP_LATCH.DONE -/
  snap : Sparse Byte := []
  snapDone : Bool := false
  /-- epoch and datum of the snapshot of this reader's previous latch, wraps and reselections since then -/
  snapEpoch : W64 := 0
  snapDatum : Option Nat := none
  wraps : Sparse Nat := []
  resel : Sparse Bool := []
  deriving DecidableEq, Repr

/-! The image (R47 to R62). -/

/-- A port entry. -/
structure PortCfg where
  mode : Nat
  macsec : Bool
  ptp : Bool
  mac : BitVec 48
  deriving DecidableEq, Repr

/-- A sub-port entry. -/
structure SubCfg where
  v6 : BitVec 128
  v4 : BitVec 32
  enabled : Bool
  deriving DecidableEq, Repr

/-- The device sections. -/
structure DevCfg where
  /-- ATTACH is card mode -/
  card : Bool := false
  immersion : Bool := false
  nfunc : Nat := 0
  nparcel : Nat := 0
  mgmtEid : Byte := 0
  sysBase : Nat := 0
  sysUnits : Nat := 0
  vgPort : W16 := 0
  /-- PERIOD in 10 µs, ALIGN, SURVEY and DRAIN in µs -/
  period : Nat := 0
  align : Bool := false
  survey : Nat := 0
  drain : Nat := 0
  ports : List PortCfg := []
  subs : List SubCfg := []
  deriving DecidableEq, Repr

/-- A parcel of the image before a warm reset: its number and its configuration. -/
structure OldParcel where
  num : Nat
  cfg : ParcelCfg
  deriving DecidableEq, Repr

/-- The whole-device image in force. -/
structure ImgSt where
  cfg : DevCfg := {}
  /-- an image is in force -/
  on : Bool := false
  /-- the parcels of the image before a warm reset, until step 6 compares (R508) -/
  before : List OldParcel := []
  serial : W64 := 0
  label : List Byte := []
  digest : BitVec 384 := 0
  /-- LS_SLOT_STATUS: REASON_B, REASON_A, SEL -/
  reasonA : Byte := 0
  reasonB : Byte := 0
  sel : Nat := 0
  /-- the flash: slot bytes, whether a slot update has left it unverified, the serial floor -/
  slotA : List Byte := []
  slotB : List Byte := []
  badA : Bool := false
  badB : Bool := false
  floor : W64 := 0
  /-- the floor before the last serial-floor write, and the datum of that write (R564) -/
  floorOld : Option (W64 × Nat) := none
  /-- a whole-device build in progress (R80) -/
  building : Bool := false
  /-- the ports whose entries changed, and whether the host link retrains -/
  retrain : List Nat := []
  retrainHost : Bool := false
  deriving DecidableEq, Repr

/-- A key slot of R65: a key written once, and its revoke bit. -/
structure KeySlot where
  prog : Bool := false
  revoked : Bool := false
  qx : BitVec 384 := 0
  qy : BitVec 384 := 0
  deriving DecidableEq, Repr

/-! The Vangir engine (R398 to R429). -/

/-- A reliable message sent and not acknowledged (R420). -/
structure VgTx where
  seq : Nat
  bytes : List Byte
  first : Nat
  deadline : Nat
  rto : Nat
  /-- retransmissions made -/
  resent : Nat
  /-- messages sent after it that are acknowledged, and whether it was retransmitted fast -/
  passed : Nat
  fast : Bool
  /-- it answers a request (and frees a slot when acknowledged) -/
  answer : Bool
  deriving DecidableEq, Repr

/-- An UPDATE message whose response is not sent (R415): its records still open, and its reports by place. -/
structure VgUpd where
  rseq : W32
  nrec : Nat
  left : Nat
  reports : List (Nat × List Byte)
  deriving DecidableEq, Repr

/-- A session. -/
structure VgSess where
  isOpen : Bool := false
  /-- openings so far -/
  inc : Nat := 0
  close : Byte := 0
  nonce : BitVec 56 := 0
  /-- NONCE_E of the incarnation, and the traffic keys K_1 and K_2 of R408 -/
  nonceE : BitVec 56 := 0
  keyRx : BitVec 256 := 0
  keyTx : BitVec 256 := 0
  recent : List (BitVec 56) := []
  delivered : Bool := false
  /-- extended counters (R410): next reliable number expected and to send, last unreliable accepted, next unreliable -/
  rxNext : Nat := 0
  txNext : Nat := 0
  rxUnrel : Option Nat := none
  txUnrel : Nat := 0
  held : List (Nat × VBody) := []
  unacked : List VgTx := []
  /-- O of R422: requests delivered whose responses are not acknowledged -/
  owed : Nat := 0
  /-- U and ULIMIT of R423 -/
  lines : W32 := 0
  ulimit : W32 := 0
  /-- the ACCEPT body sent at opening -/
  accept : List Byte := []
  srtt : Option (Nat × Nat) := none
  rto : Nat := 3000000
  retx : W32 := 0
  disc : W32 := 0
  rxdrop : W32 := 0
  lastTx : Nat := 0
  lastRx : Nat := 0
  /-- something the partner has not been told since the last message (R418) -/
  ackDue : Bool := false
  /-- CONTROL requests taken one at a time (R416), the first in progress when `ctlBusy` -/
  ctl : List (W32 × VBody) := []
  ctlBusy : Bool := false
  upd : List VgUpd := []
  deriving DecidableEq, Repr

/-- A next hop (R399). -/
structure Neigh where
  addr : BitVec 128
  mac : Option (BitVec 48)
  /-- solicitations unanswered -/
  asked : Nat
  deriving DecidableEq, Repr

/-! The ports (R374 to R396). -/

/-- A MACsec secure association (R382, R383). -/
structure Sa where
  /-- next packet number to send, or lowest to accept -/
  pn : Nat
  ssci : W32
  salt : BitVec 96
  sak : BitVec 256
  deriving DecidableEq, Repr

/-- A frame that waits to be sent: PTP or another, and its payload. -/
structure TxFrame where
  ptp : Bool
  dst : BitVec 48
  etype : W16
  bytes : List Byte
  deriving DecidableEq, Repr

/-- A sub-port. -/
structure SubPort where
  up : Bool := false
  flaps : W16 := 0
  lastFlapLog : Option Nat := none
  txSa : Sparse (Option Sa) := []
  cur : Option Nat := none
  rxSci : Sparse (Option W64) := []
  /-- receive association a of channel r at r × 4 + a -/
  rxSa : Sparse (Option Sa) := []
  rpw : W32 := 64
  ctr : Sparse W64 := []
  nosess : W32 := 0
  route : Sparse Byte := []
  neigh : List Neigh := []
  txq : List TxFrame := []
  /-- the lack of a transmit association is logged (R385) -/
  noSa : Bool := false
  deriving DecidableEq, Repr

/-- What the time receiver keeps of a port (R388, R390). -/
structure PtpPort where
  data : Option PtpDataset := none
  announces : Nat := 0
  qualified : Bool := false
  better : Nat := 0
  /-- the last Sync: its corrected origin time and its local timestamp -/
  sync : Option (Int × Int) := none
  /-- mean path delay, once measured -/
  delay : Option Int := none
  asym : W32 := 0
  deriving DecidableEq, Repr

/-- The time receiver. -/
structure PtpSt where
  ports : Sparse PtpPort := []
  src : Option Nat := none
  state : Nat := 0
  /-- Sync intervals that the filtered offset has stayed within ±50 ns -/
  good : Nat := 0
  /-- when HOLDOVER was entered -/
  holdFrom : Nat := 0
  offset : Int := 0
  freq : Int := 0
  domain : Byte := 0
  deriving DecidableEq, Repr

/-- The network part of the device. -/
structure Net where
  subs : Sparse SubPort := []
  /-- each cage: MODSTATE + 4 × the module's host interface, a MODE of R374 -/
  mods : Sparse Nat := []
  ptp : PtpSt := {}
  sess : Sparse VgSess := []
  /-- the sessions of the CONTROL requests that wait to be taken, in the order they arrived (R113, R416) -/
  ctlOrder : List Nat := []
  keys : Sparse (Option (BitVec 256)) := []
  /-- NP_MSEC_REC and VG_KEY_REC, with their result registers: DONE and CODE -/
  msecRec : Sparse Byte := []
  msecDone : Bool := false
  msecCode : Byte := 0
  keyRec : Sparse Byte := []
  keyDone : Bool := false
  keyCode : Byte := 0
  deriving DecidableEq, Repr

/-! The host link and the Welt (R347 to R371). -/

/-- The state of a Welt line (R360); an absent line is I. -/
inductive LineSt where
  | m | e | s
  deriving DecidableEq, Repr

/-- A line of the Welt. -/
structure WLine where
  st : LineSt
  bytes : List Byte
  poison : Bool
  way : Nat
  used : Nat
  deriving DecidableEq, Repr

/-- A store of a parcel that waits for its host line in E or M (R360, R361); `asked`: its RdOwn has been sent. -/
structure HostStore where
  parcel : Nat
  addr : Nat
  bytes : List Byte
  asked : Bool
  deriving DecidableEq, Repr

/-- The host link and the Welt. -/
structure HostPort where
  up : Bool := false
  flit : Bool := false
  cache : Bool := false
  degraded : Bool := false
  speed : Nat := 0
  width : Nat := 0
  /-- PERST_n is asserted -/
  perst : Bool := false
  /-- the link went down unplanned: host accesses are poisoned (R368) -/
  dead : Bool := false
  /-- lines by host address / 64 -/
  lines : Sparse (Option WLine) := []
  clock : Nat := 0
  /-- stores that wait for their lines, in the order they are performed -/
  stores : List HostStore := []
  /-- frames that never hold a line again, by set × 16 + way (R495) -/
  masked : Sparse Bool := []
  flushing : Bool := false
  invalid : Bool := false
  disabled : Bool := false
  lostLines : W32 := 0
  lostRecs : W32 := 0
  deriving DecidableEq, Repr

/-! Temperature and power (R458 to R477). -/

/-- What the throttle keeps of a cell. -/
structure ThCell where
  temps : List Int := []
  low : Option Nat := none
  rise : Option Nat := none
  held : Bool := false
  emerg : Bool := false
  deriving DecidableEq, Repr

/-- What it keeps of a stack: the samples of its four sensors, its cap. -/
structure ThStack where
  temps : Sparse (List Int) := []
  cap : Nat := 0
  release : Option Nat := none
  emerg : Bool := false
  deriving DecidableEq, Repr

/-- The cycle counter of a unit (R476): minimum, and peak once 20 °C above it was reached. -/
structure ThTrack where
  low : Option Int := none
  peak : Option Int := none
  deriving DecidableEq, Repr

/-- Temperature and power. -/
structure Th where
  /-- the clock code that each VDD_Cn is set for (R580, R581) -/
  die : Sparse Nat := []
  cells : Sparse ThCell := []
  stks : Sparse ThStack := []
  hub : Sparse (List Int) := []
  vr : Sparse (List Int) := []
  cool : List Int := []
  coolOut : Bool := false
  /-- the coolant reading stands above its envelope, reported (R461) -/
  coolHot : Bool := false
  hubHot : Bool := false
  /-- the last hundred samples of input power, W; the last of each input -/
  power : List Nat := []
  ins : List Nat := [0, 0, 0]
  peak : W32 := 0
  limit : W32 := 1150
  /-- capacity of the two 12V-2x6 connectors of a card; none on a sled -/
  capacity : Option (Nat × Nat) := none
  vrDerate : Bool := false
  /-- since when the average stays at or below the effective limit less 50 W; since when R474's conditions hold -/
  under : Option Nat := none
  overAt : Option Nat := none
  pemerg : Bool := false
  lastStep : Option Nat := none
  /-- R462, R465: the last steps of a cell's clock and of a stack's cap. -/
  lastCell : Option Nat := none
  lastCap : Option Nat := none
  lastRise : Option Nat := none
  emergs : W32 := 0
  /-- sticky: TH_HOTSTOP, TH_HOTSTOP_DATUM, TH_CYC at u × 3 + b -/
  hotstop : W32 := 0
  hotstopDatum : W64 := 0
  hotstopPin : Bool := false
  cyc : Sparse W32 := []
  track : Sparse ThTrack := []
  deriving DecidableEq, Repr

/-! Survey and wear (R482 to R504). -/

/-- A survey agent: its region, the passes it has made over its regions, its completed tests of tile files and of other
regions, and the test under way: whether it is PATTERN. -/
structure SvAgent where
  region : Nat := 0
  passes : Nat := 0
  tiles : Nat := 0
  others : Nat := 0
  testing : Option Bool := none
  deriving DecidableEq, Repr

/-- Survey and repair. -/
structure Sv where
  ctrl : W32 := 0xF
  failed : W32 := 0
  run : W32 := 0
  nofit : W16 := 0
  nosave : W16 := 0
  overrun : W16 := 0
  abandon : W16 := 0
  /-- cells, then 128 + stack × 32 + pseudo-channel, then 384 the Welt -/
  agents : Sparse SvAgent := []
  head : W32 := 0
  res : Sparse (List Byte) := []
  postFirst : Byte := 0
  postFails : W16 := 0
  deriving DecidableEq, Repr

/-- The running wear values of a unit. -/
structure WeUnit where
  /-- equivalent stress in 2^−32 hours -/
  heq : Nat := 0
  /-- thermal cycles by bin, counted before the last cold reset -/
  cyc : List Nat := [0, 0, 0]
  /-- hourly drifts, newest first, 24 at most -/
  drifts : List Int := []
  /-- stress, damage and spares spent in each of the last 720 hours, newest first -/
  hours : List (Nat × Nat × Nat) := []
  /-- lifetime damage and spares spent at the end of the last hour -/
  dmg : Nat := 0
  spent : Nat := 0
  /-- readings and clock codes summed over the present hour, and their count -/
  tempSum : Int := 0
  clkSum : Nat := 0
  samples : Nat := 0
  /-- samples of the present hour in which the unit was not gated -/
  awake : Nat := 0
  deriving DecidableEq, Repr

/-- The wear store's running values and what is committed (R500). -/
structure We where
  units : Sparse WeUnit := []
  life : Nat := 0
  fences : BitVec 128 := 0
  /-- spares used by SRAM region, rows × 16 + columns: region j of cell n at n × 1,024 + j, banks 0 to 255, tiles 256 to
  271, the accumulator 272; Welt segment j at 128 × 1,024 + j -/
  spares : Sparse Nat := []
  /-- spares spent in cells in the last 720 hours: powered hour, region, count -/
  spareLog : List (Nat × Nat × Nat) := []
  drift : Sparse Int := []
  /-- committed: units, powered hours, TH_CYC -/
  stUnits : Sparse WeUnit := []
  stLife : Nat := 0
  stCyc : Sparse W32 := []
  eolNow : W32 := 0xFFFFFFFF
  eolRated : W32 := 0xFFFFFFFF
  fenceH : W32 := 0xFFFFFFFF
  limit : W32 := 0
  deriving DecidableEq, Repr

/-! Trace and counters (R536 to R551). -/

/-- A trace record in the input queue (R541), its number and LOSS apart. -/
structure TrRec where
  datum : Nat
  cls : Nat
  event : Nat
  parcel : Byte
  qindex : Byte
  unit : W16
  aux : W16
  epoch : W32
  arg : W64
  deriving DecidableEq, Repr

/-- A snapshot of a boundary (R547). -/
structure Snap where
  epoch : W64
  datum : Nat
  cycle : W64
  counts : Sparse W64
  deriving DecidableEq, Repr

/-- Trace and counters. -/
structure Ob where
  ctrl : W64 := 0x0F000000FFFF0000
  run : Bool := false
  full : Bool := false
  cause : Nat := 0
  wptr : W64 := 0
  drop : W32 := 0
  wbase : W32 := 0
  loss : Bool := false
  queue : List TrRec := []
  cycle : W64 := 0
  /-- the part of the next ns that has run, in 1/(6 × 10^9) ns -/
  frac : Nat := 0
  csel : Sparse W32 := []
  cnt : Sparse W64 := []
  /-- the latest snapshot, and the wraps and reselections of each counter since its boundary -/
  snap : Option Snap := none
  wrapsNow : Sparse Nat := []
  reselNow : Sparse Bool := []
  deriving DecidableEq, Repr

/-! The management plane (R517, R562, R584 to R598). -/

/-- A secured SPDM session. -/
structure SpdmSess where
  eid : Byte
  /-- the key exchange is answered; it is established; mutual authentication ended in a usable key -/
  open_ : Bool
  auth : Bool
  last : Nat
  deriving DecidableEq, Repr

/-- A firmware update in progress (R594 to R596). -/
structure FwUpd where
  eid : Byte
  /-- the component table is taken -/
  table : Bool
  /-- the component being written: 1 slot A, 2 slot B; 0 none yet -/
  comp : Nat
  size : Nat
  got : Nat
  verify : Option Byte
  /-- a write to the slot has failed (R84) -/
  failed : Bool := false
  deriving DecidableEq, Repr

/-- A platform event held for its receiver (R593). -/
structure PldmEvent where
  id : W16
  cls : Byte
  data : List Byte
  sent : Nat
  deriving DecidableEq, Repr

/-- The management plane. -/
structure Mg where
  /-- MG_ID.ASSEMBLY: 1 to 4 -/
  assembly : Byte := 1
  step : Nat := 1
  orderDone : Bool := false
  orderCode : Byte := 0
  resetCause : Byte := 0
  retire : Byte := 0
  keyRec : Sparse Byte := []
  keyDone : Bool := false
  keyCode : Byte := 0
  slots : Sparse KeySlot := []
  /-- the key slot last programmed, and the datum of that programming (R562) -/
  fusing : Option (Nat × Nat) := none
  /-- addresses: I3C dynamic address, MCTP endpoint ID, PLDM terminus ID, event receiver -/
  addr : Option (BitVec 7) := none
  eid : Byte := 0
  tid : Byte := 0
  receiver : Option Byte := none
  events : List PldmEvent := []
  nextEvent : W16 := 0
  /-- ALERT_n asserted -/
  alertPin : Bool := false
  /-- the owner of UNLASTED (R70, R588) -/
  owner : Option Byte := none
  spdm : Sparse (Option SpdmSess) := []
  fw : Option FwUpd := none
  /-- the standby supply is present; the main rails are up or come up -/
  standby : Bool := false
  rails : Bool := false
  deriving DecidableEq, Repr

/-- An order that took effect in the present hub-die cycle (R143): its opcode, and the queue and slot it names. -/
structure OrdMark where
  parcel : Nat
  op : Nat
  queue : Option Nat
  slot : Option Nat
  wide : Bool
  deriving DecidableEq, Repr

/-- What the present hub-die cycle has met (R72, R100, R113, R143). -/
structure CycleSt where
  /-- the orders that took effect -/
  orders : List OrdMark := []
  /-- the ingresses that presented an order, and those that presented a request -/
  ings : List Nat := []
  reqIngs : List Nat := []
  /-- the requests accepted to queues: parcel, queue, source, ingress -/
  reqs : List (Nat × Nat × ReqSrc × Nat) := []
  /-- the ingress whose image push was evaluated -/
  push : Option Nat := none
  /-- the other cells of an instance that a fault ended, with whether it was a launched one (R216) -/
  faulted : List (Nat × Bool) := []
  deriving DecidableEq, Repr

/-- What leaves the device: the model's own record of its effects on the outside. -/
inductive Output where
  /-- a completion record written to host address `addr` (R139) -/
  | cqWrite (f : Fin 8) (addr : Nat) (bytes : List Byte)
  /-- an MSI-X message of a function's vector (R356) -/
  | msix (f : Fin 8) (vector : Nat)
  /-- a Vangir message on a session as it is sent: header (R401), body, and its tag where it is protected (R409) -/
  | message (sess : Fin 256) (bytes : List Byte)
  /-- bytes written to host memory at an address (DirtyEvict or write-back, R361); `poison`: they carry poison -/
  | hostWrite (addr : Nat) (bytes : List Byte) (poison : Bool)
  /-- a Welt request of R361 for a line: 0 RdShared, 1 RdOwn, 2 RdOwnNoData, 3 CleanEvictNoData, 4 CacheFlushed -/
  | weltReq (kind : Nat) (addr : Nat)
  /-- the answer to a host snoop: whether the line was held, its state after, its bytes when they travel -/
  | snoopRsp (addr : Nat) (held : Bool) (after : Option LineSt) (bytes : Option (List Byte)) (poison : Bool)
  /-- a frame sent by sub-port `i`, its association and packet number when protected (R385) -/
  | frame (i : Nat) (sa : Option (Nat × Nat)) (f : TxFrame)
  /-- a management message: MCTP type, destination (0: the endpoint that asked), body. The body of a message of a published
  standard is given as its command code, its completion code, and the values that the spec gives, in the standard's order -/
  | mctp (type : Nat) (eid : Byte) (body : List Byte)
  /-- what a BAR0 read returned to accessor `a`: 0 the management plane, 1 + f function f -/
  | bar0 (a : Nat) (v : W64)
  /-- the PPS_OUT pulse of a whole second (R583) -/
  | pps (second : Nat)
  deriving DecidableEq, Repr

end Sys2Proof.Machine
end

