-- ==== Sys2Proof/Machine/State.lean ====
section
/-! DEFINITION. The state of the E40: every register, buffer, counter and mode the spec gives it, and the queue of the
commands that wait. -/

namespace Sys2Proof.Machine

/-- Why a step may stop the model with a fault. No meaning of this model raises one: every breach the spec names has an
outcome that the spec states, and the machine goes on (safe). -/
inductive Fault where
  /-- an internal access to an address the spec says holds nothing (R15, R17): raised by nobody (safe) -/
  | nothingThere (addr : Nat)
  deriving DecidableEq, Repr

/-- Why a command may have no meaning. -/
inductive Refusal where
  /-- raised by an arm of `exec` for a command whose meaning is not written (safe) -/
  | notModelled (mnemonic : String)
  deriving DecidableEq, Repr

/-- The whole machine. -/
structure State where
  /-- the commands that wait, first in, first out -/
  pending : List Instr := []
  dev : DevState := .off
  /-- the datum in ns (R86, R192) -/
  datum : Nat := 0
  tk : TickSt := {}
  lc : LocalClk := {}
  cells : Sparse Cell := []
  parcels : Sparse Parcel := []
  insts : Sparse (Option Inst) := []
  nextInst : Nat := 0
  stk : Stacks := {}
  er : ErrLog := {}
  /-- the present hub-die cycle (R113, R114) -/
  cyc : CycleSt := {}
  /-- accessors: 0 the management plane, 1 + f function f -/
  ords : Sparse OrdSt := []
  img : ImgSt := {}
  net : Net := {}
  host : HostPort := {}
  th : Th := {}
  sv : Sv := {}
  we : We := {}
  ob : Ob := {}
  mg : Mg := {}
  /-- the model's own count of free values used -/
  fresh : Nat := 0
  /-- the model's own record of what left the device, newest first -/
  out : List Output := []
  deriving DecidableEq, Repr

/-- The machine right after reset. -/
def State.reset : State := {}

end Sys2Proof.Machine
end

