-- ==== Sys2Proof/Machine/Env.lean ====
section
/-! DEFINITION. The named operations over the state: cells, parcels, queues, instances, the error log, stacked memory,
segments and windows. -/

namespace Sys2Proof.Machine

/-- The outcome of a command. -/
abbrev Out := Host.Outcome State Fault Refusal

/-! Parts of the state. -/

/-- An unlisted cell. -/
def Cell.zero : Cell := {}
/-- Cell `n`. -/
def State.cell (s : State) (n : Nat) : Cell := spGet Cell.zero s.cells n
/-- Replaces cell `n`. -/
def State.setCell (s : State) (n : Nat) (c : Cell) : State := { s with cells := spPut Cell.zero c n s.cells }
/-- Changes cell `n`. -/
def State.modCell (s : State) (n : Nat) (f : Cell → Cell) : State := s.setCell n (f (s.cell n))

/-- An unlisted parcel: absent. -/
def Parcel.zero : Parcel := {}
/-- Parcel `p`. -/
def State.parcel (s : State) (p : Nat) : Parcel := spGet Parcel.zero s.parcels p
/-- Replaces parcel `p`. -/
def State.setParcel (s : State) (p : Nat) (x : Parcel) : State :=
  { s with parcels := spPut Parcel.zero x p s.parcels }
/-- Changes parcel `p`. -/
def State.modParcel (s : State) (p : Nat) (f : Parcel → Parcel) : State := s.setParcel p (f (s.parcel p))

/-- An unlisted queue. -/
def Queue.zero : Queue := {}
/-- Queue `q` of a parcel. -/
def Parcel.queue (x : Parcel) (q : Nat) : Queue := spGet Queue.zero x.queues q
/-- Replaces queue `q` of a parcel. -/
def Parcel.setQueue (x : Parcel) (q : Nat) (v : Queue) : Parcel :=
  { x with queues := spPut Queue.zero v q x.queues }
/-- Queue `q` of parcel `p`. -/
def State.queue (s : State) (p q : Nat) : Queue := (s.parcel p).queue q
/-- Changes queue `q` of parcel `p`. -/
def State.modQueue (s : State) (p q : Nat) (f : Queue → Queue) : State :=
  s.modParcel p (fun x => x.setQueue q (f (x.queue q)))

/-- An unlisted graph slot: EMPTY. -/
def GraphSlot.zero : GraphSlot := {}
/-- Graph slot `g` of a parcel. -/
def Parcel.gslot (x : Parcel) (g : Nat) : GraphSlot := spGet GraphSlot.zero x.slots g
/-- Replaces graph slot `g`. -/
def Parcel.setSlot (x : Parcel) (g : Nat) (v : GraphSlot) : Parcel :=
  { x with slots := spPut GraphSlot.zero v g x.slots }

/-- A segment of a context, when it is valid. -/
def Parcel.seg (x : Parcel) (ctx seg : Nat) : Option SegDesc :=
  if 16 ≤ seg then none else spGet none x.segs (ctx * 16 + seg)

/-- The descriptor of a table, when its entry is valid (R278). -/
def Parcel.table (x : Parcel) (tid : Nat) : Option TableDesc := spGet none x.tables tid

/-- The QUEUES entry of a queue. -/
def Parcel.qcfg (x : Parcel) (q : Nat) : Option QueueCfg := x.cfg.queues.find? (fun e => decide (e.q = q))

/-- Instance `i`. -/
def State.inst (s : State) (i : Nat) : Option Inst := spGet none s.insts i
/-- Replaces instance `i`. -/
def State.setInst (s : State) (i : Nat) (v : Option Inst) : State := { s with insts := spPut none v i s.insts }
/-- Changes instance `i` where it exists. -/
def State.modInst (s : State) (i : Nat) (f : Inst → Inst) : State := s.setInst i ((s.inst i).map f)

/-- The instances of a parcel, by number. -/
def State.instsOf (s : State) (p : Nat) : List (Nat × Inst) :=
  s.insts.filterMap (fun e => match e.2 with
    | some i => if i.parcel.val = p then some (e.1, i) else none
    | none => none)

/-- Order window `a`: 0 the management plane, 1 + f function f. -/
def OrdSt.zero : OrdSt := {}
/-- The order window of an accessor. -/
def State.ord (s : State) (a : Nat) : OrdSt := spGet OrdSt.zero s.ords a
/-- Changes the order window of an accessor. -/
def State.modOrd (s : State) (a : Nat) (f : OrdSt → OrdSt) : State :=
  { s with ords := spMod OrdSt.zero s.ords a f }

/-- Records something that leaves the device. -/
def State.emit (s : State) (o : Output) : State := { s with out := o :: s.out }

/-- Uses one free value. -/
def State.useFresh (s : State) : State := { s with fresh := s.fresh + 1 }

/-- The datum reaches instant `t`; it never goes back. The local time counter counts the same ns, and a hub-die cycle in
which time passes is over. -/
def State.at (s : State) (t : Nat) : State :=
  { s with
    datum := max s.datum t, lc := { s.lc with ctr := s.lc.ctr + (t - s.datum) }
    cyc := if s.datum < t then {} else s.cyc }

/-! The tick (R85 to R90). -/

/-- T of the image in force, ns. -/
def DevCfg.tickNs (c : DevCfg) : Nat := c.period * 10000
/-- R80: ns from the end of a build at instant `now` to the first boundary: the first aligned one when ALIGN is set, else
none (DESIGN CHOICE, log 86). -/
def DevCfg.firstTick (c : DevCfg) (now : Nat) : Nat := if c.align then max 1 c.tickNs - now % max 1 c.tickNs else 0
/-- R90: where the compute phases end, in ns from the boundary: T − S − D. -/
def DevCfg.computeEnd (c : DevCfg) : Nat := c.tickNs - (c.survey + c.drain) * 1000
/-- R85, R90: where a parcel's compute phase starts, in ns from the boundary: B + W. -/
def ParcelCfg.computeFrom (c : ParcelCfg) : Nat := 3000 + c.updWin * 1000
/-- Boundaries have come and the tick machine runs. -/
def State.ticking (s : State) : Bool := s.tk.run && s.tk.started
/-- ns since the last boundary, on the local time counter (R86). -/
def State.offset (s : State) : Nat := s.lc.ctr - s.lc.edge
/-- R93, R95: whether the compute phase of parcel p is open now. -/
def State.computing (s : State) (p : Nat) : Bool := (s.parcel p).inCompute && decide (s.offset < s.img.cfg.computeEnd)

/-- A count that stops at its largest value. -/
def satAdd32 (a : W32) (n : Nat) : W32 := BitVec.ofNat 32 (min (a.toNat + n) 0xFFFFFFFF)

/-! Sensor readings (R458), in units of 0.125 °C. -/

/-- The mean of a sensor's last samples; 0 before the first. -/
def meanOf (l : List Int) : Int := if l.isEmpty then 0 else l.foldl (· + ·) 0 / l.length

/-- The highest of a list; 0 for none. -/
def highest : List Int → Int
  | [] => 0
  | a :: t => t.foldl max a

/-- What the throttle keeps of an unlisted cell. -/
def ThCell.zero : ThCell := {}
/-- What the throttle keeps of cell n. -/
def State.thCell (s : State) (n : Nat) : ThCell := spGet ThCell.zero s.th.cells n
/-- The reading of a cell. -/
def State.cellTemp (s : State) (n : Nat) : Int := meanOf (s.thCell n).temps

/-- The stacks whose cap reaches into the parcels' shares. -/
def State.stackEmerg (s : State) (k : Nat) : Bool := (spGet {} s.th.stks k).emerg

/-! Survey agents (R482): cells 0 to 127, pseudo-channel c of stack k at 128 + 32 × k + c, the Welt at 384. -/

/-- A survey agent before its first test. -/
def SvAgent.zero : SvAgent := {}
/-- A survey agent. -/
def State.agent (s : State) (k : Nat) : SvAgent := spGet SvAgent.zero s.sv.agents k
/-- Changes a survey agent. -/
def State.modAgent (s : State) (k : Nat) (f : SvAgent → SvAgent) : State :=
  { s with sv := { s.sv with agents := spMod SvAgent.zero s.sv.agents k f } }
/-- Whether an agent tests its region now. -/
def State.testing (s : State) (k : Nat) : Bool := (s.agent k).testing.isSome
/-- R483: whether a cell of a parcel is under test: what reaches it waits. -/
def State.cellsTested (s : State) (p : Nat) : Bool :=
  (List.range 128).any (fun n => (s.parcel p).cfg.cells.getLsbD n && s.testing n)
/-- R171, R486: whether a store byte of cell n lies in a bank under test. -/
def State.bankTested (s : State) (n a : Nat) : Bool := s.testing n && decide ((s.agent n).region = a / 128 % 256)

/-! The rails of the compute dies (R580, R581). -/

/-- R580: the highest clock code among the cells of die d that run: ungated, or woken for a test. -/
def State.dieNeed (s : State) (d : Nat) : Nat :=
  (List.range 32).foldl (fun m k =>
    let n := 32 * d + k
    if (s.cell n).graph.isSome || s.testing n then max m (s.cell n).clk else m) 0

/-- R581: the rail of a cell's die rises for a clock code before the cell takes it. -/
def State.raiseDie (s : State) (n code : Nat) : State :=
  { s with th := { s.th with die := spMod 0 s.th.die (n / 32) (max code) } }

/-- R581: the rail of die d falls to its value once clocks have fallen. -/
def State.fallDie (s : State) (d : Nat) : State :=
  { s with th := { s.th with die := spPut 0 (s.dieNeed d) d s.th.die } }

/-- R580: VDD_Cn in millivolts. -/
def State.dieMv (s : State) (d : Nat) : Nat := 600 + 15 * spGet 0 s.th.die d

/-! The error log's input queue (R526, R528, R530). -/

/-- A log entry with the fields that its code does not name at their none values. -/
def logEntry (s : State) (code : Nat) : LogEntry :=
  { datum := s.datum, code := BitVec.ofNat 16 code, cls := 0, parcel := 0xFF, unit := 0, qindex := 0xFF, aux := 0
    arg := 0, cont := none }

/-- R530: an entry enters the input queue of 64, or adds to ER_DROPPED; a continuation takes a second place. R533: once
the store has failed, the event is only counted. -/
def State.log (s : State) (e : LogEntry) : State :=
  if s.er.lost then { s with er := { s.er with lostCount := satAdd32 s.er.lostCount 1 } } else
  let size (x : LogEntry) : Nat := if x.cont.isSome then 2 else 1
  let used := s.er.queue.foldl (fun n x => n + size x) 0
  if used + size e ≤ 64 then { s with er := { s.er with queue := s.er.queue ++ [e] } }
  else { s with er := { s.er with dropped := satAdd32 s.er.dropped (size e) } }

/-- An entry of a parcel. -/
def State.logP (s : State) (code p : Nat) (f : LogEntry → LogEntry) : State :=
  s.log (f { logEntry s code with parcel := BitVec.ofNat 8 p })

/-! Accessors, sub-ports and sessions. -/

/-- A sub-port. -/
def SubPort.zero : SubPort := {}
def State.sub (s : State) (i : Nat) : SubPort := spGet SubPort.zero s.net.subs i
/-- Changes a sub-port. -/
def State.modSub (s : State) (i : Nat) (f : SubPort → SubPort) : State :=
  { s with net := { s.net with subs := spMod SubPort.zero s.net.subs i f } }

/-- A session. -/
def VgSess.zero : VgSess := {}
def State.vg (s : State) (n : Nat) : VgSess := spGet VgSess.zero s.net.sess n
/-- Changes a session. -/
def State.modVg (s : State) (n : Nat) (f : VgSess → VgSess) : State :=
  { s with net := { s.net with sess := spMod VgSess.zero s.net.sess n f } }

/-- Changes the Welt and the host link. -/
def State.modHost (s : State) (f : HostPort → HostPort) : State := { s with host := f s.host }

/-! Trace and counters (R540 to R545). -/

/-- Low 32 bits of TK_EPOCH; 0 while the tick machine is stopped (R526, R541). -/
def State.epoch32 (s : State) : W32 := if s.tk.run then s.tk.epoch.setWidth 32 else 0

/-- R540, R542: an event enters the trace's input queue of 4,096 when the trace runs and its filters pass it;
one that finds no room, or a full trace, is counted. -/
def State.trace (s : State) (cls event : Nat) (parcel : Option Nat) (q : Option Nat) (unit aux : Nat) (arg : W64) : State :=
  let want := (s.ob.run || s.ob.full) && (decide (cls = 15) || (s.ob.ctrl.getLsbD cls &&
    (match parcel with | some p => s.ob.ctrl.getLsbD (16 + p) | none => true)))
  if !want then s
  else if s.ob.run && decide (s.ob.queue.length < 4096) then
    let byte (o : Option Nat) : Byte := match o with | some x => BitVec.ofNat 8 x | none => 0xFF
    { s with ob := { s.ob with queue := s.ob.queue ++ [{
        datum := s.datum, cls := cls, event := event, parcel := byte parcel, qindex := byte q
        unit := BitVec.ofNat 16 unit, aux := BitVec.ofNat 16 aux, epoch := s.epoch32, arg := arg }] } }
  else { s with ob := { s.ob with drop := satAdd32 s.ob.drop 1, loss := true } }

/-- R544: the units that an event code counts; none for a code outside the table. -/
def eventUnits (ev : Nat) : Option Nat :=
  if ev = 1 then some 1
  else if 0x10 ≤ ev ∧ ev ≤ 0x16 then some 128
  else if 0x20 ≤ ev ∧ ev ≤ 0x23 then some 256
  else if ev = 0x30 ∨ ev = 0x31 then some 8
  else if 0x40 ≤ ev ∧ ev ≤ 0x42 then some 512
  else if ev = 0x50 then some 16
  else if ev = 0x60 ∨ ev = 0x61 then some 256
  else none

/-- R544: whether a selection counts an event of a unit that belongs to a parcel. -/
def cselCounts (sel : W32) (ev unit : Nat) (parcel : Option Nat) : Bool :=
  let v := sel.toNat
  sel.getLsbD 31 && decide (v % 4096 = ev) && (decide (ev = 1) || decide (bits v 12 9 = unit)) && (eventUnits ev).isSome
    && (!sel.getLsbD 25 || (match parcel with | some p => decide (bits v 21 4 = p) | none => false))

/-- R544, R545: every counter that selects the event rises by k, continuing from 0 past 2^48 − 1, with the wrap counted
for every snapshot reader. -/
def State.countEvent (s : State) (ev unit : Nat) (parcel : Option Nat) (k : Nat) : State :=
  s.ob.csel.foldl (fun s e =>
    if cselCounts e.2 ev unit parcel then
      let v := (spGet 0 s.ob.cnt e.1).toNat + k
      let s := { s with ob := { s.ob with cnt := spPut 0 (BitVec.ofNat 64 (v % 2 ^ 48)) e.1 s.ob.cnt } }
      if v < 2 ^ 48 then s
      else { s with ob := { s.ob with wrapsNow := spMod 0 s.ob.wrapsNow e.1 (fun w => min 127 (w + v / 2 ^ 48)) } }
    else s) s

/-! Stacked memory (R432 to R435, R446). -/

/-- R281: the row stride of a table. -/
def TableDesc.rstride (t : TableDesc) : Nat :=
  let h := if t.train then 8 else 4
  let cw := if t.code4 then 4 else 8
  32 * ((h + t.dim * cw / 8 + 31) / 32)

/-- The bytes of a table's range (R280). -/
def TableDesc.bytes (t : TableDesc) : Nat := t.rows * t.rstride

/-- The set bits of a stack mask, ascending. -/
def stackList (mask : Nat) : List Nat := (List.range 8).filter (fun k => decide (mask / 2 ^ k % 2 = 1))

/-- R433: stack × 2^36 + stack-local address of a device address in a range of origin O, granule g and stacks. -/
def placeAt (origin gran : Nat) (stks : List Nat) (a : Nat) : Nat :=
  let j := (a - origin) / gran
  let n := stks.length
  (stks.getD (j % n) 0) * 2 ^ 36 + origin / 8 + j / n * gran + (a - origin) % gran

/-- The first byte of a parcel's region, its size, and the first byte of its update log. -/
def ParcelCfg.regionBase (c : ParcelCfg) : Nat := c.memBase * 2 ^ 30
def ParcelCfg.regionSize (c : ParcelCfg) : Nat := c.memUnits * 2 ^ 30
def ParcelCfg.logBase (c : ParcelCfg) : Nat := c.regionBase + c.regionSize - c.ulog * 2 ^ 26

/-- The valid table whose range holds a device address. -/
def Parcel.tableAt (x : Parcel) (a : Nat) : Option TableDesc :=
  (x.tables.filterMap (·.2)).find? (fun t => decide (t.base ≤ a) && decide (a < t.base + t.bytes))

/-- R303, R329, R433: where a byte of a parcel's stacked memory lives, its segment placing what no table places. -/
def Parcel.place (x : Parcel) (stks gran a : Nat) : Nat :=
  if x.cfg.logBase ≤ a then placeAt x.cfg.logBase 64 (List.range 8) a
  else match x.tableAt a with
  | some t => placeAt t.base t.rstride (stackList t.stks.toNat) a
  | none => placeAt x.cfg.regionBase (2 ^ (6 + gran)) (stackList stks) a

/-- R434: whether a place lies in the stack space of the parcel region. -/
def Parcel.inSpace (x : Parcel) (phys : Nat) : Bool :=
  let l := phys % 2 ^ 36
  decide (x.cfg.regionBase / 8 ≤ l) && decide (l < (x.cfg.regionBase + x.cfg.regionSize) / 8)

/-- The mark of an undefined byte (R284, R329). -/
def Stacks.mark (k : Stacks) (a : Nat) : Option Nat := markAt k.unsettled a

/-- Takes a range out of the undefined ones: its bytes are written. -/
def Stacks.settle (k : Stacks) (lo hi : Nat) : Stacks := { k with unsettled := settleRange k.unsettled lo hi }

/-- R284, R329: the bytes of a parcel's range from `lo` up to `hi` are placed anew, by their tables or else by `stks` and
`gran`: those written under another placement become undefined, under a new mark, and the others are as they were written. -/
def State.placeAnew (s : State) (p lo hi stks gran : Nat) : State :=
  let x := s.parcel p
  let k := (s.stk.wrote.filter (fun e => decide (lo ≤ e.1) && decide (e.1 < hi))).foldl (fun (k : Stacks) e =>
    let k := k.settle e.1 (e.1 + 1)
    if x.place stks gran e.1 + 1 = e.2 then k else { k with unsettled := (e.1, e.1 + 1, s.fresh) :: k.unsettled }) s.stk
  { s with stk := k, fresh := s.fresh + 1 }

/-- R329: the valid STACK segments of a parcel place their bytes of a range anew. -/
def State.placeSegs (s : State) (p lo hi : Nat) : State :=
  ((s.parcel p).segs.filterMap (·.2)).foldl (fun s d =>
    if d.target = 2 then s.placeAnew p (max lo d.tbase) (min hi (d.tbase + d.limit)) d.stks d.gran else s) s

/-- One byte of stacked memory as a parcel reads it at place `ph`, and whether it is delivered as poisoned (R434, R446,
R454); a byte last written under this very placement stands as it was written. -/
def State.placedByte (s : State) (p a ph : Nat) : Byte × Bool :=
  if !(s.parcel p).inSpace ph ∨ s.stk.lost.getLsbD (ph / 2 ^ 36) then (0, true)
  else (match (if spGet 0 s.stk.wrote a = ph + 1 then none else s.stk.mark a) with
      | some m => Config.freeByte m a
      | none => spGet 0 s.stk.mem ph,
    spGet false s.stk.poison (ph / 32))

/-- One byte of stacked memory as a parcel reads it under its directory and segments. -/
def State.stackByte (s : State) (p stks gran a : Nat) : Byte × Bool := s.placedByte p a ((s.parcel p).place stks gran a)

/-- Bytes of stacked memory, and whether one of them is delivered as poisoned. -/
def State.stackRead (s : State) (p stks gran a n : Nat) : List Byte × Bool :=
  let l := (List.range n).map (fun i => s.stackByte p stks gran (a + i))
  (l.map (·.1), l.any (·.2))

/-- R434: an access outside the stack space counts in SM_PLACE; the first of a tick writes one entry. -/
def State.placeFault (s : State) (p a : Nat) : State :=
  let s' := s.modParcel p (fun x => { x with smPlace := satAdd32 x.smPlace 1, smPlaceLogged := true })
  if (s.parcel p).smPlaceLogged then s'
  else s'.logP 0x0901 p (fun e => { e with arg := BitVec.ofNat 64 a })

/-- Whether an access of `n` bytes leaves the stack space of the region that places it (R434). -/
def State.misplaced (s : State) (p stks gran a n : Nat) : Bool :=
  (List.range n).any (fun i => !(s.parcel p).inSpace ((s.parcel p).place stks gran (a + i)))

/-- Counts an access of `n` bytes that is misplaced (R434). -/
def State.countPlace (s : State) (p stks gran a n : Nat) : State :=
  if s.misplaced p stks gran a n then s.placeFault p a else s

/-- Writes bytes of stacked memory: bytes outside the stack space are dropped (R434), a whole-sector write clears
poison (R446), and a written byte is defined and stands where it is placed (R284, R329). -/
def State.stackWrite (s : State) (p stks gran a : Nat) (bs : List Byte) : State :=
  let x := s.parcel p
  let pairs := (List.range bs.length).zip bs
  let mem := pairs.foldl (fun m e =>
    let ph := x.place stks gran (a + e.1)
    if x.inSpace ph ∧ !s.stk.lost.getLsbD (ph / 2 ^ 36) then spPut 0 e.2 ph m else m) s.stk.mem
  let poison := (List.range bs.length).foldl (fun m i =>
    let ph := x.place stks gran (a + i)
    if (a + i) % 32 = 0 ∧ i + 32 ≤ bs.length ∧ x.inSpace ph ∧ !s.stk.lost.getLsbD (ph / 2 ^ 36) then
      spPut false false (ph / 32) m else m)
    s.stk.poison
  let wrote := (List.range bs.length).foldl (fun m i =>
    let ph := x.place stks gran (a + i)
    if x.inSpace ph ∧ !s.stk.lost.getLsbD (ph / 2 ^ 36) then spPut 0 (ph + 1) (a + i) m else m) s.stk.wrote
  { s with stk := { s.stk with mem := mem, poison := poison, wrote := wrote }.settle a (a + bs.length) }

/-! Segments and windows (R328, R333, R334). -/

/-- Causes of SG_LAST (R344). -/
inductive SgCause where
  | noContext | invalid | permission | range | kind | outOfWindow
  deriving DecidableEq, Repr

/-- The code of a cause. -/
def SgCause.code : SgCause → Nat
  | .noContext => 1 | .invalid => 2 | .permission => 3 | .range => 4 | .kind => 5 | .outOfWindow => 6

/-- R344: a SEG_FAULT of the parcel adds to SG_FAULTS and writes SG_LAST. -/
def State.segFault (s : State) (p win entry ctx seg : Nat) (cause : SgCause) : State :=
  s.modParcel p (fun x => { x with
    sgFaults := satAdd32 x.sgFaults 1
    sgLast := BitVec.ofNat 64 (win % 4096 * 2 ^ 36 + entry % 1024 * 2 ^ 26 + ctx % 16 * 2 ^ 12 + seg % 16 * 2 ^ 8 +
      cause.code) })

/-- R333: an order window or patch window over a segment, or the cause of the failure. -/
def Parcel.orderWindow (x : Parcel) (ctx seg off len : Nat) (needR needW : Bool) (targets : List Nat) :
    Except SgCause Window :=
  if x.cfg.nctx ≤ ctx then .error .noContext
  else match x.seg ctx seg with
    | none => .error .invalid
    | some d =>
      if d.limit < off + len then .error .range
      else if (needR && !d.permR) || (needW && !d.permW) then .error .permission
      else if !targets.contains d.target then .error .kind
      else .ok ⟨d.target, d.tbase + off, len, d.permR, d.permW, seg, d.stks, d.gran⟩

/-- R334: one pointer-map entry: its window and the value written into the pointer field. -/
def Parcel.pointerWindow (x : Parcel) (ctx i : Nat) (e : PtrEntry) (v len : Nat) : Except SgCause (Window × Nat) :=
  if v = 0 ∧ len = 0 then .ok (⟨0, 0, 0, false, false, e.seg, 0, 0⟩, (i + 1) * 2 ^ 52)
  else match x.seg ctx e.seg with
    | none => .error .invalid
    | some d =>
      if (e.r && !d.permR) || (e.w && !d.permW) then .error .permission
      else
        let o := (v + 2 ^ 64 - d.vbase % 2 ^ 64) % 2 ^ 64
        if (o < d.limit ∨ (o = d.limit ∧ len = 0)) ∧ o + len ≤ d.limit then
          let r := o % 64
          .ok (⟨d.target, d.tbase + o - r, r + len, e.r, e.w, e.seg, d.stks, d.gran⟩, (i + 1) * 2 ^ 52 + r)
        else .error .range

/-- Replaces bytes of a list from an offset. -/
def patchBytes (bs : List Byte) (off : Nat) (new : List Byte) : List Byte :=
  bs.take off ++ new ++ bs.drop (off + new.length)

/-- R334, R335: translates every pointer-map entry in ascending order, rewriting the parameter block; a failure names
its entry and segment. -/
def Parcel.translateAll (x : Parcel) (ctx : Nat) :
    List PtrEntry → Nat → List Byte → List Window → Except (SgCause × Nat × Nat) (List Window × List Byte)
  | [], _, pb, ws => .ok (ws.reverse, pb)
  | e :: t, i, pb, ws =>
    match x.pointerWindow ctx i e (field pb e.pbOff 8) (field pb e.lenOff 4) with
    | .error c => .error (c, i, e.seg)
    | .ok (w, v) => x.translateAll ctx t (i + 1) (patchBytes pb e.pbOff (leBytes 8 v)) (w :: ws)

end Sys2Proof.Machine
end

