-- ==== Sys2Proof/Machine/Link.lean ====
section
/-! DEFINITION. What reaches the outside: Vangir messages (R398 to R424), function events and alerts (R355, R532, R593),
the Welt (R359 to R367), and what the ECC of a stack sector does (R445 to R449). -/

namespace Sys2Proof.Machine

/-! Sessions (R400, R412). -/

/-- The parcel that lists a session, and its entry. -/
def State.sessCfg (s : State) (n : Nat) : Option (Nat × SessCfg) :=
  s.parcels.findSome? (fun e =>
    if e.2.state = .absent then none
    else (e.2.cfg.sessions.find? (fun c => decide (c.session = n))).map (fun c => (e.1, c)))

/-- R112: the ingress of a session. -/
def State.sessIngress (s : State) (n : Nat) : Nat :=
  match s.sessCfg n with | some (_, c) => 9 + c.subport | none => 9

/-- R112: the ingress a request came by. -/
def State.ingressOf (s : State) (r : ReqSrc) : Nat :=
  match r with
  | .bell f _ => 1 + f
  | .sess n _ _ _ => s.sessIngress n

/-- R112: the ingress of the source of an order. -/
def State.srcIngress (s : State) (o : Source) : Nat :=
  match o with
  | .mgmt _ => 0
  | .fn f => 1 + f
  | .sess n => s.sessIngress n

/-- R39: the owner session of a parcel. -/
def Parcel.ownerSess (x : Parcel) : Option Nat := if x.cfg.ownerSess then some x.cfg.ownerId else none

/-- R421: N_p, the sessions that the image in force places on sub-ports of port p. -/
def State.portSessions (s : State) (p : Nat) : Nat :=
  s.parcels.foldl (fun n e => if e.2.state = .absent then n
    else n + (e.2.cfg.sessions.filter (fun c => decide (c.subport / 4 = p))).length) 0

/-- R421: K_s. -/
def State.slotsOf (s : State) (port : Nat) : Nat := min 1024 (134217728 / max 1 (s.portSessions port) / 18048)

/-! Update credit (R321, R423). -/

/-- L of R303. -/
def ParcelCfg.logLines (c : ParcelCfg) : Nat := c.ulog * 1048576

/-- Lines that unretired records hold. -/
def Parcel.logUsed (x : Parcel) : Nat := x.log.foldl (fun n r => n + r.lines.length) 0

/-- ULIMIT − U of a session; 0 when U has passed ULIMIT. -/
def VgSess.credit (v : VgSess) : Nat := let d := (v.ulimit - v.lines).toNat; if d < 2 ^ 31 then d else 0

/-- R321: lines reserved by the outstanding credit of the parcel's open sessions. -/
def State.creditOut (s : State) (p : Nat) : Nat :=
  (s.parcel p).cfg.sessions.foldl (fun n c => let v := s.vg c.session; if v.isOpen then n + v.credit else n) 0

/-- R423: raises ULIMIT of the parcel's open sessions, in ascending number, as far as F allows. -/
def State.grantCredit (s : State) (p : Nat) : State :=
  let x := s.parcel p
  let cap := 7 * x.cfg.logLines / 8
  let open' := ((List.range 256).filter (fun n =>
    x.cfg.sessions.any (fun c => decide (c.session = n)) && (s.vg n).isOpen))
  let target := cap / max 1 open'.length
  open'.foldl (fun s n =>
    let free := cap - (s.parcel p).logUsed - s.creditOut p
    let give := min (target - (s.vg n).credit) free
    if give = 0 then s
    else s.modVg n (fun v => { v with ulimit := v.lines + BitVec.ofNat 32 (v.credit + give), ackDue := true })) s

/-! Next hops (R399). -/

/-- Whether an address is IPv4-mapped. -/
def isV4 (a : BitVec 128) : Bool := decide (a.toNat / 2 ^ 32 = 0xFFFF)

/-- An IPv4 address in IPv4-mapped form. -/
def v4Mapped (a : BitVec 32) : BitVec 128 := BitVec.ofNat 128 (0xFFFF * 2 ^ 32 + a.toNat)

/-- A number whose bytes stand most significant first. -/
def beNat (bs : List Byte) : Nat := leNat bs.reverse

/-- The own address of a sub-port in a family, IPv4 mapped; 0 for none. -/
def State.ownAddr (s : State) (i : Nat) (v4 : Bool) : BitVec 128 :=
  match s.img.cfg.subs[i]? with
  | some c => if v4 then (if c.v4 = 0 then 0 else v4Mapped c.v4) else c.v6
  | none => 0

/-- R399: the next hop to an address. -/
def State.nextHop (s : State) (i : Nat) (addr : BitVec 128) : Option (BitVec 128) :=
  let r := readBytes (s.sub i).route 0 32
  let own := s.ownAddr i (isV4 addr)
  let v4 := isV4 addr
  let len := if v4 then 96 + min 32 (field r 0x15 1) else min 128 (field r 0x14 1)
  let gw := if v4 then beNat ((r.drop 0x10).take 4) else beNat (r.take 16)
  if own.toNat / 2 ^ (128 - len) = addr.toNat / 2 ^ (128 - len) then some addr
  else if gw = 0 then none
  else some (if v4 then v4Mapped (BitVec.ofNat 32 gw) else BitVec.ofNat 128 gw)

/-- The MAC address of a resolved next hop. -/
def State.hopMac (s : State) (i : Nat) (addr : BitVec 128) : Option (BitVec 48) :=
  match s.nextHop i addr with
  | some h => ((s.sub i).neigh.find? (fun e => decide (e.addr = h))).bind (·.mac)
  | none => none

/-- A frame waits to be sent on a sub-port. -/
def State.queueFrame (s : State) (i : Nat) (f : TxFrame) : State := s.modSub i (fun p => { p with txq := p.txq ++ [f] })

/-- A solicitation for an address: an ARP request or a Neighbor Solicitation, multicast. -/
def solicitation (addr : BitVec 128) : TxFrame :=
  if isV4 addr then { ptp := false, dst := 0xFFFFFFFFFFFF, etype := 0x0806, bytes := (leBytes 4 addr.toNat).reverse }
  else { ptp := false, dst := BitVec.ofNat 48 (0x3333FF000000 + addr.toNat % 2 ^ 24), etype := 0x86DD
         bytes := (leBytes 16 addr.toNat).reverse }

/-- R399: resolution of an unknown next hop begins. -/
def State.startResolve (s : State) (i : Nat) (addr : BitVec 128) : State :=
  match s.nextHop i addr with
  | some h =>
    if (s.sub i).neigh.any (fun e => decide (e.addr = h)) then s
    else (s.modSub i (fun p => { p with neigh := p.neigh ++ [⟨h, none, 1⟩] })).queueFrame i (solicitation h)
  | none => s

/-- R398, R399: a message leaves for the partner of a session, unless its next hop is not resolved. -/
def State.vgTransmit (s : State) (n : Nat) (bytes : List Byte) : State :=
  match s.sessCfg n with
  | none => s
  | some (_, c) =>
    match s.hopMac c.subport c.peerAddr with
    | some mac =>
      let s := s.emit (.message (Fin.ofNat 256 n) bytes)
      s.queueFrame c.subport
        { ptp := false, dst := mac, etype := if isV4 c.peerAddr then 0x0800 else 0x86DD, bytes := bytes }
    | none => s.startResolve c.subport c.peerAddr

/-! Messages of the E40 (R401, R402, R418). -/

/-- R401: the 32 bytes of a header the E40 sends; `len`: the body's length. -/
def vgHeader (kind : Nat) (rel enc : Bool) (sid op len : Nat) (seq ack climit ulimit rseq : W32) : List Byte :=
  leBytes 2 0x4756 ++ [1, BitVec.ofNat 8 (kind + 8 + 16 * rel.toNat + 32 * enc.toNat), BitVec.ofNat 8 sid, BitVec.ofNat 8 op]
    ++ leBytes 2 (32 + len + (if enc then 16 else 0)) ++ leBytes 4 seq.toNat ++ leBytes 4 ack.toNat
    ++ leBytes 4 climit.toNat ++ leBytes 4 ulimit.toNat ++ leBytes 4 rseq.toNat ++ leBytes 4 0

/-- R422: CLIMIT. -/
def State.climit (s : State) (n : Nat) : W32 :=
  let v := s.vg n
  let k := match s.sessCfg n with | some (_, c) => s.slotsOf (c.subport / 4) | none => 0
  BitVec.ofNat 32 (v.rxNext + k - v.owed)

/-- R408: the traffic key K_d of an incarnation; `d`: 1 partner to E40, 2 E40 to partner. -/
def trafficKey (key : BitVec 256) (nonceP nonceE : BitVec 56) (d : Nat) : BitVec 256 :=
  let block (h : Nat) : BitVec 128 :=
    BitVec.ofNat 128 (leNat (leBytes 7 nonceP.toNat ++ leBytes 7 nonceE.toNat ++ leBytes 1 d ++ leBytes 1 h))
  BitVec.ofNat 256 (leNat (leBytes 16 (Config.aes256 key (block 0)).toNat ++ leBytes 16 (Config.aes256 key (block 1)).toNat))

/-- R409: a message protected under a traffic key: `ctr` is its extended counter. -/
def sealMessage (key : BitVec 256) (rel : Bool) (ctr : Nat) (head body : List Byte) : List Byte :=
  let iv := leBytes 4 (if rel then 0 else 1) ++ leBytes 8 ctr
  head ++ ((List.range body.length).zip body).map (fun e => e.2 ^^^ Config.gcmStream key iv e.1) ++
    leBytes 16 (Config.gcmTag key iv head body).toNat

/-- R401, R409: the bytes of a message of session n with extended counter `seq`. -/
def State.vgBytes (s : State) (n kind op : Nat) (rel : Bool) (seq : Nat) (rseq : W32) (body : List Byte) : List Byte :=
  let v := s.vg n
  let enc := match s.sessCfg n with | some (_, c) => c.enc && !(decide (kind = 4) && decide (op = 2)) | none => false
  let head := vgHeader kind rel enc n op body.length (BitVec.ofNat 32 seq) (BitVec.ofNat 32 v.rxNext) (s.climit n) v.ulimit rseq
  if enc then sealMessage v.keyTx rel seq head body else head ++ body

/-- A reliable message of an open session, kept until it is acknowledged. -/
def State.vgReliable (s : State) (n kind op : Nat) (rseq : W32) (body : List Byte) (answer : Bool) : State :=
  let v := s.vg n
  if !v.isOpen then s
  else
    let bytes := s.vgBytes n kind op true v.txNext rseq body
    let t : VgTx := { seq := v.txNext, bytes := bytes, first := s.datum, deadline := s.datum + v.rto, rto := v.rto
                      resent := 0, passed := 0, fast := false, answer := answer }
    let s := s.modVg n (fun v => { v with
      txNext := v.txNext + 1, unacked := v.unacked ++ [t], lastTx := s.datum, ackDue := false })
    (s.vgTransmit n bytes).countEvent 0x60 n ((s.sessCfg n).map (·.1)) 1

/-- An unreliable message. -/
def State.vgUnreliable (s : State) (n op : Nat) (body : List Byte) : State :=
  let v := s.vg n
  let bytes := s.vgBytes n 4 op false v.txUnrel 0 body
  let s := s.modVg n (fun v => { v with txUnrel := v.txUnrel + 1, lastTx := s.datum, ackDue := false })
  (s.vgTransmit n bytes).countEvent 0x60 n ((s.sessCfg n).map (·.1)) 1

/-- The response to a request of incarnation `inc`: sent while it is open, else discarded and counted (R426). -/
def State.vgAnswer (s : State) (n inc kind op : Nat) (rseq : W32) (body : List Byte) : State :=
  let v := s.vg n
  if v.isOpen ∧ v.inc = inc then s.vgReliable n kind op rseq body true
  else s.modVg n (fun v => { v with disc := satAdd32 v.disc 1 })

/-- The runs of held numbers, lowest first. -/
def heldRuns : List Nat → List (Nat × Nat)
  | [] => []
  | a :: t => match heldRuns t with
    | (b, e) :: r => if b = a + 1 then (a, e) :: r else (a, a + 1) :: (b, e) :: r
    | [] => [(a, a + 1)]

/-- R418: an ACK message with its blocks. -/
def State.vgAck (s : State) (n : Nat) : State :=
  let runs := (heldRuns ((s.vg n).held.map (·.1))).take 64
  let body := leBytes 1 runs.length ++ leBytes 7 0 ++
    runs.flatMap (fun r => leBytes 4 (r.1 % 2 ^ 32) ++ leBytes 4 (r.2 % 2 ^ 32))
  s.vgUnreliable n 4 body

/-! Function events (R355) and the alert (R532, R593). -/

/-- R355, R356: a message is called for on a vector of accessor `a` (1 + function): one for each change on vector 0; on
another vector one that has not issued covers it. -/
def State.callMsix (s : State) (a v : Nat) : State :=
  s.modOrd a (fun o => { o with msixDue := spMod 0 o.msixDue v (fun k => if v = 0 then k + 1 else 1) })

/-- R355: an event bit of a function; its change from 0 to 1 calls for a message on vector 0. The management instance
has no events. -/
def State.fnEvent (s : State) (a bit : Nat) : State :=
  if a = 0 ∨ (s.ord a).event.getLsbD bit then s
  else (s.modOrd a (fun o => { o with event := o.event ||| BitVec.ofNat 4 (2 ^ bit) })).callMsix a 0

/-- An event of every function that the image presents. -/
def State.allFnEvent (s : State) (bit : Nat) : State :=
  (List.range s.img.cfg.nfunc).foldl (fun s f => s.fnEvent (f + 1) bit) s

/-- R593: a platform event, sent to the receiver if one is named, and held; a seventeenth displaces the oldest. -/
def State.pldmEvent (s : State) (cls : Byte) (data : List Byte) : State :=
  let id := s.mg.nextEvent
  let e : PldmEvent := { id := id, cls := cls, data := data, sent := s.datum }
  let held := (s.mg.events ++ [e])
  let s := { s with mg := { s.mg with events := held.drop (held.length - 16), nextEvent := id + 1 } }
  match s.mg.receiver with
  | some r => s.emit (.mctp 1 r (leBytes 2 id.toNat ++ [cls] ++ data))
  | none => s

/-- R592: the value of MG_STATE.STATE. -/
def DevState.code : DevState → Nat
  | .off | .starting _ => 0
  | .unlasted => 1
  | .running => 2
  | .retired => 3
  | .halted => 4

/-- R593: the device state changes, with its sensor event. -/
def State.toDev (s : State) (d : DevState) : State :=
  let s' := { s with dev := d }
  if s.dev.code = d.code then s' else s'.pldmEvent 0 (leBytes 2 0x0500 ++ leBytes 1 d.code)

/-- R421, R424: the shared space of a port that unacknowledged ALERT messages take. -/
def State.alertBytes (s : State) (port : Nat) : Nat :=
  s.net.sess.foldl (fun n e => match s.sessCfg e.1 with
    | some (_, c) => if c.subport / 4 = port then n + 64 * (e.2.unacked.filter (fun t => !t.answer)).length else n
    | none => n) 0

/-- R412, R417: an ALERT on the open owner session of every parcel; R424: none where no shared space is left. -/
def State.vgAlertAll (s : State) (source : Nat) : State :=
  s.parcels.foldl (fun s e => match e.2.ownerSess with
    | some n =>
      if e.2.state = .absent ∨ !(s.vg n).isOpen then s
      else
        let port := match s.sessCfg n with | some (_, c) => c.subport / 4 | none => 0
        let shared := 134217728 - s.portSessions port * s.slotsOf port * 18048
        let used := s.alertBytes port
        if shared < used + 64 then s.modVg n (fun v => { v with disc := satAdd32 v.disc 1 })
        else s.vgReliable n 4 0x20 0
          (leBytes 1 source ++ leBytes 3 0 ++ leBytes 4 s.er.alertFirst.toNat ++ leBytes 8 s.datum) false
    | none => s) s

/-- R532: a cause bit of the sticky block is raised with the code of its event. -/
def State.alert (s : State) (bit : Nat) (code : W16) : State :=
  if s.er.alertCause.getLsbD bit then s
  else
    let first := if s.er.alertCause = 0 then code else s.er.alertFirst
    let cause := s.er.alertCause ||| BitVec.ofNat 10 (2 ^ bit)
    let s := { s with er := { s.er with alertCause := cause, alertFirst := first }, mg := { s.mg with alertPin := true } }
    let s := s.pldmEvent 0xF0 (leBytes 2 cause.toNat ++ leBytes 2 first.toNat ++ leBytes 8 s.datum)
    (s.allFnEvent 2).vgAlertAll 1

/-! The Welt (R359 to R366). -/

/-- The line of the Welt that holds a host address. -/
def State.line (s : State) (k : Nat) : Option WLine := spGet none s.host.lines k
/-- Replaces a line. -/
def State.setLine (s : State) (k : Nat) (l : Option WLine) : State :=
  s.modHost (fun h => { h with lines := spPut none l k h.lines })

/-- R359: first way of a parcel. -/
def State.wayBase (s : State) (p : Nat) : Nat :=
  (List.range p).foldl (fun n q => n + (s.parcel q).cfg.weltWays) 0

/-- R361: a line leaves the Welt: an M line by DirtyEvict, another by CleanEvictNoData. -/
def State.evict (s : State) (k : Nat) : State :=
  match s.line k with
  | none => s
  | some l =>
    let s := s.setLine k none
    if l.st = .m then s.emit (.hostWrite (64 * k) l.bytes l.poison) else s.emit (.weltReq 3 (64 * k))

/-- The lines of a set, with their addresses. -/
def State.setLines (s : State) (set : Nat) : List (Nat × WLine) :=
  s.host.lines.filterMap (fun e => if e.1 % 65536 = set then e.2.map (fun l => (e.1, l)) else none)

/-- R359: a way for a line of parcel p: a free unmasked one, or that of the least recently used line among the parcel's,
which is evicted; none in a parcel without a usable way. -/
def State.allocWay (s : State) (p k : Nat) : Option Nat × State :=
  let set := k % 65536
  let base := s.wayBase p
  let ways := ((List.range (s.parcel p).cfg.weltWays).map (base + ·)).filter
    (fun w => !spGet false s.host.masked (set * 16 + w))
  let held := (s.setLines set).filter (fun e => ways.contains e.2.way)
  match ways.find? (fun w => held.all (fun e => decide (e.2.way ≠ w))) with
  | some w => (some w, s)
  | none =>
    match held.foldl (fun (b : Option (Nat × WLine)) e => match b with
      | some x => if e.2.used < x.2.used then some e else b
      | none => some e) none with
    | some v => (some v.2.way, s.evict v.1)
    | none => (none, s)

/-- A line arrives for parcel p; a copy already held keeps its way. With no usable way it stands in none (way 16) until the
accesses that brought it are served (R46, R359; DESIGN CHOICE, log 87). -/
def State.fill (s : State) (p k : Nat) (st : LineSt) (bytes : List Byte) (poison : Bool) : State :=
  let now := s.host.clock
  let put (w : Nat) (s : State) : State :=
    (s.setLine k (some { st := st, bytes := bytes, poison := poison, way := w, used := now })).modHost
      (fun h => { h with clock := now + 1, invalid := false })
  let s := s.countEvent 0x50 p (some p) 1
  match s.line k with
  | some l => if l.st = .m then s else put l.way s
  | none => match s.allocWay p k with
    | (some w, s) => put w s
    | (none, s) => put 16 s

/-- R359, R366, R368, R369: the bytes of a host access served at once, and whether they are poisoned; none: it waits.
`own`: the access needs the line in E or M. -/
def State.weltServe (s : State) (addr n : Nat) (own : Bool) : Option (List Byte × Bool) :=
  if 2 ^ 52 ≤ addr ∨ s.host.dead then some (List.replicate n 0, true)
  else if s.host.disabled || s.host.flushing then none
  else match s.line (addr / 64) with
    | some l => if own && decide (l.st = .s) then none else some ((l.bytes.drop (addr % 64)).take n, l.poison)
    | none => none

/-- R360: a hit makes the line the most recently used of its set. -/
def State.weltTouch (s : State) (addr : Nat) : State :=
  match s.line (addr / 64) with
  | some l => (s.setLine (addr / 64) (some { l with used := s.host.clock })).modHost (fun h => { h with clock := h.clock + 1 })
  | none => s

/-- The link is out of L0: what it negotiated and the cache controls of function 0 are gone. -/
def HostPort.linkDown (h : HostPort) : HostPort :=
  { h with up := false, flit := false, cache := false, degraded := false, speed := 0, width := 0
           flushing := false, disabled := false, invalid := false }

/-- Whether the Welt sends its requests, neither cache control holding them back (R369). -/
def HostPort.open_ (h : HostPort) : Bool := !h.disabled && !h.flushing

/-- The host accesses of a cell for which a request is out. -/
def Cell.hostOut (c : Cell) : Nat :=
  ((c.ext ++ c.gone).filter (fun e => decide (e.target = .host) && !e.done && e.asked)).length

/-- R363: whether another host line access of cell n finds a place: 32 a cell and 16,384 in all (log 90). -/
def State.weltRoom (s : State) (n : Nat) : Bool :=
  decide ((s.cell n).hostOut < 32) &&
    decide (s.cells.foldl (fun k e => k + e.2.hostOut) 0 + (s.host.stores.filter (·.asked)).length < 16384)

/-- R361, R369: a request for a line goes to the host, unless the Welt holds its requests back. -/
def State.weltAsk (s : State) (addr kind : Nat) : State :=
  if s.host.disabled ∨ s.host.flushing then s else s.emit (.weltReq kind (addr / 64 * 64))

/-- R360: whether the Welt holds the line of an address in E or M. -/
def State.lineOwned (s : State) (addr : Nat) : Bool :=
  match s.line (addr / 64) with | some l => decide (l.st ≠ .s) | none => false

/-- R46, R359: a line in no way of the Welt leaves it once the accesses that brought it are served. -/
def State.dropSpare (s : State) (k : Nat) : State :=
  match s.line k with | some l => if l.way = 16 then s.evict k else s | none => s

/-- R367: an access of a parcel to a poisoned line is logged and counted. -/
def State.notePoison (s : State) (p addr : Nat) : State :=
  let s := s.logP 0x0604 p (fun e => { e with cls := 2, arg := BitVec.ofNat 64 addr })
  s.modParcel p (fun x => { x with wlPoison := satAdd32 x.wlPoison 1 })

/-- R360, R367: a store is performed in the line that holds its address, now in M and the most recently used; a poisoned
line stays poisoned unless the whole line is written. -/
def State.storeLine (s : State) (p addr : Nat) (bs : List Byte) : State :=
  match s.line (addr / 64) with
  | some l =>
    let s := if l.poison then s.notePoison p addr else s
    (s.setLine (addr / 64) (some { l with
      st := .m, bytes := patchBytes l.bytes (addr % 64) bs, poison := l.poison && !decide (bs.length = 64)
      used := s.host.clock })).modHost (fun h => { h with clock := h.clock + 1 })
  | none => s

/-- R361: a store waits for its line, which RdOwn asks for. -/
def State.hostQueue (s : State) (p addr : Nat) (bs : List Byte) : State :=
  let asked := !(s.host.disabled || s.host.flushing)
  (s.weltAsk addr 1).modHost (fun h => { h with stores := h.stores ++ [⟨p, addr, bs, asked⟩] })

/-- R204, R360, R361, R367: a store of parcel p to a host address: performed in the line held in E or M, behind the stores
that wait for that line; else it waits for the line. -/
def State.hostStore (s : State) (p addr : Nat) (bs : List Byte) : State :=
  if 2 ^ 52 ≤ addr ∨ s.host.dead then s.notePoison p addr
  else if s.lineOwned addr && !s.host.stores.any (fun e => decide (e.addr / 64 = addr / 64)) && !s.host.disabled &&
      !s.host.flushing then s.storeLine p addr bs
  else s.hostQueue p addr bs

/-- R137, R206, R361: the stores that wait are performed in order, parcel by parcel, as far as their lines are held; the
others are asked for. `blocked`: the parcels of which an earlier store still waits. -/
def State.flushStores : List HostStore → List Nat → State → State
  | [], _, s => s
  | e :: t, blocked, s =>
    let keep (e : HostStore) (s : State) : State := s.modHost (fun h => { h with stores := h.stores ++ [e] })
    if blocked.contains e.parcel then State.flushStores t blocked (keep e s)
    else if s.lineOwned e.addr && !s.host.disabled && !s.host.flushing then
      State.flushStores t blocked (s.storeLine e.parcel e.addr e.bytes)
    else
      let go := !e.asked && !(s.host.disabled || s.host.flushing)
      State.flushStores t (e.parcel :: blocked) (keep { e with asked := e.asked || go } (if go then s.weltAsk e.addr 1 else s))

/-- Every store that waits is tried; `k`: a line that the host has just answered for. -/
def State.runStores (s : State) (k : Option Nat) : State :=
  let l := s.host.stores.map (fun e => if k = some (e.addr / 64) then { e with asked := false } else e)
  State.flushStores l [] (s.modHost (fun h => { h with stores := [] }))

/-- One line of a read of the front end or the Awl (R359, R361, R366, R368): its bytes and whether they are poisoned. A
line not held is asked for; it is kept when the read takes the whole of it (DESIGN CHOICE, log 92). `bs`: what the host
delivers of it. -/
def State.weltReadLine (s : State) (p addr n : Nat) (bs : List Byte) (poison : Bool) : (List Byte × Bool) × State :=
  match s.line (addr / 64) with
  | some l => (((l.bytes.drop (addr % 64)).take n, l.poison), s.weltTouch addr)
  | none =>
    let s := s.weltAsk addr 0
    ((bs, poison), if n = 64 then (s.fill p (addr / 64) .s bs poison).dropSpare (addr / 64) else s)

/-- A read of `n` bytes at a host address by the front end or the Awl; `bs`: what the host delivers; `fuel` lines. -/
def State.weltReadGo (s : State) (p : Nat) (poison : Bool) : Nat → Nat → Nat → List Byte → (List Byte × Bool) × State
  | 0, _, _, _ => (([], false), s)
  | fuel + 1, addr, n, bs =>
    if n = 0 then (([], false), s)
    else
      let k := min n (64 - addr % 64)
      let r := s.weltReadLine p addr k (bs.take k) poison
      let t := r.2.weltReadGo p poison fuel (addr + k) (n - k) (bs.drop k)
      ((r.1.1 ++ t.1.1, r.1.2 || t.1.2), t.2)

/-- R348, R359, R366 to R368: a host read of parcel p by the front end or the Awl: poisoned once the link is lost and at or
above 2^52, where no request is sent. A poisoned line is logged and counted. -/
def State.weltRead (s : State) (p addr n : Nat) (bs : List Byte) (poison : Bool) : (List Byte × Bool) × State :=
  let bs := (bs ++ List.replicate (n - bs.length) 0).take n
  let r := if n = 0 then (([], false), s)
    else if 2 ^ 52 ≤ addr ∨ s.host.dead then ((List.replicate n 0, true), s)
    else s.weltReadGo p poison (n / 64 + 2) addr n bs
  (r.1, if r.1.2 then r.2.notePoison p addr else r.2)

/-- R364: a host access of parcel p took `took` ns. -/
def State.noteTook (s : State) (p took : Nat) : State :=
  s.modParcel p (fun x => { x with wlLatMax := BitVec.ofNat 32 (max x.wlLatMax.toNat (min took 0xFFFFFFFF)) })

/-! ECC of a stack sector (R445 to R449). -/

/-- R435: the DRAM row that a stack-local address lies in, numbered row × 512 + pseudo-channel × 16 + bank. -/
def dramRow (b : Nat) : Nat :=
  let bank := (b / 2 ^ 13 % 16) ^^^ (b / 2 ^ 19 % 16)
  b / 2 ^ 19 * 512 + (b / 2 ^ 9 % 16 * 2 + b / 2 ^ 8 % 2) * 16 + bank

/-- R448 to R450: the controller remaps a row: it takes a free entry and its copy begins, or a full table is reported. -/
def State.remapRow (s : State) (st row : Nat) : State :=
  let used := spGet [] s.stk.remap st
  if used.contains row then s
  else if used.length < 1024 then
    { s with stk := { s.stk with
      remap := spPut [] (used ++ [row]) st s.stk.remap
      copying := spMod [] s.stk.copying st (· ++ [row]) } }
  else
    (s.log { logEntry s 0x0903 with unit := BitVec.ofNat 16 st }).alert 2 0x0903

/-- R446, R448: a read found an uncorrectable sector: it is marked poisoned, counted, logged, and its row remapped. -/
def State.stackUE (s : State) (parcel : Option Nat) (phys dev : Nat) : State :=
  if spGet false s.stk.poison (phys / 32) then s
  else
    let st := phys / 2 ^ 36
    let s := { s with stk := { s.stk with
      poison := spPut false true (phys / 32) s.stk.poison
      ue := spMod 0 s.stk.ue st (fun n => satAdd32 n 1) } }
    let e := logEntry s 0x0902
    let s := s.log { e with
      cls := 2, arg := BitVec.ofNat 64 dev, parcel := match parcel with | some p => BitVec.ofNat 8 p | none => 0xFF }
    s.remapRow st (dramRow (phys % 2 ^ 36))

/-- R445, R447, R448: a corrected sector is counted and written back; three sectors of a row, or one sector twice, within
24 hours ask for a remap. The controller keeps 256 candidate rows a stack, dropping the oldest. -/
def State.stackCE (s : State) (phys : Nat) : State :=
  let st := phys / 2 ^ 36
  let sec := phys % 2 ^ 36 / 32
  let row := dramRow (phys % 2 ^ 36)
  let s := { s with stk := { s.stk with ce := spMod 0 s.stk.ce st (fun n => satAdd32 n 1) } }
  let live := (spGet [] s.stk.cand st).filter (fun c => decide (s.datum < c.2.2 + 86400000000000))
  let same := live.any (fun c => decide (c.2.1 = sec))
  let others := (live.filter (fun c => decide (c.1 = row) && decide (c.2.1 ≠ sec))).length
  let cand := (row, sec, s.datum) :: live.filter (fun c => decide (c.2.1 ≠ sec))
  let rows := (cand.map (·.1)).eraseDups.take 256
  let s := { s with stk := { s.stk with cand := spPut [] (cand.filter (fun c => rows.contains c.1)) st s.stk.cand } }
  if same || decide (2 ≤ others) then s.remapRow st row else s

/-- R544: a sector read or write on its pseudo-channel. -/
def State.countSector (s : State) (ev phys : Nat) (parcel : Option Nat) : State :=
  s.countEvent ev (phys / 2 ^ 36 * 32 + dramRow (phys % 2 ^ 36) % 512 / 16) parcel 1

/-- What the ECC of a sector read found is applied (R445, R446). -/
def State.stackEcc (s : State) (p phys dev : Nat) (e : Ecc) : State :=
  let s := s.countSector 0x20 phys (some p)
  match e with
  | .clean => s
  | .corrected => s.stackCE phys
  | .uncorrectable => s.stackUE (some p) phys dev

/-- R544: the sectors that a write of `n` bytes writes. -/
def State.countWrites (s : State) (p stks gran a n : Nat) : State :=
  (List.range ((a + n + 31) / 32 - a / 32)).foldl (fun s k =>
    s.countSector 0x21 ((s.parcel p).place stks gran (a / 32 * 32 + 32 * k)) (some p)) s

end Sys2Proof.Machine
end

