-- ==== Sys2Proof/Machine/Requests.lean ====
section
/-! DEFINITION. Requests and instances: completion records (R139), starting, ending and aborting instances (R133, R137,
R185, R186, R193, R211), WAITQ (R132). -/

namespace Sys2Proof.Machine

/-! Completion codes of R141. -/
def ccOK : Byte := 0
def ccTickFull : Byte := 1
def ccTimeout : Byte := 2
def ccSegFault : Byte := 3
def ccRefusedLoad : Byte := 4
def ccSuperseded : Byte := 5
def ccStateChanged : Byte := 6
def ccHostPoison : Byte := 7
def ccParcelReset : Byte := 8
def ccLateEpoch : Byte := 9
def ccRetired : Byte := 0x0A
def ccAborted : Byte := 0x0B

/-! DETAIL values of STATE_CHANGED (R141). -/
def scNotActive : Byte := 1
def scGraphBound : Byte := 2
def scNotFound : Byte := 3
def scNotBound : Byte := 4
def scConflict : Byte := 5
def scNotOwner : Byte := 6
def scSlotBusy : Byte := 7

/-- DETAIL MALFORMED of ABORTED. -/
def abMalformed : Byte := 2

/-- R139: the 32 bytes of a record; PHASE is bit 0 of FLAGS, OVERRUN bit 1. -/
def Record.bytes (r : Record) (q : Nat) (phase : Bool) : List Byte :=
  leBytes 8 r.tag.toNat ++ leBytes 8 r.stamp ++ leBytes 8 r.done ++ leBytes 4 r.ret.toNat ++
    [r.code, r.detail, BitVec.ofNat 8 (phase.toNat + 2 * r.overrun.toNat), BitVec.ofNat 8 q]

/-- R139: the record of a request that ends now. -/
def Request.record (r : Request) (now : Nat) (code detail : Byte) (ret : W32) (overrun share : Bool)
    (cell : Nat) : Record :=
  { src := r.src, tag := r.tag, stamp := r.stamp, done := now, ret := if code = ccOK then ret else 0, code := code
    detail := detail, overrun := overrun, noirq := r.noirq, holdsShare := share, windows := r.windows, cell := cell, unread := !r.ready }

/-- R402, R412: the response body of a RANK or GATHER request. -/
def responseBody (record payload : List Byte) (pstat : Nat) : List Byte :=
  record ++ leBytes 2 payload.length ++ leBytes 1 pstat ++ List.replicate 5 0 ++ payload

/-- R540: the record of a request of queue q is written. -/
def State.traceRecord (s : State) (p q : Nat) (r : Record) : State :=
  s.trace 3 2 (some p) (some q) r.cell (r.code.toNat + 256 * r.detail.toNat) r.tag

/-- A request of queue q of parcel p ends: its record waits for the CQ (a doorbell) or leaves in the response of its
session (R139, R412, R414). The spec defines PHASE by the passes of the CQ alone; in a session's response it is 0 (DESIGN
CHOICE, log 93). -/
def State.complete (s : State) (p q : Nat) (r : Request) (code detail : Byte) (ret : W32) (overrun share : Bool)
    (payload : List Byte) (pstat cell : Nat) : State :=
  let rec' := r.record s.datum code detail ret overrun share cell
  let s := s.countEvent 0x42 (p * 32 + q) (some p) 1
  let s := if code = ccTickFull then (s.trace 2 2 (some p) (some q) (s.ingressOf r.src) detail.toNat (BitVec.ofNat 64 r.stamp)).countEvent
      0x41 (p * 32 + q) (some p) 1 else s
  match r.src with
  | .bell _ _ => s.modQueue p q (fun x => { x with records := x.records ++ [rec'] })
  | .sess n inc g rseq =>
    (s.traceRecord p q rec').vgAnswer n inc (if g then 2 else 1) 0 rseq (responseBody (rec'.bytes q false) payload pstat)

/-- A request that ends without a run: no payload, no share, and its windows end (R340). -/
def State.refuse (s : State) (p q : Nat) (r : Request) (code detail : Byte) : State :=
  s.complete p q { r with windows := [] } code detail 0 false false [] 0 0

/-- R137, R185 (R106 code): the request that an aborted instance holds ends; FLAGS.OVERRUN goes with OK alone (R138). -/
def State.endRequest (s : State) (x : Inst) (r : Request) (code detail : Byte) : State :=
  s.complete x.parcel x.q (if x.running then r else { r with windows := [] }) code detail 0 false x.task.isNone [] 0
    (x.cells.headD 0)

/-! Stores performed (R185, R204, R209). -/

/-- The parcel of a cell, 0 where it has none. -/
def Cell.par (c : Cell) : Nat := match c.parcel with | some p => p.val | none => 0

/-- A buffered store of cell `n` is performed at its target (R204). `stks` and `gran` of a STACK store are those of its
window. -/
def State.performStore (s : State) (n : Nat) (e : SbEntry) : State :=
  match e.target with
  | none => s.modCell n (fun c => c.storeOwn e.addr e.bytes)
  | some (.replica k) | some (.storeSeg k) => s.modCell k (fun c => c.storeOwn e.addr e.bytes)
  | some (.stack st gr) =>
    let p := (s.cell n).par
    ((s.countPlace p st gr e.addr e.bytes.length).countWrites p st gr e.addr e.bytes.length).stackWrite p st gr e.addr e.bytes
  | some .host => s.hostStore (s.cell n).par e.addr e.bytes

/-- R173: an access of cell n that the store of cell k serves is its own while both run one instance. -/
def State.ownAccess (s : State) (k n : Nat) : Bool :=
  match (s.cell k).inst with
  | some i => decide ((s.cell n).inst = some i) && (match s.inst i with | some x => x.running | none => false)
  | none => false

/-- R544: a foreign external access that cell k serves for cell n is counted. -/
def State.countServed (s : State) (n : Nat) (t : ExtTarget) : State :=
  match t with
  | .replica k | .storeSeg k => if s.ownAccess k n then s else s.countEvent 0x15 k ((s.cell k).parcel.map (·.val)) 1
  | _ => s

/-- R137, R185: a store of an aborted instance is performed behind the stores of its parcel that wait for host lines. -/
def State.performLate (s : State) (n : Nat) (e : SbEntry) : State :=
  let p := (s.cell n).par
  if e.target = some .host ∧ s.host.stores.any (fun x => decide (x.parcel = p)) ∧ e.addr < 2 ^ 52 ∧ !s.host.dead then
    s.hostQueue p e.addr e.bytes
  else match e.target with
    | some t => (s.countServed n t).performStore n e
    | none => s.performStore n e

/-- R185: every buffered store of the cell is performed, in order. -/
def State.drainAll (s : State) (n : Nat) : State :=
  let s' := (s.cell n).sbuf.foldl (fun s e => s.performLate n e) s
  s'.modCell n (fun c => { c with sbuf := [] })

/-- R214: the resume record of the progress-tracked operation in progress, if there is one. -/
def Cell.writeResume (c : Cell) : Cell :=
  let put (op pc : Nat) (count src dst : W64) : Cell :=
    { c with
      rsmpc := BitVec.ofNat 64 (2 ^ 63 + op * 2 ^ 60 + pc)
      rsmcnt := count, rsmsrc := src, rsmdst := dst }
  match c.sweep with
  | some w => put (if w.write then 3 else 2) w.pc w.count w.src w.dst
  | none => match c.queue .vec with
    | ⟨.vcopy _ _ _ n a b, pc, _⟩ :: _ => put 1 pc n a b
    | _ => c

/-- R137, R185: the accesses that have left a cell and complete at their targets after its instance is aborted. Its stores
have been performed. -/
def Cell.leftOut (c : Cell) : List ExtAcc :=
  c.ext.filter (fun e => !e.done && (match e.kind with | .store => false | _ => true))

/-- R185: a cell of an aborted instance: unit commands end with nothing visible, the resume record is written, external
accesses complete with nothing visible in the cell, and gathers before their commit leave nothing (R294). -/
def Cell.abort (c : Cell) : Cell :=
  { c.writeResume with
    queues := [], ext := [], gone := c.gone ++ c.leftOut, sweep := none, gather := [], wait := .run, inst := none, qh := 0
    goneGather := c.goneGather ++ ([(0, spGet GatherSlot.none c.gather 0), (1, spGet GatherSlot.none c.gather 1)].filter
      (fun g => decide (g.2.phase = .reading))) }

/-- R293: a gather that met a bad index writes its log entry with list position `first`. -/
def State.logBadIndex (s : State) (p : Nat) (g : GatherSlot) (first : Option Nat) : State :=
  match (if g.badIdx = 0 then none else first) with
  | some b => s.logP 0x0301 p (fun e => { e with arg := BitVec.ofNat 64 (g.desc.tid * 2 ^ 32 + b) })
  | none => s

/-- R185: the abort instant at one cell. -/
def State.abortCell (s : State) (n : Nat) : State :=
  let s := s.drainAll n
  let s := [0, 1].foldl (fun s k =>
    let g := spGet GatherSlot.none (s.cell n).gather k
    s.logBadIndex (s.cell n).par g g.firstBadIdx) s
  s.modCell n Cell.abort

/-- R186, R193, R224, R272: what a cell clears when an instance starts or a task restarts at its entry point. -/
def Cell.enter (c : Cell) (inst : Nat) : Cell :=
  { c with
    g := [], p := 0, v := [], tuse := 0, tsat := 0, status := 0, qh := 0, rng := 0
    arr := c.defarr, acct := false, cagv := false, latches := []
    pc := (match c.graph with | some g => g.entry | none => 0)
    inst := some inst, wait := .run, seq := 0 }

/-- The cells of an instance start at their entry points. -/
def State.enterCells (s : State) (i : Nat) (cells : List Nat) : State :=
  cells.foldl (fun s n => s.modCell n (fun c => c.enter i)) s

/-- R131, R132: the parameter-block copy of a request is placed in the first cell's store. -/
def State.placePb (s : State) (i : Inst) (pb : List Byte) : State :=
  match i.cells with
  | n :: _ =>
    let g := (s.parcel i.parcel).gslot i.slot
    s.modCell n (fun c => c.storeOwn g.hdr.pbAddr (pb.take g.hdr.pbSize))
  | [] => s

/-- R107: the cause code of an overrun or timeout; `byTimeout`: the queue timeout expired. -/
def Inst.cause (i : Inst) (byTimeout : Bool) : Nat :=
  if i.thermal then 1 else if i.slowHost then 2 else if byTimeout then 3 else 4

/-- R107, R364: a host line access of cell n of parcel p has been out for longer than HOSTLAT. -/
def State.hostLate (s : State) (p n : Nat) : Bool :=
  (s.cell n).ext.any (fun e => decide (e.target = .host) && !e.done && decide (e.sent + (s.parcel p).cfg.hostLat < s.lc.ctr))

/-- R107, R467: what an instance has met by now: a cell that ran below the floor in this tick, or a stack cap in the
emergency; a host line that is late. -/
def State.warm (s : State) (i : Inst) : Inst :=
  { i with
    thermal := i.thermal || i.cells.any (fun n => (s.thCell n).emerg || s.lc.below.getLsbD n)
      || i.sectors.any (fun e => decide (e.2 ≠ 0) && s.stackEmerg e.1)
    slowHost := i.slowHost || i.cells.any (fun n => s.hostLate i.parcel n) }

/-- R107, R136: the queue timeout of the request that an instance holds has expired. -/
def State.timedOut (s : State) (i : Inst) : Bool :=
  match i.req with
  | some r => decide (r.timeout ≠ 0) && decide (i.start + r.timeout ≤ s.lc.ctr)
  | none => false

/-- R107: the cause of an instance that ends now. -/
def State.causeOf (s : State) (i : Inst) : Nat := (s.warm i).cause (s.timedOut i)

/-- R107: an overrun is logged and counted. -/
def State.reportOverrun (s : State) (i : Inst) (cause : Nat) : State :=
  let p := i.parcel.val
  let s := s.logP 0x0101 p (fun e => { e with qindex := BitVec.ofNat 8 i.q, aux := BitVec.ofNat 8 cause })
  let s := { s with tk := { s.tk with overrun := satAdd32 s.tk.overrun 1 } }
  s.modParcel p (fun x => { x with overruns := satAdd32 x.overruns 1 })

/-- A launched instance waiting to start has no cells; one that runs holds its replica's. -/
def Inst.launched (i : Inst) : Bool := i.task.isNone

/-- Whether every cell of a list is free of instances. -/
def State.cellsFree (s : State) (cells : List Nat) : Bool := cells.all (fun n => (s.cell n).inst.isNone)

/-- R154: the cells of replica r of a slot. -/
def GraphSlot.replica (g : GraphSlot) (r : Nat) : List Nat := (g.cells.drop (r * g.hdr.ncell)).take g.hdr.ncell

/-- R93, R135: a launched instance whose descriptor is read starts on the first free replica, in the parcel's compute
phase. -/
def State.tryStart (s : State) (i : Nat) : State :=
  match s.inst i with
  | some x =>
    match x.req, x.launched, x.running, s.computing x.parcel with
    | some r, true, false, true =>
      let g := (s.parcel x.parcel).gslot x.slot
      match r.ready, (List.range g.hdr.replicas).find? (fun k => s.cellsFree (g.replica k)) with
      | true, some k =>
        let cells := g.replica k
        let x' := { x with replica := k, cells := cells, running := true }
        let s := s.setInst i (some x')
        ((s.placePb x' r.pb).enterCells i cells).trace 3 1 (some x.parcel.val) (some x.q) (cells.headD 0) 0 r.tag
      | _, _ => s
    | _, _, _, _ => s
  | none => s

/-- Every launched instance of a parcel that can start does, in the order of admission. -/
def State.startReady (s : State) (p : Nat) : State :=
  ((s.instsOf p).map (·.1)).foldl (fun s i => s.tryStart i) s

/-- R342: whether a window reaches a byte of a fenced range. -/
def Window.meets (w : Window) (target base len : Nat) : Bool :=
  decide (w.target = target) && decide (w.base < base + len) && decide (base < w.base + w.len) && decide (0 < w.len)

/-- R125: the windows of a queue's rings. -/
def Queue.ringWindows (q : Queue) : List Window :=
  match q.rings with
  | some r => [⟨1, r.sqBase, 64 * 2 ^ r.sqLog, true, false, 0, 0, 0⟩, ⟨1, r.cqBase, 32 * 2 ^ r.cqLog, false, true, 0, 0, 0⟩]
  | none => []

/-- R133: a task restarts at its entry point in the next compute phase: until then its cells issue nothing. -/
def State.restartTask (s : State) (i : Nat) (x : Inst) : State :=
  s.setInst i (some { x with req := none, running := false, entry := true, lines := 0, sectors := [], excess := false
                             overrun := false, thermal := false, slowHost := false })

/-- R124: a task is removed and its instance returns to the share. -/
def State.removeTask (s : State) (i : Nat) (x : Inst) : State :=
  (x.cells.foldl (fun s n => s.modCell n (fun c => { c with inst := none, wait := .run, qh := 0 })) s).setInst i none

/-- R137, R185: the abort of instance `i`: its cells stop, its request ends with the given code, a launched instance
ends and a task restarts or is removed. -/
def State.abortInst (s : State) (i : Nat) (code detail : Byte) : State :=
  match s.inst i with
  | none => s
  | some x =>
    let cause := s.causeOf x
    let s := x.cells.foldl (fun s n => s.abortCell n) s
    let s := if x.overrun then s.reportOverrun x cause else s
    let s := match x.req with
      | some r => s.endRequest x r code detail
      | none => s
    if x.launched then (s.setInst i none).startReady x.parcel
    else if x.removing then s.removeTask i x
    else s.restartTask i x

/-- R414: the response payload that g2 and g3 of cell 0 name, and PSTAT. -/
def State.payload (s : State) (x : Inst) : List Byte × Nat :=
  match x.req, x.cells with
  | some r, n :: _ =>
    match r.src with
    | .sess _ _ _ _ =>
      let c := s.cell n
      let a := (c.greg 2).toNat
      let len := (c.greg 3).toNat % 2 ^ 32
      let limit := match c.graph with | some g => g.storeBytes | none => 0
      if len ≤ 8192 ∧ a + len ≤ limit then (c.loadOwn a len, 0) else ([], 1)
    | _ => ([], 0)
  | _, _ => ([], 0)

/-- R133, R211: the request of an instance completes with OK and RET, the low 32 bits of g1 of cell 0. -/
def State.finish (s : State) (x : Inst) : State :=
  let s := if x.overrun then s.reportOverrun x (s.causeOf x) else s
  match x.req, x.cells with
  | some r, n :: _ =>
    let ret : W32 := ((s.cell n).greg 1).setWidth 32
    let (pay, pstat) := s.payload x
    s.complete x.parcel x.q r ccOK 0 ret x.overrun x.launched pay pstat n
  | _, _ => s

/-- R211: END has executed in every cell of the replica: the launched instance completes and its cells are free. -/
def State.endInst (s : State) (i : Nat) (x : Inst) : State :=
  let s := s.finish x
  let s := x.cells.foldl (fun s n => s.modCell n (fun c => { c with inst := none, wait := .run })) s
  (s.setInst i none).startReady x.parcel

/-- R211: the handle of a request. -/
def handleOf (count : W32) (q task : Nat) : W64 :=
  BitVec.ofNat 64 (count.toNat + q % 256 * 2 ^ 32 + task % 256 * 2 ^ 40)

/-- R132, R211, R224: the request a task holds is delivered: parameter block placed, handle written, issue resumed after
the WAITQ. -/
def State.resumeTask (s : State) (i : Nat) (x : Inst) (r : Request) : State :=
  let q := s.queue x.parcel x.q
  let h := handleOf q.count x.q (x.task.getD 0)
  let s := s.placePb x r.pb
  let s := s.modQueue x.parcel x.q (fun q => { q with count := q.count + 1 })
  let s := s.setInst i (some { x with running := true, entry := false, lines := 0, sectors := [], excess := false })
  let s := s.trace 3 1 (some x.parcel.val) (some x.q) (x.cells.headD 0) 0 r.tag
  x.cells.foldl (fun s n => s.modCell n (fun c => match c.wait with
    | .atWaitq rd => { (c.setG rd h) with
        qh := h, wait := .run, pc := c.pc + 4, arr := c.defarr, cagv := false, latches := [] }
    | _ => c)) s

/-- Whether every cell of an instance stands at its WAITQ. -/
def State.allAtWaitq (s : State) (x : Inst) : Bool :=
  x.cells.all (fun n => match (s.cell n).wait with | .atWaitq _ => true | _ => false)

/-- R91, R132: a task whose replica stands in WAITQ takes the oldest ready request; its timeout counts from the start of
the compute phase of its tick (R136). -/
def State.takeReady (s : State) (i : Nat) : State :=
  match s.inst i with
  | some x =>
    if x.task.isSome && x.req.isNone && s.allAtWaitq x && !x.removing && !x.entry && !x.released then
      match (s.queue x.parcel x.q).ready with
      | r :: t =>
        (s.modQueue x.parcel x.q (fun q => { q with ready := t })).setInst i (some { x with
          req := some r, start := s.lc.edge + (s.parcel x.parcel).cfg.computeFrom })
      | [] => s
    else s
  | none => s

/-- R93: a task that holds an undelivered, translated request goes on once its parcel computes. -/
def State.tryResume (s : State) (i : Nat) : State :=
  match s.inst i with
  | some x => match x.req with
    | some r =>
      if x.task.isSome && s.allAtWaitq x && r.ready && s.computing x.parcel then s.resumeTask i x r else s
    | none => s
  | none => s

/-- R124, R132, R133, R211: WAITQ has executed in every cell of the replica: the held request completes; the task is
removed, or takes the next ready request, or waits. -/
def State.atWaitq (s : State) (i : Nat) (x : Inst) : State :=
  let s := x.cells.foldl (fun s n => s.modCell n (fun c => { c with qh := 0 })) (s.finish x)
  let x' := { x with req := none, running := false, entry := false, lines := 0, sectors := [], excess := false
                     overrun := false, thermal := false, slowHost := false }
  if x.removing then s.removeTask i x'
  else
    let s := s.setInst i (some x')
    if s.computing x.parcel then (s.takeReady i).tryResume i else s

/-- R133: a task that is to start or restart does so at its entry point, in the compute phase. -/
def State.enterTask (s : State) (i : Nat) : State :=
  match s.inst i with
  | some x =>
    if x.task.isSome && x.entry && !x.running && s.computing x.parcel then
      (s.setInst i (some { x with running := true })).enterCells i x.cells
    else s
  | none => s

/-- R163: an instance passes a declared count: counted and logged once. -/
def State.declExcess (s : State) (i : Nat) (x : Inst) : State :=
  if x.excess then s
  else
    let p := x.parcel.val
    let s := s.modParcel p (fun y => { y with declExcess := satAdd32 y.declExcess 1 })
    let s := s.logP 0x0205 p (fun e => { e with qindex := BitVec.ofNat 8 x.q })
    s.setInst i (some { x with excess := true })

/-- R163: adds host lines to the counts of an instance: every line access counts, also one to a line it has touched before
(DESIGN CHOICE, log 103). -/
def State.countLines (s : State) (i n : Nat) : State :=
  match s.inst i with
  | none => s
  | some x =>
    let h := ((s.parcel x.parcel).gslot x.slot).hdr
    let x' := { x with lines := x.lines + n }
    let s := s.setInst i (some x')
    if h.hostLines < x'.lines then s.declExcess i x' else s

/-- R163, R297: adds sectors of one stack to the counts of an instance. -/
def State.countSectors (s : State) (i stack n : Nat) : State :=
  match s.inst i with
  | none => s
  | some x =>
    let h := ((s.parcel x.parcel).gslot x.slot).hdr
    let x' := { x with sectors := spMod 0 x.sectors stack (· + n) }
    let limit := if x.entry then h.entrySectors else h.sectors.getD stack 0
    let s := s.setInst i (some x')
    if limit < spGet 0 x'.sectors stack then s.declExcess i x' else s

end Sys2Proof.Machine
end

