-- ==== Sys2Proof/Machine/Units.lean ====
section
/-! DEFINITION. What each unit command does to its cell at its commit point (R230 to R245, R252, R264 to R266). -/

namespace Sys2Proof.Machine

/-- A write of a tile invalidates a latch loaded from it (R237). -/
def Cell.dropLatches (c : Cell) (t n : Nat) : Cell :=
  { c with latches := c.latches.filter (fun l => decide (l.tw + 4 ≤ t) || decide (t + n ≤ l.tw)) }

/-- R230: the bytes TLD writes as one tile row: `n` store bytes, the rest zero. -/
def tldRow (c : Cell) (a n : Nat) : Row := rowOfBytes (c.loadOwn a n)

/-- TLD (R230). -/
def unitTld (t : Fin 16) (base stride rows rb : Nat) (c : Cell) : Cell :=
  (c.setTileRows t 0 ((List.range 64).map (fun r => if r < rows then tldRow c (base + r * stride) (32 * rb) else 0))
    ).useTiles t 1 |>.dropLatches t 1

/-- TST (R230): rows are written in ascending order, so a later row prevails. -/
def unitTst (t : Fin 16) (base stride rows rb : Nat) (c : Cell) : Cell :=
  (List.range rows).foldl (fun c r => c.storeOwn (base + r * stride) (rowBytes (c.tileRow t r) (32 * rb))) c

/-- TZERO (R232). -/
def unitTzero (t : Fin 16) (c : Cell) : Cell := ((c.setTileRows t 0 (List.replicate 64 0)).useTiles t 1).dropLatches t 1

/-- TCOPY (R232). -/
def unitTcopy (td ts : Fin 16) (c : Cell) : Cell :=
  ((c.setTileRows td 0 ((List.range 64).map (c.tileRow ts))).useTiles td 1).dropLatches td 1

/-- ACCZ (R232). -/
def unitAccz (c : Cell) : Cell := { c with acc := [], accPoison := [], acct := false }.useAcc

/-! The array. -/

/-- R233: output columns of an arrangement. -/
def arrN (a : BitVec 2) : Nat := match a.toNat with | 0 => 256 | 1 => 128 | _ => 64

/-- R233: activation tiles of an arrangement. -/
def arrGroup (a : BitVec 2) : Nat := match a.toNat with | 0 => 1 | 1 => 2 | _ => 4

/-- R233: bytes of an activation row. -/
def arrRowBytes (a : BitVec 2) : Nat := 256 * arrGroup a

/-- R234: the operand width in bits and whether the sums are fp32, for an allowed pair. -/
def pairOf (afmt wfmt : BitVec 4) : Option (Nat × Bool) :=
  match fmtOf afmt, fmtOf wfmt with
  | some a, some w =>
    let i4 (f : Fmt) : Bool := f == .int4 || f == .uint4
    let i8 (f : Fmt) : Bool := f == .int8 || f == .uint8
    let f8 (f : Fmt) : Bool := f == .e4m3 || f == .e5m2 || f == .e3m2
    if i4 a && i4 w then some (4, false)
    else if a == .e2m1 && w == .e2m1 then some (4, true)
    else if i8 a && i8 w then some (8, false)
    else if f8 a && f8 w then some (8, true)
    else if (a == .fp16 && w == .fp16) || (a == .bf16 && w == .bf16) then some (16, true)
    else none
  | _, _ => none

/-- R235: element number `i`, `w` bits wide, of the 64 KiB weight block at tile `tw`. -/
def blockElem (c : Cell) (tw w i : Nat) : Nat :=
  bits (spGet 0 c.tiles (tw * 64 + i * w / 2048)).toNat (i * w % 2048) w

/-- R235: activation row `m` of a group, as one number. -/
def actRow (c : Cell) (ta group m : Nat) : Nat :=
  packNat 2048 ((List.range group).map (fun j => (c.tileRow (ta + j) m).toNat))

/-- The signed or unsigned value of an integer format's encoding. -/
def intValue (f : Fmt) (raw : Nat) : Int :=
  match f.value raw with
  | .fin neg m _ => if neg then -(m : Int) else m
  | _ => 0

/-- R264: an exact sum added to the old word and clamped to int32, and whether it saturated. -/
def intAccumulate (old : W32) (sum : Int) : W32 × Bool :=
  let v := old.toInt + sum
  if v < -2147483648 then (0x80000000#32, true)
  else if 2147483647 < v then (0x7FFFFFFF#32, true)
  else (BitVec.ofInt 32 v, false)

/-- R265: the running fp32 value over groups of 16 products. -/
def floatAccumulate (old : W32) (groups : Nat) (prod : Nat → Option Num) : W32 :=
  (List.range groups).foldl (fun v g => f32Group v ((List.range 16).map (fun i => prod (16 * g + i)))) old

/-- One accumulator word of an array operation (R236, R264, R265), and whether it saturated. -/
def arrayWord (fa fw : Fmt) (float : Bool) (depth : Nat) (act wgt : Nat → Nat) (old : W32) : W32 × Bool :=
  if float then
    (floatAccumulate old (depth / 16) (fun k => mulNum (fa.value (act k)) (fw.value (wgt k))), false)
  else
    intAccumulate old ((List.range depth).foldl (fun s k => s + intValue fa (act k) * intValue fw (wgt k)) 0)

/-- An array operation over the given activation rows (R236): writes block ACOL of the accumulator rows 0 to M − 1,
sets ACCT, cs.tuse.ACC and, where a word saturates, cs.tsat.ACC. -/
def arrayOp (afmt wfmt : BitVec 4) (arr : BitVec 2) (tw : Nat) (acol : Nat) (accum : Bool) (acts : List Nat) (c : Cell) :
    Cell :=
  match pairOf afmt wfmt, fmtOf afmt, fmtOf wfmt with
  | some (w, float), some fa, some fw =>
    let n := arrN arr
    let depth := arrRowBytes arr * 8 / w
    let row (m : Nat) (a : Nat) : List W32 × Bool :=
      let old := c.accRow m
      let words := (List.range n).map (fun j =>
        arrayWord fa fw float depth (fun k => bits a (k * w) w) (fun k => blockElem c tw w (k * n + j))
          (if accum then accWord old (acol * n + j) else 0))
      (words.map (·.1), words.any (·.2))
    let step (st : Cell × Nat) (a : Nat) : Cell × Nat :=
      let r := row st.2 a
      let old := (st.1.accRow st.2).toNat
      let block := packNat 32 (r.1.map (·.toNat))
      let new : AccRow := BitVec.ofNat 8192 (setBits old (acol * n * 32) (n * 32) block)
      ({ st.1 with
          acc := spPut 0 new st.2 st.1.acc
          accPoison := spKeep (fun k => !(decide (k / 128 = st.2) && decide (acol * n ≤ 2 * (k % 128)) &&
            decide (2 * (k % 128) + 2 ≤ acol * n + n))) st.1.accPoison
          tsat := if r.2 then st.1.tsat ||| 0x10000#17 else st.1.tsat }, st.2 + 1)
    { (acts.foldl step (c, 0)).1 with acct := float }.useAcc
  | _, _, _ => c

/-- R237: the latches after an array operation from `tw`: reused where it is held, else the older one is loaded. -/
def latchUse (c : Cell) (tw w : Nat) (arr : BitVec 2) : List Latch :=
  let l : Latch := ⟨tw, w, arr⟩
  if c.latches.contains l then c.latches else l :: c.latches.take 1

/-- MMA (R236). -/
def unitMma (ta tw : Fin 16) (afmt wfmt : BitVec 4) (acol : BitVec 2) (acc : Bool) (rows : Nat) (arr : BitVec 2)
    (c : Cell) : Cell :=
  let c' := arrayOp afmt wfmt arr tw acol.toNat acc ((List.range rows).map (actRow c ta (arrGroup arr))) c
  { c' with latches := latchUse c tw (match pairOf afmt wfmt with | some (w, _) => w | none => 0) arr }

/-- R238: the tiles of a group for a format's rows. -/
def fmtTiles (f : Fmt) : Nat := match f.bits with | 16 => 2 | 32 => 4 | _ => 1

/-- R238: one accumulator word converted into `f` under `mode`, multiplied by RS first where RS is not g0. -/
def accmvWord (isFloat : Bool) (mul : Option W32) (f : Fmt) (mode : Rnd) (cell : Nat) (word : W32) (rng : W64) :
    Conv × W64 :=
  let src : Fmt := if isFloat then .fp32 else .int32
  match mul with
  | none => convertRng src f mode word.toNat cell rng
  | some k =>
    let prod := if isFloat then f32Mul word k else f32MulNum (Num.ofInt word.toInt) (f32Value k)
    let (r, rng') := convertRng .fp32 f mode prod.1.toNat cell rng
    ({ r with flags := prod.2.or r.flags }, rng')

/-- The state of a run of conversions: encodings so far (last first), flags, saturated elements, generator. -/
structure ConvRun where
  codes : List Nat
  flags : FpFlags
  /-- numbers of the elements that saturated -/
  sats : List Nat
  rng : W64
  deriving DecidableEq, Repr

/-- ACCMV over one accumulator row, in ascending element number (R272). -/
def accmvRow (isFloat : Bool) (mul : Option W32) (f : Fmt) (mode : Rnd) (cell : Nat) (row : AccRow) (fl : FpFlags)
    (rng : W64) : ConvRun :=
  (List.range 256).foldl (fun st i =>
    let (r, g) := accmvWord isFloat mul f mode cell (accWord row i) st.rng
    { codes := r.raw :: st.codes
      flags := st.flags.or r.flags
      sats := if r.sat then i :: st.sats else st.sats
      rng := g }) ⟨[], fl, [], rng⟩

/-- ACCMV (R238, R275): rows below NROWS of the group are written; cs.tsat takes the receiving tile's bit. -/
def unitAccmv (cell : Nat) (td : Fin 16) (fmt : BitVec 4) (rnd : BitVec 2) (mul : Option W32) (rows : Nat) (c : Cell) :
    Cell :=
  match fmtOf fmt, rndOf rnd with
  | some f, some mode =>
    let step (st : Cell) (r : Nat) : Cell :=
      let run := accmvRow c.acct mul f mode cell (c.accRow r) {} st.rng
      let full := packNat f.bits run.codes.reverse
      let st := (List.range (fmtTiles f)).foldl
        (fun st j => st.setTileRow (td + j) r (BitVec.ofNat 2048 (bits full (2048 * j) 2048))) st
      let tiles := run.sats.foldl (fun m i => m ||| BitVec.ofNat 17 (2 ^ (td + i * f.bits / 2048))) (0#17)
      { st with rng := run.rng, tsat := st.tsat ||| tiles, status := st.status ||| run.flags.mask }
    (((List.range rows).foldl step c).useTiles td (fmtTiles f)).dropLatches td (fmtTiles f)
  | _, _ => c

/-! Convolution (R239 to R241). -/

/-- R239: a window descriptor read from its 64 bytes. -/
def winDescOf (b : List Byte) : WinDesc :=
  { base := field b 0 4, rowPitch := field b 4 4, pixPitch := field b 8 2, c := field b 0xA 2
    h := field b 0xC 2, w := field b 0xE 2, oh := field b 0x10 2, ow := field b 0x12 2
    sy := field b 0x14 1, sx := field b 0x15 1, dy := field b 0x16 1, dx := field b 0x17 1
    pt := field b 0x18 1, pl := field b 0x19 1, kh := field b 0x1A 1, kw := field b 0x1B 1
    afmt := BitVec.ofNat 4 (field b 0x1C 1), wfmt := BitVec.ofNat 4 (field b 0x1D 1) }

/-- R239: every field in its range, formats allowed together, reserved bytes zero. -/
def winDescOk (b : List Byte) : Bool :=
  let d := winDescOf b
  let within (lo hi x : Nat) : Bool := decide (lo ≤ x) && decide (x ≤ hi)
  decide (d.base % 32 = 0) && decide (d.rowPitch % 32 = 0) && decide (d.pixPitch % 32 = 0) && decide (d.c ≤ d.pixPitch)
    && within 32 1024 d.c && decide (d.c % 32 = 0)
    && [d.h, d.w, d.oh, d.ow].all (within 1 4096) && [d.sy, d.sx, d.dy, d.dx].all (within 1 8)
    && [d.pt, d.pl].all (within 0 15) && [d.kh, d.kw].all (within 1 15)
    && decide (field b 0x1C 1 < 16) && decide (field b 0x1D 1 < 16) && (pairOf d.afmt d.wfmt).isSome
    && zeroBytes b 0x1E 34

/-- R241: the store offset of a tap's bytes for an output position, or none where the pixel is outside the input. -/
def convPixel (d : WinDesc) (choff p t : Nat) : Option Nat :=
  if d.kh * d.kw ≤ t ∨ d.oh * d.ow ≤ p then none
  else
    let iy : Int := (p / d.ow * d.sy + t / d.kw * d.dy : Nat) - (d.pt : Int)
    let ix : Int := (p % d.ow * d.sx + t % d.kw * d.dx : Nat) - (d.pl : Int)
    if iy < 0 ∨ (d.h : Int) ≤ iy ∨ ix < 0 ∨ (d.w : Int) ≤ ix then none
    else some (d.base + iy.toNat * d.rowPitch + ix.toNat * d.pixPitch + choff)

/-- R241: the pixels a CONV reads, each C bytes of the store. -/
def convReads (d : WinDesc) (p0 t0 nt choff m : Nat) : List Nat :=
  (List.range m).flatMap (fun i => (List.range nt).filterMap (fun j => convPixel d choff (p0 + i) (t0 + j)))

/-- R241: one activation row, taps in order, padded with zeros. -/
def convRow (c : Cell) (d : WinDesc) (t0 nt choff p : Nat) : Nat :=
  leNat ((List.range nt).flatMap (fun j => match convPixel d choff p (t0 + j) with
    | some a => c.loadOwn a d.c
    | none => List.replicate d.c 0))

/-- CONV (R241). -/
def unitConv (d : WinDesc) (tw : Fin 16) (p0 t0 nt choff m : Nat) (acol : BitVec 2) (acc : Bool) (arr : BitVec 2)
    (c : Cell) : Cell :=
  let c' := arrayOp d.afmt d.wfmt arr tw acol.toNat acc
    ((List.range m).map (fun i => convRow c d t0 nt choff (p0 + i))) c
  { c' with latches := latchUse c tw (match pairOf d.afmt d.wfmt with | some (w, _) => w | none => 0) arr }

/-! The matrix-vector path (R243, R244). -/

/-- R243: the weight of output n of block j at input k, from the store block at `wbase`. -/
def mvmWeight (c : Cell) (wbase kb kblk : Nat) (w8 : Bool) (j n k : Nat) : Int :=
  let block := wbase + (j * kblk + k / kb) * 32768 + 128 * n
  let i := k % kb
  if w8 then intValue .int8 (c.storeByte (block + i)).toNat
  else intValue .int4 (bits (c.storeByte (block + i / 2)).toNat (4 * (i % 2)) 4)

/-- R244: one exact sum. -/
def mvmSum (c : Cell) (wbase xbase kq : Nat) (w8 xu8 : Bool) (j b n : Nat) : Int :=
  let k := 128 * kq
  let kb := if w8 then 128 else 256
  (List.range k).foldl (fun s i =>
    s + intValue (if xu8 then .uint8 else .int8) (c.storeByte (xbase + b * k + i)).toNat *
      mvmWeight c wbase kb (k / kb) w8 j n i) 0

/-- MVM (R244): row j × (BATCH + 1) + b of the group at TD takes the 256 sums of block j and vector b. -/
def unitMvm (td : Fin 16) (wbase xbase : Nat) (batch xfmt wfmt : Bool) (kq nblk : Nat) (c : Cell) : Cell :=
  let vecs := if batch then 2 else 1
  let step (st : Cell) (r : Nat) : Cell :=
    (List.range 4).foldl (fun st q =>
      st.setTileRow (td + q) r (BitVec.ofNat 2048 (packNat 32 ((List.range 64).map (fun i =>
        (BitVec.ofInt 32 (mvmSum c wbase xbase kq wfmt xfmt (r / vecs) (r % vecs) (64 * q + i))).toNat))))) st
  (((List.range (nblk * vecs)).foldl step c).useTiles td 4).dropLatches td 4

/-! VCVT (R249, R262). -/

/-- VCVT over 64 elements in ascending order (R272): the new VD, flags, whether one saturated, the generator. -/
def vcvtRow (sf df : Fmt) (mode : Rnd) (part cell : Nat) (src dst : Row) (rng : W64) : Row × FpFlags × Bool × W64 :=
  let run := (List.range 64).foldl (fun (st : ConvRun) i =>
    let (r, g) := convertRng sf df mode (bits src.toNat ((64 * part + i) * sf.bits) sf.bits) cell st.rng
    { codes := r.raw :: st.codes
      flags := st.flags.or r.flags
      sats := if r.sat then i :: st.sats else st.sats
      rng := g }) ⟨[], {}, [], rng⟩
  (BitVec.ofNat 2048 (setBits dst.toNat (64 * part * df.bits) (64 * df.bits) (packNat df.bits run.codes.reverse)),
    run.flags, !run.sats.isEmpty, run.rng)

end Sys2Proof.Machine
end

