-- ==== Sys2Proof/Machine/Issue.lean ====
section
/-! DEFINITION. How an instruction issues on its cell (R180, R194, R197), and how it faults (R216, R336, R523). -/

namespace Sys2Proof.Machine

/-- Whether a cell issues: an instance runs on it and nothing holds its issue (R169, R170). -/
def State.issuing (s : State) (n : Nat) : Bool :=
  let c := s.cell n
  match c.inst with
  | some i => match s.inst i with
    | some x => x.running && decide (c.wait = .run) && c.graph.isSome
    | none => false
  | none => false

/-- Fault causes of R216. -/
def causeIllegal : Nat := 1
def causeMisaligned : Nat := 2
def causePcRange : Nat := 3
def causeWrongKind : Nat := 4
def causeOverlap : Nat := 5
def causeTarget : Nat := 6

/-- The abort of the instance on cell n, where there is one. -/
def State.abortOn (s : State) (n : Nat) (code detail : Byte) : State :=
  match (s.cell n).inst with
  | some i => s.abortInst i code detail
  | none => s

/-- R216: a fault writes cs.fault of its cell, and a log entry. -/
def State.noteFault (s : State) (n pc cause : Nat) : State :=
  let p := (s.cell n).par
  (s.modCell n (fun c => { c with faultPc := BitVec.ofNat 16 pc, faultCause := BitVec.ofNat 8 cause })).logP 0x0206 p
    (fun e => { e with unit := BitVec.ofNat 16 n, aux := BitVec.ofNat 8 cause, arg := BitVec.ofNat 64 pc })

/-- R216: the other cells of the instance that still issue: a fault of theirs in the same cycle is theirs to record. -/
def State.markFaulted (s : State) (n : Nat) : State :=
  match (s.cell n).inst.bind s.inst with
  | some x => { s with cyc := { s.cyc with
      faulted := (x.cells.filter (fun k => decide (k ≠ n) && s.issuing k)).map (fun k => (k, x.launched)) } }
  | none => s

/-- R216: a fault is recorded, and completes the request with ABORTED and DETAIL 2. -/
def State.cellFault (s : State) (n pc cause : Nat) : State :=
  ((s.markFaulted n).noteFault n pc cause).abortOn n ccAborted abMalformed

/-- The request that the instance on cell n holds. -/
def State.reqOn (s : State) (n : Nat) : Option Request :=
  match (s.cell n).inst with
  | some i => (s.inst i).bind (·.req)
  | none => none

/-- The queue of the instance on cell n. -/
def State.queueOn (s : State) (n : Nat) : Option Nat := ((s.cell n).inst.bind s.inst).map (·.q)

/-- R336, R344: an out-of-window access at PC `pc` to cell address `addr`; only a request completes with SEG_FAULT. -/
def State.outOfWindow (s : State) (n pc : Nat) (addr : W64) : State :=
  let p := (s.cell n).par
  let ctx := match s.reqOn n with | some r => r.ctx | none => 0
  let win := addr.toNat / 2 ^ 52
  let seg := if 1 ≤ win ∧ win ≤ 0x200 then
      match s.reqOn n with
      | some r => match r.windows[win - 1]? with | some w => w.seg | none => 0
      | none => 0
    else 0
  let s := s.modCell n (fun c => { c with faultPc := BitVec.ofNat 16 pc, faultCause := 0 })
  let s := s.logP 0x0501 p (fun e => { e with
    unit := BitVec.ofNat 16 n, arg := addr, cont := some (List.replicate 8 0 ++ leBytes 2 pc ++ List.replicate 6 0) })
  let s := if (s.reqOn n).isSome then s.segFault p win 0 ctx seg .outOfWindow else s
  s.abortOn n ccSegFault (BitVec.ofNat 8 (ctx % 16 * 16 + seg % 16))

/-- R523: a read of a poisoned word of the device: HOST_POISON, DETAIL 2. -/
def State.devicePoison (s : State) (n : Nat) : State := s.abortOn n ccHostPoison 2

/-- R163: a host line access of the instance on cell n, served by a line held: it counts, and the line is used. -/
def State.hostUse (s : State) (n addr : Nat) : State :=
  (match (s.cell n).inst with | some i => s.countLines i 1 | none => s).weltTouch addr

/-- R361: an access of cell n leaves for the Welt and misses: it counts, and a request goes to the host (0 RdShared,
1 RdOwn); another target sends none. -/
def State.hostSend (s : State) (n : Nat) (t : ExtTarget) (addr kind : Nat) : State :=
  if t = .host then
    (match (s.cell n).inst with | some i => s.countLines i 1 | none => s).weltAsk addr kind
  else s

/-- An access that leaves a cell now. -/
def State.access (s : State) (kind : ExtKind) (t : ExtTarget) (addr pc seq : Nat) : ExtAcc :=
  { kind := kind, target := t, addr := addr, pc := pc, seq := seq, sent := s.lc.ctr, asked := s.host.open_ }

/-- R367: an access of cell n meets a poisoned host line: logged, counted, and the instance aborts. -/
def State.hostPoisoned (s : State) (n addr : Nat) : State :=
  (s.notePoison (s.cell n).par addr).abortOn n ccHostPoison 0

/-- R107, R364, R540: an access of cell n took `took` ns. -/
def State.noteLatency (s : State) (n addr took : Nat) : State :=
  let p := (s.cell n).par
  let s := s.noteTook p took
  if took ≤ (s.parcel p).cfg.hostLat then s
  else
    let s := match (s.cell n).inst with | some i => s.modInst i (fun x => { x with slowHost := true }) | none => s
    s.trace 6 1 (some p) none n 0 (BitVec.ofNat 64 addr)

/-- R163: a control-core read of a sector counts on its stack. -/
def State.countStack (s : State) (n stack : Nat) : State :=
  match (s.cell n).inst with | some i => s.countSectors i stack 1 | none => s

/-- Whether an outstanding operation will still read or write g[r] (R180, R213, R217). -/
def Cell.regFree (c : Cell) (r : Fin 32) : Bool :=
  decide (r = 0) ||
  (c.ext.all (fun e => match e.kind with
      | .load rd _ _ => decide (rd ≠ r)
      | .amo _ _ rd _ _ => decide (rd ≠ r)
      | _ => true)
    && (c.queue .vec).all (fun q => match q.cmd with
      | .vcopy a b d _ _ _ => decide (a ≠ r) && decide (b ≠ r) && decide (d ≠ r)
      | _ => true)
    && (match c.sweep with
      | some w => decide (w.rd ≠ r) && decide (w.rs1 ≠ r) && decide (w.rs2 ≠ r)
      | none => true))

/-- Tiles (bits 0 to 15) and accumulator (bit 16) that a unit command reads (R180). -/
def UnitCmd.reads : UnitCmd → Nat
  | .tst t _ _ _ _ => 2 ^ t.val
  | .tcopy _ ts => 2 ^ ts.val
  | .mma ta tw _ _ _ acc _ ar =>
    (2 ^ arrGroup ar - 1) * 2 ^ ta.val ||| 15 * 2 ^ tw.val ||| (if acc then 65536 else 0)
  | .conv tw _ _ _ _ _ _ acc _ => 15 * 2 ^ tw.val ||| (if acc then 65536 else 0)
  | .accmv _ _ _ _ _ => 65536
  | _ => 0

/-- Tiles and accumulator that a unit command writes (R180). -/
def UnitCmd.writes : UnitCmd → Nat
  | .tld t _ _ _ _ | .tzero t => 2 ^ t.val
  | .tcopy td _ => 2 ^ td.val
  | .accz | .mma .. | .conv .. => 65536
  | .accmv td fmt _ _ _ =>
    (2 ^ (match fmtOf fmt with | some f => fmtTiles f | none => 1) - 1) * 2 ^ td.val
  | .mvm td _ _ _ _ _ _ _ => 15 * 2 ^ td.val
  | _ => 0

/-- R180: no unfinished command writes a tile that is read or written, or reads one that is written. -/
def Cell.tilesFree (c : Cell) (rd wr : Nat) : Bool :=
  c.allCmds.all (fun u => decide (u.writes &&& (rd ||| wr) = 0) && decide (u.reads &&& wr = 0))

/-- An instruction retires: its effect on its cell, PC past it (R197), and its place in program order. -/
def Cell.retire (c : Cell) (len : Nat) : Cell := { c with pc := c.pc + len, seq := c.seq + 1 }

/-- R216: the fault that an instruction of `len` bytes meets before its guard and its operands. -/
def Cell.placeFault (c : Cell) (h : Hdr) (len : Nat) (ill : Bool) : Option Nat :=
  if (match c.graph with | some g => g.size | none => 0) ≤ c.pc then some causePcRange
  else if len = 8 ∧ c.pc % 8 ≠ 0 then some causeMisaligned
  else if ill || h.resv || (h.pn && decide (h.pg = 0)) then some causeIllegal
  else none

/-- R216: an instruction of a cell whose instance another cell's fault ended in this cycle: a fault of its own is recorded.
`late`: the fault its operands give it. -/
def State.lateFault (s : State) (h : Hdr) (len : Nat) (ill : Bool) (uses : List (Fin 32))
    (late : Cell → State → Option Nat) : State :=
  let n := h.cell.val
  let c := s.cell n
  match s.cyc.faulted.find? (fun e => decide (e.1 = n)) with
  | none => s
  | some _ =>
    let found := match c.placeFault h len ill with
      | some k => some k
      | none => if (c.preg h.pg != h.pn) && uses.all c.regFree then late c s else none
    let s := { s with cyc := { s.cyc with faulted := s.cyc.faulted.filter (fun e => decide (e.1 ≠ n)) } }
    match found with | some k => s.noteFault n c.pc k | none => s

/-- R194, R197, R216: an instruction of `len` bytes meets its cell. On a cell that issues nothing it has no effect but a
fault of the cycle. A reserved encoding faults whatever the guard is; a false guard only advances PC; an operand register
still to be written holds the instruction at issue. -/
def issueLate (h : Hdr) (len : Nat) (ill : Bool) (uses : List (Fin 32)) (late : Cell → State → Option Nat)
    (act : Cell → State → State) (s : State) : Out :=
  let n := h.cell.val
  let c := s.cell n
  if s.issuing n = false then .next (s.lateFault h len ill uses late)
  else if (match c.graph with | some g => g.size | none => 0) ≤ c.pc then .next (s.cellFault n c.pc causePcRange)
  else if len = 8 ∧ c.pc % 8 ≠ 0 then .next (s.cellFault n c.pc causeMisaligned)
  else if ill || h.resv || (h.pn && decide (h.pg = 0)) then .next (s.cellFault n c.pc causeIllegal)
  else if (c.preg h.pg != h.pn) = false then .next (s.setCell n (c.retire len))
  else if uses.all c.regFree = false then .next s
  else .next (act c s)

/-- An instruction whose operands give it no fault. -/
def issue (h : Hdr) (len : Nat) (ill : Bool) (uses : List (Fin 32)) (act : Cell → State → State) (s : State) : Out :=
  issueLate h len ill uses (fun _ _ => none) act s

/-- An instruction whose whole effect is on its cell. -/
def cellOp (h : Hdr) (len : Nat) (ill : Bool) (uses : List (Fin 32)) (f : Cell → Cell) (s : State) : Out :=
  issue h len ill uses (fun c s => s.setCell h.cell ((f c).retire len)) s

/-- The faults an instruction may find in its operands (R216), in the order of R216, or the state it leads to. -/
inductive Act where
  | fault (cause : Nat)
  | outside (addr : W64)
  | poison
  | wait
  | go (s : State)

/-- What a checked instruction does. -/
def Act.run (a : Act) (h : Hdr) (c : Cell) (s : State) : State :=
  match a with
  | .fault cause => s.cellFault h.cell c.pc cause
  | .outside addr => s.outOfWindow h.cell c.pc addr
  | .poison => s.devicePoison h.cell
  | .wait => s
  | .go s' => s'

/-- The cause of an instruction that faults. -/
def Act.cause (a : Act) : Option Nat := match a with | .fault k => some k | _ => none

/-- An instruction that checks its operands. -/
def checkedOp (h : Hdr) (len : Nat) (ill : Bool) (uses : List (Fin 32)) (f : Cell → State → Act) (s : State) : Out :=
  issueLate h len ill uses (fun c s => (f c s).cause) (fun c s => (f c s).run h c s) s

/-- R211, R216: whether the instance on cell n is a launched one; of one that a fault ended in this cycle too. -/
def State.launchedOn (s : State) (n : Nat) : Option Bool :=
  match (s.cell n).inst.bind s.inst with
  | some x => some x.launched
  | none => (s.cyc.faulted.find? (fun e => decide (e.1 = n))).map (·.2)

/-! Cell addresses (R202, R336). -/

/-- Where an access leads. -/
inductive Place where
  | own (off : Nat)
  | ext (t : ExtTarget) (a : Nat)
  | outside
  deriving DecidableEq, Repr

/-- Whether every byte of an access lies below the limit. -/
def inLimit (off n limit : Nat) : Bool := decide (off + n ≤ limit)

/-- The store offset and cell of a device address in the near-array stores (R15). -/
def storePlace (a : Nat) : Option (Fin 128 × Nat) :=
  if h : 2 ^ 47 ≤ a ∧ (a - 2 ^ 47) / 2 ^ 23 < 128 then some (⟨(a - 2 ^ 47) / 2 ^ 23, h.2⟩, (a - 2 ^ 47) % 2 ^ 23)
  else none

/-- Another cell's store, or the cell's own reached by another name. -/
def nearPlace (n : Nat) (k : Nat) (off : Nat) (replica : Bool) : Place :=
  if k = n then .own off
  else if h : k < 128 then .ext (if replica then .replica ⟨k, h⟩ else .storeSeg ⟨k, h⟩) off
  else .outside

/-- R202, R336: where `len` bytes at a cell address lie, for an access that needs the given rights. -/
def State.resolve (s : State) (n : Nat) (addr : W64) (len : Nat) (needR needW : Bool) : Place :=
  let c := s.cell n
  let win := addr.toNat / 2 ^ 52
  let off := addr.toNat % 2 ^ 52
  let limit := match c.graph with | some g => g.storeBytes | none => 0
  if win = 0 then (if inLimit off len limit then .own off else .outside)
  else if win ≤ 0x200 then
    match s.reqOn n with
    | none => .outside
    | some r => match r.windows[win - 1]? with
      | none => .outside
      | some w =>
        if w.target = 0 || !inLimit off len w.len || (needR && !w.r) || (needW && !w.w) then .outside
        else if w.target = 1 then .ext .host (w.base + off)
        else if w.target = 2 then .ext (.stack w.stks w.gran) (w.base + off)
        else match storePlace (w.base + off) with
          | some (k, o) => nearPlace n k o ((s.cell k).inst == c.inst)
          | none => .outside
  else if 0x800 ≤ win then
    match c.inst with
    | none => .outside
    | some i => match s.inst i with
      | none => .outside
      | some x => match x.cells[win - 0x800]? with
        | some k => if inLimit off len limit then nearPlace n k off true else .outside
        | none => .outside
  else .outside

/-- The address space of a target: two accesses overlap only within one (R202). -/
def spaceOf (n : Nat) : Option ExtTarget → Nat
  | none => n
  | some (.replica k) | some (.storeSeg k) => k
  | some (.stack _ _) => 200
  | some .host => 201

/-- Whether a buffered store overlaps `len` bytes of a target (R209). -/
def SbEntry.overlaps (e : SbEntry) (n : Nat) (t : Option ExtTarget) (a len : Nat) : Bool :=
  decide (spaceOf n e.target = spaceOf n t) && decide (e.addr < a + len) && decide (a < e.addr + e.bytes.length)

/-- Whether a load, atomic or sweep is outstanding: a later load waits behind it (R206 rule 1, R213). -/
def Cell.loadOut (c : Cell) : Bool :=
  c.sweep.isSome || c.ext.any (fun e => match e.kind with | .store => false | _ => true)

end Sys2Proof.Machine
end

