-- ==== Sys2Proof/Machine/Memory.lean ====
section
/-! DEFINITION. Loads, stores, the store buffer and atomics (R203 to R209), and accesses that complete outside the cell. -/

namespace Sys2Proof.Machine

/-- R209: the youngest buffered store that overlaps an access. -/
def Cell.youngest (c : Cell) (n : Nat) (t : Option ExtTarget) (a len : Nat) : Option SbEntry :=
  c.sbuf.reverse.find? (fun e => e.overlaps n t a len)

/-- R209: what a load finds in the store buffer. -/
inductive Forward where
  | memory
  | bytes (bs : List Byte)
  | wait

/-- R209: no overlap, a store that contains the load, or a partial overlap. -/
def Cell.forward (c : Cell) (n : Nat) (t : Option ExtTarget) (a len : Nat) : Forward :=
  match c.youngest n t a len with
  | none => .memory
  | some e =>
    if e.addr ≤ a ∧ a + len ≤ e.addr + e.bytes.length then .bytes ((e.bytes.drop (a - e.addr)).take len)
    else .wait

/-- Loads (R203, R204, R209, R336). -/
def loadOp (size : Nat) (signed : Bool) (h : Hdr) (rd rs1 : Fin 32) (imm : Byte) (s : State) : Out :=
  checkedOp h 4 false [rd, rs1] (fun c s =>
    let n := h.cell.val
    let addr := memAddr c rs1 imm size
    let done (s : State) (bs : List Byte) : Act :=
      .go (s.modCell n (fun c => (c.setG rd (extend bs signed)).retire 4))
    if addr.toNat % size ≠ 0 then .fault causeMisaligned
    else match s.resolve n addr size true false with
      | .outside => .outside addr
      | .own a =>
        if c.loadOut then .wait
        else match c.forward n none a size with
          | .wait => .wait
          | .bytes bs => done s bs
          | .memory => if c.storeBad a size then .poison else done s (c.loadOwn a size)
      | .ext t a =>
        if c.loadOut then .wait
        else match c.forward n (some t) a size with
          | .wait => .wait
          | .bytes bs => done s bs
          | .memory =>
            match (if t = .host then s.weltServe a size false else none) with
            | some (bs, false) => done (s.hostUse n a) bs
            | some (_, true) => .go ((s.hostUse n a).hostPoisoned n a)
            | none =>
              if t = .host && !s.weltRoom n then .wait
              else .go ((s.hostSend n t a 0).setCell n { c.retire 4 with
                ext := c.ext ++ [s.access (.load rd size signed) t a c.pc c.seq] })) s

/-- R203 LB. -/
def execLb (h : Hdr) (rd rs1 : Fin 32) (imm : Byte) (s : State) : Out := loadOp 1 true h rd rs1 imm s
/-- R203 LBU. -/
def execLbu (h : Hdr) (rd rs1 : Fin 32) (imm : Byte) (s : State) : Out := loadOp 1 false h rd rs1 imm s
/-- R203 LH. -/
def execLh (h : Hdr) (rd rs1 : Fin 32) (imm : Byte) (s : State) : Out := loadOp 2 true h rd rs1 imm s
/-- R203 LHU. -/
def execLhu (h : Hdr) (rd rs1 : Fin 32) (imm : Byte) (s : State) : Out := loadOp 2 false h rd rs1 imm s
/-- R203 LW. -/
def execLw (h : Hdr) (rd rs1 : Fin 32) (imm : Byte) (s : State) : Out := loadOp 4 true h rd rs1 imm s
/-- R203 LWU. -/
def execLwu (h : Hdr) (rd rs1 : Fin 32) (imm : Byte) (s : State) : Out := loadOp 4 false h rd rs1 imm s
/-- R203 LD. -/
def execLd (h : Hdr) (rd rs1 : Fin 32) (imm : Byte) (s : State) : Out := loadOp 8 false h rd rs1 imm s

/-- Stores (R203, R209): into the store buffer of 8, or waiting at issue while it is full. -/
def storeOp (size : Nat) (h : Hdr) (rs2 rs1 : Fin 32) (imm : Byte) (s : State) : Out :=
  checkedOp h 4 false [rs2, rs1] (fun c s =>
    let n := h.cell.val
    let addr := memAddr c rs1 imm size
    if addr.toNat % size ≠ 0 then .fault causeMisaligned
    else
      let put (t : Option ExtTarget) (a : Nat) : Act :=
        if 8 ≤ c.sbuf.length || c.sweep.isSome then .wait
        else .go (s.setCell n { c.retire 4 with sbuf := c.sbuf ++
          [{ target := t, addr := a, bytes := leBytes size (c.greg rs2).toNat, pc := c.pc, seq := c.seq }] })
      match s.resolve n addr size false true with
      | .outside => .outside addr
      | .own a => put none a
      | .ext t a => put (some t) a) s

/-- R203 SB. -/
def execSb (h : Hdr) (rs2 rs1 : Fin 32) (imm : Byte) (s : State) : Out := storeOp 1 h rs2 rs1 imm s
/-- R203 SH. -/
def execSh (h : Hdr) (rs2 rs1 : Fin 32) (imm : Byte) (s : State) : Out := storeOp 2 h rs2 rs1 imm s
/-- R203 SW. -/
def execSw (h : Hdr) (rs2 rs1 : Fin 32) (imm : Byte) (s : State) : Out := storeOp 4 h rs2 rs1 imm s
/-- R203 SD. -/
def execSd (h : Hdr) (rs2 rs1 : Fin 32) (imm : Byte) (s : State) : Out := storeOp 8 h rs2 rs1 imm s

/-- R206 rule 3: a store is not performed before an earlier load of the cell. -/
def Cell.olderLoad (c : Cell) (seq : Nat) : Bool :=
  c.ext.any (fun e => match e.kind with | .store => false | _ => decide (e.seq < seq))

/-- The oldest store leaves the buffer. -/
def Cell.popStore (c : Cell) : Cell := { c with sbuf := c.sbuf.drop 1 }

/-- R209: the oldest buffered store drains: it is performed in the own store at once, and elsewhere sent to its target,
where EXTERNAL_ACCESS_COMPLETE or HOST_RESPONSE performs it. -/
def execStoreBufferDrain (cell : Fin 128) (s : State) : Out :=
  let n := cell.val
  let c := s.cell n
  match c.sbuf with
  | [] => .next s
  | e :: _ =>
    if e.sent || c.olderLoad e.seq then .next s
    else match e.target with
      | none => .next ((s.performStore n e).modCell n Cell.popStore)
      | some t =>
        if t = .host ∧ (s.weltServe e.addr e.bytes.length true).isSome then
          .next (((s.hostUse n e.addr).performStore n e).modCell n Cell.popStore)
        else if t = .host && !s.weltRoom n then .next s
        else .next ((s.hostSend n t e.addr 1).setCell n { c with
          sbuf := { e with sent := true } :: c.sbuf.drop 1
          ext := c.ext ++ [s.access .store t e.addr e.pc e.seq] })

/-! Atomics (R205). -/

/-- R205: the value written, none where CAS does not write. Operands at width `w` bits. -/
def amoNew (op : AmoOp) {w : Nat} (m v expected : BitVec w) : Option (BitVec w) :=
  match op with
  | .swap => some v
  | .add => some (m + v)
  | .and => some (m &&& v)
  | .or => some (m ||| v)
  | .xor => some (m ^^^ v)
  | .min => some (if v.slt m then v else m)
  | .max => some (if m.slt v then v else m)
  | .minu => some (if v.ult m then v else m)
  | .maxu => some (if m.ult v then v else m)
  | .cas => if m = expected then some v else none

/-- R205: the bytes written, if any, and the value returned to RD. -/
def amoApply (op : AmoOp) (d : Bool) (mem : List Byte) (v expected : W64) : Option (List Byte) × W64 :=
  if d then
    let m : W64 := BitVec.ofNat 64 (leNat mem)
    ((amoNew op m v expected).map (fun x => leBytes 8 x.toNat), m)
  else
    let m : W32 := BitVec.ofNat 32 (leNat mem)
    ((amoNew op m (lowW v) (lowW expected)).map (fun x => leBytes 4 x.toNat), sext32 m)

/-- R205: an atomic waits until the store buffer is empty; it is one indivisible step at its target. -/
def atomicOp (op : AmoOp) (h : Hdr) (d : Bool) (rd rs1 rs2 : Fin 32) (s : State) : Out :=
  checkedOp h 4 false [rd, rs1, rs2] (fun c s =>
    let n := h.cell.val
    let size := if d then 8 else 4
    let addr := c.greg rs1
    if addr.toNat % size ≠ 0 then .fault causeMisaligned
    else match s.resolve n addr size true true with
      | .outside => .outside addr
      | .own a =>
        if !c.sbuf.isEmpty || c.loadOut then .wait
        else if c.storeBad a size then .poison
        else
          let r := amoApply op d (c.loadOwn a size) (c.greg rs2) (c.greg rd)
          .go (s.modCell n (fun c =>
            ((match r.1 with | some bs => c.storeOwn a bs | none => c).setG rd r.2).retire 4))
      | .ext t a =>
        if !c.sbuf.isEmpty || c.loadOut then .wait
        else match (if t = .host then s.weltServe a size true else none) with
          | some (_, true) => .go ((s.hostUse n a).hostPoisoned n a)
          | some (m, false) =>
            let r := amoApply op d m (c.greg rs2) (c.greg rd)
            let s' := (s.hostUse n a).modCell n (fun c => (c.setG rd r.2).retire 4)
            .go (match r.1 with | some bs => s'.hostStore c.par a bs | none => s')
          | none =>
            if t = .host && !s.weltRoom n then .wait
            else .go ((s.hostSend n t a 1).setCell n { c.retire 4 with ext := c.ext ++
              [s.access (.amo op d rd (c.greg rs2) (c.greg rd)) t a c.pc c.seq] }))
    s

/-- R205 AMOSWAP. -/
def execAmoswap (h : Hdr) (d : Bool) (rd rs1 rs2 : Fin 32) (s : State) : Out := atomicOp .swap h d rd rs1 rs2 s
/-- R205 AMOADD. -/
def execAmoadd (h : Hdr) (d : Bool) (rd rs1 rs2 : Fin 32) (s : State) : Out := atomicOp .add h d rd rs1 rs2 s
/-- R205 AMOAND. -/
def execAmoand (h : Hdr) (d : Bool) (rd rs1 rs2 : Fin 32) (s : State) : Out := atomicOp .and h d rd rs1 rs2 s
/-- R205 AMOOR. -/
def execAmoor (h : Hdr) (d : Bool) (rd rs1 rs2 : Fin 32) (s : State) : Out := atomicOp .or h d rd rs1 rs2 s
/-- R205 AMOXOR. -/
def execAmoxor (h : Hdr) (d : Bool) (rd rs1 rs2 : Fin 32) (s : State) : Out := atomicOp .xor h d rd rs1 rs2 s
/-- R205 AMOMIN. -/
def execAmomin (h : Hdr) (d : Bool) (rd rs1 rs2 : Fin 32) (s : State) : Out := atomicOp .min h d rd rs1 rs2 s
/-- R205 AMOMAX. -/
def execAmomax (h : Hdr) (d : Bool) (rd rs1 rs2 : Fin 32) (s : State) : Out := atomicOp .max h d rd rs1 rs2 s
/-- R205 AMOMINU. -/
def execAmominu (h : Hdr) (d : Bool) (rd rs1 rs2 : Fin 32) (s : State) : Out := atomicOp .minu h d rd rs1 rs2 s
/-- R205 AMOMAXU. -/
def execAmomaxu (h : Hdr) (d : Bool) (rd rs1 rs2 : Fin 32) (s : State) : Out := atomicOp .maxu h d rd rs1 rs2 s
/-- R205 CAS. -/
def execCas (h : Hdr) (d : Bool) (rd rs1 rs2 : Fin 32) (s : State) : Out := atomicOp .cas h d rd rs1 rs2 s

/-! Completion outside the cell (R204, R446, R523). -/

/-- The bytes at a device target, and whether they are poisoned. -/
def State.targetRead (s : State) (n : Nat) (t : ExtTarget) (a len : Nat) : List Byte × Bool :=
  match t with
  | .replica k | .storeSeg k => ((s.cell k).loadOwn a len, (s.cell k).storeBad a len)
  | .stack st gr => s.stackRead (s.cell n).par st gr a len
  | .host => ([], false)

/-- Removes the access at the head of those that are not a sweep's and not the host's. -/
def Cell.dropExt (c : Cell) (e : ExtAcc) : Cell := { c with ext := c.ext.erase e }

/-- R434, R445, R446, R544: an access of cell n reaches its target. A read of a stack: its place is checked, its sector
counted, and what its ECC found applied; an access that another cell's store serves is counted there. -/
def State.readSector (s : State) (n : Nat) (e : ExtAcc) (ecc : Ecc) : State :=
  let p := (s.cell n).par
  match e.target, e.kind with
  | .stack _ _, .store => s
  | .stack st gr, _ =>
    let len := match e.kind with | .load _ k _ => k | .amo _ d _ _ _ => if d then 8 else 4 | _ => 8
    let s := s.countPlace p st gr e.addr len
    let s := s.countStack n ((s.parcel p).place st gr e.addr / 2 ^ 36)
    s.stackEcc p ((s.parcel p).place st gr e.addr) e.addr ecc
  | t, _ => s.countServed n t

/-- R486: whether an access waits for a bank under test. -/
def State.accWaits (s : State) (e : ExtAcc) : Bool :=
  match e.target with
  | .replica k | .storeSeg k => s.bankTested k e.addr
  | _ => false

/-- R137, R185, R205: an access that an aborted instance of cell n left behind completes at its target: a load's data go
nowhere, an atomic is performed. -/
def State.finishGone (s : State) (n : Nat) (e : ExtAcc) (ecc : Ecc) : State :=
  let s := (s.modCell n (fun c => { c with gone := c.gone.erase e })).readSector n e ecc
  match e.kind with
  | .amo op d _ v expected =>
    let r := s.targetRead n e.target e.addr (if d then 8 else 4)
    match (if r.2 then none else (amoApply op d r.1 v expected).1) with
    | some bs => s.performStore n { target := some e.target, addr := e.addr, bytes := bs, pc := e.pc, seq := e.seq }
    | none => s
  | _ => s

/-- R204, R486: the oldest outstanding access of the cell whose target is not the host completes, those of an aborted
instance first; one to a bank under test waits. -/
def execExternalAccessComplete (cell : Fin 128) (ecc : Ecc) (s : State) : Out :=
  let n := cell.val
  let c := s.cell n
  match c.gone.find? (fun e => decide (e.target ≠ .host)) with
  | some e => if s.accWaits e then .next s else .next (s.finishGone n e ecc)
  | none =>
  match c.ext.find? (fun e => decide (e.target ≠ .host)) with
  | none => .next s
  | some e =>
    if s.accWaits e then .next s else
    let s := (s.readSector n e ecc).modCell n (fun c => c.dropExt e)
    match e.kind with
    | .store => match c.sbuf with
      | b :: _ => .next ((s.performStore n b).modCell n Cell.popStore)
      | [] => .next s
    | .load rd size signed =>
      let r := s.targetRead n e.target e.addr size
      if r.2 then .next (s.devicePoison n)
      else .next (s.modCell n (fun c => c.setG rd (extend r.1 signed)))
    | .amo op d rd v expected =>
      let size := if d then 8 else 4
      let r := s.targetRead n e.target e.addr size
      if r.2 then .next (s.devicePoison n)
      else
        let x := amoApply op d r.1 v expected
        let s := match x.1 with
          | some bs => s.performStore n { target := some e.target, addr := e.addr, bytes := bs, pc := e.pc, seq := e.seq }
          | none => s
        .next (s.modCell n (fun c => c.setG rd x.2))
    | _ => .next s

end Sys2Proof.Machine
end

