-- ==== Sys2Proof/Machine/Control.lean ====
section
/-! DEFINITION. Control flow, fences, queue instructions, cs registers and long operations (R201, R208 to R215). -/

namespace Sys2Proof.Machine

/-- The size of the cell's code block. -/
def Cell.codeSize (c : Cell) : Nat := match c.graph with | some g => g.size | none => 0

/-- R201, R216: a taken branch to `target`, its link written first; a bad target faults at the branch, PC_RANGE first. -/
def branchTo (h : Hdr) (c : Cell) (link : Option (Fin 32)) (target : Int) (s : State) : Act :=
  if target < 0 ∨ (c.codeSize : Int) ≤ target then .fault causePcRange
  else if target % 4 ≠ 0 then .fault causeMisaligned
  else
    let c' := match link with | some rd => c.setG rd (BitVec.ofNat 64 (c.pc + 4)) | none => c
    .go (s.setCell h.cell { c' with pc := target.toNat, seq := c.seq + 1 })

/-- R201 BR. -/
def execBr (h : Hdr) (off : BitVec 21) (s : State) : Out :=
  checkedOp h 4 false [] (fun c s => branchTo h c none ((c.pc : Int) + off.toInt * 4) s) s

/-- R201 CALL. -/
def execCall (h : Hdr) (off : BitVec 21) (s : State) : Out :=
  checkedOp h 4 false [31] (fun c s => branchTo h c (some 31) ((c.pc : Int) + off.toInt * 4) s) s

/-- R201 JALR: RS1 is read before RD is written. -/
def execJalr (h : Hdr) (rd rs1 : Fin 32) (imm : BitVec 11) (s : State) : Out :=
  checkedOp h 4 false [rd, rs1] (fun c s =>
    branchTo h c (some rd) ((c.greg rs1 + imm.signExtend 64 * 4).toNat : Int) s) s

/-- R208: whether an HSWEEP.W is in progress: its line stores are not all performed. -/
def Cell.sweepStores (c : Cell) : Bool := match c.sweep with | some w => w.write | none => false

/-- R208 FENCE.SL: waits until the store buffer has drained and every earlier store is performed. -/
def execFenceSl (h : Hdr) (s : State) : Out :=
  checkedOp h 4 false [] (fun c s => if c.sbuf.isEmpty && !c.sweepStores then .go (s.setCell h.cell (c.retire 4)) else .wait) s

/-- R182, R208: whether what a UWAIT mask names has ended. -/
def Cell.unitsDone (c : Cell) (mask : Byte) : Bool :=
  let done (bit : Nat) (u : UnitId) : Bool := !mask.getLsbD bit || (c.queue u).isEmpty
  done 0 .array && done 1 .mv && done 2 .cag && done 3 .vec && done 4 .tmove && (!mask.getLsbD 6 || c.sbuf.isEmpty)

/-- R182, R208 UWAIT; mask bits 5 and 7 are reserved. -/
def execUwait (h : Hdr) (mask : Byte) (s : State) : Out :=
  checkedOp h 4 (mask.getLsbD 5 || mask.getLsbD 7) [] (fun c s =>
    if c.unitsDone mask then .go (s.setCell h.cell (c.retire 4)) else .wait) s

/-- R187, R211, R286: END and WAITQ act when the cell's units, store buffer, accesses and gathers have ended. -/
def Cell.quietForQueue (c : Cell) : Bool :=
  c.allCmds.isEmpty && c.sbuf.isEmpty && c.ext.isEmpty && c.sweep.isNone &&
    decide ((c.slot 0).phase = .idle) && decide ((c.slot 1).phase = .idle)

/-- The instance on cell n. -/
def State.instOn (s : State) (n : Nat) : Option (Nat × Inst) :=
  (s.cell n).inst.bind (fun i => (s.inst i).map (fun x => (i, x)))

/-- R211 WAITQ: stops the cell's issue until every cell of the replica has executed it. -/
def execWaitq (h : Hdr) (rd : Fin 32) (s : State) : Out :=
  checkedOp h 4 false [rd] (fun c s =>
    match s.instOn h.cell with
    | none => if s.launchedOn h.cell = some true then .fault causeWrongKind else .wait
    | some (i, x) =>
      if x.launched then .fault causeWrongKind
      else if !c.quietForQueue then .wait
      else
        let s := s.setCell h.cell { c with wait := .atWaitq rd, seq := c.seq + 1 }
        if s.allAtWaitq x then .go (s.atWaitq i x) else .go s) s

/-- R211 END: stops the cell's issue until every cell of the replica has executed it, then ends the instance. -/
def execEndI (h : Hdr) (s : State) : Out :=
  checkedOp h 4 false [] (fun c s =>
    match s.instOn h.cell with
    | none => if s.launchedOn h.cell = some false then .fault causeWrongKind else .wait
    | some (i, x) =>
      if !x.launched then .fault causeWrongKind
      else if !c.quietForQueue then .wait
      else
        let s := s.setCell h.cell { c.retire 4 with wait := .atEnd }
        if x.cells.all (fun n => decide ((s.cell n).wait = .atEnd)) then .go (s.endInst i x) else .go s) s

/-! cs registers (R189, R192, R210, R223, R272, R572). -/

/-- R189 cs.cell. -/
def State.csCell (s : State) (n : Nat) (c : Cell) : Nat :=
  (match c.parcel with
    | some p => (s.parcel p).cfg.floorClk % 32 * 2 ^ 24 + p.val * 2 ^ 12 + 2 ^ 11
    | none => 0) + c.clk % 32 * 2 ^ 16 + c.rt.toNat * 2 ^ 10 + n % 128 / 32 * 2 ^ 7 + n % 128

/-- R189 cs.ubusy. -/
def Cell.ubusy (c : Cell) : Nat :=
  let b (q : Bool) (k : Nat) : Nat := if q then 2 ^ k else 0
  b (!(c.queue .array).isEmpty) 0 + b (!(c.queue .mv).isEmpty) 1 + b (!(c.queue .cag).isEmpty) 2 +
    b (!(c.queue .vec).isEmpty) 3 + b (!(c.queue .tmove).isEmpty) 4 + b (!c.ext.isEmpty) 5 + b (!c.sbuf.isEmpty) 6

/-- R223 cs.tcfg. -/
def Cell.tcfg (c : Cell) : Nat :=
  c.cagv.toNat * 64 + c.acct.toNat * 32 + c.defarr.toNat * 8 + c.arr.toNat * 2 + c.fixedMode.toNat

/-- R572: the value of a cs register, none for a CSNUM that names none. -/
def State.csRead (s : State) (n : Nat) (c : Cell) (cs : BitVec 9) : Option W64 :=
  match cs.toNat with
  | 0x000 => some c.status
  | 0x001 => some c.cycle
  | 0x002 => some (BitVec.ofNat 64 s.datum)
  | 0x003 => some c.qh
  | 0x004 => some (BitVec.ofNat 64 (c.faultPc.toNat * 2 ^ 16 + c.faultCause.toNat))
  | 0x005 => some c.rsmpc
  | 0x006 => some c.rsmcnt
  | 0x007 => some c.rsmsrc
  | 0x008 => some c.rsmdst
  | 0x009 => some c.rng
  | 0x010 => some (BitVec.ofNat 64 (s.csCell n c))
  | 0x011 => some (BitVec.ofNat 64 c.ubusy)
  | 0x020 => some (c.tuse.setWidth 64)
  | 0x021 => some (c.tsat.setWidth 64)
  | 0x022 => some (BitVec.ofNat 64 c.tcfg)
  | 0x024 => some (c.tshape.getD 0 0)
  | 0x025 => some (c.tshape.getD 1 0)
  | 0x026 => some (c.tshape.getD 2 0)
  | 0x027 => some (c.tshape.getD 3 0)
  | _ => none

/-- R192: the writable fields of cs.rsmpc. -/
def rsmpcMask : W64 := 0xF00000000000FFFF#64

/-- R210: the RW fields of a cs register take `v`. -/
def Cell.csWriteRW (c : Cell) (cs : BitVec 9) (v : W64) : Cell :=
  match cs.toNat with
  | 0x005 => { c with rsmpc := v &&& rsmpcMask }
  | 0x006 => { c with rsmcnt := v }
  | 0x007 => { c with rsmsrc := v }
  | 0x008 => { c with rsmdst := v }
  | 0x009 => { c with rng := v }
  | _ => c

/-- R210: the W1C fields of a cs register lose the bits set in `v`. -/
def Cell.csClear (c : Cell) (cs : BitVec 9) (v : W64) : Cell :=
  match cs.toNat with
  | 0x000 => { c with status := c.status &&& ~~~v }
  | 0x021 => { c with tsat := c.tsat &&& ~~~(v.setWidth 17) }
  | _ => c

/-- R210: a K-format instruction: the old value goes to RD, and `f` writes. -/
def csOp (h : Hdr) (rd rs1 : Fin 32) (cs : BitVec 9) (ill : Bool) (f : Cell → W64 → W64 → Cell) (s : State) : Out :=
  issue h 4 (ill || (s.csRead h.cell (s.cell h.cell) cs).isNone) [rd, rs1] (fun c s =>
    match s.csRead h.cell c cs with
    | some old => s.setCell h.cell (((f c old (c.greg rs1)).setG rd old).retire 4)
    | none => s) s

/-- R210 CSRR; a non-zero RS1 faults with ILLEGAL. -/
def execCsrr (h : Hdr) (rd rs1 : Fin 32) (cs : BitVec 9) (s : State) : Out :=
  csOp h rd rs1 cs (decide (rs1 ≠ 0)) (fun c _ _ => c) s
/-- R210 CSRW. -/
def execCsrw (h : Hdr) (rd rs1 : Fin 32) (cs : BitVec 9) (s : State) : Out :=
  csOp h rd rs1 cs false (fun c _ v => (c.csWriteRW cs v).csClear cs v) s
/-- R210 CSRS. -/
def execCsrs (h : Hdr) (rd rs1 : Fin 32) (cs : BitVec 9) (s : State) : Out :=
  csOp h rd rs1 cs false (fun c old v => c.csWriteRW cs (old ||| v)) s
/-- R210 CSRC. -/
def execCsrc (h : Hdr) (rd rs1 : Fin 32) (cs : BitVec 9) (s : State) : Out :=
  csOp h rd rs1 cs false (fun c old v => (c.csWriteRW cs (old &&& ~~~v)).csClear cs v) s

/-! Long operations (R213). -/

/-- What the window of a cell address is (R202, R213). -/
inductive WinKind where
  | own
  | replica
  | pointer (target : Nat)
  | undefined
  deriving DecidableEq, Repr

/-- R202: the kind of a window for the instance on cell n. -/
def State.winKind (s : State) (n : Nat) (addr : W64) : WinKind :=
  let win := addr.toNat / 2 ^ 52
  if win = 0 then .own
  else match s.instOn n with
    | none => .undefined
    | some (_, x) =>
      if win ≤ 0x200 then
        if win ≤ ((s.parcel x.parcel).gslot x.slot).ptrs.length then
          .pointer (match x.req with | some r => (match r.windows[win - 1]? with | some w => w.target | none => 0) | none => 0)
        else .undefined
      else if 0x800 ≤ win ∧ win - 0x800 < x.cells.length then .replica
      else .undefined

/-- Whether all `len` bytes at a cell address may be accessed (R202, R336); none of them when `len` is 0. -/
def State.reachable (s : State) (n : Nat) (addr : W64) (len : Nat) (needR needW : Bool) : Bool :=
  decide (len = 0) || decide (s.resolve n addr len needR needW ≠ .outside)

/-- R202: the translated address of a cell address, within a limit or not: its space and its place there; none in a
window that leads nowhere. -/
def State.placeKey (s : State) (n : Nat) (addr : W64) : Option (Nat × Nat) :=
  let win := addr.toNat / 2 ^ 52
  let off := addr.toNat % 2 ^ 52
  if win = 0 then some (n, off)
  else if win ≤ 0x200 then
    match (s.reqOn n).bind (fun r => r.windows[win - 1]?) with
    | some w =>
      if w.target = 0 then none
      else if w.target = 1 then some (spaceOf n (some .host), w.base + off)
      else if w.target = 2 then some (spaceOf n (some (.stack w.stks w.gran)), w.base + off)
      else (storePlace (w.base + off)).map (fun k => (k.1.val, k.2))
    | none => none
  else if 0x800 ≤ win then (s.instOn n).bind (fun x => x.2.cells[win - 0x800]?.map (fun k => (k, off)))
  else none

/-- R202, R213: whether two ranges of a VCOPY share a byte at their translated addresses. -/
def State.rangesMeet (s : State) (n : Nat) (a b : W64) (len : Nat) : Bool :=
  match s.placeKey n a, s.placeKey n b with
  | some (x, i), some (y, j) => decide (x = y) && decide (i < j + len) && decide (j < i + len)
  | _, _ => false

/-- R213 VCOPY: checked at issue, then a long command of the vector unit. -/
def execVcopy (h : Hdr) (rd rs1 rs2 : Fin 32) (s : State) : Out :=
  checkedOp h 4 false [rd, rs1, rs2] (fun c s =>
    let n := h.cell.val
    let count := c.greg rd
    let a := c.greg rs1
    let b := c.greg rs2
    let len := count.toNat
    let ka := s.winKind n a
    let kb := s.winKind n b
    let isPtr (k : WinKind) : Bool := match k with | .pointer _ => true | _ => false
    if count.toNat % 256 ≠ 0 ∨ a.toNat % 256 ≠ 0 ∨ b.toNat % 256 ≠ 0 then .fault causeMisaligned
    else if s.rangesMeet n a b len then .fault causeOverlap
    else if isPtr ka || isPtr kb then .fault causeTarget
    else if ka == .undefined || !s.reachable n a len true false then .outside a
    else if kb == .undefined || !s.reachable n b len false true then .outside b
    else if len = 0 then .go (s.setCell n (c.retire 4))
    else if 4 ≤ (c.queue .vec).length then .wait
    else .go (s.setCell n ((c.setQueue .vec (c.queue .vec ++ [⟨.vcopy rd rs1 rs2 count a b, c.pc, c.seq⟩])).retire 4))) s

/-- R213: RD, RS1 and RS2 after a step of the completed prefix. -/
def Cell.setLong (c : Cell) (rd rs1 rs2 : Fin 32) (count src dst : W64) : Cell :=
  ((c.setG rd count).setG rs1 src).setG rs2 dst

/-- R213: the oldest line of the sweep that is done ends the prefix's next step; the last one ends the operation. -/
def Cell.sweepAdvance (c : Cell) : Nat → Cell
  | 0 => c
  | fuel + 1 =>
    match c.sweep with
    | none => c
    | some w =>
      if w.prefixDone = w.lines then { c with sweep := none }
      else if c.ext.any (fun e => decide (e.line = w.prefixDone) && e.done) then
        let w' := { w with prefixDone := w.prefixDone + 1, count := w.count - 64, src := w.src + 64, dst := w.dst + 64 }
        let c' := { c with
          ext := c.ext.filter (fun e => !(decide (e.line = w.prefixDone) && e.done))
          sweep := some w' }
        Cell.sweepAdvance (c'.setLong w.rd w.rs1 w.rs2 w'.count w'.src w'.dst) fuel
      else c

/-- R213: the host and store sides of line `k` of a sweep. -/
def State.sweepLine (s : State) (n : Nat) (w : Sweep) (k : Nat) : Option ExtAcc :=
  let off : W64 := BitVec.ofNat 64 (64 * (k - w.prefixDone))
  let src := s.resolve n (w.src + off) 64 true false
  let dst := s.resolve n (w.dst + off) 64 false true
  if w.write then
    match src, dst with
    | .own a, .ext .host b =>
      some { s.access (.sweepW ((s.cell n).loadOwn a 64)) .host b w.pc w.seq with line := k }
    | _, _ => none
  else
    match src, dst with
    | .ext .host a, .own b =>
      some { s.access (.sweepR b) .host a w.pc w.seq with line := k }
    | _, _ => none

/-- A line of a sweep is done: its store side is written, and the prefix advances. -/
def Cell.sweepDone (c : Cell) (e : ExtAcc) (bs : List Byte) : Cell :=
  let c := match e.kind with | .sweepR d => c.storeOwn d bs | _ => c
  Cell.sweepAdvance { c with ext := c.ext.map (fun x => if x = e then { x with done := true } else x) } 32

/-- R213, R217, R361, R367: sends lines while fewer than 16 are in flight from the first that is not done; one that the
Welt serves is done at once, and a poisoned read ends the instance. -/
def State.sweepPump (s : State) (n : Nat) : Nat → State
  | 0 => s
  | fuel + 1 =>
    match (s.cell n).sweep with
    | none => s
    | some w =>
      if w.issued < w.lines ∧ w.issued < w.prefixDone + 16 ∧ s.weltRoom n then
        match s.sweepLine n w w.issued with
        | some e =>
          let s := match (s.cell n).inst with | some i => s.countLines i 1 | none => s
          let s := s.modCell n (fun c => { c with ext := c.ext ++ [e], sweep := some { w with issued := w.issued + 1 } })
          match e.kind, s.weltServe e.addr 64 w.write with
          | .sweepW bs, some _ =>
            State.sweepPump ((s.hostStore (s.cell n).par e.addr bs).modCell n (fun c => c.sweepDone e [])) n fuel
          | _, some (_, true) => s.hostPoisoned n e.addr
          | _, some (bs, false) => State.sweepPump ((s.weltTouch e.addr).modCell n (fun c => c.sweepDone e bs)) n fuel
          | _, none => State.sweepPump (s.weltAsk e.addr (if w.write then 2 else 0)) n fuel
        | none => s
      else s

/-- R213 HSWEEP.R and HSWEEP.W: checked at issue; lines then go to the Welt. -/
def sweepOp (write : Bool) (h : Hdr) (rd rs1 rs2 : Fin 32) (s : State) : Out :=
  checkedOp h 4 false [rd, rs1, rs2] (fun c s =>
    let n := h.cell.val
    let count := c.greg rd
    let a := c.greg rs1
    let b := c.greg rs2
    let len := count.toNat
    let ka := s.winKind n a
    let kb := s.winKind n b
    let hostSide := if write then kb else ka
    let ownSide := if write then ka else kb
    let badTarget (k : WinKind) (host : Bool) : Bool := match k with
      | .own => host
      | .replica => true
      | .pointer t => !host || decide (t ≠ 1)
      | .undefined => false
    if count.toNat % 64 ≠ 0 ∨ a.toNat % 64 ≠ 0 ∨ b.toNat % 64 ≠ 0 then .fault causeMisaligned
    else if badTarget hostSide true || badTarget ownSide false then .fault causeTarget
    else if ka == .undefined || !s.reachable n a len true false then .outside a
    else if kb == .undefined || !s.reachable n b len false true then .outside b
    else if !c.sbuf.isEmpty || c.loadOut then .wait
    else if len = 0 then .go (s.setCell n (c.retire 4))
    else
      let w : Sweep := { write := write, rd := rd, rs1 := rs1, rs2 := rs2, pc := c.pc, seq := c.seq, count := count
                         src := a, dst := b, issued := 0, lines := len / 64, prefixDone := 0 }
      .go ((s.setCell n { c.retire 4 with sweep := some w }).sweepPump n (len / 64 + 1))) s

/-- R213 HSWEEP.R. -/
def execHsweepR (h : Hdr) (rd rs1 rs2 : Fin 32) (s : State) : Out := sweepOp false h rd rs1 rs2 s
/-- R213 HSWEEP.W. -/
def execHsweepW (h : Hdr) (rd rs1 rs2 : Fin 32) (s : State) : Out := sweepOp true h rd rs1 rs2 s

end Sys2Proof.Machine
end

