-- ==== Sys2Proof/Machine/Vector.lean ====
section
/-! DEFINITION. The vector unit's instructions (R246 to R251, R267, R268). -/

namespace Sys2Proof.Machine

/-- A lane operation: results into v[RD], the lanes' cs.status bits together. -/
def laneOp (h : Hdr) (sc : Bool) (rd rs1 rs2 : Fin 32) (f : W32 → W32 → W32 → LaneRes) (s : State) : Out :=
  cellOp h 4 false (if sc then [rs2] else []) (fun c =>
    let rs := List.zipWith (fun (ab : W32 × W32) d => f ab.1 ab.2 d)
      ((lanesOf (c.vreg rs1)).zip (laneB c sc rs2)) (lanesOf (c.vreg rd))
    (c.setV rd (rowOfLanes (rs.map (·.1)))).orStatus (rs.foldl (fun m r => m ||| r.2) 0)) s

/-- An integer lane operation without flags. -/
def lanePlain (h : Hdr) (sc : Bool) (rd rs1 rs2 : Fin 32) (f : W32 → W32 → W32) (s : State) : Out :=
  laneOp h sc rd rs1 rs2 (fun a b _ => (f a b, 0)) s

/-- An fp32 lane operation: its flags into cs.status.FPF (R269). -/
def laneF32 (h : Hdr) (sc : Bool) (rd rs1 rs2 : Fin 32) (f : W32 → W32 → F32Res) (s : State) : Out :=
  laneOp h sc rd rs1 rs2 (fun a b _ => let r := f a b; (r.1, r.2.mask)) s

/-- R247 VADD. -/
def execVadd (h : Hdr) (sc : Bool) (rd rs1 rs2 : Fin 32) (s : State) : Out :=
  lanePlain h sc rd rs1 rs2 (fun a b => a + b) s

/-- R247 VSUB. -/
def execVsub (h : Hdr) (sc : Bool) (rd rs1 rs2 : Fin 32) (s : State) : Out :=
  lanePlain h sc rd rs1 rs2 (fun a b => a - b) s

/-- R247 VMUL. -/
def execVmul (h : Hdr) (sc : Bool) (rd rs1 rs2 : Fin 32) (s : State) : Out :=
  lanePlain h sc rd rs1 rs2 (fun a b => a * b) s

/-- R247 VMULH. -/
def execVmulh (h : Hdr) (sc : Bool) (rd rs1 rs2 : Fin 32) (s : State) : Out :=
  lanePlain h sc rd rs1 rs2 (fun a b => laneMulh a b) s

/-- R247 VAND. -/
def execVand (h : Hdr) (sc : Bool) (rd rs1 rs2 : Fin 32) (s : State) : Out :=
  lanePlain h sc rd rs1 rs2 (fun a b => a &&& b) s

/-- R247 VOR. -/
def execVor (h : Hdr) (sc : Bool) (rd rs1 rs2 : Fin 32) (s : State) : Out :=
  lanePlain h sc rd rs1 rs2 (fun a b => a ||| b) s

/-- R247 VXOR. -/
def execVxor (h : Hdr) (sc : Bool) (rd rs1 rs2 : Fin 32) (s : State) : Out :=
  lanePlain h sc rd rs1 rs2 (fun a b => a ^^^ b) s

/-- R247 VSLL. -/
def execVsll (h : Hdr) (sc : Bool) (rd rs1 rs2 : Fin 32) (s : State) : Out :=
  lanePlain h sc rd rs1 rs2 (fun a b => laneShl a b) s

/-- R247 VSRL. -/
def execVsrl (h : Hdr) (sc : Bool) (rd rs1 rs2 : Fin 32) (s : State) : Out :=
  lanePlain h sc rd rs1 rs2 (fun a b => laneShr a b) s

/-- R247 VSRA. -/
def execVsra (h : Hdr) (sc : Bool) (rd rs1 rs2 : Fin 32) (s : State) : Out :=
  lanePlain h sc rd rs1 rs2 (fun a b => laneSar a b) s

/-- R247 VNEG. -/
def execVneg (h : Hdr) (rd rs1 : Fin 32) (s : State) : Out :=
  laneOp h false rd rs1 0 (fun a _ _ => laneNeg a) s

/-- R247 VABS. -/
def execVabs (h : Hdr) (rd rs1 : Fin 32) (s : State) : Out :=
  laneOp h false rd rs1 0 (fun a _ _ => laneAbs a) s

/-- R247 VMIN. -/
def execVmin (h : Hdr) (sc : Bool) (rd rs1 rs2 : Fin 32) (s : State) : Out :=
  lanePlain h sc rd rs1 rs2 (fun a b => if b.slt a then b else a) s

/-- R247 VMAX. -/
def execVmax (h : Hdr) (sc : Bool) (rd rs1 rs2 : Fin 32) (s : State) : Out :=
  lanePlain h sc rd rs1 rs2 (fun a b => if a.slt b then b else a) s

/-- R247 VMINU. -/
def execVminu (h : Hdr) (sc : Bool) (rd rs1 rs2 : Fin 32) (s : State) : Out :=
  lanePlain h sc rd rs1 rs2 (fun a b => if b.ult a then b else a) s

/-- R247 VMAXU. -/
def execVmaxu (h : Hdr) (sc : Bool) (rd rs1 rs2 : Fin 32) (s : State) : Out :=
  lanePlain h sc rd rs1 rs2 (fun a b => if a.ult b then b else a) s

/-- R247, R267 VADDS. -/
def execVadds (h : Hdr) (sc : Bool) (rd rs1 rs2 : Fin 32) (s : State) : Out :=
  laneOp h sc rd rs1 rs2 (fun a b _ => laneSat (a.toInt + b.toInt)) s

/-- R247, R267 VSUBS. -/
def execVsubs (h : Hdr) (sc : Bool) (rd rs1 rs2 : Fin 32) (s : State) : Out :=
  laneOp h sc rd rs1 rs2 (fun a b _ => laneSat (a.toInt - b.toInt)) s

/-- R247, R267 VMULS. -/
def execVmuls (h : Hdr) (sc : Bool) (rd rs1 rs2 : Fin 32) (s : State) : Out :=
  laneOp h sc rd rs1 rs2 (fun a b _ => laneSat (a.toInt * b.toInt)) s

/-- R247 VCEQ. -/
def execVceq (h : Hdr) (sc : Bool) (rd rs1 rs2 : Fin 32) (s : State) : Out :=
  lanePlain h sc rd rs1 rs2 (fun a b => laneMask (a == b)) s

/-- R247 VCLT. -/
def execVclt (h : Hdr) (sc : Bool) (rd rs1 rs2 : Fin 32) (s : State) : Out :=
  lanePlain h sc rd rs1 rs2 (fun a b => laneMask (a.slt b)) s

/-- R247 VCLTU. -/
def execVcltu (h : Hdr) (sc : Bool) (rd rs1 rs2 : Fin 32) (s : State) : Out :=
  lanePlain h sc rd rs1 rs2 (fun a b => laneMask (a.ult b)) s

/-- R247 VSEL: (a AND d) OR (b AND NOT d), d the old RD. -/
def execVsel (h : Hdr) (sc : Bool) (rd rs1 rs2 : Fin 32) (s : State) : Out :=
  laneOp h sc rd rs1 rs2 (fun a b d => ((a &&& d) ||| (b &&& ~~~d), 0)) s

/-- R248, R268 VFADD. -/
def execVfadd (h : Hdr) (sc : Bool) (rd rs1 rs2 : Fin 32) (s : State) : Out := laneF32 h sc rd rs1 rs2 f32Add s

/-- R248, R268 VFSUB. -/
def execVfsub (h : Hdr) (sc : Bool) (rd rs1 rs2 : Fin 32) (s : State) : Out := laneF32 h sc rd rs1 rs2 f32Sub s

/-- R248, R268 VFMUL. -/
def execVfmul (h : Hdr) (sc : Bool) (rd rs1 rs2 : Fin 32) (s : State) : Out := laneF32 h sc rd rs1 rs2 f32Mul s

/-- R248, R268 VFMA: a × b + d with one rounding, d the old RD. -/
def execVfma (h : Hdr) (sc : Bool) (rd rs1 rs2 : Fin 32) (s : State) : Out :=
  laneOp h sc rd rs1 rs2 (fun a b d => let r := f32Fma a b d; (r.1, r.2.mask)) s

/-- R248, R268 VFMIN. -/
def execVfmin (h : Hdr) (sc : Bool) (rd rs1 rs2 : Fin 32) (s : State) : Out := laneF32 h sc rd rs1 rs2 f32Min s

/-- R248, R268 VFMAX. -/
def execVfmax (h : Hdr) (sc : Bool) (rd rs1 rs2 : Fin 32) (s : State) : Out := laneF32 h sc rd rs1 rs2 f32Max s

/-- R248, R268 VFNEG. -/
def execVfneg (h : Hdr) (rd rs1 : Fin 32) (s : State) : Out := laneF32 h false rd rs1 0 (fun a _ => f32Neg a) s

/-- R248, R268 VFABS. -/
def execVfabs (h : Hdr) (rd rs1 : Fin 32) (s : State) : Out := laneF32 h false rd rs1 0 (fun a _ => f32Abs a) s

/-- R248, R268 VFCEQ. -/
def execVfceq (h : Hdr) (sc : Bool) (rd rs1 rs2 : Fin 32) (s : State) : Out := laneF32 h sc rd rs1 rs2 f32Eq s

/-- R248, R268 VFCLT. -/
def execVfclt (h : Hdr) (sc : Bool) (rd rs1 rs2 : Fin 32) (s : State) : Out := laneF32 h sc rd rs1 rs2 f32Lt s

/-- R248, R268 VFCLE. -/
def execVfcle (h : Hdr) (sc : Bool) (rd rs1 rs2 : Fin 32) (s : State) : Out := laneF32 h sc rd rs1 rs2 f32Le s

/-- R249, R262: the parts of a vector register at a width. -/
def vcvtPartOk (sf df : Fmt) (part : BitVec 3) : Bool :=
  decide (part.toNat < 2048 / (64 * max sf.bits df.bits))

/-- R249, R262, R275 VCVT. -/
def execVcvt (h : Hdr) (vd vs : Fin 32) (sfmt dfmt : BitVec 4) (rnd : BitVec 2) (part : BitVec 3) (s : State) : Out :=
  checkedOp h 8 ((fmtOf sfmt).isNone || (fmtOf dfmt).isNone || (rndOf rnd).isNone) [] (fun c s =>
    match fmtOf sfmt, fmtOf dfmt, rndOf rnd with
    | some sf, some df, some mode =>
      if !vcvtPartOk sf df part then .fault causeIllegal
      else
        let r := vcvtRow sf df mode part.toNat h.cell (c.vreg vs) (c.vreg vd) c.rng
        .go (s.setCell h.cell ((({ c.setV vd r.1 with rng := r.2.2.2 }).orStatus
          (r.2.1.mask ||| (if r.2.2.1 then stVSAT else 0))).retire 8))
    | _, _, _ => .fault causeIllegal) s

/-- R229: a store operand of the tile and vector units: window 0, every byte below STORE_BYTES. -/
def Cell.ownRange (c : Cell) (addr : W64) (n : Nat) : Option Nat :=
  let a := addr.toNat
  if a / 2 ^ 52 = 0 ∧ a + n ≤ (match c.graph with | some g => g.storeBytes | none => 0) then some a else none

/-- R246 VLD: a 256-byte load of the control core under R206 and R209. -/
def execVld (h : Hdr) (vd rs1 : Fin 32) (imm : Byte) (s : State) : Out :=
  checkedOp h 4 false [rs1] (fun c s =>
    let addr := vecAddr c rs1 imm
    if addr.toNat % 128 ≠ 0 then .fault causeMisaligned
    else match c.ownRange addr 256 with
      | none => .outside addr
      | some a =>
        if c.loadOut then .wait
        else match c.forward h.cell none a 256 with
          | .memory =>
            if c.storeBad a 256 then .poison
            else .go (s.setCell h.cell ((c.setV vd (rowOfBytes (c.loadOwn a 256))).retire 4))
          | _ => .wait) s

/-- R246 VST: waits until the store buffer is empty. -/
def execVst (h : Hdr) (vs rs1 : Fin 32) (imm : Byte) (s : State) : Out :=
  checkedOp h 4 false [rs1] (fun c s =>
    let addr := vecAddr c rs1 imm
    if addr.toNat % 128 ≠ 0 then .fault causeMisaligned
    else match c.ownRange addr 256 with
      | none => .outside addr
      | some a =>
        if !c.sbuf.isEmpty || c.loadOut then .wait
        else .go (s.setCell h.cell ((c.storeOwn a (rowBytes (c.vreg vs) 256)).retire 4))) s

/-- R250 VBCAST. -/
def execVbcast (h : Hdr) (vd rs1 : Fin 32) (s : State) : Out :=
  cellOp h 4 false [rs1] (fun c => c.setV vd (rowOfLanes (List.replicate 64 (lowW (c.greg rs1))))) s

/-- R250 VMVG. -/
def execVmvg (h : Hdr) (rd vs : Fin 32) (lane : Fin 64) (s : State) : Out :=
  cellOp h 4 false [rd] (fun c => c.setG rd (sext32 (laneOf (c.vreg vs) lane))) s

/-- R250 VINS. -/
def execVins (h : Hdr) (vd rs1 : Fin 32) (lane : Fin 64) (s : State) : Out :=
  cellOp h 4 false [rs1] (fun c => c.setV vd (rowOfLanes ((lanesOf (c.vreg vd)).set lane (lowW (c.greg rs1))))) s

/-- R250 VRSUM: the exact signed 64-bit sum. -/
def execVrsum (h : Hdr) (rd vs : Fin 32) (s : State) : Out :=
  cellOp h 4 false [rd] (fun c =>
    c.setG rd (BitVec.ofInt 64 ((lanesOf (c.vreg vs)).foldl (fun a x => a + x.toInt) 0))) s

/-- R250: an fp32 reduction by the pairwise tree, and its flags. -/
def f32Tree (f : W32 → W32 → F32Res) (r : Row) : F32Res :=
  match tree64 (liftF32 f) ((lanesOf r).map (fun x => (x, {}))) with
  | x :: _ => x
  | [] => (0, {})

/-- R250 VRFSUM. -/
def execVrfsum (h : Hdr) (rd vs : Fin 32) (s : State) : Out :=
  cellOp h 4 false [rd] (fun c =>
    let r := f32Tree f32Add (c.vreg vs)
    (c.setG rd (r.1.setWidth 64)).orStatus r.2.mask) s

/-- R250 VRMAX: the largest signed lane. -/
def execVrmax (h : Hdr) (rd vs : Fin 32) (s : State) : Out :=
  cellOp h 4 false [rd] (fun c =>
    c.setG rd (sext32 ((lanesOf (c.vreg vs)).foldl (fun a x => if a.slt x then x else a) (0x80000000#32)))) s

/-- R250, R268 VRFMAX: VFMAX pairwise in the tree. -/
def execVrfmax (h : Hdr) (rd vs : Fin 32) (s : State) : Out :=
  cellOp h 4 false [rd] (fun c =>
    let r := f32Tree f32Max (c.vreg vs)
    (c.setG rd (r.1.setWidth 64)).orStatus r.2.mask) s

/-- R226: the tiles from `t` on, `n` of them, are an aligned group inside the graph's TILES mask. -/
def Cell.groupOk (c : Cell) (t n : Nat) : Bool :=
  let mask := match c.graph with | some g => g.tileMask | none => 0
  decide (t % n = 0) && (List.range n).all (fun i => decide (mask / 2 ^ (t + i) % 2 = 1))

/-- R251 VTR: one tile row into a vector register. -/
def execVtr (h : Hdr) (v : Fin 32) (t : Fin 16) (row : Fin 64) (s : State) : Out :=
  checkedOp h 4 false [] (fun c s =>
    if !c.groupOk t 1 then .fault causeIllegal
    else if !c.tilesFree (2 ^ t.val) 0 then .wait
    else if c.tileBad t row 1 32 then .poison
    else .go (s.setCell h.cell ((c.setV v (c.tileRow t row)).retire 4))) s

/-- R251 VTW: a vector register into one tile row. -/
def execVtw (h : Hdr) (v : Fin 32) (t : Fin 16) (row : Fin 64) (s : State) : Out :=
  checkedOp h 4 false [] (fun c s =>
    if !c.groupOk t 1 then .fault causeIllegal
    else if !c.tilesFree 0 (2 ^ t.val) then .wait
    else .go (s.setCell h.cell ((((c.setTileRow t row (c.vreg v)).useTiles t 1).dropLatches t 1).retire 4))) s

end Sys2Proof.Machine
end

