-- ==== Sys2Proof/Machine/Tiles.lean ====
section
/-! DEFINITION. Tile, array, convolution and matrix-vector instructions (R225 to R245) and their commit points (R252). -/

namespace Sys2Proof.Machine

/-- R180, R181: a unit instruction waits at issue while its tiles are held or its queue is full, else it is queued. -/
def enqueue (n : Nat) (u : UnitId) (len : Nat) (cmd : UnitCmd) (c : Cell) (s : State) : Act :=
  if !c.tilesFree cmd.reads cmd.writes || decide (4 ≤ (c.queue u).length) then .wait
  else .go (s.setCell n ((c.setQueue u (c.queue u ++ [⟨cmd, c.pc, c.seq⟩])).retire len))

/-- R225: a shaped instruction's length, and its rows and row bytes / 32; none where its length is wrong for the MODE. -/
def Cell.shapeOf (c : Cell) (t : Fin 16) (shape : Option Shape) : Option (Nat × Nat) :=
  match shape, c.fixedMode with
  | some s, false => some (s.rows.toNat + 1, s.rb.toNat + 1)
  | none, true =>
    let v := bits (c.tshape.getD (t.val / 4) 0).toNat (16 * (t.val % 4)) 9
    some (v % 64 + 1, v / 64 + 1)
  | _, _ => none

/-- R225: bytes of a shaped instruction. -/
def shapeLen (shape : Option Shape) : Nat := if shape.isSome then 8 else 4

/-- R229, R230: the rows of a TLD or TST all lie in window 0 below STORE_BYTES. -/
def Cell.rowsIn (c : Cell) (base : W64) (stride rows bytes : Nat) : Bool :=
  decide (base.toNat / 2 ^ 52 = 0) && (c.ownRange base bytes).isSome &&
    decide (base.toNat + (rows - 1) * stride + bytes ≤ (match c.graph with | some g => g.storeBytes | none => 0))

/-- R230: what TLD and TST check, and the command they queue. -/
def tileMove (mk : Nat → Nat → Nat → Nat → UnitCmd) (h : Hdr) (t : Fin 16) (rs1 rs2 : Fin 32) (shape : Option Shape)
    (s : State) : Out :=
  checkedOp h (shapeLen shape) (((s.cell h.cell).shapeOf t shape).isNone) [rs1, rs2] (fun c s =>
    match c.shapeOf t shape with
    | none => Act.fault causeIllegal
    | some (rows, rb) =>
      let base := c.greg rs1
      let stride := (c.greg rs2).toNat
      if !c.groupOk t 1 then .fault causeIllegal
      else if base.toNat % 32 ≠ 0 ∨ stride % 32 ≠ 0 then .fault causeMisaligned
      else if !c.rowsIn base stride rows (32 * rb) then .outside base
      else enqueue h.cell .tmove (shapeLen shape) (mk base.toNat stride rows rb) c s) s

/-- R230 TLD. -/
def execTld (h : Hdr) (t : Fin 16) (rs1 rs2 : Fin 32) (shape : Option Shape) (s : State) : Out :=
  tileMove (fun b st r rb => .tld t b st r rb) h t rs1 rs2 shape s
/-- R230 TST. -/
def execTst (h : Hdr) (t : Fin 16) (rs1 rs2 : Fin 32) (shape : Option Shape) (s : State) : Out :=
  tileMove (fun b st r rb => .tst t b st r rb) h t rs1 rs2 shape s

/-- R232 TZERO. -/
def execTzero (h : Hdr) (t : Fin 16) (s : State) : Out :=
  checkedOp h 4 false [] (fun c s =>
    if !c.groupOk t 1 then .fault causeIllegal else enqueue h.cell .tmove 4 (.tzero t) c s) s

/-- R232 TFREE: at issue; a writer of the tiles it names under R180. -/
def execTfree (h : Hdr) (mask : BitVec 17) (s : State) : Out :=
  checkedOp h 4 false [] (fun c s =>
    let tiles := match c.graph with | some g => g.tileMask | none => 0
    if (List.range 16).any (fun i => mask.getLsbD i && decide (tiles / 2 ^ i % 2 = 0)) then .fault causeIllegal
    else if !c.tilesFree 0 mask.toNat then .wait
    else .go (s.setCell h.cell (({ c with tuse := c.tuse &&& ~~~mask }).retire 4))) s

/-- R232 TCOPY; TD equal to TS is ILLEGAL. -/
def execTcopy (h : Hdr) (td ts : Fin 16) (s : State) : Out :=
  checkedOp h 4 false [] (fun c s =>
    if td = ts || !c.groupOk td 1 || !c.groupOk ts 1 then .fault causeIllegal
    else enqueue h.cell .tmove 4 (.tcopy td ts) c s) s

/-- R232 ACCZ. -/
def execAccz (h : Hdr) (s : State) : Out :=
  checkedOp h 4 false [] (fun c s => enqueue h.cell .array 4 .accz c s) s

/-- R233: the ACOL values of an arrangement. -/
def acolOk (arr : BitVec 2) (acol : BitVec 2) : Bool := decide (acol.toNat < arrGroup arr)

/-- R236 MMA; in SHAPED mode the RB field of the second word is reserved. -/
def execMma (h : Hdr) (ta tw : Fin 16) (afmt wfmt : BitVec 4) (acol : BitVec 2) (acc : Bool) (shape : Option Shape)
    (s : State) : Out :=
  let rbBad := match shape with | some sh => decide (sh.rb ≠ 0) | none => false
  checkedOp h (shapeLen shape) (((s.cell h.cell).shapeOf ta shape).isNone || (fmtOf afmt).isNone || (fmtOf wfmt).isNone
      || rbBad) [] (fun c s =>
    match c.shapeOf ta shape with
    | none => Act.fault causeIllegal
    | some (rows, _) =>
      if (pairOf afmt wfmt).isNone || !acolOk c.arr acol || !c.groupOk ta (arrGroup c.arr) || !c.groupOk tw 4 then
        .fault causeIllegal
      else enqueue h.cell .array (shapeLen shape) (.mma ta tw afmt wfmt acol acc rows c.arr) c s) s

/-- R238 ACCMV. -/
def execAccmv (h : Hdr) (td : Fin 16) (fmt : BitVec 4) (rnd : BitVec 2) (rs : Fin 32) (nrows : BitVec 6) (s : State) :
    Out :=
  checkedOp h 4 ((fmtOf fmt).isNone || (rndOf rnd).isNone) [rs] (fun c s =>
    match fmtOf fmt with
    | none => .fault causeIllegal
    | some f =>
      if !c.groupOk td (fmtTiles f) then .fault causeIllegal
      else enqueue h.cell .array 4
        (.accmv td fmt rnd (if rs = 0 then none else some (lowW (c.greg rs))) (nrows.toNat + 1)) c s) s

/-- R233, R252 ARR: cs.tcfg.ARR changes at issue for the array commands after it; in queue order it invalidates the
latches. -/
def execArr (h : Hdr) (a : BitVec 2) (s : State) : Out :=
  checkedOp h 4 (a == 3) [] (fun c s => enqueue h.cell .array 4 .arr { c with arr := a } s) s

/-- R240 CAGSET. -/
def execCagset (h : Hdr) (rs1 : Fin 32) (s : State) : Out :=
  checkedOp h 4 false [rs1] (fun c s =>
    let a := c.greg rs1
    if a.toNat % 64 ≠ 0 then .fault causeMisaligned
    else match c.ownRange a 64 with
      | none => .outside a
      | some off => enqueue h.cell .cag 4 (.cagset off) c s) s

/-- R241 CONV: what depends on the encoding and on registers is checked at issue, the rest by the unit. -/
def execConv (h : Hdr) (tw : Fin 16) (rs1 rs2 : Fin 32) (acol : BitVec 2) (acc : Bool) (s : State) : Out :=
  checkedOp h 4 false [rs1, rs2] (fun c s =>
    let v := (c.greg rs1).toNat
    let m := (c.greg rs2).toNat
    let nt := bits v 40 8
    if !c.groupOk tw 4 || !acolOk c.arr acol || decide (nt = 0) || decide (225 < nt) || decide (m = 0) || decide (64 < m)
        || decide (bits v 48 16 % 32 ≠ 0) || (!c.cagv && (c.queue .cag).isEmpty) then .fault causeIllegal
    else enqueue h.cell .array 4
      (.conv tw (bits v 0 32) (bits v 32 8) nt (bits v 48 16) m acol acc c.arr) c s) s

/-- R244 MVM. -/
def execMvm (h : Hdr) (td : Fin 16) (rs1 rs2 : Fin 32) (batch xfmt wfmt : Bool) (kq : Byte) (nblk : BitVec 7)
    (s : State) : Out :=
  checkedOp h 8 false [rs1, rs2] (fun c s =>
    let k := kq.toNat
    let nb := nblk.toNat
    let vecs := if batch then 2 else 1
    let wb := c.greg rs1
    let xb := c.greg rs2
    let blocks := nb * (if wfmt then k else k / 2)
    if k = 0 ∨ 128 < k ∨ (wfmt = false ∧ k % 2 = 1) ∨ nb = 0 ∨ 64 < nb ∨ 64 < nb * vecs ∨ c.groupOk td 4 = false then
      .fault causeIllegal
    else if wb.toNat % 32768 ≠ 0 ∨ xb.toNat % 128 ≠ 0 then .fault causeMisaligned
    else match c.ownRange wb (blocks * 32768), c.ownRange xb (vecs * 128 * k) with
      | none, _ => .outside wb
      | _, none => .outside xb
      | some w, some x => enqueue h.cell .mv 8 (.mvm td w x batch xfmt wfmt k nb) c s) s

/-! Commit points (R252). -/

/-- What a unit finds when its command reaches its commit point. -/
inductive Commit where
  | wait
  | fault (cause : Nat)
  | outside (off : Nat)
  | poison
  | done (c : Cell)

/-- Whether a queue holds a command from before `seq` that `p` holds of. -/
def olderCmd (q : List QCmd) (seq : Nat) (p : UnitCmd → Bool) : Bool :=
  q.any (fun x => decide (x.seq < seq) && p x.cmd)

/-- The effect of a unit command other than VCOPY on its cell. -/
def commitCmd (n : Nat) (q : QCmd) (c : Cell) : Commit :=
  let limit := match c.graph with | some g => g.storeBytes | none => 0
  match q.cmd with
  | .tld t base stride rows rb =>
    if (List.range rows).any (fun r => c.storeBad (base + r * stride) (32 * rb)) then .poison
    else .done (unitTld t base stride rows rb c)
  | .tst t base stride rows rb => if c.tileBad t 0 rows (4 * rb) then .poison else .done (unitTst t base stride rows rb c)
  | .tzero t => .done (unitTzero t c)
  | .tcopy td ts => if c.tileBad ts 0 64 32 then .poison else .done (unitTcopy td ts c)
  | .accz => .done (unitAccz c)
  | .mma ta tw af wf acol acc rows ar =>
    if (List.range (arrGroup ar)).any (fun j => c.tileBad (ta.val + j) 0 rows 32) ||
        (List.range 4).any (fun j => c.tileBad (tw.val + j) 0 64 32) || (acc && c.accBad rows) then .poison
    else .done (unitMma ta tw af wf acol acc rows ar c)
  | .accmv td fmt rnd mul rows => if c.accBad rows then .poison else .done (unitAccmv n td fmt rnd mul rows c)
  | .arr => .done { c with latches := [] }
  | .conv tw p0 t0 nt choff m acol acc ar =>
    if olderCmd (c.queue .cag) q.seq (fun _ => true) then .wait
    else match c.cagDesc with
      | none => .fault causeIllegal
      | some d =>
        if !c.cagv || decide (arrRowBytes ar < nt * d.c) || decide (d.pixPitch < choff + d.c) then .fault causeIllegal
        else
          let reads := convReads d p0 t0 nt choff m
          match reads.find? (fun a => decide (limit < a + d.c)) with
          | some a => .outside a
          | none =>
            if reads.any (fun a => c.storeBad a d.c) || (List.range 4).any (fun j => c.tileBad (tw.val + j) 0 64 32) ||
                (acc && c.accBad m) then .poison
            else .done (unitConv d tw p0 t0 nt choff m acol acc ar c)
  | .cagset a =>
    if olderCmd (c.queue .array) q.seq (fun u => match u with | .conv .. => true | _ => false) then .wait
    else if c.storeBad a 64 then .poison
    else
      let b := c.loadOwn a 64
      if winDescOk b then .done { c with cagDesc := some (winDescOf b), cagv := true } else .fault causeIllegal
  | .mvm td wb xb batch xf wf kq nblk =>
    let blocks := nblk * (if wf then kq else kq / 2)
    if c.storeBad wb (blocks * 32768) || c.storeBad xb ((if batch then 2 else 1) * 128 * kq) then .poison
    else .done (unitMvm td wb xb batch xf wf kq nblk c)
  | .vcopy .. => .wait

/-- R213: one 256-byte step of the VCOPY at the head of the vector unit's queue. -/
def State.vcopyStep (s : State) (n : Nat) (rd rs1 rs2 : Fin 32) (count src dst : W64) (pc seq : Nat) : State :=
  let c := s.cell n
  let place (a : W64) (w : Bool) : Option (Nat × Nat) :=
    match s.resolve n a 256 (!w) w with
    | .own o => some (n, o)
    | .ext (.replica k) o => some (k.val, o)
    | _ => none
  match place src false, place dst true with
  | some (x, i), some (y, j) =>
    if (s.cell x).storeBad i 256 then s.devicePoison n
    else
      let bs := (s.cell x).loadOwn i 256
      let left := count - 256
      let s := s.modCell y (fun c => c.storeOwn j bs)
      let rest := (c.queue .vec).drop 1
      s.modCell n (fun c =>
        (c.setQueue .vec (if left = 0 then rest
          else ⟨.vcopy rd rs1 rs2 left (src + 256) (dst + 256), pc, seq⟩ :: rest)).setLong rd rs1 rs2 left (src + 256)
          (dst + 256))
  | _, _ => s.outOfWindow n pc src

/-- R242, R245, R544: what a committed command has streamed: the event and its count. -/
def UnitCmd.streamed : UnitCmd → Option (Nat × Nat)
  | .mma _ _ _ _ _ _ rows _ => some (0x12, rows)
  | .conv _ _ _ _ _ m _ _ _ => some (0x12, m)
  | .mvm _ _ _ _ _ wf kq nblk => some (0x13, nblk * (if wf then kq else kq / 2))
  | _ => none

/-- R544: a cell's counters of streamed rows and weight blocks. -/
def State.countStreamed (s : State) (n : Nat) (u : UnitCmd) : State :=
  match u.streamed with
  | some (ev, k) => s.countEvent ev n ((s.cell n).parcel.map (·.val)) k
  | none => s

/-- R252: the command at the head of a unit's queue reaches its commit point: its result becomes visible and its queue
place and interlocks are free; a VCOPY performs one step. -/
def execUnitCommandCommit (cell : Fin 128) (u : UnitId) (s : State) : Out :=
  let n := cell.val
  let c := s.cell n
  match c.queue u with
  | [] => .next s
  | q :: rest =>
    match q.cmd with
    | .vcopy rd rs1 rs2 count src dst => .next (s.vcopyStep n rd rs1 rs2 count src dst q.pc q.seq)
    | _ => match commitCmd n q c with
      | .wait => .next s
      | .fault cause => .next (s.cellFault n q.pc cause)
      | .outside off => .next (s.outOfWindow n q.pc (BitVec.ofNat 64 off))
      | .poison => .next (s.devicePoison n)
      | .done c' => .next ((s.setCell n (c'.setQueue u rest)).countStreamed n q.cmd)

end Sys2Proof.Machine
end

