-- ==== Sys2Proof/Machine/Awl.lean ====
section
/-! DEFINITION. Embedding tables and gathers (R278 to R302). -/

namespace Sys2Proof.Machine

/-- R285: what AGATH, ATAB and AUPD do with the address of their 64-byte descriptor: a load of the control core. -/
def withDesc (h : Hdr) (c : Cell) (addr : W64) (k : List Byte → Act) : Act :=
  if addr.toNat % 64 ≠ 0 then .fault causeMisaligned
  else match c.ownRange addr 64 with
    | none => .outside addr
    | some a =>
      if c.loadOut then .wait
      else match c.forward h.cell none a 64 with
        | .memory => if c.storeBad a 64 then .poison else k (c.loadOwn a 64)
        | _ => .wait

/-! The gather descriptor (R287, R288). -/

/-- R287. -/
def gatherDescOf (b : List Byte) : GatherDesc :=
  { tid := field b 0 2, pool := field b 2 1, ofmt := field b 3 1, iform := field b 4 1
    baglen := field b 8 2, nbag := field b 0xA 2, nidx := field b 0xC 4
    idx := BitVec.ofNat 64 (field b 0x10 8), offs := BitVec.ofNat 64 (field b 0x18 8)
    wgt := BitVec.ofNat 64 (field b 0x20 8)
    out := field b 0x28 4, ostride := field b 0x2C 4, oscale := BitVec.ofNat 32 (field b 0x30 4)
    status := field b 0x34 4 }

/-- The bytes of the three lists of a gather: index list, offsets, weights; 0 where a list is not used. -/
def GatherDesc.listBytes (d : GatherDesc) : Nat × Nat × Nat :=
  (4 * d.nidx, if d.iform = 1 then 4 * (d.nbag + 1) else 0, if d.pool = 3 then 2 * d.nidx else 0)

/-- R288: a list in a window that R202 defines lies in window 0 or in a HOST window. -/
def listKindOk (k : WinKind) : Bool := match k with
  | .own | .undefined => true
  | .pointer t => decide (t = 1)
  | .replica => false

/-- R287, R288: the conditions whose breach is ILLEGAL. -/
def State.gatherLegal (s : State) (n : Nat) (b : List Byte) (limit : Nat) : Bool :=
  let d := gatherDescOf b
  let (_, lo, lw) := d.listBytes
  let within (lo hi x : Nat) : Bool := decide (lo ≤ x) && decide (x ≤ hi)
  let outEnd := d.out + d.nbag * d.ostride
  zeroBytes b 5 3 && zeroBytes b 0x38 8 && decide (d.tid ≤ 255) && decide (d.pool ≤ 4)
    && [10, 8, 9, 3].contains d.ofmt && decide (d.iform ≤ 1)
    && (if d.iform = 0 then within 1 2048 d.baglen && decide (d.offs = 0) else decide (d.baglen = 0))
    && within 1 1024 d.nbag && within 1 2048 d.nidx && (decide (d.pool = 3) || decide (d.wgt = 0))
    && (decide (d.iform = 1) || decide (d.nidx = d.nbag * d.baglen))
    && (decide (d.pool ≠ 0) || (decide (d.iform = 0) && decide (d.baglen = 1) && decide (d.nbag = d.nidx)))
    && listKindOk (s.winKind n d.idx) && (decide (lo = 0) || listKindOk (s.winKind n d.offs))
    && (decide (lw = 0) || listKindOk (s.winKind n d.wgt))
    && decide (outEnd ≤ limit) && decide (d.status + 32 ≤ limit)
    && (decide (outEnd ≤ d.status) || decide (d.status + 32 ≤ d.out))

/-- R287: the alignments. -/
def GatherDesc.aligned (d : GatherDesc) : Bool :=
  decide (d.idx.toNat % 4 = 0) && decide (d.offs.toNat % 4 = 0) && decide (d.wgt.toNat % 2 = 0)
    && decide (d.out % 32 = 0) && decide (d.ostride % 32 = 0) && decide (d.status % 32 = 0)

/-- R285, R289 AGATH. -/
def execAgath (h : Hdr) (rs1 : Fin 32) (arg : Byte) (s : State) : Out :=
  checkedOp h 4 (decide (2 ≤ arg.toNat)) [rs1] (fun c s =>
    let n := h.cell.val
    let k : Fin 2 := if arg.getLsbD 0 then 1 else 0
    let limit := match c.graph with | some g => g.storeBytes | none => 0
    if (c.slot k).phase ≠ .idle then .wait
    else withDesc h c (c.greg rs1) (fun b =>
      let d := gatherDescOf b
      let (li, lo, lw) := d.listBytes
      let bad (a : W64) (len : Nat) : Bool :=
        decide (len ≠ 0) && (s.winKind n a == .undefined || !s.reachable n a len true false)
      if !s.gatherLegal n b limit then .fault causeIllegal
      else if !d.aligned then .fault causeMisaligned
      else if bad d.idx li then .outside d.idx
      else if bad d.offs lo then .outside d.offs
      else if bad d.wgt lw then .outside d.wgt
      else .go (s.setCell n ((c.setSlot k { GatherSlot.none with phase := .issued, desc := d, pc := c.pc }).retire 4)))) s

/-- R285, R286 AWAIT. -/
def execAwait (h : Hdr) (arg : Byte) (s : State) : Out :=
  checkedOp h 4 (decide (4 ≤ arg.toNat)) [] (fun c s =>
    if (arg.getLsbD 0 && decide ((c.slot 0).phase ≠ .idle)) || (arg.getLsbD 1 && decide ((c.slot 1).phase ≠ .idle)) then .wait
    else .go (s.setCell h.cell (c.retire 4))) s

/-! Tables (R279, R280). -/

/-- R279. -/
def tableDescOf (b : List Byte) : TableDesc :=
  let fl := field b 2 1
  { train := decide (fl / 2 % 2 = 1), code4 := decide (fl / 4 % 2 = 1), stks := BitVec.ofNat 8 (field b 3 1)
    dim := field b 4 2, base := field b 8 8, rows := field b 0x10 8, seed := BitVec.ofNat 64 (field b 0x18 8) }

/-- R279: whether a descriptor is well formed. -/
def tableDescOk (b : List Byte) : Bool :=
  let d := tableDescOf b
  let fl := field b 2 1
  decide (field b 0 2 ≤ 255) && decide (fl < 8) &&
    (if fl % 2 = 0 then zeroBytes b 3 61
     else zeroBytes b 6 2 && zeroBytes b 0x20 32 && decide (d.stks ≠ 0) && decide (16 ≤ d.dim) && decide (d.dim ≤ 1024)
      && decide (d.dim % 16 = 0) && decide (d.base % 65536 = 0) && decide (1 ≤ d.rows) && decide (d.rows ≤ 2 ^ 32))

/-- R280: the result code of an ATAB on a parcel. -/
def Parcel.tableCode (x : Parcel) (b : List Byte) : Nat :=
  let d := tableDescOf b
  let tid := field b 0 2
  let valid := field b 2 1 % 2 = 1
  if !tableDescOk b then 1
  else if valid ∧ (d.base < x.cfg.regionBase ∨ x.cfg.logBase < d.base + d.bytes) then 2
  else if valid ∧ x.tables.any (fun e => decide (e.1 ≠ tid) && (match e.2 with
      | some t => decide (t.base < d.base + d.bytes) && decide (d.base < t.base + t.bytes)
      | none => false)) then 3
  else if (x.table tid).isSome ∧ x.log.any (fun r => decide (r.tid = tid)) then 4
  else 0

/-- R280, R284: an ATAB takes effect on the directory of parcel p: its code, and the state after. -/
def State.atab (s : State) (p : Nat) (b : List Byte) : Nat × State :=
  let x := s.parcel p
  let code := x.tableCode b
  if code ≠ 0 then (code, s)
  else
    let tid := field b 0 2
    let was := x.table tid
    let d := tableDescOf b
    let now := if field b 2 1 % 2 = 0 then none else some d
    let s := s.modParcel p (fun x => { x with tables := spPut none now tid x.tables })
    let s := match was with | some t => s.placeSegs p t.base (t.base + t.bytes) | none => s
    (0, match now with | some d => s.placeAnew p d.base (d.base + d.bytes) 0 0 | none => s)

/-- R280, R285 ATAB. -/
def execAtab (h : Hdr) (rd rs1 : Fin 32) (s : State) : Out :=
  checkedOp h 4 false [rd, rs1] (fun c s =>
    withDesc h c (c.greg rs1) (fun b =>
      let r := s.atab c.par b
      .go (r.2.setCell h.cell ((c.setG rd (BitVec.ofNat 64 r.1)).retire 4)))) s

/-! Gathers at the Awl (R289 to R294). -/

/-- R292: the bytes of a status record. -/
def statusRecord (code flags rowsRead badIdx poison sat firstBad done : Nat) : List Byte :=
  leBytes 1 code ++ leBytes 1 flags ++ leBytes 2 0 ++ leBytes 4 rowsRead ++ leBytes 4 badIdx ++ leBytes 4 poison ++
    leBytes 4 sat ++ leBytes 4 firstBad ++ leBytes 8 done

/-- R292: a gather that ends with a code other than OK writes its status record alone. -/
def State.gatherRefused (s : State) (n : Nat) (k : Fin 2) (g : GatherSlot) (code rowsRead : Nat) : State :=
  (s.modCell n (fun c => (c.storeOwn g.desc.status (statusRecord code 0 rowsRead 0 0 0 0 s.datum)).setSlot k .none)).trace
    4 2 (some (s.cell n).par) (s.queueOn n) n k.val (BitVec.ofNat 64 (g.desc.tid * 2 ^ 32 + rowsRead))

/-- Little-endian words of a list. -/
def wordsOf (w : Nat) : List Byte → Nat → List Nat
  | _, 0 => []
  | bs, n + 1 => leNat (bs.take w) :: wordsOf w (bs.drop w) n

/-- R287: the width of an output element in bytes. -/
def ofmtBytes (f : Nat) : Nat := if f = 10 then 4 else if f = 3 then 1 else 2

/-- What the Awl finds in a list. -/
inductive ListFound where
  | bytes (b : List Byte)
  /-- a poisoned host line, or a poisoned word of the store -/
  | hostPoison
  | storePoison
  deriving DecidableEq, Repr

/-- R286, R348, R361, R523: a list is read from the own store, or through the Welt as the host delivers it. -/
def State.readList (s : State) (n : Nat) (addr : W64) (len : Nat) (host : List Byte) (poison : Bool) : ListFound × State :=
  match s.resolve n addr len true false with
  | .ext .host a =>
    let r := s.weltRead (s.cell n).par a len host poison
    (if r.1.2 then .hostPoison else .bytes r.1.1, r.2)
  | _ =>
    let c := s.cell n
    (if decide (0 < len) && c.storeBad addr.toNat len then .storePoison else .bytes (c.loadOwn addr.toNat len), s)

/-- The next list of a gather, unless poison has ended its instance (R142, R289, R523). -/
def State.withList (s : State) (n : Nat) (addr : W64) (len : Nat) (host : List Byte) (poison : Bool)
    (k : List Byte → State → Out) : Out :=
  match s.readList n addr len host poison with
  | (.bytes b, s) => k b s
  | (.hostPoison, s) => .next (s.abortOn n ccHostPoison 0)
  | (.storePoison, s) => .next (s.devicePoison n)

/-- The host address of a list in a HOST window. -/
def State.listHost (s : State) (n : Nat) (addr : W64) (len : Nat) : Option Nat :=
  if len = 0 then none else match s.resolve n addr len true false with | .ext .host a => some a | _ => none

/-- The host lines that a list touches (R163, R297). -/
def State.listLines (s : State) (n : Nat) (addr : W64) (len : Nat) : Nat :=
  match s.listHost n addr len with | some a => (a + len - 1) / 64 + 1 - a / 64 | none => 0

/-- R289: the offsets start at 0, never fall and end at NIDX. -/
def offsetsOk (offs : List Nat) (nidx : Nat) : Bool :=
  decide (offs.head? = some 0) && decide (offs.getLast? = some nidx) &&
    (offs.zip (offs.drop 1)).all (fun e => decide (e.1 ≤ e.2))

/-- The rows of an accepted gather and its bad indices, in list order. -/
def gatherRows (rows : Nat) : List Nat → Nat → List GatherRow × List Nat
  | [], _ => ([], [])
  | i :: t, pos =>
    let (good, bad) := gatherRows rows t (pos + 1)
    if i < rows then (⟨pos, i, [], none, false⟩ :: good, bad) else (good, pos :: bad)

/-- The device row of a table's row: DRAM rows it touches, with their stack. -/
def TableDesc.opens (t : TableDesc) (index : Nat) : List (Nat × Nat) :=
  ((List.range (t.rstride / 32)).map (fun k =>
    let ph := placeAt t.base t.rstride (stackList t.stks.toNat) (t.base + index * t.rstride + 32 * k)
    (ph / 2 ^ 36, dramRow (ph % 2 ^ 36)))).eraseDups

/-- R441: the sectors and row opens that a row read at P0 or P1 adds to the compute phase; one read at P2 adds none. -/
def Parcel.countRow (x : Parcel) (t : TableDesc) (r : GatherRow) : Parcel :=
  if r.p2 then x
  else
    let stks := stackList t.stks.toNat
    let x := { x with phSect := spMod 0 x.phSect (stks.getD (r.index % stks.length) 0) (· + t.rstride / 32) }
    (t.opens r.index).foldl (fun (x : Parcel) o => { x with
      phBank := spMod 0 x.phBank (o.1 * 512 + o.2 % 512) (· + 1)
      phChan := spMod 0 x.phChan (o.1 * 32 + o.2 % 512 / 16) (· + 1) }) x

/-- R163, R295, R297, R441: the reads of a gather's good rows are sent, in list order, and counted; those sent once the
instance has passed a declared count go at P2. The rows as they were sent. -/
def State.sendRows (s : State) (p i : Nat) (t : TableDesc) : List GatherRow → List GatherRow × State
  | [] => ([], s)
  | r :: rest =>
    let stks := stackList t.stks.toNat
    let r := { r with p2 := match s.inst i with | some x => x.excess | none => true }
    let s := s.modParcel p (fun x => x.countRow t r)
    let u := (s.countSectors i (stks.getD (r.index % stks.length) 0) (t.rstride / 32)).sendRows p i t rest
    (r :: u.1, u.2)

/-- R289, R293, R297, R364, R369 GATHER_ACCEPT: the Awl takes the table descriptor and reads the lists; a poisoned host line
aborts the instance; a list of the host waits while the Welt holds its requests back. -/
def execGatherAccept (cell : Fin 128) (slot : Fin 2) (host : HostLists) (s : State) : Out :=
  let n := cell.val
  let c := s.cell n
  let g := c.slot slot
  if g.phase ≠ .issued then .next s
  else
    let d := g.desc
    let p := c.par
    let eb := ofmtBytes d.ofmt
    match (s.parcel p).table d.tid with
    | none => .next (s.gatherRefused n slot g 1 0)
    | some t =>
      if d.ostride < t.dim * eb then .next (s.gatherRefused n slot g 2 0)
      else if 16384 < d.nbag * t.dim * eb then .next (s.gatherRefused n slot g 3 0)
      else
        let (li, lo, lw) := d.listBytes
        let lines := s.listLines n d.idx li + s.listLines n d.offs lo + s.listLines n d.wgt lw
        if decide (0 < lines) && !s.host.open_ then .next s
        else
        let s := match c.inst with | some i => if lines = 0 then s else s.countLines i lines | none => s
        let s := if lines = 0 then s else s.noteLatency n
          ([(d.idx, li), (d.offs, lo), (d.wgt, lw)].findSome? (fun e => s.listHost n e.1 e.2) |>.getD 0) host.took
        s.withList n d.idx li host.idx host.poison (fun bi s =>
        s.withList n d.offs lo host.offs host.poison (fun bo s =>
        s.withList n d.wgt lw host.wgt host.poison (fun bw s =>
          let offs := wordsOf 4 bo (lo / 4)
          if d.iform = 1 ∧ offsetsOk offs d.nidx = false then .next (s.gatherRefused n slot g 4 0)
          else
            let rows := gatherRows t.rows (wordsOf 4 bi d.nidx) 0
            let s := s.modParcel p (fun x => { x with awPbad := satAdd32 x.awPbad rows.2.length })
            let sent := match c.inst with | some i => s.sendRows p i t rows.1 | none => (rows.1, s)
            let s := sent.2.trace 4 1 (some p) (s.queueOn n) n slot.val (BitVec.ofNat 64 (d.tid * 2 ^ 32))
            .next (s.modCell n (fun c => c.setSlot slot { g with
              phase := .reading, table := t, idx := wordsOf 4 bi d.nidx, offs := offs, wgt := wordsOf 2 bw (lw / 2)
              rows := sent.1, badIdx := rows.2.length, firstBad := rows.2.head?, firstBadIdx := rows.2.head? })))))

/-- The lower of two list positions. -/
def minPos (a : Option Nat) (b : Nat) : Option Nat := match a with | some x => some (min x b) | none => some b

/-- Whether every sector of a row has come. -/
def GatherRow.complete (r : GatherRow) (t : TableDesc) : Bool := decide (r.got.length = t.rstride / 32)

/-- A row of slot g has sector `sec` of its bytes: what was read at device address a, and whether it is poisoned. -/
def GatherSlot.withSector (g : GatherSlot) (r : GatherRow) (sec a : Nat) (d : List Byte × Bool) : GatherRow × GatherSlot :=
  let r' := { r with got := (sec, d.1) :: r.got, poison := if d.2 then minPos r.poison a else r.poison }
  (r', { g with rows := g.rows.map (fun x => if x.pos = r.pos then r' else x) })

/-- A row of slot `slot` is complete; a poisoned one is counted and logged (R293). -/
def State.rowComplete (s : State) (n : Nat) (slot : Fin 2) (g : GatherSlot) (pos : Nat) (poison : Option Nat) : State :=
  match poison with
  | some bad =>
    let p := (s.cell n).par
    let s := s.modParcel p (fun x => { x with awPpoison := satAdd32 x.awPpoison 1 })
    let s := s.logP 0x0302 p (fun e => { e with cls := 2, arg := BitVec.ofNat 64 bad })
    s.modCell n (fun c => c.setSlot slot { g with poison := g.poison + 1, firstBad := minPos g.firstBad pos })
  | none => s.modCell n (fun c => c.setSlot slot g)

/-- R280: a sector of a row under the descriptor that the gather was accepted with. -/
def State.tableRead (s : State) (p : Nat) (t : TableDesc) (a : Nat) : List Byte × Bool :=
  let l := (List.range 32).map (fun i => s.placedByte p (a + i) (placeAt t.base t.rstride (stackList t.stks.toNat) (a + i)))
  (l.map (·.1), l.any (·.2))

/-- R434, R445, R446: what a sector read of a gather of parcel p does at its stack. -/
def State.awlRead (s : State) (p : Nat) (t : TableDesc) (a : Nat) (ecc : Ecc) : State :=
  let ph := placeAt t.base t.rstride (stackList t.stks.toNat) a
  (if (s.parcel p).inSpace ph then s else s.placeFault p a).stackEcc p ph a ecc

/-- A sector of a row reaches slot `slot` of cell n; a row that is now complete is counted. -/
def State.takeSector (s : State) (n : Nat) (slot : Fin 2) (g : GatherSlot) (r : GatherRow) (sec a : Nat) : State :=
  let t := g.table
  let x := g.withSector r sec a (s.tableRead (s.cell n).par t a)
  if x.1.complete t then
    (s.countEvent 0x30 ((stackList t.stks.toNat).getD (r.index % (stackList t.stks.toNat).length) 0)
      (some (s.cell n).par) 1).rowComplete n slot x.2 r.pos x.1.poison
  else s.modCell n (fun c => c.setSlot slot x.2)

/-- Whether sector `sec` of the row at list position `pos` is still to come, and its row. -/
def GatherSlot.wants (g : GatherSlot) (pos sec : Nat) : Option GatherRow :=
  if g.table.rstride / 32 ≤ sec then Option.none
  else g.rows.find? (fun r => decide (r.pos = pos) && !r.got.any (fun e => decide (e.1 = sec)))

/-- R294: a sector of a gather that was aborted completes, its data going nowhere; a gather with none left is forgotten. -/
def State.goneSector (s : State) (n : Nat) (e : Fin 2 × GatherSlot) (r : GatherRow) (sec : Nat) (ecc : Ecc) : State :=
  let t := e.2.table
  let g := (e.2.withSector r sec 0 ([], false)).2
  let keep := if g.rows.all (fun r => r.complete t) then [] else [(e.1, g)]
  (s.awlRead (s.cell n).par t (t.base + r.index * t.rstride + 32 * sec) ecc).modCell n (fun c => { c with
    goneGather := c.goneGather.flatMap (fun x => if x = e then keep else [x]) })

/-- R293, R294, R298 AWL_SECTOR_DATA: sector `sec` of the row at list position `pos` returns; reads of an aborted gather
return first. -/
def execAwlSectorData (cell : Fin 128) (slot : Fin 2) (pos sec : Nat) (ecc : Ecc) (s : State) : Out :=
  let n := cell.val
  let c := s.cell n
  let g := c.slot slot
  match c.goneGather.findSome? (fun e => if e.1 = slot then (e.2.wants pos sec).map (fun r => (e, r)) else none) with
  | some x => .next (s.goneSector n x.1 x.2 sec ecc)
  | none =>
  match g.phase, g.rows.find? (fun r => decide (r.pos = pos)) with
  | .reading, some r =>
    if g.table.rstride / 32 ≤ sec ∨ r.got.any (fun e => decide (e.1 = sec)) = true then .next s
    else
      let t := g.table
      let p := c.par
      let a := t.base + r.index * t.rstride + 32 * sec
      .next ((s.awlRead p t a ecc).takeSector n slot g r sec a)
  | _, _ => .next s

/-- The bytes of a complete row in order. -/
def GatherRow.bytes (r : GatherRow) (t : TableDesc) : List Byte :=
  (List.range (t.rstride / 32)).flatMap (fun k => match r.got.find? (fun e => decide (e.1 = k)) with
    | some e => e.2
    | none => [])

/-- R281: code i of a row. -/
def rowCode (t : TableDesc) (b : List Byte) (i : Nat) : Nat :=
  let h := if t.train then 8 else 4
  if t.code4 then bits (field b (h + i / 2) 1) (4 * (i % 2)) 4 else field b (h + i) 1

/-- R282: element i of a row, and its flags. -/
def decodeElem (t : TableDesc) (b : List Byte) (i : Nat) : F32Res :=
  f32FmaNum (Num.ofInt (rowCode t b i)) (fp16Fmt.value (field b 0 2)) (fp16Fmt.value (field b 2 2))

/-- Two results in sequence, flags together. -/
def seqF32 (a : F32Res) (f : W32 → F32Res) : F32Res := let r := f a.1; (r.1, a.2.or r.2)

/-- R290: the pooled element of a bag from its good rows' values, in list order (value, fp16 weight). -/
def poolElem (pool : Nat) (xs : List (F32Res × Nat)) : F32Res :=
  let add (p : F32Res) (x : F32Res) : F32Res := liftF32 f32Add p x
  let weigh (x : F32Res) (w : Nat) : F32Res := seqF32 x (fun v => f32MulNum (fp16Fmt.value w) (f32Value v))
  match xs with
  | [] => (0, {})
  | (x, _) :: rest =>
    match pool with
    | 0 => x
    | 1 => xs.foldl (fun p e => add p e.1) (0, {})
    | 2 => seqF32 (xs.foldl (fun p e => add p e.1) (0, {})) (fun v => f32DivNum (f32Value v) (Num.ofInt xs.length))
    | 3 => xs.foldl (fun p e => add p (weigh e.1 e.2)) (0, {})
    | _ => rest.foldl (fun p e => liftF32 f32Max p e.1) x

/-- R291: an output element: its encoding, its flags, whether it saturated. -/
def outElem (ofmt : Nat) (oscale : W32) (p : F32Res) : Nat × FpFlags × Bool :=
  let m := seqF32 p (fun v => f32Mul v oscale)
  if ofmt = 10 then (m.1.toNat, m.2, false)
  else
    let c := convert .fp32 (if ofmt = 8 then .fp16 else if ofmt = 9 then .bf16 else .int8) .rne m.1.toNat 0
    (c.raw, m.2.or c.flags, c.sat)

/-- R288: the list positions of a bag. -/
def GatherSlot.bag (g : GatherSlot) (b : Nat) : Nat × Nat :=
  if g.desc.iform = 0 then (g.desc.baglen * b, g.desc.baglen * (b + 1)) else (g.offs.getD b 0, g.offs.getD (b + 1) 0)

/-- R290, R291: the elements of one output row. -/
def GatherSlot.outRow (g : GatherSlot) (b : Nat) : List (Nat × FpFlags × Bool) :=
  let (lo, hi) := g.bag b
  let good := g.rows.filter (fun r => decide (lo ≤ r.pos) && decide (r.pos < hi) && r.poison.isNone)
  let rows := good.map (fun r => (r.bytes g.table, g.wgt.getD r.pos 0))
  (List.range g.table.dim).map (fun i =>
    outElem g.desc.ofmt g.desc.oscale (poolElem g.desc.pool (rows.map (fun e => (decodeElem g.table e.1 i, e.2)))))

/-- R292: FLAGS of the status record. -/
def gatherFlags (f : FpFlags) : Nat := f.nv.toNat + 2 * f.of.toNat + 4 * f.nx.toNat

/-- R292, R293, R294 GATHER_COMMIT: once every row has come, the output rows and then the status record are written. -/
def execGatherCommit (cell : Fin 128) (slot : Fin 2) (s : State) : Out :=
  let n := cell.val
  let c := s.cell n
  let g := c.slot slot
  if g.phase ≠ .reading ∨ g.rows.all (fun r => r.complete g.table) = false then .next s
  else
    let d := g.desc
    let outs := (List.range d.nbag).map g.outRow
    let all := outs.flatten
    let flags := all.foldl (fun f e => f.or e.2.1) ({} : FpFlags)
    let sat := (all.filter (fun e => e.2.2)).length
    let eb := ofmtBytes d.ofmt
    let c := ((List.range d.nbag).zip outs).foldl (fun c e =>
      c.storeOwn (d.out + e.1 * d.ostride) (e.2.flatMap (fun x => leBytes eb x.1))) c
    let c := c.storeOwn d.status (statusRecord 0 (gatherFlags flags) g.rows.length g.badIdx g.poison sat
      (g.firstBad.getD 0xFFFFFFFF) s.datum)
    .next (((s.setCell n (c.setSlot slot .none)).logBadIndex c.par g g.firstBad).trace 4 2 (some c.par) (s.queueOn n) n slot.val
      (BitVec.ofNat 64 (d.tid * 2 ^ 32 + g.rows.length)))

end Sys2Proof.Machine
end

