-- ==== Sys2Proof/Machine/Updates.lean ====
section
/-! DEFINITION. Live table updates: the update log, acceptance, the update window, requantisation and reports (R303 to
R324). -/

namespace Sys2Proof.Machine

/-! The record (R304, R305). -/

/-- The width in bytes of a payload element, by PFMT; 0 for a format the record does not allow. -/
def pfmtBytes (f : Nat) : Nat := if f = 10 then 4 else if f = 8 ∨ f = 9 then 2 else 0

/-- LEN of a record. -/
def updLen (b : List Byte) : Nat := field b 0xC 2

/-- R305: the conditions of MALFORMED that need no table entry. -/
def updPart1 (b : List Byte) : Bool :=
  let mode := field b 2 1
  let flags := field b 4 1
  zeroBytes b 5 3 && zeroBytes b 0xE 2 && zeroBytes b 0x2C 20
    && decide (field b 0 2 ≤ 255) && decide (mode ≤ 3) && decide (pfmtBytes (field b 3 1) ≠ 0) && decide (flags < 8)
    && decide (updLen b % 64 = 0) && decide (128 ≤ updLen b) && decide (updLen b ≤ 4160)
    && decide (field b 0x18 8 ≠ 0)
    && (decide (2 ≤ mode) || zeroBytes b 0x20 4) && (decide (mode = 3) || zeroBytes b 0x24 4)
    && (decide (mode = 0) && decide (flags / 4 % 2 = 1) || zeroBytes b 0x28 4)
    && (decide (flags / 4 % 2 = 0) || decide (mode = 0))

/-- R305: the conditions of MALFORMED that need the table: LEN and the padding after DIM elements, and TRAIN. -/
def updPart2 (b : List Byte) (t : TableDesc) : Bool :=
  let n := 64 + t.dim * pfmtBytes (field b 3 1)
  decide (updLen b = (n + 63) / 64 * 64) && zeroBytes b n (updLen b - n)
    && (t.train || (decide (field b 2 1 ≠ 3) && decide (field b 4 1 / 4 % 2 = 0)))

/-- R305: the result code of a record; `free`: the lines its path may use. -/
def Parcel.updCode (x : Parcel) (free : Nat) (b : List Byte) : Nat :=
  if !updPart1 b then 1
  else match x.table (field b 0 2) with
    | none => 2
    | some t =>
      if !updPart2 b t then 1
      else if t.rows ≤ field b 8 4 then 3
      else if x.cfg.ulog = 0 ∨ x.cfg.updWin = 0 then 4
      else if free < updLen b / 64 then 5
      else 0

/-- R321: the free lines of AUPD. -/
def State.updFree (s : State) (p : Nat) : Nat :=
  (s.parcel p).cfg.logLines - (s.parcel p).logUsed - s.creditOut p

/-- R304: the next `n` free lines of a ring of L lines from line `at`, in ring order; `fuel` bounds the lines looked
at. -/
def takeLines (L : Nat) (held : List Nat) : Nat → Nat → Nat → List Nat
  | 0, _, _ => []
  | _, 0, _ => []
  | fuel + 1, n + 1, at' =>
    if held.contains at' then takeLines L held fuel (n + 1) ((at' + 1) % L)
    else at' :: takeLines L held fuel n ((at' + 1) % L)

/-- The device address of a log line. -/
def Parcel.lineAddr (x : Parcel) (j : Nat) : Nat := x.cfg.logBase + 64 * j

/-- Bytes written to log lines, 64 to each. -/
def State.writeLines (s : State) (p : Nat) : List Nat → List Byte → State
  | [], _ => s
  | j :: t, b =>
    let a := (s.parcel p).lineAddr j
    ((s.countWrites p 0 0 a 64).stackWrite p 0 0 a (b.take 64)).writeLines p t (b.drop 64)

/-- R304 to R307, R320: the sequencer takes a record: its code, and the state after. -/
def State.acceptUpd (s : State) (p free : Nat) (sess : Option (Fin 256 × Nat × W32 × Nat)) (b : List Byte) : Nat × State :=
  let x := s.parcel p
  let code := x.updCode free b
  if code ≠ 0 then (code, s.modParcel p (fun x => { x with upReject := satAdd32 x.upReject 1 }))
  else
    let n := updLen b / 64
    let held := x.log.flatMap (·.lines)
    let lines := takeLines x.cfg.logLines held (n + held.length) n x.logNext
    let next := match lines.getLast? with | some l => (l + 1) % x.cfg.logLines | none => x.logNext
    let fence := field b 0x10 8
    let r : UpdRec :=
      { bytes := b.take (updLen b), lines := lines, accepted := s.datum, sess := sess, fence := fence
        uid := BitVec.ofNat 64 (field b 0x18 8), tid := field b 0 2, row := field b 8 4, elig := none
        fenceTick := s.lc.lastB.filter (fun b => decide (fence ≠ 0) && decide (fence ≤ b) && decide (b ≤ s.datum))
        fenceRan := false }
    (0, (s.modParcel p (fun x => { x with log := x.log ++ [r], logNext := next })).writeLines p lines r.bytes)

/-- R285, R304, R306 AUPD. -/
def execAupd (h : Hdr) (rd rs1 : Fin 32) (s : State) : Out :=
  checkedOp h 4 false [rd, rs1] (fun c s =>
    withDesc h c (c.greg rs1) (fun hd =>
      let len := max 64 (updLen hd)
      match c.ownRange (c.greg rs1) len with
      | none => .outside (c.greg rs1)
      | some a =>
        match c.forward h.cell none (a + 64) (len - 64) with
        | .memory =>
          if c.storeBad a len then .poison
          else
            let r := s.acceptUpd c.par (s.updFree c.par) none (c.loadOwn a len)
            .go (r.2.setCell h.cell ((c.setG rd (BitVec.ofNat 64 r.1)).retire 4))
        | _ => .wait)) s

/-! Requantisation (R314, R315). -/

/-- A quotient of two exact integers over a common exponent, rounded to an integer under R270: the magnitude and whether
it is inexact; `r`: the number drawn. -/
def roundRatio (num den : Nat) (stoch : Bool) (r : Nat) : Nat × Bool :=
  let q := num / den
  let rem := num % den
  if rem = 0 then (q, false)
  else
    let up := if stoch then decide (65536 ≤ rem * 65536 / den + r)
      else decide (den < 2 * rem) || (decide (2 * rem = den) && decide (q % 2 = 1))
    (if up then q + 1 else q, true)

/-- Two finite values as integers over one exponent; 0 for what is not finite. -/
def commonInts (a b : Num) : Int × Int × Int :=
  match a, b with
  | .fin n1 m1 e1, .fin n2 m2 e2 =>
    let e := min e1 e2
    (scaledInt n1 m1 e1 e, scaledInt n2 m2 e2 e, e)
  | _, _ => (0, 0, 0)

/-- R314: OFFSET, an fp16 encoding. -/
def quantOffset (lo : W32) : Nat :=
  match f32Value lo with
  | .fin n m e => (fp16Fmt.round .down n m e 0).raw
  | _ => 0

/-- R314: SCALE, an fp16 encoding: the exact (hi − OFFSET) / Q rounded up, by 64 quotient bits and a sticky bit. -/
def quantScale (hi : W32) (offset q : Nat) : Nat :=
  let (h, o, e) := commonInts (f32Value hi) (fp16Fmt.value offset)
  let d := h - o
  if d = 0 then 0
  else
    let n := d.natAbs * 2 ^ 64
    (fp16Fmt.round .up (decide (d < 0)) (2 * (n / q) + (if n % q = 0 then 0 else 1)) (e - 65) 0).raw

/-- R314: one code before the clamp, and whether it is inexact. -/
def quantCode (v : W32) (offset scale : Nat) (stoch : Bool) (r : Nat) : Int × Bool :=
  let (x, o, e) := commonInts (f32Value v) (fp16Fmt.value offset)
  match fp16Fmt.value scale with
  | .fin sn sm se =>
    if sm = 0 then (0, false)
    else
      let d := x - o
      let k := min e se
      let num := d.natAbs * 2 ^ (e - k).toNat
      let den := sm * 2 ^ (se - k).toNat
      let (n, inexact) := roundRatio num den stoch r
      (if decide (d < 0) != sn then -(n : Int) else n, inexact)
  | _ => (0, false)

/-- R314, R315: the codes of a row, and how many were clamped. -/
def quantCodes (offset scale q : Nat) (stoch : Bool) : List W32 → W64 → List Nat × Nat
  | [], _ => ([], 0)
  | v :: t, rng =>
    let nxt := rngNext 0 rng
    let (c, inexact) := quantCode v offset scale stoch (nxt.toNat % 65536)
    let (rest, n) := quantCodes offset scale q stoch t (if stoch && inexact then nxt else rng)
    if c < 0 then (0 :: rest, n + 1)
    else if (q : Int) < c then (q :: rest, n + 1)
    else (c.toNat :: rest, n)

/-- R315: the start of the generator of a commit. -/
def quantSeed (t : TableDesc) (uid : W64) (row : Nat) : W64 :=
  t.seed ^^^ uid ^^^ (BitVec.ofNat 64 row * 0x9E3779B97F4A7C15#64)

/-- Codes packed into bytes: one a byte, or two a byte, the lower first (R281). -/
def packCodes (four : Bool) : List Nat → List Byte
  | [] => []
  | [a] => [BitVec.ofNat 8 a]
  | a :: b :: t => if four then BitVec.ofNat 8 (a + 16 * b) :: packCodes four t
    else BitVec.ofNat 8 a :: BitVec.ofNat 8 b :: packCodes four t

/-- R314: the bytes of a requantised row with its OPT word, and the codes clamped. -/
def quantRow (t : TableDesc) (vs : List W32) (opt : Nat) (stoch : Bool) (uid : W64) (row : Nat) : List Byte × Nat :=
  let q := if t.code4 then 15 else 255
  let lo := (vs.drop 1).foldl (fun a v => (f32Min a v).1) (vs.headD 0)
  let hi := (vs.drop 1).foldl (fun a v => (f32Max a v).1) (vs.headD 0)
  let offset := quantOffset lo
  let scale := quantScale hi offset q
  let (codes, clamped) := quantCodes offset scale q stoch vs (quantSeed t uid row)
  let body := leBytes 2 scale ++ leBytes 2 offset ++ (if t.train then leBytes 4 opt else []) ++ packCodes t.code4 codes
  (body ++ List.replicate (t.rstride - body.length) 0, clamped)

/-! Update modes (R312). -/

/-- Payload element i as fp32. -/
def payloadElem (b : List Byte) (i : Nat) : W32 :=
  let pf := field b 3 1
  let w := pfmtBytes pf
  let raw := field b (64 + i * w) w
  BitVec.ofNat 32 (convert (if pf = 8 then .fp16 else if pf = 9 then .bf16 else .fp32) .fp32 .rne raw 0).raw

/-- The step of SGD and ADAGRAD, LR × p, over `den` where there is one; +0 when `den` is +0. -/
def updStep (lr p : W32) (den : Option W32) : W32 :=
  let g := (f32Mul lr p).1
  match den with
  | none => g
  | some d => if d = 0 then 0 else (f32DivNum (f32Value g) (f32Value d)).1

/-- R312: the new values of a row and its new OPT word. -/
def updValues (t : TableDesc) (b row : List Byte) : List W32 × Nat :=
  let mode := field b 2 1
  let ps := (List.range t.dim).map (payloadElem b)
  let xs := (List.range t.dim).map (fun i => (decodeElem t row i).1)
  let lr : W32 := BitVec.ofNat 32 (field b 0x20 4)
  let old := field row 4 4
  if mode = 0 then (ps, if field b 4 1 / 4 % 2 = 1 then field b 0x28 4 else old)
  else if mode = 1 then (List.zipWith (fun x p => (f32Add x p).1) xs ps, old)
  else if mode = 2 then (List.zipWith (fun x p => (f32Sub x (updStep lr p none)).1) xs ps, old)
  else
    let sq := f32Group 0 (ps.map (fun p => mulNum (f32Value p) (f32Value p)))
    let m := (f32DivNum (f32Value sq) (Num.ofInt t.dim)).1
    let a := (f32Add (BitVec.ofNat 32 old) m).1
    let den := (f32Add (f32SqrtNum (f32Value a)).1 (BitVec.ofNat 32 (field b 0x24 4))).1
    (List.zipWith (fun x p => (f32Sub x (updStep lr p (some den))).1) xs ps, a.toNat)

/-- Whether an fp32 encoding is a NaN or an infinity. -/
def nonFinite (v : W32) : Bool := match f32Value v with | .fin .. => false | _ => true

/-! Reports (R323, R415). -/

/-- R323: an update report. -/
def updReport (uid : W64) (epoch : W64) (done : Nat) (code detail ucause flags : Nat) : List Byte :=
  leBytes 8 uid.toNat ++ leBytes 8 epoch.toNat ++ leBytes 8 done ++
    [BitVec.ofNat 8 code, BitVec.ofNat 8 detail, BitVec.ofNat 8 ucause, BitVec.ofNat 8 flags] ++ leBytes 4 0

/-- R412: the body of an UPDATE response. -/
def updResponse (status nrec : Nat) (reports : List (List Byte)) : List Byte :=
  leBytes 1 status ++ leBytes 1 0 ++ leBytes 2 nrec ++ leBytes 2 reports.length ++ leBytes 2 0 ++ reports.flatten

/-- Reports in record order. -/
def insertReport (e : Nat × List Byte) : List (Nat × List Byte) → List (Nat × List Byte)
  | [] => [e]
  | x :: t => if e.1 < x.1 then e :: x :: t else x :: insertReport e t

/-- R423: the credit of the parcel that serves session n. -/
def State.grantFor (s : State) (n : Nat) : State :=
  match s.sessCfg n with
  | some (p, _) => s.grantCredit p
  | none => s

/-- R415, R423: a record of a session's message is settled, with its report where it has one; the last one sends the
response, which carries the credit that came free. A message of an incarnation that has closed sends nothing. -/
def State.settleUpd (s : State) (sess : Fin 256 × Nat × W32 × Nat) (rep : Option (List Byte)) : State :=
  let (n, inc, rseq, place) := sess
  let v := s.vg n
  if v.inc ≠ inc ∨ !v.isOpen then s
  else match v.upd.find? (fun u => decide (u.rseq = rseq)) with
    | none => s
    | some u =>
      let u' := { u with left := u.left - 1, reports := match rep with
        | some r => insertReport (place, r) u.reports
        | none => u.reports }
      if u'.left = 0 then
        ((s.modVg n (fun v => { v with upd := v.upd.filter (fun w => decide (w.rseq ≠ rseq)) })).grantFor n).vgAnswer n inc
          3 0 rseq (updResponse 0 u'.nrec (u'.reports.map (·.2)))
      else s.modVg n (fun v => { v with upd := v.upd.map (fun w => if w.rseq = rseq then u' else w) })

/-! The window (R308 to R311, R316, R318, R320). -/

/-- R309: whether record a applies before record b; equal keys apply in acceptance order. -/
def UpdRec.before (a b : UpdRec) : Bool :=
  let ea := a.elig.getD 0
  let eb := b.elig.getD 0
  if ea ≠ eb then decide (ea < eb)
  else if a.fence ≠ 0 ∧ b.fence ≠ 0 then
    decide (a.fence < b.fence) || (decide (a.fence = b.fence) && decide (a.uid.toNat < b.uid.toNat))
  else decide (a.fence ≠ 0) && decide (b.fence = 0)

/-- The due records of a parcel's log. -/
def Parcel.due (x : Parcel) : List UpdRec := x.log.filter (fun r => r.elig.isSome)

/-- The first due record in key order. -/
def Parcel.firstDue (x : Parcel) : Option UpdRec :=
  x.due.foldl (fun (m : Option UpdRec) r => match m with
    | none => some r
    | some b => if r.before b then some r else some b) none

/-- R320: DETAIL of LATE_EPOCH; 0 for a record on time in the tick of boundary b. -/
def UpdRec.lateness (r : UpdRec) (b : Nat) : Nat :=
  match r.fence, r.fenceTick with
  | 0, _ => 0
  | _, none => 0
  | _, some f =>
    if f ≤ r.accepted then 1
    else if f = b then 0
    else if !r.fenceRan then 2
    else 3

/-- A record leaves the log, and its lines return as credit (R318, R321). -/
def State.retireUpd (s : State) (p : Nat) (r : UpdRec) : State :=
  (s.modParcel p (fun x => { x with log := x.log.filter (fun y => decide (y.lines ≠ r.lines)) })).grantCredit p

/-- The window meets a record: the UID of the first is kept. -/
def State.windowMeets (s : State) (p : Nat) (r : UpdRec) : State :=
  s.modParcel p (fun x => { x with windowFirst := some (x.windowFirst.getD r.uid) })

/-- R323: a late or rejected record counts in the window's log entry. -/
def State.windowBad (s : State) (p : Nat) (r : UpdRec) : State :=
  s.modParcel p (fun x => { x with
    windowBad := x.windowBad + 1, windowUid := if x.windowBad = 0 then r.uid else x.windowUid })

/-- R313: a record is rejected: 6 NONFINITE, 7 POISON. -/
def State.rejectUpd (s : State) (p : Nat) (r : UpdRec) (cause : Nat) : State :=
  let s := (s.windowMeets p r).windowBad p r
  let s := s.modParcel p (fun x => { x with upReject := satAdd32 x.upReject 1 })
  let s := s.retireUpd p r
  match r.sess with
  | some e => s.settleUpd e (some (updReport r.uid 0 s.datum ccAborted.toNat 2 cause 0))
  | none => s

/-- R314, R316, R318, R320: a record commits: its row's bytes, and the codes clamped. -/
def State.commitUpd (s : State) (p : Nat) (r : UpdRec) (t : TableDesc) (row : List Byte) (clamped : Nat) : State :=
  let a := t.base + r.row * t.rstride
  let late := r.lateness s.tk.boundary
  let s := ((s.countPlace p 0 0 a t.rstride).countWrites p 0 0 a t.rstride).stackWrite p 0 0 a row
  let s := s.countEvent 0x31 ((stackList t.stks.toNat).getD (r.row % (stackList t.stks.toNat).length) 0) (some p) 1
  let s := s.windowMeets p r
  let s := if late = 0 then s else s.windowBad p r
  let s := s.modParcel p (fun x => { x with
    windowDone := x.windowDone + 1
    upApplied := if late = 0 then satAdd32 x.upApplied 1 else x.upApplied
    upLate := if late = 0 then x.upLate else satAdd32 x.upLate 1
    upQsat := satAdd32 x.upQsat clamped
    winBusyNs := x.winBusyNs + (s.lc.ctr + 300 - max s.lc.ctr x.winBusyTo)
    winBusyTo := s.lc.ctr + 300 })
  let s := s.retireUpd p r
  match r.sess with
  | some e =>
    let want := decide (field r.bytes 4 1 / 2 % 2 = 1) || decide (late ≠ 0)
    s.settleUpd e (if want then some (updReport r.uid s.tk.epoch s.datum
      (if late = 0 then ccOK.toNat else ccLateEpoch.toNat) late 0 (if clamped = 0 then 0 else 1)) else none)
  | none => s

/-- R313, R446: the POISON rejection of a record at a device address. -/
def State.poisonUpd (s : State) (p : Nat) (r : UpdRec) (dev : Nat) : State :=
  (s.logP 0x0402 p (fun e => { e with cls := 2, arg := BitVec.ofNat 64 dev })).rejectUpd p r 7

/-- R312 to R314: a record is applied to the row of its table. -/
def State.applyUpd (s : State) (p : Nat) (r : UpdRec) (t : TableDesc) (ecc : Ecc) : State :=
  let x := s.parcel p
  let mode := field r.bytes 2 1
  let a := t.base + r.row * t.rstride
  let first := x.lineAddr (r.lines.headD 0)
  let s := if mode = 0 then s.stackEcc p (x.place 0 0 first) first ecc else s.stackEcc p (x.place 0 0 a) a ecc
  match r.lines.find? (fun j => (s.stackRead p 0 0 (x.lineAddr j) 64).2) with
  | some j => s.poisonUpd p r (x.lineAddr j)
  | none =>
    let row := s.stackRead p 0 0 a t.rstride
    if mode ≠ 0 ∧ row.2 then s.poisonUpd p r a
    else
      let (vs, opt) := updValues t r.bytes row.1
      if vs.any nonFinite || (decide (mode = 3) && nonFinite (BitVec.ofNat 32 opt)) then s.rejectUpd p r 6
      else
        let (bytes, clamped) := quantRow t vs opt (decide (field r.bytes 4 1 % 2 = 1)) r.uid r.row
        s.commitUpd p r t bytes clamped

/-- R90, R92, R310 UPDATE_WINDOW_START: the window of an ACTIVE parcel opens, once in a tick, between 3 µs and 3 + W. -/
def execUpdateWindowStart (p : Fin 16) (t : Nat) (s : State) : Out :=
  let s := s.at t
  let x := s.parcel p
  if x.state ≠ .active ∨ !s.ticking ∨ x.windowRan ∨ s.offset < 3000 ∨ x.cfg.computeFrom ≤ s.offset then .next s
  else
    .next (s.modParcel p (fun x => { x with
      inWindow := true, windowRan := true, windowBad := 0, windowUid := 0, windowDone := 0, windowFirst := none
      winStart := s.lc.edge + 3000, winBusyTo := 0, winBusyNs := 0
      log := x.log.map (fun r => if r.fenceTick = some s.tk.boundary then { r with fenceRan := true } else r) }))

/-- R309, R310 UPDATE_APPLY: the engine takes the first due record; none begins in the window's last 300 ns. -/
def execUpdateApply (p : Fin 16) (t : Nat) (ecc : Ecc) (s : State) : Out :=
  let s := s.at t
  let x := s.parcel p
  if !x.inWindow ∨ x.winStart + x.cfg.updWin * 1000 < s.lc.ctr + 300 then .next s
  else match x.firstDue with
    | none => .next s
    | some r => match x.table r.tid with
      | none => .next s
      | some t => .next (s.applyUpd p r t ecc)

/-- R310, R323, R324: the window of a parcel ends. -/
def State.endWindow (s : State) (p : Nat) : State :=
  let x := s.parcel p
  if !x.inWindow then s
  else
    let s := s.modParcel p (fun x => { x with
      inWindow := false, upDue := BitVec.ofNat 32 x.due.length, upWin := BitVec.ofNat 32 ((x.winBusyNs + 999) / 1000) })
    let s := s.trace 5 1 (some p) none (min x.windowDone 0xFFFF) (min x.windowBad 0xFFFF) (x.windowFirst.getD 0)
    if x.windowBad = 0 then s
    else s.logP 0x0401 p (fun e => { e with unit := BitVec.ofNat 16 (min x.windowBad 0xFFFF), arg := x.windowUid })

/-- R90, R92, R310 UPDATE_WINDOW_END: from 3 + W on. -/
def execUpdateWindowEnd (p : Fin 16) (t : Nat) (s : State) : Out :=
  let s := s.at t
  if s.offset < (s.parcel p).cfg.computeFrom then .next s else .next (s.endWindow p)

end Sys2Proof.Machine
end

