-- ==== Sys2Proof/Machine/Frontend.lean ====
section
/-! DEFINITION. How requests arrive at a queue and how their records leave (R96 to R100, R122, R127 to R131, R139, R140,
R333 to R335, R355 to R357, R571). -/

namespace Sys2Proof.Machine

/-! Arrival (R96 to R98, R100, R122). -/

/-- R98: the requests a queue holds at most. -/
def QueueCfg.depth (c : QueueCfg) : Nat := if c.be then c.quota * (c.carry + 1) else c.quota

/-- Whether a parcel takes requests (R96, R513). -/
def Parcel.serves (x : Parcel) : Bool := decide (x.state = .active) && x.resetting.isEmpty

/-- The outcome of a request before it is stamped (R96, R110, R122, R144); none: it is stamped. -/
def State.arrivalCode (s : State) (p q : Nat) : Option (Byte × Byte) :=
  let x := s.parcel p
  if s.dev = .retired then some (ccRetired, 0)
  else if !x.serves then some (ccStateChanged, scNotActive)
  else match (x.queue q).state with
    | .launched | .persistent => none
    | _ => some (ccStateChanged, scNotBound)

/-- R113: a request of ingress g is presented, in the present hub-die cycle unless that ingress has presented one in it. -/
def State.presentRequest (s : State) (g : Nat) : State :=
  let c := if s.cyc.reqIngs.contains g then {} else s.cyc
  { s with cyc := { c with reqIngs := c.reqIngs ++ [g] } }

/-- R100: the request of the highest ingress above g that queue q accepted in this hub-die cycle and that still waits: it
gives its place to a request of ingress g. -/
def State.yields (s : State) (p q g : Nat) : Option Request :=
  let mine := s.cyc.reqs.filter (fun e => decide (e.1 = p) && decide (e.2.1 = q) && decide (g < e.2.2.2))
  let top : Nat := mine.foldl (fun m e => max m e.2.2.2) 0
  (mine.filter (fun e => decide (e.2.2.2 = top))).findSome? (fun e =>
    (s.queue p q).waiting.find? (fun r => decide (r.src = e.2.2.1)))

/-- R98, R100: whether a stamped request of ingress g finds a place in its queue, one that another gives up included. -/
def State.hasPlace (s : State) (p q g depth : Nat) : Bool :=
  decide ((s.queue p q).waiting.length < depth) || (s.yields p q g).isSome

/-- R98, R100: a stamped request of ingress g takes its place in its queue, or is refused with TICK_FULL. -/
def State.seat (s : State) (p q g depth : Nat) (r : Request) : State :=
  let take (s : State) : State :=
    { s.modQueue p q (fun y => { y with waiting := y.waiting ++ [r] }) with
      cyc := { s.cyc with reqs := s.cyc.reqs ++ [(p, q, r.src, g)] } }
  if (s.queue p q).waiting.length < depth then take s
  else match s.yields p q g with
    | some x => take ((s.modQueue p q (fun y => { y with waiting := y.waiting.erase x })).refuse p q x ccTickFull 0)
    | none => s.refuse p q r ccTickFull 0

/-- R96 to R98: a request reaches its queue: it is refused unstamped, or stamped and refused with TICK_FULL when the
queue is full, or it waits. -/
def State.arrive (s : State) (p q : Nat) (r : Request) : State :=
  match s.arrivalCode p q with
  | some (code, detail) => s.refuse p q { r with stamp := 0 } code detail
  | none =>
    let r := { r with stamp := s.datum }
    match (s.parcel p).qcfg q with
    | none => s.refuse p q { r with stamp := 0 } ccStateChanged scNotBound
    | some c =>
      let g := s.ingressOf r.src
      (s.presentRequest g).seat p q g c.depth r

/-! Doorbells (R128, R129, R571). -/

/-- The queue of the image in force whose GQUEUE is g. -/
def State.gqueue (s : State) (g : Nat) : Option (Nat × Nat) :=
  s.parcels.findSome? (fun e =>
    if e.2.state = .absent then none
    else (e.2.cfg.queues.find? (fun c => decide (c.gqueue = g))).map (fun c => (e.1, c.q)))

/-- Whether function f owns a parcel. -/
def Parcel.ownedBy (x : Parcel) (f : Nat) : Bool :=
  decide (x.state ≠ .absent) && !x.cfg.ownerSess && decide (x.cfg.ownerId = f)

/-- R128, R129, R571: a refused doorbell is logged: 1 foreign, 2 malformed. -/
def State.bellRefused (s : State) (f : Fin 8) (at' : Option (Nat × Nat)) (aux : Nat) : State :=
  match at' with
  | some (p, q) => s.logP 0x0203 p (fun e => { e with
      unit := BitVec.ofNat 16 f, qindex := BitVec.ofNat 8 q, aux := BitVec.ofNat 8 aux })
  | none => s.log { logEntry s 0x0203 with unit := BitVec.ofNat 16 f, aux := BitVec.ofNat 8 aux }

/-- The request of descriptor i of a doorbell. -/
def bellRequest (x : Parcel) (f : Fin 8) (i : W32) : Request :=
  { src := .bell f i, tag := 0, stamp := 0, ctx := 0, noirq := false, ready := false, pb := [], windows := [], carried := 0
    timeout := 0, segs := x.segs, unbound := false }

/-- SQ entries of a queue; none without rings. -/
def Queue.sqSize (q : Queue) : Nat := match q.rings with | some r => 2 ^ r.sqLog | none => 0

/-- CQ entries of a queue. -/
def Queue.cqSize (q : Queue) : Nat := match q.rings with | some r => 2 ^ r.cqLog | none => 0

/-- R128, R129, R571 SQ_TAIL. -/
def execSqTail (f : Fin 8) (g : Fin 256) (v : W32) (wide : Bool) (s : State) : Out :=
  if (s.ord (1 + f)).d3 then .next s else
  match s.gqueue g with
  | none => .next (s.bellRefused f none 1)
  | some (p, q) =>
    let x := s.parcel p
    let y := x.queue q
    let n := (v - y.sqTail).toNat
    if !x.ownedBy f then .next (s.bellRefused f (some (p, q)) 1)
    else if wide ∨ y.sqSize < y.sqUsed + n then .next (s.bellRefused f (some (p, q)) 2)
    else
      let t0 := y.sqTail
      let s := s.modQueue p q (fun y => { y with sqTail := v, sqUsed := y.sqUsed + n })
      .next ((List.range n).foldl (fun s i => s.arrive p q (bellRequest (s.parcel p) f (t0 + BitVec.ofNat 32 i))) s)

/-- R128, R571 CQ_HEAD: a value that would consume a record not yet written is refused. -/
def execCqHead (f : Fin 8) (g : Fin 256) (v : W32) (wide : Bool) (s : State) : Out :=
  if (s.ord (1 + f)).d3 then .next s else
  match s.gqueue g with
  | none => .next (s.bellRefused f none 1)
  | some (p, q) =>
    let x := s.parcel p
    let y := x.queue q
    if !x.ownedBy f then .next (s.bellRefused f (some (p, q)) 1)
    else if wide ∨ (y.cqTail - y.cqHead).toNat < (v - y.cqHead).toNat then .next (s.bellRefused f (some (p, q)) 2)
    else .next (s.modQueue p q (fun y => { y with cqHead := v }))

/-- R128, R571: what a read of a doorbell page returns; no row reads one. -/
def bar2Read (_page : Fin 256) (_off : Nat) : W32 := 0

/-- R128, R571: a write of `width` bytes at offset `off` of page g by function f: SQ_TAIL at 0, CQ_HEAD at 8; one that is not
32 bits wide or meets a reserved offset is refused. -/
def bar2Write (f : Fin 8) (g : Fin 256) (off width : Nat) (v : W32) (s : State) : Out :=
  if off = 8 then execCqHead f g v (decide (width ≠ 4)) s else execSqTail f g v (decide (width ≠ 4) || decide (off ≠ 0)) s

/-! The launch descriptor (R127, R130, R131). -/

/-- What a launch descriptor and its patch give a request. -/
inductive Fetched where
  | bad (code detail : Byte)
  | fault (entry ctx seg : Nat) (cause : SgCause)
  | ok (windows : List Window) (pb : List Byte)
  deriving DecidableEq, Repr

/-- R333 to R335: a request's patch window, when it has one, and its pointer fields are translated. `patchSeg`: the
segment and offset of the patch window. -/
def Parcel.translate (x : Parcel) (g : GraphSlot) (ctx pbOff pbLen : Nat) (patchWin : Option (Nat × Nat)) (patch : List Byte) :
    Fetched :=
  if x.cfg.nctx ≤ ctx then
    match patchWin with
    | some (seg, _) => .fault 0x3FF ctx seg .noContext
    | none => .fault 0 ctx (match g.ptrs with | e :: _ => e.seg | [] => 0) .noContext
  else
    let pw := match patchWin with
      | some (seg, off) => match x.orderWindow ctx seg off pbLen true false [1] with
        | .error c => some (seg, c)
        | .ok _ => none
      | none => none
    match pw with
    | some (seg, c) => .fault 0x3FF ctx seg c
    | none =>
      match x.translateAll ctx g.ptrs 0 (patchBytes g.pb pbOff (patch.take pbLen)) [] with
      | .error (c, i, seg) => .fault i ctx seg c
      | .ok (ws, pb) => .ok ws pb

/-- R127, R130: the descriptor's reserved fields and ranges. -/
def launchDescOk (d : List Byte) (pbSize : Nat) : Bool :=
  decide (field d 0x0D 1 < 2) && zeroBytes d 0x0E 2 && zeroBytes d 0x11 7 && zeroBytes d 0x20 32
    && decide (field d 0x0C 1 ≤ 15) && decide (field d 8 2 + field d 0xA 2 ≤ pbSize)

/-- R130: what a read descriptor gives its request, under the segment table of its stamp. -/
def Parcel.fetch (x : Parcel) (r : Request) (g : GraphSlot) (d patch : List Byte) (poison : Bool) : Fetched :=
  let len := field d 0xA 2
  if poison then .bad ccHostPoison 1
  else if !launchDescOk d g.hdr.pbSize then .bad ccAborted abMalformed
  else { x with segs := r.segs }.translate g (field d 0x0C 1) (field d 8 2) len
    (if len = 0 then none else some (field d 0x10 1, field d 0x18 8)) patch

/-- A request's place, by its source: dropped from the waiting and ready lists. -/
def Queue.dropReq (q : Queue) (src : ReqSrc) : Queue :=
  { q with waiting := q.waiting.filter (fun r => decide (r.src ≠ src)), ready := q.ready.filter (fun r => decide (r.src ≠ src)) }

/-- Replaces a request in the waiting and ready lists. -/
def Queue.mapReq (q : Queue) (src : ReqSrc) (f : Request → Request) : Queue :=
  let m (r : Request) : Request := if r.src = src then f r else r
  { q with waiting := q.waiting.map m, ready := q.ready.map m }

/-- The instance of a parcel that holds a request. -/
def State.instOf (s : State) (p q : Nat) (src : ReqSrc) : Option (Nat × Inst) :=
  (s.instsOf p).find? (fun e => decide (e.2.q = q) && (match e.2.req with | some r => decide (r.src = src) | none => false))

/-- The unread doorbell requests of a queue: held by instances, admitted, waiting, and those whose record waits. -/
def State.unreadReqs (s : State) (p q : Nat) : List (W32 × Bool) :=
  let y := s.queue p q
  let reqs := ((s.instsOf p).filterMap (fun e => if e.2.q = q then e.2.req else none)) ++ y.ready ++ y.waiting
  (reqs.filterMap (fun r => match r.ready, r.src with | false, .bell _ i => some (i, false) | _, _ => none)) ++
    (y.records.filterMap (fun r => match r.unread, r.src with | true, .bell _ i => some (i, true) | _, _ => none))

/-- The oldest of them: the one furthest behind SQ_TAIL. -/
def State.oldestUnread (s : State) (p q : Nat) : Option (W32 × Bool) :=
  let tail := (s.queue p q).sqTail
  (s.unreadReqs p q).foldl (fun (m : Option (W32 × Bool)) e => match m with
    | some b => if (tail - b.1).toNat < (tail - e.1).toNat then some e else some b
    | none => some e) none

/-- The unread request of a doorbell, where a list or an instance holds it. -/
def State.bellReq (s : State) (p q : Nat) (i : W32) : Option Request :=
  let y := s.queue p q
  let is (r : Request) : Bool := match r.src with | .bell _ j => decide (j = i) | _ => false
  (((s.instsOf p).filterMap (fun e => if e.2.q = q then e.2.req else none)) ++ y.ready ++ y.waiting).find? is

/-! Results of orders (R117, R355), and the orders that wait for descriptors (R142, R332). -/

/-- R117: the 16 bytes of a result. -/
def resultBytes (id : W64) (code detail : Byte) : List Byte := leBytes 8 id.toNat ++ [code, detail] ++ List.replicate 6 0

/-- R117, R355, R416: an order ends: its result goes to its giver; a session's next CONTROL request may be taken.
The result of an order whose session has closed since is discarded (R426). -/
def State.orderResult (s : State) (p : Nat) (r : OrdRef) (code detail : Byte) : State :=
  let s := s.trace 10 1 (if p < 16 then some p else none) none (s.srcIngress r.src) (code.toNat + 256 * detail.toNat) r.id
  let put (a : Nat) : State :=
    (s.modOrd a (fun o => { o with done := true, busy := false, result := (r.id, code, detail) })).fnEvent a 0
  match r.src with
  | .mgmt _ => put 0
  | .fn f => put (1 + f)
  | .sess n =>
    let v := s.vg n
    if v.inc ≠ r.inc ∨ !v.isOpen then s.modVg n (fun v => { v with ctlBusy := false })
    else match v.ctl with
      | (rseq, _) :: t =>
        (s.modVg n (fun v => { v with ctl := t, ctlBusy := false })).vgAnswer n r.inc 4 0x10 rseq (resultBytes r.id code detail)
      | [] => s

/-- The unread doorbell requests of a parcel that are still to be translated, by queue and descriptor index. -/
def State.unreadAll (s : State) (p : Nat) : List (Nat × W32) :=
  (List.range 32).flatMap (fun q => (s.unreadReqs p q).filterMap (fun e => if e.2 then none else some (q, e.1)))

/-- R142, R332: an order in progress ends, once every descriptor it waits for is read. -/
def State.endWait (s : State) (p : Nat) (w : ReadWait) : State :=
  if w.found then s.orderResult p w.ref ccOK 0 else s.orderResult p w.ref ccStateChanged scNotFound

/-- R142, R332: an order ends now, or stays in progress until the requests stamped before it are read. -/
def State.awaitReads (s : State) (p : Nat) (w : ReadWait) : State :=
  if w.left.isEmpty then s.endWait p w else s.modParcel p (fun x => { x with waits := x.waits ++ [w] })

/-- R142, R332: the descriptor of index i of queue q is read; `hit`: it carries the TAG of the CANCELs that wait for it. -/
def State.readDone (s : State) (p q : Nat) (i : W32) (tag : Option W64) : State :=
  let ws := (s.parcel p).waits.map (fun w => { w with
    left := w.left.filter (fun e => decide (e ≠ (q, i)))
    found := w.found || (w.left.contains (q, i) && (match w.cancel, tag with
      | some (k, t), some u => decide (k = q) && decide (t = u)
      | _, _ => false)) })
  (ws.filter (·.left.isEmpty)).foldl (fun s w => s.endWait p w)
    (s.modParcel p (fun x => { x with waits := ws.filter (fun w => !w.left.isEmpty) }))

/-- R142: whether a CANCEL waits for descriptor i of queue q, and names its TAG. -/
def Parcel.cancelled (x : Parcel) (q : Nat) (i : W32) (tag : W64) : Bool :=
  x.waits.any (fun w => decide (w.cancel = some (q, tag)) && w.left.contains (q, i))

/-- A request that ends at its descriptor frees its place; an instance that holds it and has not started is free again. -/
def State.dropRequest (s : State) (p q : Nat) (src : ReqSrc) : State :=
  let s := s.modQueue p q (fun y => y.dropReq src)
  match s.instOf p q src with
  | some (i, x) => if x.launched then s.setInst i none else (s.setInst i (some { x with req := none })).takeReady i |>.tryResume i
  | none => s

/-- R130, R134, R142: the read of a request's descriptor i and patch is done. A launched request that ends here holds its
instance of the share until its record is written. -/
def State.fetched (s : State) (p q : Nat) (i : W32) (r : Request) (d patch : List Byte) (poison : Bool) : State :=
  let x := s.parcel p
  let tag : W64 := BitVec.ofNat 64 (field d 0 8)
  let r := { r with tag := tag, noirq := decide (field d 0x0D 1 % 2 = 1), ready := true, ctx := field d 0x0C 1 % 16 }
  let share := match s.instOf p q r.src with | some (_, x) => x.launched | none => false
  let drop (s : State) (code detail : Byte) : State :=
    (s.dropRequest p q r.src).complete p q r code detail 0 false share [] 0 0
  if x.cancelled q i tag && !poison then drop s ccAborted 0 else
  match x.fetch r (x.gslot (x.queue q).slot) d patch poison with
  | .bad code detail => drop s code detail
  | .fault entry ctx seg cause => drop (s.segFault p 0 entry ctx seg cause) ccSegFault (BitVec.ofNat 8 (ctx % 16 * 16 + seg % 16))
  | .ok ws pb =>
    let r := { r with windows := ws, pb := pb, segs := [] }
    let s := s.modQueue p q (fun y => y.mapReq r.src (fun _ => r))
    match s.instOf p q r.src with
    | some (i, y) => ((s.setInst i (some { y with req := some r })).tryStart i).tryResume i
    | none => s

/-- R127, R129: the host address of descriptor i of a queue's SQ. -/
def Queue.descAddr (y : Queue) (i : W32) : Nat := match y.rings with | some r => r.sqBase + 64 * (i.toNat % 2 ^ r.sqLog) | none => 0

/-- R127, R333: the host address of the patch that a descriptor names, and its length; none where its window fails. -/
def Parcel.patchAt (x : Parcel) (segs : Sparse (Option SegDesc)) (d : List Byte) : Option (Nat × Nat) :=
  let len := field d 0xA 2
  if len = 0 ∨ x.cfg.nctx ≤ field d 0x0C 1 then none
  else match ({ x with segs := segs } : Parcel).orderWindow (field d 0x0C 1) (field d 0x10 1) (field d 0x18 8) len true false [1] with
    | .ok w => some (w.base, len)
    | .error _ => none

/-- R130, R139, R348, R361: the oldest descriptor not yet read of a queue arrives with its patch, both through the Welt;
for a request already refused, its TAG and NOIRQ go into its record. -/
def State.readDescriptor (s : State) (p q : Nat) (desc patch : List Byte) (poison : Bool) : State :=
  match s.oldestUnread p q with
  | none => s
  | some (i, done) =>
    let d := s.weltRead p ((s.queue p q).descAddr i) 64 desc poison
    let desc := d.1.1
    let tag := if d.1.2 then none else some (BitVec.ofNat 64 (field desc 0 8))
    if done then
      (d.2.modQueue p q (fun y => { y with records := y.records.map (fun r =>
        match r.src with
        | .bell _ j => if j = i then { r with
            tag := BitVec.ofNat 64 (field desc 0 8), noirq := decide (field desc 0x0D 1 % 2 = 1), unread := false } else r
        | _ => r) })).readDone p q i none
    else match s.bellReq p q i with
      | none => s
      | some r =>
        let t := match (if d.1.2 then none else (s.parcel p).patchAt r.segs desc) with
          | some (a, n) => d.2.weltRead p a n patch poison
          | none => ((patch, false), d.2)
        (t.2.fetched p q i r desc t.1.1 (d.1.2 || t.1.2)).readDone p q i tag

/-! Records and messages (R139, R140, R356, R357). -/

/-- R134, R139, R140: the first record of a queue whose descriptor is read is written to the CQ, when it has room; its
SQ entry and its instance return, and it calls for its message. A record that the link cannot carry is counted. -/
def State.writeRecord (s : State) (p q : Nat) : State :=
  let y := s.queue p q
  match y.records.find? (fun r => !r.unread), y.rings with
  | some r, some ring =>
    match r.src with
    | .bell f _ =>
      if y.cqSize ≤ (y.cqTail - y.cqHead).toNat then s
      else
        let rest := y.records.erase r
        if s.host.dead then
          (s.modQueue p q (fun y => { y with records := rest, sqUsed := y.sqUsed - 1 })).modHost
            (fun h => { h with lostRecs := satAdd32 h.lostRecs 1 })
        else
          let entry := y.cqTail.toNat % y.cqSize
          let bytes := r.bytes q (decide (y.cqTail.toNat / y.cqSize % 2 = 0))
          let s := s.modQueue p q (fun y => { y with records := rest, sqUsed := y.sqUsed - 1, cqTail := y.cqTail + 1 })
          let s := ((s.hostStore p (ring.cqBase + 32 * entry) bytes).emit (.cqWrite f (ring.cqBase + 32 * entry) bytes)).traceRecord
            p q r
          match r.noirq, ring.vector with
          | false, some v => s.callMsix (1 + f) v
          | _, _ => s
    | _ => s
  | _, _ => s

/-- R140: the host address that the next record of a queue goes to, when its CQ has room. -/
def Queue.recordAddr (y : Queue) : Option Nat :=
  match y.rings with
  | some r => if y.cqSize ≤ (y.cqTail - y.cqHead).toNat then none else some (r.cqBase + 32 * (y.cqTail.toNat % y.cqSize))
  | none => none

/-- R341, R357, R361, R362: the first record of a queue is written once the parcel's stores are performed and the Welt holds
its line in E or M; RdOwn asks for the line. -/
def State.tryRecord (s : State) (p q : Nat) : State :=
  let y := s.queue p q
  match y.recordAddr with
  | none => s
  | some a =>
    if s.host.dead ∨ 2 ^ 52 ≤ a then s.writeRecord p q
    else if y.records.all (·.unread) ∨ s.host.stores.any (fun e => decide (e.parcel = p)) then s
    else if s.lineOwned a then (s.modQueue p q (fun y => { y with recAsked := false })).writeRecord p q
    else if y.recAsked then s
    else (s.weltAsk a 1).modQueue p q (fun y => { y with recAsked := true })

/-- R135, R139, R140, R361 COMPLETION_RECORD_WRITE. -/
def execCompletionRecordWrite (p : Fin 16) (q : Fin 32) (s : State) : Out :=
  if s.host.disabled ∨ s.host.flushing then .next s else .next (s.tryRecord p q)

/-- R355: vectors of a function's table. -/
def State.vectors (s : State) : Nat := 2048 / max 1 s.img.cfg.nfunc

/-- What byte a of the MSI-X table holds at reset (PCIe: every vector masked). -/
def msixReset (a : Nat) : Byte := if a % 16 = 12 then 1 else 0
/-- Byte a of a function's MSI-X table. -/
def OrdSt.msixByte (o : OrdSt) (a : Nat) : Byte := spGet 0 o.msix a ^^^ msixReset a
/-- Writes a byte of a function's MSI-X table. -/
def OrdSt.setMsix (o : OrdSt) (a : Nat) (b : Byte) : OrdSt := { o with msix := spPut 0 (b ^^^ msixReset a) a o.msix }

/-- Whether a vector is masked (PCIe: bit 0 of the entry's fourth word). -/
def OrdSt.masked (o : OrdSt) (v : Nat) : Bool := (o.msixByte (16 * v + 12)).getLsbD 0

/-- R355 to R357 MSIX_MESSAGE: a message called for on a vector issues, or sets its pending bit while it is masked. A
function in D3hot issues none. -/
def execMsixMessage (f : Fin 8) (v : Nat) (s : State) : Out :=
  let o := s.ord (1 + f)
  if spGet 0 o.msixDue v = 0 ∨ s.vectors ≤ v ∨ o.d3 then .next s
  else
    let s := s.modOrd (1 + f) (fun o => { o with msixDue := spMod 0 o.msixDue v (· - 1) })
    if o.masked v then .next (s.modOrd (1 + f) (fun o => { o with msixPending := spPut false true v o.msixPending }))
    else .next (s.emit (.msix f v))

/-- R356: a vector is unmasked: a pending message issues. -/
def State.unmaskVector (s : State) (f : Fin 8) (v : Nat) : State :=
  let o := s.ord (1 + f)
  let s := s.modOrd (1 + f) (fun o => { o.setMsix (16 * v + 12) (o.msixByte (16 * v + 12) &&& 0xFE) with
    msixPending := spPut false false v o.msixPending })
  if spGet false o.msixPending v then s.emit (.msix f v) else s

/-- R354, R356 MSIX_VECTOR_UNMASK: a BAR0 write, which a function in D3hot refuses. -/
def execMsixVectorUnmask (f : Fin 8) (v : Nat) (s : State) : Out :=
  if s.vectors ≤ v ∨ (s.ord (1 + f)).d3 then .next s else .next (s.unmaskVector f v)

end Sys2Proof.Machine
end

