-- ==== Sys2Proof/Machine/Tick.lean ====
section
/-! DEFINITION. The tick: boundaries, admission, the compute phase and queue timeouts (R85 to R108, R132 to R138, R547). -/

namespace Sys2Proof.Machine

/-- R547, R548: the snapshot of the boundary at instant `b` of epoch `e`; what wrapped or was reselected since the one before it joins
every reader's interval. -/
def State.snapshot (s : State) (b : Nat) (e : W64) : State :=
  let merge (o : OrdSt) : OrdSt := { o with
    wraps := s.ob.wrapsNow.foldl (fun m x => spMod 0 m x.1 (fun w => min 127 (w + x.2))) o.wraps
    resel := s.ob.reselNow.foldl (fun m x => spPut false true x.1 m) o.resel }
  let s := (List.range 9).foldl (fun s a => s.modOrd a merge) s
  { s with ob := { s.ob with
      snap := some { epoch := e, datum := b, cycle := s.ob.cycle, counts := s.ob.cnt }
      wrapsNow := [], reselNow := [] } }

/-- R106, R133: what still runs at a boundary is aborted with TIMEOUT; a launched request that never started, and a
ready request that no task took, end with NOT_STARTED. -/
def State.abortLate (s : State) (p : Nat) : State :=
  let s := (s.instsOf p).foldl (fun s e =>
    let x := e.2
    if x.running then s.abortInst e.1 ccTimeout (BitVec.ofNat 8 (s.causeOf x))
    else if x.launched then s.abortInst e.1 ccTimeout 5
    else match x.req with
      | some r =>
        let s := if x.overrun then s.reportOverrun x (s.causeOf x) else s
        (s.setInst e.1 (some { x with req := none, overrun := false })).refuse p x.q r ccTimeout 5
      | none => s) s
  (s.parcel p).queues.foldl (fun s e =>
    let late := e.2.ready
    late.foldl (fun s r => s.refuse p e.1 r ccTimeout 5) (s.modQueue p e.1 (fun y => { y with ready := [] }))) s

/-- R308, R320: a boundary makes the records of a log due, and fences come. -/
def Parcel.reachFences (x : Parcel) (b : Nat) : Parcel :=
  { x with log := x.log.map (fun r => { r with
      elig := if r.elig.isNone ∧ r.accepted < b ∧ r.fence ≤ b then some b else r.elig
      fenceTick := if r.fenceTick.isNone ∧ r.fence ≠ 0 ∧ r.fence ≤ b then some b else r.fenceTick }) }

/-- R134: the instances of its share that a parcel holds: launched and resident ones, and those of unwritten records. -/
def State.shareHeld (s : State) (p : Nat) : Nat :=
  (s.instsOf p).length +
    (s.parcel p).queues.foldl (fun n e => n + (e.2.records.filter (·.holdsShare)).length) 0

/-- R99: the queues of a parcel in the order of admission. -/
def ParcelCfg.admitOrder (c : ParcelCfg) : List QueueCfg :=
  let sorted (be : Bool) : List QueueCfg := (List.range 32).filterMap (fun q => c.queues.find? (fun e => decide (e.q = q) && (e.be == be)))
  sorted false ++ sorted true

/-- A launched instance of an admitted request, not yet started; `start`: the compute phase of its tick. -/
def newInst (p : Fin 16) (q slot start : Nat) (task : Option Nat) (r : Option Request) (cells : List Nat) (replica : Nat) : Inst :=
  { parcel := p, q := q, slot := slot, replica := replica, cells := cells, task := task, req := r, running := false
    entry := task.isSome, start := start, lines := 0, sectors := [], excess := false, overrun := false, thermal := false
    slowHost := false, removing := false, released := false }

/-- A new instance takes the next number. -/
def State.addInst (s : State) (x : Inst) : State :=
  { s.setInst s.nextInst (some x) with nextInst := s.nextInst + 1 }

/-- R132, R134: the tasks of a parcel's queues that have no instance yet take one, queue by queue, while its share has
room. A bind passes on the static sum of R157 alone, as R164 demands; where instances of BE queues or unwritten records
hold the share then, the tasks above it wait for a later boundary (DESIGN CHOICE, log 88). -/
def State.seatTasks (s : State) (p : Fin 16) : State :=
  (List.range 32).foldl (fun s q => (s.queue p q).unseated.foldl (fun s k =>
    if s.shareHeld p < (s.parcel p).cfg.instShare then
      let y := s.queue p q
      (s.modQueue p q (fun y => { y with unseated := y.unseated.erase k })).addInst
        (newInst p q y.slot 0 (some k) none (((s.parcel p).gslot y.slot).replica k) k)
    else s) s) s

/-- R97, R99, R136: a request of queue q is admitted: to the ready list of its tasks, or as an instance. -/
def State.admitOne (s : State) (p : Fin 16) (q : Nat) (r : Request) : State :=
  let y := s.queue p q
  let r := { r with timeout := y.timeout }
  let s := (s.trace 2 1 (some p.val) (some q) (s.ingressOf r.src) 0 (BitVec.ofNat 64 r.stamp)).countEvent 0x40 (p * 32 + q)
    (some p.val) 1
  if y.state = .persistent then s.modQueue p q (fun y => { y with ready := y.ready ++ [r] })
  else s.addInst (newInst p q y.slot (s.lc.edge + (s.parcel p).cfg.computeFrom) none (some r) [] 0)

/-- R97, R98, R124: the requests of one queue at a boundary, oldest first: `n` admitted so far. R124 names no DETAIL for
those that end because their queue is unbinding: NOT_BOUND (DESIGN CHOICE, log 94). -/
def State.admitQueue (s : State) (p : Fin 16) (c : QueueCfg) : List Request → Nat → State
  | [], _ => s
  | r :: t, n =>
    let y := s.queue p c.q
    let bound := decide (y.state = .launched) || decide (y.state = .persistent)
    if s.tk.boundary ≤ r.stamp then
      (s.modQueue p c.q (fun y => { y with waiting := y.waiting ++ [r] })).admitQueue p c t n
    else if !bound || r.unbound then (s.refuse p c.q r ccStateChanged scNotBound).admitQueue p c t n
    else if n < c.quota ∧ (y.state = .persistent ∨ s.shareHeld p < (s.parcel p).cfg.instShare) then
      (s.admitOne p c.q r).admitQueue p c t (n + 1)
    else if !c.be ∨ c.carry ≤ r.carried then
      (s.refuse p c.q r ccTickFull (if n < c.quota then 3 else if c.carry = 0 then 1 else 2)).admitQueue p c t n
    else
      let s := s.trace 2 3 (some p.val) (some c.q) (s.ingressOf r.src) 0 (BitVec.ofNat 64 r.stamp)
      (s.modQueue p c.q (fun y => { y with waiting := y.waiting ++ [{ r with carried := r.carried + 1 }] })).admitQueue p c t n

/-- R97 to R99: the admission of a parcel. -/
def State.admitParcel (s : State) (p : Fin 16) : State :=
  (s.parcel p).cfg.admitOrder.foldl (fun s c =>
    let w := (s.queue p c.q).waiting
    (s.modQueue p c.q (fun y => { y with waiting := [] })).admitQueue p c w 0) s

/-- R76: at the boundary after a QUIESCE, every waiting request of the parcel ends, and every task that waits in WAITQ is
released: it holds no request that could complete, and takes none until RESUME (DEDUCED, log 89). -/
def State.drainParcel (s : State) (p : Fin 16) : State :=
  let s := (s.parcel p).queues.foldl (fun s e =>
    e.2.waiting.foldl (fun s r => s.refuse p e.1 r ccStateChanged scNotActive)
      (s.modQueue p e.1 (fun y => { y with waiting := [] }))) s
  let s := (s.instsOf p).foldl (fun s e =>
    if e.2.task.isSome && e.2.req.isNone && s.allAtWaitq e.2 then s.modInst e.1 (fun x => { x with released := true }) else s) s
  s.modParcel p (fun x => { x with drained := true })

/-- R91 step 6, R93, R132: the tasks of a parcel that stand in WAITQ take the ready requests, in the order of their
instances. -/
def State.handOut (s : State) (p : Nat) : State := ((s.instsOf p).map (·.1)).foldl (fun s i => s.takeReady i) s

/-- Instances so far and requests in ready lists: what admission adds to (R541). -/
def State.admitted (s : State) : Nat :=
  s.nextInst + (List.range 16).foldl (fun n p => n + (s.parcel p).queues.foldl (fun n e => n + e.2.ready.length) 0) 0

/-- What a boundary does in one parcel from step 5 on. -/
def State.boundaryParcel (s : State) (p : Fin 16) : State :=
  let x := s.parcel p
  let s := s.modParcel p (fun x => { x with
    windowRan := false, computeRan := false, computeOver := false, smPlaceLogged := false
    queues := (List.range 32).foldl (fun m q => spMod Queue.zero m q (fun y =>
      { y with lq := y.lqNext.getD y.lq, lqNext := none })) x.queues })
  match x.state with
  | .active => if x.resetting.isEmpty then (s.seatTasks p).admitParcel p else s
  | .draining => if x.drained then s else s.drainParcel p
  | .building => if x.buildDone then s.modParcel p (fun x => { x with state := .quiet, buildDone := false }) else s
  | _ => s

/-- R440 to R442: a compute phase in which some stack's E_k exceeds its S_k. -/
def Parcel.hotPhase (x : Parcel) : Bool :=
  (List.range 8).any (fun k =>
    let sk := spGet 0 x.phSect k
    let most (m : Sparse Nat) (w : Nat) : Nat := m.foldl (fun n e => if e.1 / w = k then max n e.2 else n) 0
    decide (sk < 480 * (most x.phBank 512 - 1)) || decide (sk < 30 * most x.phChan 32))

/-- R95, R105, R442: the compute phase of a parcel ends, once in a tick: every instance that has not completed overruns,
but for a task that waits for a request. -/
def State.endCompute (s : State) (p : Nat) : State :=
  let x := s.parcel p
  if x.computeOver then s
  else
    let s := s.modParcel p (fun x => { x with
      inCompute := false, computeOver := true
      smHot := if x.inCompute && x.hotPhase then satAdd32 x.smHot 1 else x.smHot })
    (s.instsOf p).foldl (fun s e =>
      if e.2.launched || e.2.running || e.2.req.isSome then s.modInst e.1 (fun x => { x with overrun := true }) else s) s

/-- R87: the ns by which a boundary of alignment error e shortens its tick. -/
def DevCfg.shorten (c : DevCfg) (e : Nat) : Nat := if c.align ∧ 20 < e then min e 1000 else 0

/-- R87, R88, R91 TICK_BOUNDARY: the boundary falls where the local time counter reaches the end of the tick, however
late the command comes; before that, time passes. -/
def execTickBoundary (t : Nat) (s : State) : Out :=
  let s := s.at t
  let due := s.lc.edge + s.lc.len
  if !s.tk.run ∨ s.lc.ctr < due then .next s
  else
    let b := s.datum - (s.lc.ctr - due)
    let T := max 1 s.img.cfg.tickNs
    let e := b % T
    let epoch : W64 := BitVec.ofNat 64 (b / T)
    let all := List.range 16
    let s := all.foldl (fun s p => (s.endWindow p).endCompute p) s
    let s := s.snapshot b epoch
    let s := all.foldl (fun s p => s.abortLate p) s
    let s := { s with
      lc := { s.lc with edge := due, len := T - s.img.cfg.shorten e, surveyed := false, lastB := some b, below := 0 }
      tk := { s.tk with
        started := true, count := if s.tk.started then s.tk.count + 1 else 0, epoch := epoch, boundary := b
        alignErr := if s.img.cfg.align then BitVec.ofNat 32 e else 0
        aligned := s.img.cfg.align && decide (e ≤ 20) } }
    let s := all.foldl (fun s p => s.modParcel p (fun x => x.reachFences b)) s
    let before := s.admitted
    let s := (List.finRange 16).foldl (fun s p => s.boundaryParcel p) s
    let n := s.admitted - before
    let s := all.foldl (fun s p => s.handOut p) s
    .next (s.trace 1 1 none none 0 (min 0xFFFF n) epoch)

/-- R90, R92, R93, R132, R133 COMPUTE_PHASE_START: once in a tick, from the end of the parcel's window on. -/
def execComputePhaseStart (p : Fin 16) (t : Nat) (s : State) : Out :=
  let s := s.at t
  let x := s.parcel p
  if !s.ticking ∨ s.offset < x.cfg.computeFrom ∨ s.img.cfg.computeEnd ≤ s.offset ∨ x.computeRan ∨ x.computeOver ∨
      (x.state ≠ .active ∧ x.state ≠ .draining) then .next s
  else
    let s := s.endWindow p
    let s := s.modParcel p (fun x => { x with inCompute := true, computeRan := true, phSect := [], phBank := [], phChan := [] })
    let ids := (s.instsOf p).map (·.1)
    let s := if x.state = .active ∨ !x.drained then ids.foldl (fun s i => s.enterTask i) s else s
    let s := ids.foldl (fun s i => s.tryResume i) s
    .next (s.startReady p)

/-- R90, R95, R105 COMPUTE_PHASE_END: from T − S − D on. -/
def execComputePhaseEnd (p : Fin 16) (t : Nat) (s : State) : Out :=
  let s := s.at t
  if !s.ticking ∨ s.offset < s.img.cfg.computeEnd then .next s else .next (s.endCompute p)

/-- R136, R138 QUEUE_TIMEOUT_EXPIRY: the instance is aborted at that instant. -/
def execQueueTimeoutExpiry (p : Fin 16) (inst : Nat) (t : Nat) (s : State) : Out :=
  let s := s.at t
  match s.inst inst with
  | some x =>
    if x.parcel ≠ p ∨ !s.timedOut x then .next s
    else .next (s.abortInst inst ccTimeout (if x.running then BitVec.ofNat 8 (s.causeOf x) else 5))
  | none => .next s

end Sys2Proof.Machine
end

