-- ==== Sys2Proof/Machine/Graphs.lean ====
section
/-! DEFINITION. Graph images, their checks at load, and the checks at bind (R146 to R166). -/

namespace Sys2Proof.Machine

/-! Structure (R146 to R149). -/

/-- A part of an image: its start and its bytes; one with no bytes takes no part in the conditions. -/
abbrev Part := Nat × Nat

/-- Whether a part is aligned and lies between header and trailer. -/
def partOk (len : Nat) (p : Part) : Bool :=
  decide (p.2 = 0) || (decide (p.1 % 8 = 0) && decide (128 ≤ p.1) && decide (p.1 + p.2 ≤ len - 128))

/-- Whether two parts share no byte. -/
def partsApart (a b : Part) : Bool :=
  decide (a.2 = 0) || decide (b.2 = 0) || decide (a.1 + a.2 ≤ b.1) || decide (b.1 + b.2 ≤ a.1)

/-- Whether no two of a list of parts overlap. -/
def allApart : List Part → Bool
  | [] => true
  | a :: t => t.all (partsApart a) && allApart t

/-- A code directory entry (R148). -/
structure CodeEntry where
  off : Nat
  size : Nat
  entry : Nat
  resv : Nat
  deriving DecidableEq, Repr

/-- The code directory. -/
def codeDir (b : List Byte) : List CodeEntry :=
  let o := field b 0x64 4
  (List.range (field b 0xE 1)).map (fun i =>
    ⟨field b (o + 16 * i) 4, field b (o + 16 * i + 4) 4, field b (o + 16 * i + 8) 4, field b (o + 16 * i + 12) 4⟩)

/-- The pointer map (R149). -/
def ptrMap (b : List Byte) : List PtrEntry :=
  let o := field b 0x60 4
  (List.range (field b 0x36 2)).map (fun i =>
    let a := field b (o + 8 * i + 5) 1
    { pbOff := field b (o + 8 * i) 2, lenOff := field b (o + 8 * i + 2) 2, seg := field b (o + 8 * i + 4) 1
      r := decide (a % 2 = 1), w := decide (a / 2 % 2 = 1) })

/-- The parts of an image. -/
def imageParts (b : List Byte) : List Part :=
  (field b 0x64 4, 16 * field b 0xE 1) :: (field b 0x60 4, 8 * field b 0x36 2) :: (field b 0x58 4, field b 0x34 2) ::
    (codeDir b).map (fun c => (c.off, c.size))

/-- R147: the ranges of the header's fields and its reserved byte. -/
def graphHdrOk (b : List Byte) : Bool :=
  let ncell := field b 0xE 1
  let reps := field b 0xF 1
  let store := field b 0x14 4
  let pb := field b 0x34 2
  let entry := field b 0x20 8
  decide (field b 0xD 1 ≤ 1) && decide (1 ≤ ncell) && decide (ncell ≤ 128) && decide (1 ≤ reps) && decide (reps ≤ 32)
    && decide (ncell * reps ≤ 128) && decide (field b 0x10 1 ≤ 1) && zeroBytes b 0x11 1
    && decide (store % 32768 = 0) && decide (store ≤ 8388608)
    && decide (pb % 8 = 0) && decide (pb ≤ 4096) && decide (field b 0x36 2 ≤ 512) && decide (field b 0x5C 4 + pb ≤ store)
    && (decide (entry ≠ 0) || (decide (field b 0x6A 2 = 0) && decide (field b 0x6C 4 = 0)))

/-- R148: a code directory entry. -/
def CodeEntry.ok (c : CodeEntry) : Bool :=
  decide (c.size % 8 = 0) && decide (8 ≤ c.size) && decide (c.size ≤ 65536) && decide (c.entry % 4 = 0)
    && decide (c.entry < c.size) && decide (c.resv = 0)

/-- R149: the pointer map: each entry's ranges, and no two fields sharing a byte. -/
def ptrMapOk (b : List Byte) : Bool :=
  let o := field b 0x60 4
  let pb := field b 0x34 2
  let ps := ptrMap b
  let raw := (List.range ps.length).all (fun i =>
    let a := field b (o + 8 * i + 5) 1
    decide (1 ≤ a) && decide (a ≤ 3) && zeroBytes b (o + 8 * i + 6) 2)
  raw && ps.all (fun e => decide (e.pbOff % 8 = 0) && decide (e.lenOff % 4 = 0) && decide (e.seg ≤ 15)
      && decide (e.pbOff + 8 ≤ pb) && decide (e.lenOff + 4 ≤ pb))
    && allApart (ps.flatMap (fun e => [(e.pbOff, 8), (e.lenOff, 4)]))

/-- R146: every byte of no part is padding and is zero. -/
def paddingOk (b : List Byte) (len : Nat) (parts : List Part) : Bool :=
  (List.range (len - 256)).all (fun i =>
    let a := 128 + i
    parts.any (fun p => decide (p.1 ≤ a) && decide (a < p.1 + p.2)) || decide (b.getD a 0 = 0))

/-- The header fields the E40 keeps. -/
def graphHdrOf (b : List Byte) : GraphHdr :=
  { be := decide (field b 0xD 1 = 1), ncell := field b 0xE 1, replicas := field b 0xF 1, tiles := field b 0x12 2
    storeBytes := field b 0x14 4, wc := field b 0x18 8, entryCycles := field b 0x20 8, hostRounds := field b 0x28 4
    hostLines := field b 0x2C 4, gatherRounds := field b 0x30 4, pbSize := field b 0x34 2
    sectors := (List.range 8).map (fun k => field b (0x38 + 4 * k) 4), pbAddr := field b 0x5C 4
    entryRounds := field b 0x6A 2, entrySectors := field b 0x6C 4 }

/-! Costs (R155, R156). -/

/-- A quotient rounded up. -/
def ceilDiv (a b : Nat) : Nat := (a + b - 1) / b

/-- cyc(x): cycles at the floor clock in ns. -/
def ParcelCfg.cyc (c : ParcelCfg) (x : Nat) : Nat := ceilDiv (x * 1000) (400 + 40 * c.floorClk)

/-- C_p: the compute phase in ns. -/
def computeNs (d : DevCfg) (c : ParcelCfg) : Nat := d.tickNs - 3000 - 1000 * (c.updWin + d.survey + d.drain)

/-- lat(g). -/
def ParcelCfg.lat (c : ParcelCfg) (g : GraphHdr) : Nat :=
  c.cyc g.wc + g.hostRounds * c.hostLat + g.gatherRounds * 2000

/-- The time that `lines` host lines take over the parcel's ways; 0 for none. -/
def ParcelCfg.hostTime (c : ParcelCfg) (lines : Nat) : Nat :=
  if lines = 0 then 0 else ceilDiv (lines * 64) (6 * c.weltWays)

/-- The time that `n` sectors of stack k take; a stack without a share never delivers them. -/
def ParcelCfg.sectorTime (c : ParcelCfg) (k n : Nat) : Nat :=
  if n = 0 then 0
  else if c.share.getD k 0 = 0 then 2 ^ 64
  else ceilDiv (n * 32) (10 * c.share.getD k 0)

/-- The largest of a term over the eight stacks. -/
def overStacks (f : Nat → Nat) : Nat := (List.range 8).foldl (fun m k => max m (f k)) 0

/-- gat1(g). -/
def ParcelCfg.gat1 (c : ParcelCfg) (g : GraphHdr) : Nat := overStacks (fun k => c.sectorTime k (g.sectors.getD k 0))

/-- ent(g). -/
def ParcelCfg.ent (c : ParcelCfg) (g : GraphHdr) : Nat := c.cyc g.entryCycles + g.entryRounds * max 2000 c.hostLat

/-! Cells (R153, R154). -/

/-- R153: the free cells of a class, ascending. -/
def Parcel.freeCells (x : Parcel) (be : Bool) : List Nat :=
  let held := x.slots.flatMap (fun e => match e.2.state with | .empty | .loading => [] | _ => e.2.cells)
  (List.range 128).filter (fun n =>
    x.cfg.cells.getLsbD n && (x.cfg.rtCells.getLsbD n != be) && !held.contains n)

/-- R158's sum for the first failing load check, or the cells of the graph (R151 steps 7 to 11). -/
def loadBudget (d : DevCfg) (x : Parcel) (b : List Byte) : Except (Nat × Nat) (List Nat) :=
  let c := x.cfg
  let g := graphHdrOf b
  let C := computeNs d c
  let free := x.freeCells g.be
  let host := g.hostRounds * c.hostLat + c.hostTime g.hostLines
  let gat := g.gatherRounds * 2000 + c.gat1 g
  let one := 1200 + c.lat g + c.hostTime g.hostLines + c.gat1 g
  if (field b 0x10 1 == 1) != c.fixedMode then .error (7, 0)
  else if free.length < g.ncell * g.replicas then .error (8, 0)
  else if (g.hostRounds ≠ 0 ∨ g.hostLines ≠ 0) ∧ c.weltWays = 0 then .error (9, 0)
  else if C < host then .error (9, host)
  else if C < gat then .error (10, gat)
  else if C < one then .error (11, one)
  else .ok (free.take (g.ncell * g.replicas))

/-! The order of checks and reads (R151). -/

/-- How a load ends: poisoned (from the host or from the device), refused with its reason and NEED, or placed. -/
inductive LoadEnd where
  | poison (device : Bool)
  | refused (reason need : Nat)
  | loaded (cells : List Nat)
  deriving DecidableEq, Repr

/-- A big-endian field of a trailer as a 384-bit number. -/
def be384 (b : List Byte) (off : Nat) : BitVec 384 := BitVec.ofNat 384 (leNat (((b.drop off).take 48).reverse))

/-- R64, R150: the signature of an image of `len` bytes under the key of a slot. -/
def signatureOk (k : KeySlot) (b : List Byte) (len : Nat) : Bool :=
  let t := b.drop (len - 128)
  Config.ecdsaVerify k.qx k.qy (Config.sha384 (b.take (len - 128))) (be384 t 0x10) (be384 t 0x40)

/-- R63: the trailer's reserved bytes. -/
def trailerResvOk (t : List Byte) : Bool := zeroBytes t 5 11 && zeroBytes t 0x70 16

/-- R151: the load checks in order; `bad lo hi`: whether a byte from lo up to hi reads poisoned; `key`: the key slots. A
KEY_SLOT above 3 gives KEY_UNUSABLE at step 4, and step 6 gives BAD_LENGTH for a part before MALFORMED for a field or a
padding: the spec leaves both open (DESIGN CHOICE, log 101). -/
def loadChecks (d : DevCfg) (x : Parcel) (key : Nat → KeySlot) (b : List Byte) (len : Nat) (device : Bool)
    (bad : Nat → Nat → Bool) : LoadEnd :=
  let t := b.drop (len - 128)
  let ks := field b 0xC 1
  let parts := imageParts b
  if bad 0 128 then .poison device
  else if bad (len - 128) len then .poison device
  else if field b 0 4 ≠ 0x48505247 ∨ field t 0 4 ≠ 0x4E474953 then .refused 1 0
  else if field b 4 2 ≠ 1 ∨ field b 6 2 ≠ 128 ∨ field b 0x68 2 ≠ 1 then .refused 2 0
  else if field b 8 4 ≠ len then .refused 3 0
  else if 3 < ks ∨ (key ks).prog = false ∨ (key ks).revoked ∨ field t 4 1 ≠ ks then .refused 5 0
  else if bad 128 (len - 128) then .poison device
  else if !signatureOk (key ks) b len then .refused 6 0
  else if !parts.all (partOk len) ∨ !allApart parts then .refused 3 0
  else if !graphHdrOk b ∨ !(codeDir b).all CodeEntry.ok ∨ !ptrMapOk b ∨ !paddingOk b len parts ∨ !trailerResvOk t then
    .refused 4 0
  else match loadBudget d x b with
    | .error (r, n) => .refused r n
    | .ok cells => .loaded cells

/-! Queue checks at bind (R157, R158). -/

/-- A bound queue as R158 counts it: its entry, whether it is persistent, its tasks, and its graph. -/
structure BoundQ where
  cfg : QueueCfg
  persistent : Bool
  tasks : Nat
  hdr : GraphHdr
  deriving DecidableEq, Repr

/-- R158: every queue of the parcel that is bound. -/
def Parcel.boundQueues (x : Parcel) : List BoundQ :=
  (List.range 32).filterMap (fun q =>
    let y := x.queue q
    if y.state = .unbound then none
    else (x.qcfg q).map (fun c => ⟨c, y.persistent, y.tasks, (x.gslot y.slot).hdr⟩))

/-- e_j of R158. -/
def BoundQ.e (b : BoundQ) : Nat := if b.persistent then b.tasks else 0

/-- R158: the bandwidth term of a set of queues. -/
def bindBw (c : ParcelCfg) (js : List BoundQ) : Nat :=
  c.hostTime (js.foldl (fun n j => n + (j.cfg.quota + j.e) * j.hdr.hostLines) 0) +
    overStacks (fun k => c.sectorTime k (js.foldl (fun n j =>
      n + j.cfg.quota * j.hdr.sectors.getD k 0 + j.e * j.hdr.entrySectors) 0))

/-- R158: D_j. The sums are of unbounded numbers: the spec takes them in 64 bits and does not say what one past them does
(DESIGN CHOICE, log 102). -/
def bindD (c : ParcelCfg) (js : List BoundQ) (j : BoundQ) : Nat :=
  let fetch := if c.ownerSess then 0 else 500 + 2 * c.hostLat - (3000 + 1000 * c.updWin)
  let bw := bindBw c js
  if j.persistent then fetch + c.ent j.hdr + ceilDiv j.cfg.quota j.tasks * c.lat j.hdr + bw
  else fetch + ceilDiv j.cfg.quota j.hdr.replicas * (1200 + c.lat j.hdr) + bw

/-- R102, R103: L_q of a queue. -/
def bindL (d : DevCfg) (c : ParcelCfg) (js : List BoundQ) (j : BoundQ) : Nat :=
  d.tickNs + 3000 + 1000 * c.updWin + bindD c js j + (if j.cfg.be then j.cfg.carry * d.tickNs else 0)

/-- R157: A: the instances that the bound queues reserve. -/
def reserved (js : List BoundQ) : Nat :=
  js.foldl (fun n j => n + (if j.persistent then j.tasks else if j.cfg.be then 0 else j.cfg.quota)) 0

/-- R157, R158: the first failing bind check: its reason, the queue it names, and NEED; none: the bind passes. `js`: the
bound queues with the new one `n` among them, in ascending QINDEX. -/
def bindCheck (d : DevCfg) (c : ParcelCfg) (js : List BoundQ) (n : BoundQ) : Option (Nat × Nat × Nat) :=
  if n.hdr.be ≠ n.cfg.be then some (12, n.cfg.q, 0)
  else if n.persistent ∧ n.hdr.replicas < n.tasks then some (13, n.cfg.q, 0)
  else if c.instShare < reserved js then some (14, n.cfg.q, 0)
  else (js.find? (fun j => decide (computeNs d c < bindD c js j))).map (fun j => (15, j.cfg.q, bindD c js j))

/-- A bound queue put in its place by QINDEX. -/
def insertBound (n : BoundQ) : List BoundQ → List BoundQ
  | [] => [n]
  | j :: t => if n.cfg.q < j.cfg.q then n :: j :: t else j :: insertBound n t

end Sys2Proof.Machine
end

