-- ==== Sys2Proof/Machine/Orders.lean ====
section
/-! DEFINITION. Orders: their descriptors, the rules under which they are taken, and what each does (R115 to R125, R136,
R142 to R145, R160, R162, R330 to R332, R342, R511 to R513). -/

namespace Sys2Proof.Machine

/-- The orders of R116, R330 and R512, with the fields they use. -/
inductive Order where
  | graphLoad (slot ctx seg off len : Nat)
  | graphUnload (slot : Nat)
  | queueBind (q slot mode count : Nat)
  | queueUnbind (q : Nat)
  | queueTimeout (q ns : Nat)
  | queueRings (q ctx seg count sq cq vec : Nat)
  | queueReset (q : Nat)
  | cancel (q : Nat) (tag : W64)
  | quiesce
  | resume
  | segSet (ctx seg mode count vbase tbase limit : Nat)
  | segClear (ctx seg : Nat)
  | ctxClear (ctx : Nat)
  | segFence (mode base len : Nat)
  | parcelReset (mode : Nat)
  deriving DecidableEq, Repr

/-- The opcode of an order. -/
def Order.opcode : Order → Nat
  | .graphLoad .. => 1 | .graphUnload .. => 2 | .queueBind .. => 3 | .queueUnbind .. => 4 | .queueTimeout .. => 5
  | .queueRings .. => 6 | .queueReset .. => 7 | .cancel .. => 8 | .quiesce => 9 | .resume => 10
  | .segSet .. => 0x10 | .segClear .. => 0x11 | .ctxClear .. => 0x12 | .segFence .. => 0x13 | .parcelReset .. => 0x20

/-- R115, R116, R330: the order of a descriptor, its ORDER_ID apart, and whether every field it does not use is zero;
none for an opcode that names no order. -/
def decodeOrder (d : List Byte) : Option (Order × Bool) :=
  let q := field d 1 1
  let slot := field d 2 1
  let ctx := field d 3 1
  let seg := field d 4 1
  let mode := field d 5 1
  let count := field d 6 2
  let a0 := field d 8 8
  let a1 := field d 0x10 8
  let a2 := field d 0x18 8
  let z (l : List Nat) : Bool := l.all (· == 0) && zeroBytes d 0x20 24
  match field d 0 1 with
  | 1 => some (.graphLoad slot ctx seg a0 a1, z [q, mode, count, a2])
  | 2 => some (.graphUnload slot, z [q, ctx, seg, mode, count, a0, a1, a2])
  | 3 => some (.queueBind q slot mode count, z [ctx, seg, a0, a1, a2])
  | 4 => some (.queueUnbind q, z [slot, ctx, seg, mode, count, a0, a1, a2])
  | 5 => some (.queueTimeout q a0, z [slot, ctx, seg, mode, count, a1, a2])
  | 6 => some (.queueRings q ctx seg count a0 a1 a2, z [slot, mode])
  | 7 => some (.queueReset q, z [slot, ctx, seg, mode, count, a0, a1, a2])
  | 8 => some (.cancel q (BitVec.ofNat 64 a0), z [slot, ctx, seg, mode, count, a1, a2])
  | 9 => some (.quiesce, z [q, slot, ctx, seg, mode, count, a0, a1, a2])
  | 10 => some (.resume, z [q, slot, ctx, seg, mode, count, a0, a1, a2])
  | 0x10 => some (.segSet ctx seg mode count a0 a1 a2, z [q, slot])
  | 0x11 => some (.segClear ctx seg, z [q, slot, mode, count, a0, a1, a2])
  | 0x12 => some (.ctxClear ctx, z [q, slot, seg, mode, count, a0, a1, a2])
  | 0x13 => some (.segFence mode a0 a1, z [q, slot, ctx, seg, count, a2])
  | 0x20 => some (.parcelReset mode, z [q, slot, ctx, seg, count, a0, a1, a2])
  | _ => none

/-- R355: whether a vector field of QUEUE_RINGS is allowed, with `n` vectors in the table. -/
def vectorOk (n a2 : Nat) : Bool :=
  decide (a2 / 2 ^ 17 = 0) && decide (bits a2 11 5 = 0) &&
    (decide (a2 / 2 ^ 16 = 0) || (decide (bits a2 0 11 ≠ 0) && decide (bits a2 0 11 < n)))

/-- R327, R330, R331: the descriptor that the fields of a SEG_SET make. -/
def segDescOf (mode count vbase tbase limit : Nat) : SegDesc :=
  { vbase := vbase, tbase := tbase, limit := limit, target := mode % 4, mirrored := decide (bits mode 2 1 = 1)
    permR := decide (bits mode 3 1 = 1), permW := decide (bits mode 4 1 = 1), stks := count % 256, gran := bits count 8 4 }

/-- R327, R328: the ranges of a descriptor's fields. -/
def SegDesc.rangeOk (d : SegDesc) : Bool :=
  decide (d.vbase % 64 = 0) && decide (d.tbase % 64 = 0) && decide (d.limit % 64 = 0) && decide (64 ≤ d.limit)
    && decide (d.limit ≤ 2 ^ 48) && decide (1 ≤ d.target) && decide (d.target ≤ 3) && (d.permR || d.permW)
    && (if d.target = 2 then decide (1 ≤ d.stks) && decide (d.stks ≤ 255) && decide (d.gran ≤ 10)
        else decide (d.stks = 0) && decide (d.gran = 0))
    && (!d.mirrored || decide (d.target = 1) || decide (d.vbase = d.tbase))

/-- R328, R60: whether a target range lies where its TARGET allows, without wrap. -/
def Parcel.targetOk (x : Parcel) (d : SegDesc) : Bool :=
  decide (d.vbase + d.limit ≤ 2 ^ 64) && decide (d.tbase + d.limit ≤ 2 ^ 64) &&
  (match d.target with
    | 1 => decide (x.cfg.weltWays ≠ 0)
    | 2 => decide (x.cfg.regionBase ≤ d.tbase) && decide (d.tbase + d.limit ≤ x.cfg.logBase)
    | _ => decide (2 ^ 47 ≤ d.tbase) && decide (d.tbase + d.limit ≤ 2 ^ 47 + 128 * 2 ^ 23) &&
        (List.range ((d.tbase + d.limit - 2 ^ 47 + 2 ^ 23 - 1) / 2 ^ 23 - (d.tbase - 2 ^ 47) / 2 ^ 23)).all
          (fun k => x.cfg.cells.getLsbD ((d.tbase - 2 ^ 47) / 2 ^ 23 + k)))

/-- Whether two ranges share a byte. -/
def rangesMeet (a an b bn : Nat) : Bool := decide (a < b + bn) && decide (b < a + an) && decide (0 < an) && decide (0 < bn)

/-- R328: whether a STACK descriptor agrees with every other valid STACK segment it overlaps; `but`: the segment it
replaces. -/
def Parcel.placementOk (x : Parcel) (d : SegDesc) (but : Nat) : Bool :=
  decide (d.target ≠ 2) || x.segs.all (fun e => match e.2 with
    | some o => decide (e.1 = but) || decide (o.target ≠ 2) || !rangesMeet d.tbase d.limit o.tbase o.limit
        || (decide (o.stks = d.stks) && decide (o.gran = d.gran))
    | none => true)

/-- R115, R116, R136, R342, R512: whether a descriptor's fields lie in the ranges of its order (R118 rule 3). -/
def Order.wellFormed (o : Order) : Bool :=
  let q5 (q : Nat) : Bool := decide (q ≤ 31)
  match o with
  | .graphLoad s c g _ _ => decide (s ≤ 63) && decide (c ≤ 15) && decide (g ≤ 15)
  | .graphUnload s => decide (s ≤ 63)
  | .queueBind q s m n => q5 q && decide (s ≤ 63) && ((decide (m = 0) && decide (n = 0)) || (decide (m = 1) && decide (1 ≤ n) && decide (n ≤ 32)))
  | .queueUnbind q | .queueReset q | .cancel q _ => q5 q
  | .queueTimeout q ns => q5 q && (decide (ns = 0) || (decide (1000 ≤ ns) && decide (ns ≤ 2000000)))
  | .queueRings q c g .. => q5 q && decide (c ≤ 15) && decide (g ≤ 15)
  | .segSet c g .. | .segClear c g => decide (c ≤ 15) && decide (g ≤ 15)
  | .ctxClear c => decide (c ≤ 15)
  | .quiesce | .resume => true
  | .segFence m b l =>
    decide (1 ≤ m % 4) && decide (m < 8) && decide (b % 64 = 0) && decide (l % 64 = 0) && decide (l ≠ 0) && decide (b + l ≤ 2 ^ 64)
  | .parcelReset m => decide (m < 4) && decide (m ≠ 2)

/-- R125, R331: the further conditions whose breach is MALFORMED, for an order that R118 lets through. -/
def Order.accepted (o : Order) (x : Parcel) (vectors : Nat) : Bool :=
  match o with
  | .queueRings _ _ _ n _ _ v =>
    !x.cfg.ownerSess && decide (4 ≤ n % 16) && decide (n % 16 ≤ 12) && decide (n % 16 ≤ bits n 4 4)
      && decide (bits n 4 4 ≤ 12) && decide (n < 256) && vectorOk vectors v
  | .segSet c _ m n v t l =>
    decide (c < x.cfg.nctx) && decide (m < 32) && decide (n < 4096) && (segDescOf m n v t l).rangeOk
  | .segClear c _ | .ctxClear c => decide (c < x.cfg.nctx)
  | _ => true

/-- R143: the queue and the slot an order names, and whether it is parcel-wide. -/
def Order.names (o : Order) : Option Nat × Option Nat × Bool :=
  match o with
  | .graphLoad s .. | .graphUnload s => (none, some s, false)
  | .queueBind q s .. => (some q, some s, false)
  | .queueUnbind q | .queueTimeout q _ | .queueRings q .. | .queueReset q | .cancel q _ => (some q, none, false)
  | .quiesce | .resume | .parcelReset _ => (none, none, true)
  | _ => (none, none, false)

/-- R143: whether two orders of one parcel conflict. -/
def OrdMark.meets (a b : OrdMark) : Bool :=
  a.wide || b.wide || (a.queue.isSome && a.queue == b.queue) || (a.slot.isSome && a.slot == b.slot)

/-! Loads and binds refused (R160, R165). -/

/-- A load or bind is refused: its log entry and FE_LDCHK (R160, R165). -/
def State.loadRefused (s : State) (p slot reason need : Nat) (bind : Option Nat) (label : List Byte) : State :=
  let s := s.logP 0x0204 p (fun e => { e with
    aux := BitVec.ofNat 8 reason, arg := BitVec.ofNat 64 slot, cont := some (label ++ List.replicate (16 - label.length) 0) })
  s.modParcel p (fun x => { x with
    ldchk := BitVec.ofNat 32 (reason * 65536 + (match bind with | some q => 32768 + q % 32 * 256 | none => 0) + slot % 64)
    ldchkNeed := BitVec.ofNat 32 (min need 0xFFFFFFFF) })

/-! Graph loads (R119 to R121, R151, R160, R162). -/

/-- Replaces graph slot g of parcel p. -/
def State.modSlot (s : State) (p g : Nat) (f : GraphSlot → GraphSlot) : State :=
  s.modParcel p (fun x => x.setSlot g (f (x.gslot g)))

/-- R119, R151: GRAPH_LOAD is taken: the slot enters LOADING, or the load ends at once. -/
def State.orderLoad (s : State) (p : Nat) (r : OrdRef) (slot ctx seg off len : Nat) : State :=
  let x := s.parcel p
  if (x.gslot slot).state ≠ .empty then s.orderResult p r ccStateChanged scSlotBusy
  else match x.orderWindow ctx seg off len true false [1, 2, 3] with
    | .error c =>
      (s.segFault p 0 0x3FF ctx seg c).orderResult p r ccSegFault (BitVec.ofNat 8 (ctx % 16 * 16 + seg % 16))
    | .ok w =>
      if len < 280 ∨ 16777216 < len ∨ len % 8 ≠ 0 then
        (s.loadRefused p slot 3 0 none []).orderResult p r ccRefusedLoad 3
      else s.modSlot p slot (fun g => { g with state := .loading, window := some w, order := some r })

/-- The bytes of a load's window, and whether bytes of it read poisoned: host bytes as the Welt delivers them (`host`),
stacked memory and stores as they stand. -/
def State.imageBytes (s : State) (p : Nat) (w : Window) (img : HostImage) (host : List Byte × Bool) :
    List Byte × Bool × (Nat → Nat → Bool) :=
  if w.target = 1 then
    (host.1, false, fun lo hi => host.2 || (match img.poison with | some o => decide (lo ≤ o) && decide (o < hi) | none => false))
  else if w.target = 2 then
    let bs := (List.range w.len).map (fun i => s.stackByte p w.stks w.gran (w.base + i))
    (bs.map (·.1), true, fun lo hi => ((bs.drop lo).take (hi - lo)).any (·.2))
  else
    let at' (i : Nat) : Byte × Bool := match storePlace (w.base + i) with
      | some (k, o) => ((s.cell k).storeByte o, (s.cell k).storeBad o 1)
      | none => (0, true)
    let bs := (List.range w.len).map at'
    (bs.map (·.1), true, fun lo hi => ((bs.drop lo).take (hi - lo)).any (·.2))

/-- R119, R154, R221: the graph of an image is placed on cells, their tiles and accumulator zeroed. -/
def State.placeGraph (s : State) (p slot : Nat) (b : List Byte) (cells : List Nat) : State :=
  let g := graphHdrOf b
  let dir := codeDir b
  let s := s.modSlot p slot (fun gs => { gs with
    state := .loaded, hdr := g, ptrs := ptrMap b, pb := (b.drop (field b 0x58 4)).take g.pbSize, cells := cells
    label := (b.drop 0x70).take 16, window := none, order := none })
  let x := s.parcel p
  ((List.range cells.length).zip cells).foldl (fun s e =>
    let i := e.1 % g.ncell
    let c := dir.getD i ⟨0, 0, 0, 0⟩
    let clk := if 760 ≤ s.cellTemp e.2 then x.cfg.floorClk else x.cfg.targetClk
    (s.raiseDie e.2 clk).modCell e.2 (fun cl => { cl with
      tiles := [], acc := [], tilePoison := [], accPoison := []
      parcel := some (Fin.ofNat 16 p), rt := !g.be
      clk := clk
      graph := some { slot := slot, replica := e.1 / g.ncell, index := i, ncell := g.ncell
                      first := cells.getD (e.1 / g.ncell * g.ncell) 0, entry := c.entry, size := c.size
                      storeBytes := g.storeBytes, tileMask := g.tiles, code := (b.drop c.off).take c.size } })) s

/-- A load that ends without a graph leaves its slot EMPTY (R119, R160). -/
def State.emptySlot (s : State) (p slot : Nat) : State := s.modSlot p slot (fun _ => GraphSlot.zero)

/-- R119, R120, R151, R160, R348, R361, R364, R367: the E40 has read an image, a host image through the Welt: its checks
and the end of the load. -/
def State.loadComplete (s : State) (p slot : Nat) (img : HostImage) : State :=
  let x := s.parcel p
  let g := x.gslot slot
  match g.state, g.window, g.order with
  | .loading, some w, some r =>
    let host := if w.target = 1 then (s.noteTook p img.took).weltRead p w.base w.len img.bytes false else (([], false), s)
    let s := host.2
    let (b, device, bad) := s.imageBytes p w img host.1
    let x := { x with cfg := { x.cfg with cells := x.cfg.cells &&& ~~~s.we.fences } }
    match loadChecks s.img.cfg x (fun k => spGet {} s.mg.slots k) b w.len device bad with
    | .poison dev =>
      let s := if dev || host.1.2 then s else s.notePoison p (w.base + img.poison.getD 0)
      (s.emptySlot p slot).orderResult p r ccHostPoison (if dev then 2 else 1)
    | .refused reason need =>
      (((s.emptySlot p slot).loadRefused p slot reason need none ((b.drop 0x70).take 16))).orderResult p r ccRefusedLoad
        (BitVec.ofNat 8 reason)
    | .loaded cells => (s.placeGraph p slot b cells).orderResult p r ccOK 0
  | _, _, _ => s

/-- R121, R162: the cells of a slot hold no graph any more. -/
def State.freeCells (s : State) (p slot : Nat) : State :=
  ((s.parcel p).gslot slot).cells.foldl (fun s n =>
    (s.modCell n (fun c => { c with graph := none, inst := none, clk := 0 })).fallDie (n / 32)) s

/-- R121: the store areas of a slot's cells hold undefined contents for the next graph. -/
def State.unsettleStores (s : State) (p slot : Nat) : State :=
  let g := (s.parcel p).gslot slot
  if g.hdr.storeBytes = 0 then s
  else
    let m := s.fresh
    let s := g.cells.foldl (fun s n => s.modCell n (fun c => { c with storeFree := [(0, g.hdr.storeBytes, m)] ++ settleRange c.storeFree 0 g.hdr.storeBytes })) s
    s.useFresh

/-- Whether a queue holds a slot (R121, R123). -/
def Parcel.slotHeld (x : Parcel) (slot : Nat) : Bool :=
  x.queues.any (fun e => decide (e.2.state ≠ .unbound) && decide (e.2.slot = slot))

/-- R121: GRAPH_UNLOAD is taken. -/
def State.orderUnload (s : State) (p : Nat) (r : OrdRef) (slot : Nat) : State :=
  let x := s.parcel p
  if x.slotHeld slot then s.orderResult p r ccStateChanged scGraphBound
  else match (x.gslot slot).state with
    | .empty => s.orderResult p r ccOK 0
    | .loading | .unloading => s.orderResult p r ccStateChanged scSlotBusy
    | .loaded => s.modSlot p slot (fun g => { g with state := .unloading, order := some r })

/-- R121: an unload ends. -/
def State.unloadComplete (s : State) (p slot : Nat) : State :=
  let g := (s.parcel p).gslot slot
  match g.state, g.order with
  | .unloading, some r => (((s.unsettleStores p slot).freeCells p slot).emptySlot p slot).orderResult p r ccOK 0
  | _, _ => s

/-! Binding (R122 to R124, R157 to R160). -/

/-- R123, R157, R159: QUEUE_BIND is taken. R123 names SLOT_BUSY and NOT_BOUND without saying which is which: NOT_BOUND for a
queue that is not UNBOUND, SLOT_BUSY for the slot (DESIGN CHOICE, log 95). The verdict rests on the static sum of R157; tasks
above the share take their instances later (log 88). FE_QLAT of q is new at once, that of the other queues from the boundary
that first serves q (R159). -/
def State.orderBind (s : State) (p : Fin 16) (r : OrdRef) (q slot mode count : Nat) : State :=
  let x := s.parcel p
  let g := x.gslot slot
  match x.qcfg q with
  | none => s.orderResult p r ccStateChanged scNotFound
  | some c =>
    if (x.queue q).state ≠ .unbound then s.orderResult p r ccStateChanged scNotBound
    else if g.state ≠ .loaded ∨ x.slotHeld slot then s.orderResult p r ccStateChanged scSlotBusy
    else
      let n : BoundQ := ⟨c, decide (mode = 1), count, g.hdr⟩
      let js := insertBound n x.boundQueues
      match bindCheck s.img.cfg x.cfg js n with
      | some (reason, j, need) =>
        (s.loadRefused p slot reason need (some j) g.label).orderResult p r ccRefusedLoad (BitVec.ofNat 8 reason)
      | none =>
        let s := js.foldl (fun s j => s.modQueue p j.cfg.q (fun y =>
          let l := bindL s.img.cfg x.cfg js j
          if j.cfg.q = q then { y with lq := l, lqNext := none } else { y with lqNext := some l })) s
        let s := s.modQueue p q (fun y => { y with
          state := if mode = 1 then .persistent else .launched, persistent := decide (mode = 1)
          tasks := if mode = 1 then count else 0, slot := slot, count := 0
          unseated := if mode = 1 then List.range count else []
          waiting := y.waiting.map (fun r => { r with unbound := true }) })
        (s.seatTasks p).orderResult p r ccOK 0

/-- Whether a task waits for a request, or has not started (R124). -/
def State.taskIdle (s : State) (x : Inst) : Bool :=
  x.req.isNone && !x.running && (x.entry || s.allAtWaitq x)

/-- R124: QUEUE_UNBIND is taken; of a queue that is not bound it ends with NOT_BOUND, for which the spec gives no result
(DESIGN CHOICE, log 94). -/
def State.orderUnbind (s : State) (p : Nat) (r : OrdRef) (q : Nat) : State :=
  let x := s.parcel p
  match x.qcfg q with
  | none => s.orderResult p r ccStateChanged scNotFound
  | some _ =>
    match (x.queue q).state with
    | .launched | .persistent =>
      let s := s.modQueue p q (fun y => { y with
        state := .unbinding, unbind := some r, unseated := [], waiting := y.waiting.map (fun r => { r with unbound := true }) })
      (s.instsOf p).foldl (fun s e =>
        if e.2.q ≠ q ∨ e.2.launched then s
        else if s.taskIdle e.2 then s.removeTask e.1 e.2
        else s.modInst e.1 (fun i => { i with removing := true })) s
    | _ => s.orderResult p r ccStateChanged scNotBound

/-- R159: the queues that stay bound get new bounds at the next boundary. -/
def State.rebound (s : State) (p : Nat) : State :=
  let x := s.parcel p
  let js := x.boundQueues
  js.foldl (fun s j => s.modQueue p j.cfg.q (fun y => { y with lqNext := some (bindL s.img.cfg x.cfg js j) })) s

/-- A queue's binding ends. -/
def Queue.unbound (q : Queue) : Queue :=
  { q with state := .unbound, persistent := false, tasks := 0, slot := 0, lq := 0, lqNext := none, unbind := none
           unseated := [] }

/-- R124, R159: an UNBINDING queue whose last instance has gone is UNBOUND. -/
def State.unbindComplete (s : State) (p q : Nat) : State :=
  let y := s.queue p q
  if y.state ≠ .unbinding ∨ (s.instsOf p).any (fun e => decide (e.2.q = q)) ∨ !y.ready.isEmpty
      ∨ y.records.any (·.holdsShare) then s
  else
    let s := (s.modQueue p q Queue.unbound).rebound p
    match y.unbind with
    | some r => s.orderResult p r ccOK 0
    | none => s

/-! Queue settings (R125, R136, R142, R511). -/

/-- R125: QUEUE_RINGS is taken. -/
def State.orderRings (s : State) (p : Nat) (r : OrdRef) (q ctx seg count sq cq vec : Nat) : State :=
  let x := s.parcel p
  let fault (c : SgCause) : State :=
    (s.segFault p 0 0x3FF ctx seg c).orderResult p r ccSegFault (BitVec.ofNat 8 (ctx % 16 * 16 + seg % 16))
  let sl := count % 16
  let cl := bits count 4 4
  match x.qcfg q with
  | none => s.orderResult p r ccStateChanged scNotFound
  | some _ =>
    if (x.queue q).state ≠ .unbound then s.orderResult p r ccStateChanged scConflict
    else match x.orderWindow ctx seg sq (64 * 2 ^ sl) true false [1] with
      | .error c => fault c
      | .ok w1 => match x.orderWindow ctx seg cq (32 * 2 ^ cl) false true [1] with
        | .error c => fault c
        | .ok w2 =>
          (s.modQueue p q (fun y => { y with
            rings := some { sqBase := w1.base, sqLog := sl, cqBase := w2.base, cqLog := cl
                            vector := if vec / 65536 % 2 = 1 then some (vec % 2048) else none }
            sqTail := 0, sqUsed := 0, cqHead := 0, cqTail := 0 })).orderResult p r ccOK 0

/-- Every waiting and ready request of a queue ends. -/
def State.flushQueue (s : State) (p q : Nat) (code detail : Byte) : State :=
  let y := s.queue p q
  (y.ready ++ y.waiting).foldl (fun s r => s.refuse p q r code detail)
    (s.modQueue p q (fun y => { y with ready := [], waiting := [] }))

/-- Every instance of a queue is aborted: launched ones end, tasks restart or are removed. -/
def State.abortQueue (s : State) (p q : Nat) (code detail : Byte) : State :=
  let mine := (s.instsOf p).filter (fun e => decide (e.2.q = q))
  (mine.filter (fun e => !e.2.running) ++ mine.filter (fun e => e.2.running)).foldl (fun s e => s.abortInst e.1 code detail) s

/-- R511: QUEUE_RESET is taken. -/
def State.orderReset (s : State) (p : Nat) (r : OrdRef) (q : Nat) : State :=
  match (s.parcel p).qcfg q with
  | none => s.orderResult p r ccStateChanged scNotFound
  | some _ =>
    let s := if (s.queue p q).state = .unbound then s else (s.flushQueue p q ccAborted 1).abortQueue p q ccAborted 1
    (s.logP 0x0D01 p (fun e => { e with aux := 4 })).orderResult p r ccOK 0

/-- R142: CANCEL is taken: what is read ends at once; the order goes on until every doorbell request stamped before it is
read, and those that carry the TAG end there. -/
def State.orderCancel (s : State) (p : Nat) (r : OrdRef) (q : Nat) (tag : W64) : State :=
  match (s.parcel p).qcfg q with
  | none => s.orderResult p r ccStateChanged scNotFound
  | some _ =>
    let y := s.queue p q
    let hit (r : Request) : Bool := r.ready && decide (r.tag = tag)
    let gone := (y.ready ++ y.waiting).filter hit
    let insts := (s.instsOf p).filter (fun e => decide (e.2.q = q) && (match e.2.req with | some r => hit r | none => false))
    let s := gone.foldl (fun s r => s.refuse p q r ccAborted 0) (s.modQueue p q (fun y => { y with
      ready := y.ready.filter (fun r => !hit r), waiting := y.waiting.filter (fun r => !hit r) }))
    let s := insts.foldl (fun s e => s.abortInst e.1 ccAborted 0) s
    s.awaitReads p { ref := r, cancel := some (q, tag), found := !(gone.isEmpty && insts.isEmpty)
                     left := (s.unreadAll p).filter (fun e => decide (e.1 = q)) }

/-! QUIESCE and RESUME (R75, R76). -/

/-- R75: QUIESCE. -/
def State.orderQuiesce (s : State) (p : Nat) (r : OrdRef) : State :=
  let s := s.modParcel p (fun x =>
    if x.state = .active then { x with state := .draining, drained := false } else { x with noEffect := true })
  s.orderResult p r ccOK 0

/-- R75: RESUME. -/
def State.orderResume (s : State) (p : Nat) (r : OrdRef) : State :=
  let s := s.modParcel p (fun x =>
    if x.state = .quiet then { x with state := .active } else { x with noEffect := true })
  let s := if (s.parcel p).state = .active then
      (s.instsOf p).foldl (fun s e => if e.2.released then s.modInst e.1 (fun x => { x with released := false }) else s) s
    else s
  s.orderResult p r ccOK 0

/-- R76: whether a DRAINING parcel has nothing in flight. -/
def State.isQuiet (s : State) (p : Nat) : Bool :=
  let x := s.parcel p
  decide (x.state = .draining) && x.drained && x.resetting.isEmpty
    && (s.instsOf p).all (fun e => !e.2.launched && !e.2.running && e.2.req.isNone)
    && x.queues.all (fun e => e.2.ready.isEmpty)

/-! Segments (R330 to R332, R342). -/

/-- R332: a segment order takes effect; its result waits for the translations of the requests stamped before it. -/
def State.segDone (s : State) (p : Nat) (r : OrdRef) : State :=
  s.awaitReads p { ref := r, cancel := none, found := true, left := s.unreadAll p }

/-- R331, R332: SEG_SET is taken. -/
def State.orderSegSet (s : State) (p : Nat) (r : OrdRef) (ctx seg : Nat) (d : SegDesc) : State :=
  let x := s.parcel p
  if !x.targetOk d then
    (s.segFault p 0 0x3FF ctx seg .range).orderResult p r ccSegFault (BitVec.ofNat 8 (ctx % 16 * 16 + seg % 16))
  else if !x.placementOk d (ctx * 16 + seg) then s.orderResult p r ccStateChanged scConflict
  else
    let s := if d.target = 2 then s.placeAnew p d.tbase (d.tbase + d.limit) d.stks d.gran else s
    (s.modParcel p (fun x => { x with segs := spPut none (some d) (ctx * 16 + seg) x.segs })).segDone p r

/-- R330, R332: segments of a parcel become invalid. -/
def State.orderSegClear (s : State) (p : Nat) (r : OrdRef) (gone : Nat → Bool) : State :=
  (s.modParcel p (fun x => { x with segs := spKeep (fun k => !gone k) x.segs })).segDone p r

/-- The windows that stand in a parcel: those of requests, admitted or not, of unwritten records and of loads (R340). -/
def State.windowsOf (s : State) (p : Nat) : List Window :=
  let x := s.parcel p
  (s.instsOf p).flatMap (fun e => match e.2.req with | some r => r.windows | none => []) ++
    x.queues.flatMap (fun e => (e.2.waiting ++ e.2.ready).flatMap (·.windows) ++ e.2.records.flatMap (·.windows)) ++
    x.slots.filterMap (fun e => e.2.window)

/-- R342: whether something that no fence may cover shares a byte with the range. -/
def Parcel.fenceConflict (x : Parcel) (kind base len : Nat) : Bool :=
  x.segs.any (fun e => match e.2 with
    | some d => decide (d.target = kind) && rangesMeet base len d.tbase d.limit
    | none => false)
  || x.queues.any (fun e => e.2.ringWindows.any (fun w => w.meets kind base len))
  || (decide (kind = 2) && (x.tables.any (fun e => match e.2 with
        | some t => rangesMeet base len t.base t.bytes
        | none => false)
      || rangesMeet base len x.cfg.logBase (x.cfg.ulog * 2 ^ 26)))

/-- R342: SEG_FENCE is taken; with PURGE, the requests that hold a window on the range end, and their windows with them, as
those of records not yet written do: the bound of R342 leaves no time for the CQ (DEDUCED, log 96). -/
def State.orderFence (s : State) (p : Nat) (r : OrdRef) (mode base len : Nat) : State :=
  let kind := mode % 4
  if (s.parcel p).fenceConflict kind base len then s.orderResult p r ccStateChanged scConflict
  else
    let hit (r : Request) : Bool := r.windows.any (fun w => w.meets kind base len)
    let s :=
      if mode / 4 % 2 = 0 then s
      else
        let s := (s.parcel p).queues.foldl (fun s e =>
          ((e.2.ready ++ e.2.waiting).filter hit).foldl (fun s r => s.refuse p e.1 r ccAborted 0)
            (s.modQueue p e.1 (fun y => { y with
              ready := y.ready.filter (fun r => !hit r), waiting := y.waiting.filter (fun r => !hit r) }))) s
        (s.instsOf p).foldl (fun s e => match e.2.req with
          | some q => if hit q then (s.modInst e.1 (fun x => { x with req := some { q with windows := [] } })).abortInst e.1 ccAborted 0
            else s
          | none => s) (s.modParcel p (fun x => { x with queues := (List.range 32).foldl (fun m k => spMod Queue.zero m k (fun y =>
              { y with records := y.records.map (fun r =>
                if r.windows.any (fun w => w.meets kind base len) then { r with windows := [] } else r) })) x.queues }))
    s.modParcel p (fun x => { x with fences := x.fences ++ [{ ref := r, target := kind, base := base, len := len }] })

/-- R342: the first fence that no window holds up any more completes. -/
def State.fenceComplete (s : State) (p : Nat) : State :=
  let ws := s.windowsOf p
  match (s.parcel p).fences.find? (fun f => !ws.any (fun w => w.meets f.target f.base f.len)) with
  | some f => (s.modParcel p (fun x => { x with fences := x.fences.erase f })).orderResult p f.ref ccOK 0
  | none => s

/-! Parcel reset (R145, R162, R512, R513). -/

/-- Every request and instance of a parcel ends; tasks are removed. -/
def State.abortParcel (s : State) (p : Nat) (code detail : Byte) : State :=
  let s := (List.range 32).foldl (fun s q => s.flushQueue p q code detail)
    (s.modParcel p (fun x => { x with inCompute := false }))
  (s.instsOf p).foldl (fun s e => (s.modInst e.1 (fun x => { x with removing := true })).abortInst e.1 code detail) s

/-- R162: loads in progress end with CONFLICT. -/
def State.endLoads (s : State) (p : Nat) : State :=
  (s.parcel p).slots.foldl (fun s e => match e.2.state, e.2.order with
    | .loading, some r => (s.emptySlot p e.1).orderResult p r ccStateChanged scConflict
    | _, _ => s) s

/-- R512: the records of a parcel's log are discarded, with a PARCEL_RESET report each. -/
def State.discardLog (s : State) (p : Nat) : State :=
  let log := (s.parcel p).log
  let s := s.modParcel p (fun x => { x with log := [] })
  let s := log.foldl (fun s r => match r.sess with
    | some e => s.settleUpd e (some (updReport r.uid 0 s.datum ccParcelReset.toNat 0 0 0))
    | none => s) s
  s.grantCredit p

/-- R513: a parcel reset is taken. -/
def State.parcelReset (s : State) (p : Nat) (r : Option OrdRef) (mode : Nat) : State :=
  let s := (s.abortParcel p ccParcelReset 0).endLoads p
  let s := if mode % 2 = 1 then s.discardLog p else s
  let s := if mode / 2 % 2 = 1 then s.modParcel p (fun x => { x with tables := [] }) else s
  let s := (s.endWindow p).modParcel p (fun x => { x with resetting := x.resetting ++ [r] })
  s.logP 0x0D01 p (fun e => { e with aux := 3 })

/-- R142, R332: the orders of a parcel that wait for descriptors end. -/
def State.endWaits (s : State) (p : Nat) : State :=
  (s.parcel p).waits.foldl (fun s w => s.endWait p w) (s.modParcel p (fun x => { x with waits := [] }))

/-- R513: records that have room are written; the others are counted in WL_LOST.DROPPED, and the rings go. `n`: the
records to try. -/
def State.dropRings (s : State) (p q : Nat) : State :=
  let n := (s.queue p q).records.length
  let s := (List.range n).foldl (fun s _ => s.writeRecord p q) s
  let left := (s.queue p q).records.length
  (s.modQueue p q (fun y => { y with records := [], rings := none, sqUsed := 0, recAsked := false })).modHost
    (fun h => { h with lostRecs := satAdd32 h.lostRecs left })

/-- R346, R513: the default segments of the image in force. -/
def defaultSegs (c : ParcelCfg) : Sparse (Option SegDesc) :=
  c.segs.foldl (fun m e => spPut none (some e.2) (e.1.1 * 16 + e.1.2) m) []

/-- R513: what a cell's cs registers become. -/
def Cell.clearCs (c : Cell) : Cell :=
  { c with status := 0, qh := 0, faultPc := 0, faultCause := 0, rsmpc := 0, rsmcnt := 0, rsmsrc := 0, rsmdst := 0, rng := 0
           tuse := 0, tsat := 0, acct := false, cagv := false, arr := c.defarr }

/-- The queues, graphs and segments of a parcel go back to those of its configuration; orders that waited for them end. -/
def State.clearParcel (s : State) (p : Nat) : State :=
  let s := (List.range 32).foldl (fun s q =>
    let y := s.queue p q
    let s := (s.dropRings p q).modQueue p q (fun y => { y.unbound with timeout := 0 })
    match y.unbind with
    | some r => s.orderResult p r ccOK 0
    | none => s) s
  let s := (s.parcel p).slots.foldl (fun s e =>
    let s := (s.freeCells p e.1).emptySlot p e.1
    match e.2.state, e.2.order with
    | .unloading, some r => s.orderResult p r ccOK 0
    | _, _ => s) s
  ((s.endWaits p).modParcel p (fun x => { x with segs := defaultSegs x.cfg })).placeSegs p 0 (2 ^ 48)

/-- R513: a parcel reset completes. -/
def State.resetComplete (s : State) (p : Nat) : State :=
  match (s.parcel p).resetting with
  | [] => s
  | r :: t =>
    let s := s.clearParcel p
    let s := (List.range 128).foldl (fun s n =>
      if (s.parcel p).cfg.cells.getLsbD n then s.modCell n Cell.clearCs else s) s
    let s := s.modParcel p (fun x => { x with
      resetting := t, state := if x.state = .draining then .quiet else x.state, drained := false })
    match r with
    | some r => s.orderResult p r ccOK 0
    | none => s

/-! Taking an order (R118, R143). -/

/-- The parcel an order concerns: the one named by the management instance, owned by the function, or listing the
session. -/
def State.orderParcel (s : State) (o : Source) : Option (Fin 16) :=
  match o with
  | .mgmt p => if (s.parcel p).state = .absent then none else some p
  | .fn f => (List.finRange 16).find? (fun p => (s.parcel p).ownedBy f)
  | .sess n => (s.sessCfg n).map (fun e => Fin.ofNat 16 e.1)

/-- Whether the giver owns the parcel (R39). -/
def Parcel.isOwner (x : Parcel) (o : Source) : Bool :=
  match o with
  | .mgmt _ => false
  | .fn f => x.ownedBy f
  | .sess n => decide (x.ownerSess = some n.val)

/-- R118 rule 2: the orders that the management owner may give. -/
def Order.mgmtMay : Order → Bool
  | .quiesce | .resume | .parcelReset _ => true
  | _ => false

/-- R118 rule 4: the orders that a DRAINING parcel takes. -/
def Order.whileDraining : Order → Bool
  | .cancel .. | .queueReset _ | .quiesce | .parcelReset _ => true
  | _ => false

/-- The effect of an order that is taken. -/
def State.giveOrder (s : State) (p : Fin 16) (r : OrdRef) (o : Order) : State :=
  match o with
  | .graphLoad slot ctx seg off len => s.orderLoad p r slot ctx seg off len
  | .graphUnload slot => s.orderUnload p r slot
  | .queueBind q slot mode count => s.orderBind p r q slot mode count
  | .queueUnbind q => s.orderUnbind p r q
  | .queueTimeout q ns => match (s.parcel p).qcfg q with
    | none => s.orderResult p r ccStateChanged scNotFound
    | some _ => (s.modQueue p q (fun y => { y with timeout := ns })).orderResult p r ccOK 0
  | .queueRings q ctx seg count sq cq vec => s.orderRings p r q ctx seg count sq cq vec
  | .queueReset q => s.orderReset p r q
  | .cancel q tag => s.orderCancel p r q tag
  | .quiesce => s.orderQuiesce p r
  | .resume => s.orderResume p r
  | .segSet ctx seg mode count vbase tbase limit => s.orderSegSet p r ctx seg (segDescOf mode count vbase tbase limit)
  | .segClear ctx seg => s.orderSegClear p r (fun k => decide (k = ctx * 16 + seg))
  | .ctxClear ctx => s.orderSegClear p r (fun k => decide (k / 16 = ctx))
  | .segFence mode base len => s.orderFence p r mode base len
  | .parcelReset mode => s.parcelReset p (some r) mode

/-- R118 rule 4, R82, R513: whether the parcel's state turns away a well-formed order. R82 names neither CANCEL, SEG_FENCE
nor the parcel reset, and no DETAIL: in BUILDING every order ends with NOT_ACTIVE (DESIGN CHOICE, log 97). -/
def Parcel.orderBlocked (x : Parcel) (o : Order) (mgmt : Bool) : Bool :=
  decide (x.state = .building)
    || (!x.resetting.isEmpty && !(mgmt && decide (o.opcode = 0x20)))
    || (decide (x.state = .draining) && !o.whileDraining)

/-- R113, R114: whether an order of ingress g may come in the cycle of the order before it: after orders of lower ingresses
alone, and before every request. -/
def CycleSt.takes (c : CycleSt) (g : Nat) : Bool := c.reqIngs.isEmpty && c.ings.all (fun i => decide (i < g))

/-- R75: whether an order is a QUIESCE or a RESUME that meets a state it cannot act in. -/
def Order.noEffect (o : Order) (x : Parcel) : Bool :=
  (decide (o.opcode = 9) && decide (x.state ≠ .active)) || (decide (o.opcode = 10) && decide (x.state ≠ .quiet))

/-- R118, R143: an order reaches the front end; `o`: what its descriptor spells, with whether every field it
does not use is zero, none for an opcode that names no order; `same`: it is evaluated in the hub-die cycle of the order before it. -/
def State.takeOrder (s : State) (src : Source) (id : W64) (inc : Nat) (o : Option (Order × Bool)) (same : Bool) : State :=
  let r : OrdRef := { src := src, id := id, inc := inc }
  let mgmt := match src with | .mgmt _ => true | _ => false
  let g := s.srcIngress src
  let cyc := if same && s.cyc.takes g then s.cyc else {}
  let s := { s with cyc := { cyc with ings := cyc.ings ++ [g] } }
  match s.orderParcel src with
  | none => s.orderResult 0xFF r (if s.dev = .retired then ccRetired else ccStateChanged) (if s.dev = .retired then 0 else scNotOwner)
  | some p =>
    let x := s.parcel p
    if s.dev = .retired then s.orderResult p r ccRetired 0
    else if !(x.isOwner src || (mgmt && (match o with | some o => o.1.mgmtMay | none => false))) then
      s.orderResult p r ccStateChanged scNotOwner
    else match o with
      | none => s.orderResult p r ccAborted abMalformed
      | some (o, clean) =>
        if !clean || !o.wellFormed then s.orderResult p r ccAborted abMalformed
        else
          let (q, slot, wide) := o.names
          let m : OrdMark := { parcel := p, op := o.opcode, queue := q, slot := slot, wide := wide }
          let s := if o.noEffect x then s.modParcel p (fun x => { x with noEffect := true }) else s
          match s.cyc.orders.find? (fun e => decide (e.parcel = p.val) && e.meets m) with
          | some e =>
            if e.op = m.op ∧ e.queue = m.queue ∧ e.slot = m.slot then s.orderResult p r ccSuperseded 0
            else s.orderResult p r ccStateChanged scConflict
          | none =>
            if x.orderBlocked o mgmt then s.orderResult p r ccStateChanged scNotActive
            else
              let s := { s with cyc := { s.cyc with orders := s.cyc.orders ++ [m] } }
              if o.accepted x s.vectors then s.giveOrder p r o else s.orderResult p r ccAborted abMalformed

end Sys2Proof.Machine
end

