-- ==== Sys2Proof/Machine/Images.lean ====
section
/-! DEFINITION. The Last image: its layout and checks (R47 to R67), how it is pushed (R71 to R74) and applied (R76 to R83),
and the close of a session (R425, R426). -/

namespace Sys2Proof.Machine

/-! The close of a session (R425, R426). -/

/-- R426: an OPEN session closes with a code: its CLOSE is sent except for codes 0 and 5, its buffered messages are
released, and its waiting and carried requests end with ABORTED. An order in progress goes on, and occupies its ingress
until its result is discarded (R117), except where a build ends it. -/
def State.closeSession (s : State) (n : Nat) (code : Nat) : State :=
  let v := s.vg n
  if !v.isOpen then s
  else
    let reach := match s.sessCfg n with | some (_, c) => (s.hopMac c.subport c.peerAddr).isSome | none => false
    let s := if code = 0 ∨ code = 5 ∨ !reach then s else s.vgUnreliable n 3 (leBytes 1 code ++ List.replicate 7 0)
    let s := s.modVg n (fun v => { v with
      isOpen := false, close := BitVec.ofNat 8 code, disc := satAdd32 v.disc v.unacked.length
      unacked := [], held := [], ctl := [], ctlBusy := v.ctlBusy && decide (code ≠ 2), upd := [], ackDue := false })
    let s : State := { s with net := { s.net with ctlOrder := s.net.ctlOrder.filter (fun k => decide (k ≠ n)) } }
    let s := s.trace 7 2 ((s.sessCfg n).map (·.1)) none n code 0
    let p := match s.sessCfg n with | some (p, _) => p | none => 16
    let mine (r : Request) : Bool := match r.src with | .sess m _ _ _ => decide (m.val = n) | _ => false
    let s := (s.parcel p).queues.foldl (fun s e =>
      (e.2.waiting.filter mine).foldl (fun s r => s.refuse p e.1 r ccAborted 0)
        (s.modQueue p e.1 (fun y => { y with waiting := y.waiting.filter (fun r => !mine r) }))) s
    let s := s.modVg n (fun w => { w with disc := satAdd32 v.disc v.unacked.length })
    if p < 16 then s.grantCredit p else s

/-! The image's layout (R47, R48). -/

/-- A directory entry. -/
structure DirEntry where
  type : Nat
  inst : Nat
  off : Nat
  size : Nat
  deriving DecidableEq, Repr

/-- The section directory. -/
def imageDir (b : List Byte) : List DirEntry :=
  (List.range (field b 0xC 2)).map (fun i =>
    ⟨field b (64 + 16 * i) 2, field b (66 + 16 * i) 2, field b (68 + 16 * i) 4, field b (72 + 16 * i) 4⟩)

/-- The bytes of a section; none where the image lacks it. -/
def imageSect (b : List Byte) (type inst : Nat) : Option (List Byte) :=
  ((imageDir b).find? (fun e => decide (e.type = type) && decide (e.inst = inst))).map (fun e => (b.drop e.off).take e.size)

/-- Entries of `w` bytes. -/
def entriesOf (w : Nat) (b : List Byte) : List (List Byte) := (List.range (b.length / w)).map (fun i => (b.drop (w * i)).take w)

/-- R48: whether a section's SIZE is one its type defines. -/
def sectSizeOk (b : List Byte) (e : DirEntry) : Bool :=
  match e.type with
  | 1 | 2 => decide (e.size = 16)
  | 3 => decide (e.size = 576)
  | 0x10 => decide (e.size = 64)
  | 0x11 => decide (e.size % 16 = 0)
  | 0x12 => decide (8 ≤ e.size) && decide (e.size = 8 + 40 * field b (e.off + 2) 2)
  | 0x13 => decide (e.size % 32 = 0)
  | 0x14 => decide (e.size = 40)
  | _ => false

/-- R47: the reserved fields of a section. -/
def sectResvOk (type : Nat) (b : List Byte) : Bool :=
  match type with
  | 1 => zeroBytes b 5 1 && zeroBytes b 0xC 4
  | 2 => decide (field b 2 1 < 2) && zeroBytes b 5 11
  | 3 => (entriesOf 16 (b.take 64)).all (fun e => zeroBytes e 3 1 && zeroBytes e 0xA 6)
      && (entriesOf 32 (b.drop 64)).all (fun e => decide (field e 0x14 1 < 2) && zeroBytes e 0x15 11)
  | 0x10 => zeroBytes b 0x2D 3 && zeroBytes b 0x3C 4
  | 0x11 => (entriesOf 16 b).all (fun e => zeroBytes e 6 10)
  | 0x12 => zeroBytes b 1 1 && zeroBytes b 4 4 && (entriesOf 40 (b.drop 8)).all (fun e =>
      zeroBytes e 2 6 && decide (field e 0x21 1 < 4) && zeroBytes e 0x25 3)
  | 0x13 => (entriesOf 32 b).all (fun e => zeroBytes e 3 1 && zeroBytes e 0x18 8)
  | 0x14 => zeroBytes b 2 6
  | _ => true

/-! The contents (R49 to R62). -/

/-- R54: a port entry. -/
def portOf (e : List Byte) : PortCfg :=
  { mode := field e 0 1, macsec := decide (field e 1 1 = 1), ptp := decide (field e 2 1 = 1)
    mac := BitVec.ofNat 48 (beNat ((e.drop 4).take 6)) }

/-- A sub-port entry. -/
def subOf (e : List Byte) : SubCfg :=
  { v6 := BitVec.ofNat 128 (beNat (e.take 16)), v4 := BitVec.ofNat 32 (beNat ((e.drop 16).take 4))
    enabled := decide (field e 0x14 1 % 2 = 1) }

/-- The device sections of a whole-device image. -/
def devOf (b : List Byte) : DevCfg :=
  let d := (imageSect b 1 0).getD []
  let t := (imageSect b 2 0).getD []
  let p := (imageSect b 3 0).getD []
  { card := decide (field d 0 1 = 0), immersion := decide (field d 1 1 = 1), nfunc := field d 2 1, nparcel := field d 3 1
    mgmtEid := BitVec.ofNat 8 (field d 4 1), sysBase := field d 6 2, sysUnits := field d 8 2
    vgPort := BitVec.ofNat 16 (field d 0xA 2)
    period := field t 0 2, align := decide (field t 2 1 % 2 = 1), survey := field t 3 1, drain := field t 4 1
    ports := (entriesOf 16 (p.take 64)).map portOf, subs := (entriesOf 32 (p.drop 64)).map subOf }

/-- R327: a default segment's descriptor. -/
def segOf (d : List Byte) : SegDesc :=
  { vbase := field d 0 8, tbase := field d 8 8, limit := field d 0x10 8, target := field d 0x18 1
    permR := decide (field d 0x19 1 % 2 = 1), permW := decide (field d 0x19 1 / 2 % 2 = 1)
    mirrored := decide (field d 0x1A 1 = 1), stks := field d 0x1B 1, gran := field d 0x1C 1 }

/-- A session entry. -/
def sessOf (e : List Byte) : SessCfg :=
  { session := field e 0 1, subport := field e 1 1, enc := decide (field e 2 1 = 1), key := field e 4 2
    peerPort := field e 6 2, peerAddr := BitVec.ofNat 128 (beNat ((e.drop 8).take 16)) }

/-- The sections of parcel p. -/
def parcelOf (b : List Byte) (p : Nat) : ParcelCfg :=
  let x := (imageSect b 0x10 p).getD []
  let c := (imageSect b 0x12 p).getD []
  let t := (imageSect b 0x14 p).getD []
  { ownerSess := decide (field x 0 1 = 1), ownerId := field x 1 1, targetClk := field x 2 1, floorClk := field x 3 1
    updWin := field x 4 2, instShare := field x 6 1, weltWays := field x 7 1
    cells := BitVec.ofNat 128 (field x 8 16), rtCells := BitVec.ofNat 128 (field x 0x18 16)
    memBase := field x 0x28 2, memUnits := field x 0x2A 2, ulog := field x 0x2C 1, hostLat := field x 0x30 4
    share := (List.range 8).map (fun k => field x (0x34 + k) 1)
    queues := (entriesOf 16 ((imageSect b 0x11 p).getD [])).map (fun e =>
      ⟨field e 0 1, field e 1 1, decide (field e 2 1 = 1), field e 3 1, field e 4 2⟩)
    nctx := field c 0 1
    segs := (entriesOf 40 (c.drop 8)).map (fun e => ((field e 0 1, field e 1 1), segOf (e.drop 8)))
    sessions := (entriesOf 32 ((imageSect b 0x13 p).getD [])).map sessOf
    fixedMode := decide (field t 0 1 = 1), arrange := field t 1 1
    shapes := if field t 0 1 = 1 then (List.range 16).map (fun k => (field t (8 + 2 * k) 1, field t (9 + 2 * k) 1)) else [] }

/-- Whether no value of a list stands twice. -/
def distinct (l : List Nat) : Bool := decide (l.eraseDups.length = l.length)

/-- The parcels that a rule of an image looks at: those of the image, and for a parcel-local image those of the other
parcels in force. -/
abbrev ParcelSet := List (Nat × ParcelCfg)

/-- A rule of step 6: whether it holds, and the reason of its breach. -/
abbrev ImageRule := Bool × Nat

/-- The first broken rule. -/
def firstBroken : List ImageRule → Option Nat
  | [] => none
  | (ok, r) :: t => if ok then firstBroken t else some r

/-- R49: the raw field ranges of the device sections, in the order of its table. -/
def devRanges (b : List Byte) : List ImageRule :=
  let d := (imageSect b 1 0).getD []
  let cfg := devOf b
  [ (decide (field d 0 1 ≤ 1) && decide (field d 1 1 ≤ 1), 4),
    (if cfg.card then decide (1 ≤ cfg.nfunc) && decide (cfg.nfunc ≤ 8) else decide (cfg.nfunc = 0), 4),
    (decide (1 ≤ cfg.nparcel) && decide (cfg.nparcel ≤ 16), 4),
    (decide (8 ≤ field d 4 1) && decide (field d 4 1 ≠ 0xFF), 4),
    (decide (1 ≤ cfg.sysUnits) && decide (cfg.sysUnits ≤ 16), 4),
    (decide (cfg.sysBase + cfg.sysUnits ≤ 384), 13),
    (decide (1024 ≤ cfg.vgPort.toNat), 4) ]

/-- R53. -/
def tickOk (d : DevCfg) (ps : ParcelSet) : Bool :=
  let T := d.period * 10
  decide (5 ≤ d.period) && decide (d.period ≤ 200) && decide (d.survey ≤ 20) && decide (2 ≤ d.drain) && decide (d.drain ≤ 50)
    && decide (d.survey * 100 ≤ T * 8)
    && ps.all (fun e => decide (e.2.updWin * 100 ≤ T * 40) && decide (3 + e.2.updWin + d.survey + d.drain + 10 ≤ T))

/-- R49, R53, R55: the field ranges of the parcels of the image, with R53 among them; `all`: every parcel of the device;
`raw`: the PARCEL section, TILES section and context entries as bytes. -/
def parcelRanges (b : List Byte) (d : DevCfg) (own all : ParcelSet) : List ImageRule :=
  let sect (t : Nat) (p : Nat) : List Byte := (imageSect b t p).getD []
  let ports := (imageSect b 3 0).getD []
  [ (tickOk d own, 10),
    (own.all (fun e => decide (e.2.targetClk ≤ 20) && decide (e.2.floorClk ≤ e.2.targetClk)), 11),
    ((entriesOf 16 (ports.take 64)).all (fun e =>
      decide (field e 0 1 ≤ 3) && decide (field e 1 1 ≤ 1) && decide (field e 2 1 ≤ 1)), 16),
    (own.all (fun e => decide (field (sect 0x10 e.1) 0 1 ≤ 1)), 15),
    (own.all (fun e => decide (1 ≤ e.2.instShare) && decide (e.2.instShare ≤ 128) && decide (e.2.weltWays ≤ 16)), 14),
    (own.all (fun e => decide (e.2.memUnits ≠ 0)), 13),
    (own.all (fun e => e.2.queues.all (fun q => decide (q.q ≤ 31)) && distinct (e.2.queues.map (·.q)))
      && distinct (all.flatMap (fun e => e.2.queues.map (·.gqueue))), 4),
    (own.all (fun e => (entriesOf 16 (sect 0x11 e.1)).all (fun q => decide (field q 2 1 ≤ 1))), 4),
    (own.all (fun e => e.2.queues.all (fun q =>
      (q.be || decide (q.carry = 0)) && decide (1 ≤ q.quota) && decide (q.quota ≤ 4096))), 14),
    (own.all (fun e => decide (1 ≤ e.2.nctx) && decide (e.2.nctx ≤ 16) && decide (e.2.segs.length ≤ 256)), 14),
    (own.all (fun e => e.2.segs.all (fun g => decide (g.1.1 < e.2.nctx) && decide (g.1.2 ≤ 15))
      && distinct (e.2.segs.map (fun g => g.1.1 * 16 + g.1.2))), 17),
    (own.all (fun e => e.2.sessions.all (fun c => decide (c.subport ≤ 15)))
      && distinct (all.flatMap (fun e => e.2.sessions.map (·.session))), 16),
    (own.all (fun e => (entriesOf 32 (sect 0x13 e.1)).all (fun c => decide (field c 2 1 ≤ 1) && decide (field c 6 2 ≠ 0))), 4),
    (own.all (fun e => e.2.sessions.all (fun c => decide (c.key ≤ 255))), 14),
    (own.all (fun e => decide (field (sect 0x14 e.1) 0 1 ≤ 1) && decide (e.2.arrange ≤ 2)), 18),
    (decide (field b 0x10 8 ≠ 0) && (decide (field b 0xE 1 = 1) || decide (field b 0x18 8 = 0)), 4) ]

/-- A sum over the parcels. -/
def sumOver (ps : ParcelSet) (f : ParcelCfg → Nat) : Nat := ps.foldl (fun n e => n + f e.2) 0

/-- Whether two parcels of a list satisfy a relation, for every two. -/
def pairwise (r : ParcelCfg → ParcelCfg → Bool) : ParcelSet → Bool
  | [] => true
  | a :: t => t.all (fun e => r a.2 e.2) && pairwise r t

/-- R56. -/
def cellsOk (all : ParcelSet) : Bool :=
  pairwise (fun a b => decide (a.cells &&& b.cells = 0)) all && all.all (fun e =>
    let c := e.2
    decide (c.cells ≠ 0) && decide (c.rtCells &&& ~~~c.cells = 0)
      && (!c.queues.any (fun q => !q.be) || decide (c.rtCells ≠ 0))
      && (!c.queues.any (·.be) || decide (c.rtCells ≠ c.cells)))

/-- R57. -/
def stacksOk (d : DevCfg) (all : ParcelSet) : Bool :=
  pairwise (fun a b => decide (a.memBase + a.memUnits ≤ b.memBase) || decide (b.memBase + b.memUnits ≤ a.memBase)) all
    && all.all (fun e =>
      let c := e.2
      (decide (c.memBase + c.memUnits ≤ d.sysBase) || decide (d.sysBase + d.sysUnits ≤ c.memBase))
        && decide (c.memBase + c.memUnits ≤ 384) && decide (c.ulog * 64 ≤ c.memUnits * 1024)
        && c.share.all (fun x => decide (1 ≤ x) && decide (x ≤ 32)))
    && (List.range 8).all (fun k => decide (sumOver all (fun c => c.share.getD k 0) ≤ 32))

/-- R58. -/
def limitsOk (d : DevCfg) (all : ParcelSet) : Bool :=
  decide (sumOver all (·.instShare) ≤ 128) && decide (sumOver all (·.weltWays) ≤ 16)
    && all.all (fun e => (decide (e.2.weltWays = 0) || (d.card && !e.2.ownerSess))
      && (decide (e.2.weltWays = 0) == decide (e.2.hostLat = 0)) && decide (e.2.queues.length ≤ 32))
    && decide (sumOver all (·.queues.length) ≤ 256)

/-- R59. -/
def ownersOk (d : DevCfg) (all : ParcelSet) : Bool :=
  all.all (fun e => if e.2.ownerSess then e.2.sessions.any (fun c => decide (c.session = e.2.ownerId))
      else d.card && decide (e.2.ownerId < d.nfunc))
    && distinct (all.filterMap (fun e => if e.2.ownerSess then none else some e.2.ownerId))

/-- The sub-ports that a port's MODE gives it. -/
def PortCfg.subCount (p : PortCfg) : Nat := if p.mode = 0 then 0 else 2 ^ (p.mode - 1)

/-- R54: the port rules of a whole-device image. -/
def portsOk (d : DevCfg) : Bool :=
  (List.range 16).all (fun i =>
    match d.ports[i / 4]?, d.subs[i]? with
    | some p, some u =>
      (decide (i % 4 < p.subCount) || (decide (u.v6 = 0) && decide (u.v4 = 0) && !u.enabled))
        && (!u.enabled || decide (u.v6 ≠ 0) || decide (u.v4 ≠ 0))
    | _, _ => false)
    && (d.card || d.ports.any (·.ptp))

/-- R61. -/
def sessionsOk (d : DevCfg) (own : ParcelSet) : Bool :=
  own.all (fun e => e.2.sessions.all (fun c =>
    match d.subs[c.subport]?, d.ports[c.subport / 4]? with
    | some u, some p => u.enabled && (if isV4 c.peerAddr then decide (u.v4 ≠ 0) else decide (u.v6 ≠ 0)) && (c.enc || p.macsec)
    | _, _ => false))

/-- R60, R326 to R328: the default segments of a parcel. The reserved fields of DESC are checked at step 5 (R47); a reserved
value of SMODE breaks R328. -/
def segsOk (b : List Byte) (e : Nat × ParcelCfg) : Bool :=
  let x : Parcel := { cfg := e.2, segs := defaultSegs e.2 }
  (entriesOf 40 (((imageSect b 0x12 e.1).getD []).drop 8)).all (fun r =>
    decide (field r 0x22 1 ≤ 1)) &&
  e.2.segs.all (fun g => g.2.rangeOk && x.targetOk g.2 && x.placementOk g.2 (g.1.1 * 16 + g.1.2))

/-- R62. -/
def shapesOk (b : List Byte) (e : Nat × ParcelCfg) : Bool :=
  if e.2.fixedMode then e.2.shapes.all (fun t => decide (1 ≤ t.1) && decide (t.1 ≤ 64) && decide (1 ≤ t.2) && decide (t.2 ≤ 8))
  else zeroBytes ((imageSect b 0x14 e.1).getD []) 8 32

/-- R77: whether a parcel-local image leaves the resources of its parcel alone. -/
def keepsResources (a b : ParcelCfg) : Bool :=
  decide (a.ownerSess = b.ownerSess) && decide (a.ownerId = b.ownerId) && decide (a.instShare = b.instShare)
    && decide (a.weltWays = b.weltWays) && decide (a.cells = b.cells) && decide (a.memBase = b.memBase)
    && decide (a.memUnits = b.memUnits) && decide (a.ulog = b.ulog) && decide (a.share = b.share)

/-! The checks in order (R66). -/

/-- Where an image comes from: a push, with the number of bytes pushed, or a flash slot. -/
inductive ImageFrom where
  | push
  | slot
  deriving DecidableEq, Repr

/-- R66 steps 1 to 3: length, magic, versions, key and signature. -/
def imageStep123 (from' : ImageFrom) (key : Nat → KeySlot) (b : List Byte) : Option Nat :=
  let len := field b 8 4
  let t := (b.drop (len - 128)).take 128
  let ks := field b 0x20 1
  if from' = .push ∧ b.length < 64 then some 3
  else if field b 0 4 ≠ 0x5453414C then some 1
  else if field b 4 2 ≠ 1 ∨ field b 6 2 ≠ 64 then some 2
  else if len < 256 ∨ 1048576 < len ∨ len % 8 ≠ 0 ∨ (from' = .push ∧ len ≠ b.length) then some 3
  else if field t 0 4 ≠ 0x4E474953 then some 1
  else if 3 < ks ∨ (key ks).prog = false ∨ (key ks).revoked ∨ field t 4 1 ≠ ks then some 5
  else if !signatureOk (key ks) (b.take len) len then some 6
  else none

/-- R66 step 4: the scope of a slot image, then the serial rules of R67. A pushed image of SCOPE 2 or above, which step 5
refuses, meets the serial rule of a whole-device image here: the spec does not say which (DESIGN CHOICE, log 98). -/
def imageStep4 (s : State) (from' : ImageFrom) (b : List Byte) : Option Nat :=
  let local' := decide (field b 0xE 1 = 1)
  let serial := field b 0x10 8
  if from' = .slot ∧ field b 0xE 1 ≠ 0 then some 4
  else if local' then
    if !s.img.on ∨ field b 0x18 8 ≠ s.img.serial.toNat then some 8
    else if serial ≤ (s.parcel (field b 0xF 1 % 16)).serial.toNat then some 7
    else none
  else if serial < s.img.floor.toNat then some 7
  else none

/-- R66 step 5: structure. -/
def imageStep5 (s : State) (b : List Byte) : Option Nat :=
  let len := field b 8 4
  let n := field b 0xC 2
  let scope := field b 0xE 1
  let target := field b 0xF 1
  let dir := imageDir b
  let parts := dir.map (fun e => ((e.off, e.size) : Part))
  let count (t i : Nat) : Nat := (dir.filter (fun e => decide (e.type = t) && decide (e.inst = i))).length
  let np := if scope = 0 then (devOf b).nparcel else 0
  let ps := if scope = 0 then List.range np else [target]
  if n = 0 ∨ 64 < n ∨ 1 < scope ∨ 15 < target ∨ (scope = 0 ∧ target ≠ 0) then some 4
  else if dir.any (fun e => decide (e.off % 8 ≠ 0)) then some 3
  else if dir.any (fun e => decide (e.off < 64 + 16 * n) || decide (len - 128 < e.off + e.size)) then some 3
  else if !allApart parts then some 3
  else if !zeroBytes b 0x21 15 ∨ !dir.all (fun e => sectResvOk e.type ((b.drop e.off).take e.size))
      ∨ !(List.range n).all (fun i => zeroBytes b (64 + 16 * i + 12) 4) ∨ !trailerResvOk (b.drop (len - 128))
      ∨ !(List.range (len - 128 - (64 + 16 * n))).all (fun i =>
          let a := 64 + 16 * n + i
          parts.any (fun p => decide (p.1 ≤ a) && decide (a < p.1 + p.2)) || decide (b.getD a 0 = 0)) then some 4
  else if !dir.all (fun e => sectSizeOk b e) then some 4
  else if !dir.all (fun e => if e.type ≤ 3 then decide (scope = 0) && decide (e.inst = 0) else ps.contains e.inst) then some 4
  else if !distinct (dir.map (fun e => e.type * 65536 + e.inst)) then some 4
  else if (scope = 0 ∧ (count 1 0 = 0 ∨ count 2 0 = 0 ∨ count 3 0 = 0))
      ∨ !ps.all (fun p => decide (count 0x10 p = 1) && decide (count 0x12 p = 1) && decide (count 0x14 p = 1)) then some 4
  else if scope = 1 ∧ (s.parcel target).state = .absent then some 4
  else none

/-- The parcels in force. -/
def State.parcelSet (s : State) : ParcelSet :=
  s.parcels.filterMap (fun e => if e.2.state = .absent then none else some (e.1, e.2.cfg))

/-- R66 step 6: field ranges and content rules; `assembly`: MG_ID.ASSEMBLY. -/
def imageStep6 (s : State) (b : List Byte) : Option Nat :=
  let target := field b 0xF 1
  if field b 0xE 1 = 0 then
    let d := devOf b
    let all := (List.range d.nparcel).map (fun p => (p, parcelOf b p))
    let immersed := decide (s.mg.assembly.toNat % 2 = 0)
    let netOnly := decide (3 ≤ s.mg.assembly.toNat)
    firstBroken (devRanges b ++ parcelRanges b d all all ++
      [ ((d.immersion == immersed) && !(d.card && netOnly), 9), (cellsOk all, 12), (stacksOk d all, 13), (limitsOk d all, 14),
        (ownersOk d all, 15), (portsOk d && sessionsOk d all, 16), (all.all (segsOk b), 17), (all.all (shapesOk b), 18) ])
  else
    let d := s.img.cfg
    let own : ParcelSet := [(target, parcelOf b target)]
    let all := s.parcelSet.map (fun e => if e.1 = target then (target, parcelOf b target) else e)
    firstBroken (parcelRanges b d own all ++
      [ (keepsResources (s.parcel target).cfg (parcelOf b target), 0x14), (cellsOk all, 12), (stacksOk d all, 13),
        (limitsOk d all, 14), (ownersOk d all, 15), (sessionsOk d own, 16), (own.all (segsOk b), 17),
        (own.all (shapesOk b), 18) ])

/-- R66 step 7, R78, R79: the quiet rule. -/
def imageStep7 (s : State) (b : List Byte) : Option Nat :=
  if field b 0xE 1 = 0 then
    (if s.parcels.all (fun e => decide (e.2.state = .absent) || decide (e.2.state = .quiet)) then none else some 0x13)
  else if (s.parcel (field b 0xF 1)).state = .quiet then none
  else some 0x13

/-- The first of a list of outcomes. -/
def firstOf : List (Option Nat) → Option Nat
  | [] => none
  | some r :: _ => some r
  | none :: t => firstOf t

/-- R66: the reason of an image; 0 for one that passes. -/
def State.checkImage (s : State) (from' : ImageFrom) (b : List Byte) : Nat :=
  match imageStep123 from' (fun k => spGet {} s.mg.slots k) b with
  | some r => r
  | none =>
    let b := b.take (field b 8 4)
    (firstOf [imageStep4 s from' b, imageStep5 s b, imageStep6 s b, if from' = .push then imageStep7 s b else none]).getD 0

/-! Applying an image (R78, R80). -/

/-- The fields of a cell that an image gives it (R189, R62, R224). -/
def Cell.configure (c : Cell) (p : Option (Fin 16)) (x : ParcelCfg) (n : Nat) : Cell :=
  match p with
  | none => { c with parcel := none, rt := false, defarr := 0, arr := 0, fixedMode := false, tshape := [], clk := 0 }
  | some p => { c with
      parcel := some p, rt := x.rtCells.getLsbD n, defarr := BitVec.ofNat 2 x.arrange, arr := BitVec.ofNat 2 x.arrange
      fixedMode := x.fixedMode, clk := 0
      tshape := (List.range (x.shapes.length / 4)).map (fun i =>
        BitVec.ofNat 64 (leNat (((x.shapes.drop (4 * i)).take 4).flatMap (fun t => leBytes 2 (t.1 - 1 + 64 * (t.2 - 1)))))) }

/-- Gives the cells of a parcel the fields of its configuration. -/
def State.configureCells (s : State) (p : Fin 16) : State :=
  let x := (s.parcel p).cfg
  (List.range 128).foldl (fun s n =>
    if x.cells.getLsbD n then (s.modCell n (fun c => c.configure (some p) x n)).fallDie (n / 32) else s) s

/-- R78: the stored graphs, tasks, queues and contexts of a parcel go. -/
def State.emptyParcel (s : State) (p : Fin 16) : State :=
  let s := s.endLoads p
  let s := (s.instsOf p).foldl (fun s e => s.removeTask e.1 e.2) s
  let s := s.clearParcel p
  s.modParcel p (fun x => { x with queues := [], slots := [] })

/-- R78, R82, R143: a parcel-local image comes into force for parcel p; it conflicts with every order of its parcel in the same
hub-die cycle. -/
def State.applyLocal (s : State) (p : Fin 16) (b : List Byte) : State :=
  let c := parcelOf b p
  let old := (s.parcel p).cfg
  let s := s.emptyParcel p
  let s := old.sessions.foldl (fun s e => if c.sessions.contains e then s else s.closeSession e.session 2) s
  let s := s.modParcel p (fun x => { x with
    state := .building, buildDone := false, cfg := c, segs := defaultSegs c, serial := BitVec.ofNat 64 (field b 0x10 8)
    digest := Config.sha384 (b.take (field b 8 4)) })
  let s := old.sessions.foldl (fun s e => if c.sessions.any (fun k => decide (k.session = e.session)) then s
    else { s with net := { s.net with sess := spPut VgSess.zero VgSess.zero e.session s.net.sess } }) s
  let s := ((s.configureCells p).placeSegs p 0 (2 ^ 48)).grantCredit p
  { s with cyc := { s.cyc with orders := s.cyc.orders ++ [{ parcel := p, op := 0, queue := none, slot := none, wide := true }] } }

/-- Who owns a unit of memory or a cell: parcel, OWNER_KIND and OWNER_ID. -/
abbrev Holder := Option (Nat × Bool × Nat)

/-- The holder of a 1 GiB unit. -/
def unitHolder (ps : ParcelSet) (u : Nat) : Holder :=
  (ps.find? (fun e => decide (e.2.memBase ≤ u) && decide (u < e.2.memBase + e.2.memUnits))).map
    (fun e => (e.1, e.2.ownerSess, e.2.ownerId))

/-- The holder of a cell. -/
def cellHolder (ps : ParcelSet) (n : Nat) : Holder :=
  (ps.find? (fun e => e.2.cells.getLsbD n)).map (fun e => (e.1, e.2.ownerSess, e.2.ownerId))

/-- The holder of a Welt way. -/
def wayHolder (ps : ParcelSet) (w : Nat) : Holder :=
  (ps.foldl (fun (a : Nat × Holder) e =>
    (a.1 + e.2.weltWays, if a.1 ≤ w ∧ w < a.1 + e.2.weltWays then some (e.1, e.2.ownerSess, e.2.ownerId) else a.2)) (0, none)).2

/-- Removes from a map the numbers that satisfy `gone`. -/
def spDrop {α : Type} (gone : Nat → Bool) (m : Sparse α) : Sparse α := spKeep (fun k => !gone k) m

/-- R80: zero-fill of every unit and cell that changes holder. -/
def State.zeroFill (s : State) (old new : ParcelSet) : State :=
  let changed := (List.range 384).filter (fun u => decide (unitHolder old u ≠ unitHolder new u))
  let hit (local' : Nat) : Bool := changed.contains (local' / 2 ^ 27)
  let k := s.stk
  let k := { k with
    mem := spDrop (fun a => hit (a % 2 ^ 36)) k.mem
    poison := spDrop (fun a => hit (a * 32 % 2 ^ 36)) k.poison
    wrote := spDrop (fun a => changed.contains (a / 2 ^ 30)) k.wrote }
  let k := changed.foldl (fun (k : Stacks) u => k.settle (u * 2 ^ 30) ((u + 1) * 2 ^ 30)) k
  let s := { s with stk := k }
  (List.range 128).foldl (fun s n =>
    if cellHolder old n = cellHolder new n then s
    else s.modCell n (fun c => { c with store := [], storePoison := [], storeFree := [] })) s

/-- R370: ways whose holder changes are written back and invalidated. -/
def State.flushWays (s : State) (old new : ParcelSet) : State :=
  s.host.lines.foldl (fun s e => match e.2 with
    | some l => if wayHolder old l.way = wayHolder new l.way then s else s.evict e.1
    | none => s) s

/-- R539: the trace stops with STOPCAUSE SYSTEM. -/
def State.stopTrace (s : State) : State :=
  if s.ob.run then { s with ob := { s.ob with run := false, cause := 3, ctrl := s.ob.ctrl &&& 0x7FFFFFFFFFFFFFFF } } else s

/-- R304, R307: the records of a log in a ring of L lines: as they lie where the ring is the old one, else from line 0 on
(DESIGN CHOICE, log 91). -/
def relayLog (L : Nat) : List UpdRec → Nat → List UpdRec
  | [], _ => []
  | r :: t, k =>
    if k + r.lines.length ≤ L then { r with lines := (List.range r.lines.length).map (k + ·) } :: relayLog L t (k + r.lines.length)
    else []

/-- R278: whether a whole-device build keeps the table directory of a parcel. -/
def keepsTables (o c : ParcelCfg) : Bool :=
  (o.ownerSess == c.ownerSess) && decide (o.ownerId = c.ownerId) && decide (o.memBase = c.memBase)
    && decide (o.memUnits = c.memUnits) && decide (o.ulog = c.ulog)

/-- A parcel as a whole-device build makes it. -/
def builtParcel (x : Parcel) (c : ParcelCfg) (serial : W64) (keepsMem : Bool) : Parcel :=
  { x with
    state := .building, buildDone := false, cfg := c, queues := [], slots := [], segs := defaultSegs c, serial := serial, digest := 0
    tables := if x.state ≠ .absent ∧ keepsTables x.cfg c then x.tables else []
    log := if !keepsMem then [] else if x.cfg.ulog = c.ulog then x.log else relayLog c.logLines x.log 0
    logNext := if !keepsMem then 0 else if x.cfg.ulog = c.ulog then x.logNext
      else ((relayLog c.logLines x.log 0).foldl (fun n r => n + r.lines.length) 0) % max 1 c.logLines
    inWindow := false, inCompute := false, drained := false, resetting := [], fences := [], waits := [] }

/-- R304: the lines of a log that a build laid anew are written. -/
def State.rewriteLog (s : State) (p : Nat) : State := (s.parcel p).log.foldl (fun s r => s.writeLines p r.lines r.bytes) s

/-- R380: the modules of retrained ports initialise again. -/
def retrainMods (ports : List Nat) (m : Sparse Nat) : Sparse Nat :=
  m.map (fun e => if ports.contains e.1 then (e.1, e.2 / 4 * 4 + 1) else e)

/-- R80: a whole-device image comes into force: the tick machine stops, every session closes, every parcel is built, and
what changes holder is zero-filled. -/
def State.applyDevice (s : State) (b : List Byte) (sel : Nat) : State :=
  let d := devOf b
  let oldDev := s.img.cfg
  let old := s.parcelSet
  let new : ParcelSet := (List.range d.nparcel).map (fun p => (p, parcelOf b p))
  let serial : W64 := BitVec.ofNat 64 (field b 0x10 8)
  let s := old.foldl (fun s e => s.emptyParcel (Fin.ofNat 16 e.1)) s
  let s := (List.range 256).foldl (fun s n => s.closeSession n 2) s
  let s := (s.flushWays old new).zeroFill old new
  let s := if s.img.on ∧ (oldDev.sysBase ≠ d.sysBase ∨ oldDev.sysUnits ≠ d.sysUnits) then s.stopTrace else s
  let s := { s with tk := {} }
  let keeps (c : ParcelCfg) : Bool := (List.range c.memUnits).all (fun i =>
    decide (unitHolder old (c.memBase + i) = unitHolder new (c.memBase + i)))
  let s := (List.range 16).foldl (fun s p => match new.find? (fun e => decide (e.1 = p)) with
    | some e =>
      let x := s.parcel p
      let s := s.setParcel p (builtParcel x e.2 serial (keeps e.2))
      (if x.cfg.ulog = e.2.ulog then s else s.rewriteLog p).placeSegs p 0 (2 ^ 48)
    | none => s.setParcel p Parcel.zero) s
  let s := (List.range 128).foldl (fun s n =>
    (s.modCell n (fun c => c.configure none (parcelOf b 0) n)).fallDie (n / 32)) s
  let s := new.foldl (fun s e => s.configureCells (Fin.ofNat 16 e.1)) s
  let ports := (List.range 4).filter (fun p => decide (oldDev.ports[p]? ≠ d.ports[p]?)
    || (List.range 4).any (fun k => decide (oldDev.subs[4 * p + k]? ≠ d.subs[4 * p + k]?)))
  let retrainHost := decide (oldDev.card ≠ d.card) || decide (oldDev.nfunc ≠ d.nfunc)
  let s := (List.range 16).foldl (fun s i => if ports.contains (i / 4) then
      s.modSub i (fun u => { u with
        up := false, neigh := [], txq := [], txSa := [], cur := none, rxSci := [], rxSa := [], noSa := false }) else s) s
  let s := { s with net := { s.net with mods := retrainMods ports s.net.mods } }
  let s := if retrainHost then s.modHost HostPort.linkDown else s
  { s with
    net := { s.net with sess := s.net.sess.filter (fun e => new.any (fun q => q.2.sessions.any (fun c => decide (c.session = e.1)))) }
    img := { s.img with
      cfg := d, on := true, serial := serial, label := (b.drop 0x30).take 16, digest := Config.sha384 (b.take (field b 8 4))
      sel := sel, building := true, retrain := ports, retrainHost := retrainHost } }

/-! Pushes (R71 to R74). -/

/-- Whether an image is being applied (R72). -/
def State.imageBusy (s : State) : Bool :=
  s.img.building || s.parcels.any (fun e => decide (e.2.state = .building) && !e.2.buildDone)

/-- Whether an endpoint is the management owner's (R41, R70). -/
def State.isMgmtOwner (s : State) (eid : Byte) : Bool :=
  if s.img.on then decide (eid = s.img.cfg.mgmtEid) else decide (s.mg.owner = some eid)

/-- Whether an accessor of the management bus is the management owner (R41, R587): the requester of an established secured
session with its rights, whose message came in that session. -/
def State.ownerAccess (s : State) (who : Accessor) : Bool :=
  match who with
  | .fn _ => false
  | .mgmt eid (some k) => (match spGet none s.mg.spdm k.val with
    | some x => decide (x.eid = eid) && x.open_ && x.auth
    | none => false) && s.isMgmtOwner eid
  | .mgmt _ none => false

/-- Who pushes: an endpoint of the management bus, in a secured session or outside one, a function, or a session. -/
inductive Pusher where
  | mgmt (eid : Byte) (sess : Option (Fin 4))
  | fn (f : Fin 8)
  | sess (n : Fin 256)
  deriving DecidableEq, Repr

/-- R71: whether the source may push an image of this header; `scope`, `target` as the header has them. -/
def State.mayPush (s : State) (w : Pusher) (scope target : Nat) : Bool :=
  match w with
  | .mgmt e k => s.ownerAccess (.mgmt e k)
  | .fn f => decide (scope = 1) && decide (target ≤ 15) && (s.parcel target).ownedBy f
  | .sess n => decide (scope = 1) && decide (target ≤ 15) && decide ((s.parcel target).state ≠ .absent)
      && decide ((s.parcel target).ownerSess = some n.val)

/-- The ingress of a push. -/
def State.pushIngress (s : State) (w : Pusher) : Nat :=
  match w with
  | .mgmt _ _ => 0
  | .fn f => 1 + f
  | .sess n => s.sessIngress n

/-- R73: the result of a push in the error log. -/
def State.logImage (s : State) (w : Pusher) (code : Nat) (b : List Byte) : State :=
  let label := (b.drop 0x30).take 16
  s.log { logEntry s 0x0F01 with
    unit := BitVec.ofNat 16 (s.pushIngress w), aux := BitVec.ofNat 8 code, cont := some (label ++ List.replicate (16 - label.length) 0) }

/-- R72: whether a push meets another: one under way, or one of an ingress that goes ahead of it in the same hub-die cycle. -/
def State.pushMeets (s : State) (w : Pusher) : Bool :=
  s.imageBusy || (match s.cyc.push with | some g => decide (g < s.pushIngress w) | none => false)

/-- R66, R71 to R74, R83: an image is pushed: its reason, and the state after. The spec does not order what it gives apart
from R66: RETIRED comes first, then BUSY, then NOT_AUTHORISED for an endpoint without rights, BAD_LENGTH for a push of
fewer than 64 bytes, and NOT_AUTHORISED for the header (DESIGN CHOICE, log 99). -/
def State.pushImage (s : State) (w : Pusher) (b : List Byte) : Nat × State :=
  let code :=
    if s.dev = .retired then 0x17
    else if s.pushMeets w then 0x15
    else if b.length < 64 then (match w with | .mgmt e k => if s.ownerAccess (.mgmt e k) then 3 else 0x16 | _ => 3)
    else if !s.mayPush w (field b 0xE 1) (field b 0xF 1) then 0x16
    else s.checkImage .push b
  let s := { s.logImage w code b with cyc := { s.cyc with push := some (s.pushIngress w) } }
  if code ≠ 0 then (code, s)
  else if field b 0xE 1 = 1 then (0, s.applyLocal (Fin.ofNat 16 (field b 0xF 1)) b)
  else (0, s.applyDevice b 3)

/-- The accessor of a register plane as a pusher, and its order window. -/
def pusherOf : Accessor → Pusher
  | .fn f => .fn f
  | .mgmt e k => .mgmt e k

/-- The order window of an accessor. -/
def accIndex : Accessor → Nat
  | .fn f => 1 + f
  | .mgmt _ _ => 0

/-- R358: UNIT of an accessor in the error log. -/
def accUnit : Accessor → W16
  | .fn f => BitVec.ofNat 16 f
  | .mgmt _ _ => 0xFFFF

/-- R73, R358: the push of an accessor's mailbox is judged: LS_PUSH_RESULT and its event (R355). An accepted image is being
applied until its build ends, and the mailbox reads BUSY for that long (DEDUCED, log 100). -/
def State.pushResult (s : State) (a : Nat) (code : Nat) : State :=
  (s.modOrd a (fun o => { o with pushDone := true, pushCode := BitVec.ofNat 8 code, mbBusy := decide (code = 0) })).fnEvent a 1

/-- R358: what was pushed is applied: no mailbox is busy any more. -/
def State.freeMail (s : State) : State :=
  (List.range 9).foldl (fun s a => if (s.ord a).mbBusy then s.modOrd a (fun o => { o with mbBusy := false }) else s) s

/-- R66, R71 to R74, R358 LAST_IMAGE_PUSH: ignored and logged while the mailbox is busy. -/
def execLastImagePush (who : Accessor) (bytes : List Byte) (s : State) : Out :=
  if (s.ord (accIndex who)).mbBusy then .next (s.log { logEntry s 0x0602 with unit := accUnit who })
  else
    let r := s.pushImage (pusherOf who) bytes
    .next (r.2.pushResult (accIndex who) r.1)

/-- R78 PARCEL_BUILD_END: the parcel is QUIET from the next boundary on. -/
def execParcelBuildEnd (p : Fin 16) (s : State) : Out :=
  if (s.parcel p).state ≠ .building ∨ s.img.building ∨ s.cellsTested p then .next s
  else .next (s.modParcel p (fun x => { x with buildDone := true })).freeMail

/-- R80: a whole-device build ends: every parcel is ACTIVE, and the tick machine starts. -/
def State.endBuild (s : State) : State :=
  let s := s.parcels.foldl (fun s e => if e.2.state = .building then
    s.modParcel e.1 (fun x => { x with state := .active, buildDone := false }) else s) s
  { s.freeMail with
    img := { s.img with building := false, retrain := [], retrainHost := false }, tk := { run := true }
    lc := { s.lc with edge := s.lc.ctr, len := s.img.cfg.firstTick s.datum } }

/-- R70, R80 DEVICE_BUILD_END: the build of a pushed image ends; UNLASTED ends with it. -/
def execDeviceBuildEnd (t : Nat) (s : State) : Out :=
  let s := s.at t
  if (List.range 128).any s.testing then .next s else
  match s.dev, s.img.building with
  | .running, true => .next s.endBuild
  | .unlasted, true => .next (s.endBuild.toDev .running)
  | _, _ => .next s

end Sys2Proof.Machine
end

