-- ==== Sys2Proof/Machine/Vangir.lean ====
section
/-! DEFINITION. The Vangir sessions: openings, reliable and unreliable messages, work and control requests,
acknowledgement, timers, and next hops (R398 to R430). -/

namespace Sys2Proof.Machine

/-! Sub-ports (R374, R375). -/

/-- The entry of a port. -/
def State.port (s : State) (p : Nat) : PortCfg := (s.img.cfg.ports[p]?).getD ⟨0, false, false, 0⟩

/-- R374: sub-ports of a MODE. -/
def modeSubs (m : Nat) : Nat := match m with | 1 => 1 | 2 => 2 | 3 => 4 | _ => 0

/-- Whether a sub-port exists and is enabled (R375). -/
def State.subEnabled (s : State) (i : Nat) : Bool := match s.img.cfg.subs[i]? with | some c => c.enabled | none => false

/-- Whether the image has sub-port i, enabled (R374, R375). -/
def State.subExists (s : State) (i : Nat) : Bool := decide (i % 4 < modeSubs (s.port (i / 4)).mode) && s.subEnabled i

/-- R70, R514: whether the ports may train. -/
def State.portsTrain (s : State) : Bool :=
  s.img.on && (match s.dev with | .starting k => decide (6 ≤ k) | .running | .unlasted | .retired => true | _ => false)

/-- R375, R377, R386: whether a message that a sub-port takes can reach it: it is there, enabled and up, and a port with
MACSEC has an association to receive under. A row of such a message stands for one whose frame was accepted (log 106). -/
def State.subReceives (s : State) (i : Nat) : Bool :=
  s.portsTrain && s.subExists i && (s.sub i).up &&
    (!(s.port (i / 4)).macsec || (s.sub i).rxSa.any (fun e => e.2.isSome))

/-! Sequence numbers (R410). -/

/-- R410: the extended value of a 32-bit number, nearest its reference. -/
def extendSeq (ref : Nat) (v : W32) : Int := (ref : Int) + (v - BitVec.ofNat 32 ref).toInt

/-! Headers (R403). -/

/-- R403: a received message of a session is dropped and counted. -/
def State.vgDrop (s : State) (n : Nat) : State := s.modVg n (fun v => { v with rxdrop := satAdd32 v.rxdrop 1 })

/-- R403: whether a message other than OPEN is taken: its header is well formed, its ENC is the session's, and what
protection it has verifies. -/
def vgHeaderOk (c : SessCfg) (h : VHdr) : Bool := !h.bad && (h.enc == c.enc) && (!c.enc || h.auth)

/-- R409, R410: whether an unreliable message of a protected session is new. -/
def VgSess.unrelNew (v : VgSess) (seq : W32) : Bool :=
  match v.rxUnrel with
  | none => decide (0 ≤ extendSeq 0 seq)
  | some l => decide ((l : Int) < extendSeq (l + 1) seq)

/-- The extended counter of an unreliable message becomes the last accepted. -/
def VgSess.takeUnrel (v : VgSess) (seq : W32) : VgSess :=
  let ref := match v.rxUnrel with | none => 0 | some l => l + 1
  { v with rxUnrel := some (extendSeq ref seq).toNat }

/-! Timers and acknowledgement (R418 to R420). -/

/-- R420: RTO from SRTT and RTTVAR, held within 200 µs to 20 ms. -/
def rtoOf (srtt rttvar : Nat) : Nat := max 200000 (min 20000000 (srtt + 4 * rttvar))

/-- R420: an RTT sample. -/
def VgSess.sample (v : VgSess) (r : Nat) : VgSess :=
  let (a, b) := match v.srtt with
    | none => (r, r / 2)
    | some (a, b) => ((7 * a + r) / 8, (3 * b + (max a r - min a r)) / 4)
  { v with srtt := some (a, b), rto := rtoOf a b }

/-- Replaces an unacknowledged message. -/
def VgSess.setTx (v : VgSess) (t : VgTx) : VgSess :=
  { v with unacked := v.unacked.map (fun u => if u.seq = t.seq then t else u) }

/-- R420: a message is sent again, byte for byte; `rto`: its RTO from now on. -/
def State.vgResend (s : State) (n : Nat) (t : VgTx) (rto : Nat) (fast : Bool) : State :=
  let t' := { t with resent := t.resent + 1, rto := rto, deadline := s.datum + rto, fast := t.fast || fast }
  let p := (s.sessCfg n).map (·.1)
  let s := s.modVg n (fun v => { v.setTx t' with retx := satAdd32 v.retx 1, lastTx := s.datum })
  let s := s.trace 7 3 p none n 0 (BitVec.ofNat 64 (t.seq % 2 ^ 32))
  ((s.vgTransmit n t.bytes).countEvent 0x60 n p 1).countEvent 0x61 n p 1

/-- R419: one reliable message of the E40 is acknowledged: it leaves the buffer, gives its sample, frees its slot, and
counts towards the fast retransmission of those before it. -/
def VgSess.ackOne (v : VgSess) (now : Nat) (t : VgTx) : VgSess :=
  let v := if t.resent = 0 then v.sample (now - t.first) else v
  { v with
    unacked := (v.unacked.filter (fun u => decide (u.seq ≠ t.seq))).map
      (fun u => if u.seq < t.seq then { u with passed := u.passed + 1 } else u)
    owed := if t.answer then v.owed - 1 else v.owed
    ackDue := v.ackDue || t.answer }

/-- R420: the messages that three later acknowledgements have passed are sent again, once. -/
def State.vgFast (s : State) (n : Nat) : State :=
  ((s.vg n).unacked.filter (fun t => decide (3 ≤ t.passed) && !t.fast && decide (t.resent < 8))).foldl
    (fun s t => s.vgResend n t t.rto true) s

/-- R419: whether an ACK or a block breaks the protocol: beyond the next SEQ, or empty. -/
def VgSess.ackBad (v : VgSess) (ack : W32) (blocks : List (W32 × W32)) : Bool :=
  decide ((v.txNext : Int) < extendSeq v.txNext ack) ||
  blocks.any (fun b => decide ((v.txNext : Int) < extendSeq v.txNext b.2)
    || decide (extendSeq v.txNext b.2 ≤ extendSeq v.txNext b.1))

/-- R419: whether a message of the E40 is acknowledged. -/
def VgSess.acks (v : VgSess) (ack : W32) (blocks : List (W32 × W32)) (seq : Nat) : Bool :=
  decide ((seq : Int) < extendSeq v.txNext ack) ||
  blocks.any (fun b => decide (extendSeq v.txNext b.1 ≤ seq) && decide ((seq : Int) < extendSeq v.txNext b.2))

/-- R419: the partner's ACK and blocks are applied; a breach closes the session with PROTOCOL. -/
def State.vgAcked (s : State) (n : Nat) (ack : W32) (blocks : List (W32 × W32)) : State :=
  let v := s.vg n
  if v.ackBad ack blocks then s.closeSession n 7
  else
    let done := v.unacked.filter (fun t => v.acks ack blocks t.seq)
    (s.modVg n (fun v => done.foldl (fun v t => v.ackOne s.datum t) v)).vgFast n

/-! Work (R412 to R415). -/

/-- A request that names no queue of the parcel ends: its record goes back with the QINDEX it named. -/
def State.answerNoQueue (s : State) (p n : Nat) (r : Request) (q : Nat) (gather : Bool) (rseq : W32) (inc : Nat)
    (code detail : Byte) : State :=
  let rec' := r.record s.datum code detail 0 false false 0
  (s.traceRecord p q rec').vgAnswer n inc (if gather then 2 else 1) 0 rseq (responseBody (rec'.bytes q false) [] 0)

/-- R413: whether a RANK or GATHER request is malformed for queue entry `c` of the parcel. -/
def Parcel.workBad (x : Parcel) (b : WorkBody) (gather : Bool) : Bool :=
  b.resv || decide (15 < b.ctx.toNat) || decide (4096 < b.pbLen.toNat) || decide (b.patch.length ≠ b.pbLen.toNat)
  || (match x.qcfg b.qindex.toNat with
    | none => true
    | some c => (gather && !c.be) ||
      (match (x.queue b.qindex.toNat).state with
        | .unbound => false
        | _ => decide ((x.gslot (x.queue b.qindex.toNat).slot).hdr.pbSize < b.pbOff.toNat + b.pbLen.toNat)))

/-- R96 to R98, R334, R335, R413: a well-formed request of a session is stamped, translated and queued. -/
def State.arriveWork (s : State) (p q : Nat) (r : Request) (b : WorkBody) : State :=
  match s.arrivalCode p q with
  | some (code, detail) => s.refuse p q { r with stamp := 0 } code detail
  | none =>
    let x := s.parcel p
    let r := { r with stamp := s.datum }
    let g := s.ingressOf r.src
    let depth := match x.qcfg q with | some c => c.depth | none => 0
    let s := s.presentRequest g
    if !s.hasPlace p q g depth then s.refuse p q r ccTickFull 0
    else match x.translate (x.gslot (x.queue q).slot) b.ctx.toNat b.pbOff.toNat b.pbLen.toNat none b.patch with
      | .bad code detail => s.refuse p q r code detail
      | .fault entry ctx seg cause =>
        (s.segFault p 0 entry ctx seg cause).refuse p q r ccSegFault (BitVec.ofNat 8 (ctx % 16 * 16 + seg % 16))
      | .ok ws pb =>
        s.seat p q g depth { r with windows := ws, pb := pb }

/-- R413: a RANK or GATHER request is delivered. -/
def State.deliverWork (s : State) (p : Nat) (n : Fin 256) (rseq : W32) (gather : Bool) (b : WorkBody) : State :=
  let x := s.parcel p
  let inc := (s.vg n).inc
  let q := b.qindex.toNat
  let r : Request :=
    { src := .sess n inc gather rseq, tag := b.tag, stamp := 0, ctx := b.ctx.toNat, noirq := false, ready := true, pb := []
      windows := [], carried := 0, timeout := 0, segs := [], unbound := false }
  let code := if s.dev = .retired then ccRetired else ccAborted
  let detail := if s.dev = .retired then 0 else abMalformed
  if (x.qcfg q).isNone then s.answerNoQueue p n r q gather rseq inc code detail
  else if s.dev = .retired ∨ x.workBad b gather then s.refuse p q r code detail
  else s.arriveWork p q r b

/-- R415: the records of an UPDATE body; none when they do not fill it. -/
def splitRecords : Nat → List Byte → Option (List (List Byte))
  | 0, bs => if bs.isEmpty then some [] else none
  | fuel + 1, bs =>
    if bs.isEmpty then some []
    else if bs.length < 64 ∨ updLen bs < 64 ∨ bs.length < updLen bs then none
    else (splitRecords fuel (bs.drop (updLen bs))).map (fun t => bs.take (updLen bs) :: t)

/-- R304, R307, R323, R415, R423: one record of a session's message reaches the sequencer. -/
def State.takeRecord (s : State) (p : Nat) (e : Fin 256 × Nat × W32 × Nat) (b : List Byte) : State :=
  let uid : W64 := BitVec.ofNat 64 (field b 0x18 8)
  let n := updLen b / 64
  let credit := (s.vg e.1).credit
  let s := s.modVg e.1 (fun v => { v with lines := v.lines + BitVec.ofNat 32 n })
  if s.dev = .retired then s.settleUpd e (some (updReport uid 0 s.datum ccRetired.toNat 0 0 0))
  else if !(s.parcel p).serves then
    s.settleUpd e (some (updReport uid 0 s.datum ccStateChanged.toNat scNotActive.toNat 0 0))
  else
    let (code, s) := s.acceptUpd p credit (some e) b
    if code = 0 then s else s.settleUpd e (some (updReport uid 0 s.datum ccAborted.toNat 2 code 0))

/-- R415: an UPDATE request is delivered. -/
def State.deliverUpdate (s : State) (p : Nat) (n : Fin 256) (rseq : W32) (body : List Byte) : State :=
  let inc := (s.vg n).inc
  match splitRecords 141 body with
  | none =>
    ((s.modVg n (fun v => { v with lines := v.lines + BitVec.ofNat 32 (body.length / 64) })).grantFor n).vgAnswer n inc
      3 0 rseq (updResponse 1 0 [])
  | some recs =>
    if 69 < recs.length then
      ((s.modVg n (fun v => { v with lines := v.lines + BitVec.ofNat 32 (body.length / 64) })).grantFor n).vgAnswer n inc
        3 0 rseq (updResponse 1 0 [])
    else if recs.isEmpty then s.vgAnswer n inc 3 0 rseq (updResponse 0 0 [])
    else
      let s := s.modVg n (fun v => { v with upd := v.upd ++ [⟨rseq, recs.length, recs.length, []⟩] })
      (((List.range recs.length).zip recs).foldl (fun s e => s.takeRecord p (n, inc, rseq, e.1) e.2) s).grantCredit p

/-! CONTROL requests (R412, R416). -/

/-- The CONTROL request in progress of a session ends, and its response leaves. -/
def State.ctlReply (s : State) (n inc op : Nat) (rseq : W32) (body : List Byte) : State :=
  let v := s.vg n
  if v.inc ≠ inc ∨ !v.isOpen then s.modVg n (fun v => { v with ctlBusy := false })
  else (s.modVg n (fun v => { v with ctl := v.ctl.drop 1, ctlBusy := false })).vgAnswer n inc 4 op rseq body

/-- R118, R412, R416: why a STAGE or PUSH is not taken, before its window is translated. -/
def State.ctlGate (s : State) (p n : Nat) (bad : Bool) : Option (Byte × Byte) :=
  let x := s.parcel p
  if s.dev = .retired then some (ccRetired, 0)
  else if x.ownerSess ≠ some n then some (ccStateChanged, scNotOwner)
  else if bad then some (ccAborted, abMalformed)
  else if (x.state ≠ .active ∧ x.state ≠ .quiet) ∨ !x.resetting.isEmpty then some (ccStateChanged, scNotActive)
  else none

/-- R416: STAGE: its result and the state after. -/
def State.stageData (s : State) (p n : Nat) (w : WinBody) (data : List Byte) : (Byte × Byte) × State :=
  match s.ctlGate p n (w.resv || data.isEmpty || decide (8936 < data.length)) with
  | some r => (r, s)
  | none =>
    let ctx := w.ctx.toNat
    let seg := w.seg.toNat
    match (s.parcel p).orderWindow ctx seg w.off.toNat data.length false true [2] with
    | .error c => ((ccSegFault, BitVec.ofNat 8 (ctx % 16 * 16 + seg % 16)), s.segFault p 0 0x3FF ctx seg c)
    | .ok win =>
      ((ccOK, 0), ((s.countPlace p win.stks win.gran win.base data.length).countWrites p win.stks win.gran win.base
        data.length).stackWrite p win.stks win.gran win.base data)

/-- R416: PUSH: its code, detail and REASON, and the state after. A longer window than the largest image is read one
byte past it. -/
def State.pushWindow (s : State) (p : Nat) (n : Fin 256) (w : WinBody) (len : Nat) : (Byte × Byte × Nat) × State :=
  match s.ctlGate p n w.resv with
  | some (code, detail) =>
    if code = ccRetired then ((code, detail, 0x17), s.logImage (.sess n) 0x17 [])
    else if detail = scNotOwner ∧ code = ccStateChanged then ((ccOK, 0, 0x16), s.logImage (.sess n) 0x16 [])
    else ((code, detail, 0), s)
  | none =>
    let ctx := w.ctx.toNat
    let seg := w.seg.toNat
    match (s.parcel p).orderWindow ctx seg w.off.toNat len true false [2] with
    | .error c => ((ccSegFault, BitVec.ofNat 8 (ctx % 16 * 16 + seg % 16), 0), s.segFault p 0 0x3FF ctx seg c)
    | .ok win =>
      let (bs, bad) := s.stackRead p win.stks win.gran win.base (min len 1048577)
      let s := s.countPlace p win.stks win.gran win.base (min len 1048577)
      if bad then ((ccHostPoison, 2, 0), s)
      else
        let (code, s) := s.pushImage (.sess n) bs
        ((ccOK, 0, code), s)

/-- R112, R117: whether a CONTROL request is in progress on the ingress of session n: its sub-port with all its sessions. -/
def State.ingressBusy (s : State) (n : Nat) : Bool :=
  s.net.sess.any (fun e => e.2.ctlBusy && decide (s.sessIngress e.1 = s.sessIngress n))

/-- R416: the first CONTROL request that waits on a session is taken. -/
def State.takeCtl (s : State) (n : Fin 256) : State :=
  let v := s.vg n
  match v.isOpen, v.ctl, s.sessCfg n with
  | true, (rseq, b) :: _, some (p, _) =>
    let s := s.modVg n (fun v => { v with ctlBusy := true })
    let inc := v.inc
    let id : W64 := rseq.setWidth 64
    match b with
    | .order d =>
      let o := if d.length = 64 then decodeOrder d else none
      s.takeOrder (.sess n) (BitVec.ofNat 64 (field d 0x38 8)) inc o true
    | .stage w data =>
      let ((code, detail), s) := s.stageData p n w data
      s.ctlReply n inc 0x11 rseq (resultBytes id code detail)
    | .push w len =>
      let ((code, detail, reason), s) := s.pushWindow p n w len.toNat
      s.ctlReply n inc 0x12 rseq (resultBytes id code detail ++ [BitVec.ofNat 8 reason] ++ List.replicate 7 0)
    | _ => s.modVg n (fun v => { v with ctl := v.ctl.drop 1, ctlBusy := false })
  | _, _, _ => s

/-- A session's CONTROL request waits. -/
def State.holdCtl (s : State) (n : Nat) : State := { s with net := { s.net with ctlOrder := s.net.ctlOrder ++ [n] } }

/-- R113, R117, R416: CONTROL requests are taken in the order they arrived, one at a time on each ingress. -/
def State.pump (s : State) : State :=
  s.net.ctlOrder.foldl (fun s n => if s.ingressBusy n then s.holdCtl n else s.takeCtl (Fin.ofNat 256 n))
    { s with net := { s.net with ctlOrder := [] } }

/-! Delivery (R411). -/

/-- R411 to R416: a reliable message is delivered: A and O rise together. -/
def State.deliver (s : State) (n : Fin 256) (b : VBody) : State :=
  match s.sessCfg n with
  | none => s
  | some (p, _) =>
    let rseq : W32 := BitVec.ofNat 32 (s.vg n).rxNext
    let s := s.modVg n (fun v => { v with rxNext := v.rxNext + 1, owed := v.owed + 1, delivered := true, ackDue := true })
    match b with
    | .rank w => s.deliverWork p n rseq false w
    | .gather w => s.deliverWork p n rseq true w
    | .update body => s.deliverUpdate p n rseq body
    | .order _ | .stage _ _ | .push _ _ => ((s.modVg n (fun v => { v with ctl := v.ctl ++ [(rseq, b)] })).holdCtl n).pump

/-- R411: held messages that follow without a gap are delivered. -/
def State.deliverHeld (s : State) (n : Fin 256) : Nat → State
  | 0 => s
  | fuel + 1 =>
    let v := s.vg n
    match v.isOpen, v.held.find? (fun e => decide (e.1 = v.rxNext)) with
    | true, some e =>
      ((s.modVg n (fun v => { v with held := v.held.filter (fun h => decide (h.1 ≠ e.1)) })).deliver n e.2).deliverHeld n fuel
    | _, _ => s

/-- Keeps the held messages in order of their numbers. -/
def insertHeld (e : Nat × VBody) : List (Nat × VBody) → List (Nat × VBody)
  | [] => [e]
  | x :: t => if e.1 < x.1 then e :: x :: t else x :: insertHeld e t

/-- K_s less O_s: how far CLIMIT lies beyond A (R422). -/
def State.vgRoom (s : State) (n : Nat) : Nat :=
  (match s.sessCfg n with | some (_, c) => s.slotsOf (c.subport / 4) | none => 0) - (s.vg n).owed

/-- R411: a reliable message of the partner. -/
def State.vgReliableIn (s : State) (n : Fin 256) (h : VHdr) (b : VBody) : State :=
  let a := (s.vg n).rxNext
  let x := extendSeq a h.seq
  if x < a then
    let s := s.vgAcked n h.ack []
    if (s.vg n).isOpen then s.vgAck n else s
  else if ((a + s.vgRoom n : Nat) : Int) ≤ x then s.vgDrop n
  else
    let s := s.vgAcked n h.ack []
    if !(s.vg n).isOpen then s
    else if (a : Int) < x then
      let k := x.toNat
      let s := s.modVg n (fun v => if v.held.any (fun e => decide (e.1 = k)) then v else { v with held := insertHeld (k, b) v.held })
      s.vgAck n
    else (s.deliver n b).deliverHeld n 1024

/-! Opening (R404 to R407). -/

/-- The installed key of an index. -/
def State.vgKey (s : State) (k : Nat) : Option (BitVec 256) := spGet none s.net.keys k

/-- R407: an unprotected CLOSE outside an incarnation. -/
def State.closeBare (s : State) (n code : Nat) : State :=
  let s := s.modVg n (fun v => { v with close := BitVec.ofNat 8 code })
  (s.vgTransmit n (vgHeader 4 false false n 3 8 0 0 0 0 0 ++ leBytes 1 code ++ List.replicate 7 0)).countEvent 0x60 n
    ((s.sessCfg n).map (·.1)) 1

/-- R406: the MAC of OPEN or ACCEPT. -/
def vgMac (key : BitVec 256) (mark : Nat) (nonce : BitVec 56) (msg : List Byte) : List Byte :=
  leBytes 16 (Config.gcmTag key (leBytes 4 mark ++ leBytes 7 nonce.toNat ++ [0]) msg []).toNat

/-- R406 to R408: a new incarnation: NONCE_E and ISN_E are free values, its traffic keys follow, and ACCEPT leaves. -/
def State.openSession (s : State) (p n : Nat) (key : BitVec 256) (nonce : BitVec 56) (isn : W32) : State :=
  let nonceE : BitVec 56 := (Config.freeWord s.fresh).setWidth 56
  let isnE : W32 := (Config.freeWord (s.fresh + 1)).setWidth 32
  let s := { s with fresh := s.fresh + 2 }
  let s := s.modVg n (fun v => { v with
    isOpen := true, inc := v.inc + 1, nonce := nonce, nonceE := nonceE
    keyRx := trafficKey key nonce nonceE 1, keyTx := trafficKey key nonce nonceE 2, recent := (nonce :: v.recent).take 16, delivered := false
    rxNext := isn.toNat, txNext := isnE.toNat, rxUnrel := none, txUnrel := 1, held := [], unacked := [], owed := 0
    lines := 0, ulimit := 0, srtt := none, rto := 3000000, lastTx := s.datum, lastRx := s.datum, ackDue := false
    ctl := [], upd := [] })
  let s := s.grantCredit p
  let v := s.vg n
  let body := leBytes 7 nonceE.toNat ++ [0] ++ leBytes 7 nonce.toNat ++ [0] ++ leBytes 4 isnE.toNat ++ List.replicate 12 0
  let head := vgHeader 4 false false n 2 48 0 isn (s.climit n) v.ulimit 0
  let bytes := head ++ body ++ vgMac key 0xFFFFFFF2 nonceE (head ++ body)
  let s := s.modVg n (fun v => { v with accept := bytes, ackDue := false })
  let s := s.trace 7 1 (some p) none n 0 0
  (s.vgTransmit n bytes).countEvent 0x60 n (some p) 1

/-- R407: OPEN; `auth` of the header: its MAC verifies. -/
def State.vgOpen (s : State) (n : Fin 256) (h : VHdr) (nonce : BitVec 56) (isn : W32) (resv : Bool) : State :=
  match s.sessCfg n with
  | none => s
  | some (p, c) =>
    let v := s.vg n
    if h.bad || h.enc || resv then s.vgDrop n
    else match s.vgKey c.key with
      | none => s.closeBare n 1
      | some key =>
        if !h.auth then s.vgDrop n
        else if (s.parcel p).state = .building then s.closeBare n 6
        else if v.isOpen && decide (v.nonce = nonce) && !v.delivered then
          ((s.modVg n (fun v => { v with lastRx := s.datum, lastTx := s.datum })).vgTransmit n v.accept).countEvent 0x60 n (some p) 1
        else if v.recent.contains nonce then s
        else (s.closeSession n 5).openSession p n key nonce isn

/-! Receipt (R400, R403). -/

/-- A message of a partner matched to its session. -/
def State.vgReceive (s : State) (h : VHdr) (m : VMsg) : State :=
  let n := h.sid
  match s.sessCfg n with
  | none => s
  | some (_, c) =>
    match m with
    | .opening nonce isn resv => s.vgOpen n h nonce isn resv
    | _ =>
      let v := s.vg n
      if !vgHeaderOk c h || !v.isOpen then s.vgDrop n
      else match m with
        | .body b => (s.modVg n (fun v => { v with lastRx := s.datum })).vgReliableIn n h b
        | .close _ resv =>
          if c.enc && !v.unrelNew h.seq then s
          else if resv then s.vgDrop n
          else (s.modVg n (fun v => { v.takeUnrel h.seq with lastRx := s.datum })).closeSession n 0
        | .ack blocks resv =>
          if c.enc && !v.unrelNew h.seq then s
          else if resv || decide (64 < blocks.length) then s.vgDrop n
          else (s.modVg n (fun v => { v.takeUnrel h.seq with lastRx := s.datum })).vgAcked n h.ack blocks
        | .opening _ _ _ => s

/-- R375, R400, R430: a message reaches its session through a sub-port that receives. -/
def State.vgRow (s : State) (h : VHdr) (m : VMsg) : State :=
  match s.sessCfg h.sid with
  | some (_, c) => if s.subReceives c.subport then s.vgReceive h m else s
  | none => s

/-- R406, R407 OPEN. -/
def execSessOpen (h : VHdr) (nonce : BitVec 56) (isn : W32) (resv : Bool) (s : State) : Out :=
  .next (s.vgRow h (.opening nonce isn resv))

/-- R425, R426 CLOSE. -/
def execSessClose (h : VHdr) (code : Byte) (resv : Bool) (s : State) : Out := .next (s.vgRow h (.close code resv))

/-- R418 to R420 ACK. -/
def execSessAck (h : VHdr) (blocks : List (W32 × W32)) (resv : Bool) (s : State) : Out :=
  .next (s.vgRow h (.ack blocks resv))

/-- R411 to R414 RANK. -/
def execRank (h : VHdr) (b : WorkBody) (s : State) : Out := .next (s.vgRow h (.body (.rank b)))

/-- R411 to R414 GATHER. -/
def execGather (h : VHdr) (b : WorkBody) (s : State) : Out := .next (s.vgRow h (.body (.gather b)))

/-- R411, R415 UPDATE. -/
def execUpdate (h : VHdr) (body : List Byte) (s : State) : Out := .next (s.vgRow h (.body (.update body)))

/-- R411, R416 ORDER. -/
def execOrder (h : VHdr) (desc : List Byte) (s : State) : Out := .next (s.vgRow h (.body (.order desc)))

/-- R411, R416 STAGE. -/
def execStage (h : VHdr) (w : WinBody) (data : List Byte) (s : State) : Out := .next (s.vgRow h (.body (.stage w data)))

/-- R411, R416 PUSH. -/
def execPush (h : VHdr) (w : WinBody) (len : W32) (s : State) : Out := .next (s.vgRow h (.body (.push w len)))

/-! Timers (R418 to R420). -/

/-- R420 RETRANSMIT_TIMEOUT: the deadline of a message expires. -/
def execRetransmitTimeout (sid : Fin 256) (seq : W32) (t : Nat) (s : State) : Out :=
  let s := s.at t
  let v := s.vg sid
  match v.unacked.find? (fun u => decide (BitVec.ofNat 32 u.seq = seq)) with
  | none => .next s
  | some u =>
    if !v.isOpen ∨ s.datum < u.deadline then .next s
    else if 8 ≤ u.resent then .next (s.closeSession sid 3)
    else .next (s.vgResend sid u (min 20000000 (2 * u.rto)) false)

/-- R418 ACK_DELAY_EXPIRY: what the partner has not been told goes out in an ACK. -/
def execAckDelayExpiry (sid : Fin 256) (t : Nat) (s : State) : Out :=
  let s := s.at t
  if (s.vg sid).isOpen && (s.vg sid).ackDue then .next (s.vgAck sid) else .next s

/-- R418 KEEPALIVE: 100 ms without a message sent. -/
def execKeepalive (sid : Fin 256) (t : Nat) (s : State) : Out :=
  let s := s.at t
  if (s.vg sid).isOpen && decide ((s.vg sid).lastTx + 100000000 ≤ s.datum) then .next (s.vgAck sid) else .next s

/-- R419 IDLE_TIMEOUT: 2 s without a valid message of the partner. -/
def execIdleTimeout (sid : Fin 256) (t : Nat) (s : State) : Out :=
  let s := s.at t
  if (s.vg sid).isOpen && decide ((s.vg sid).lastRx + 2000000000 ≤ s.datum) then .next (s.closeSession sid 4) else .next s

end Sys2Proof.Machine
end

