-- ==== Sys2Proof/Machine/OrderRows.lean ====
section
/-! DEFINITION. The commands that give an order, and those that end one (R116, R117, R330, R512). -/

namespace Sys2Proof.Machine

/-- R117: an order is written into the window of accessor `a` (0 the management plane, 1 + f function f) and given,
unless one is in progress there. -/
def State.windowOrder (s : State) (a : Nat) (src : Source) (id : W64) (o : Option (Order × Bool)) (same : Bool) : State :=
  if (s.ord a).busy then
    s.log { logEntry s 0x0202 with unit := if a = 0 then 0xFFFF else BitVec.ofNat 16 (a - 1) }
  else (((s.modOrd a (fun w => { w with busy := true })).takeOrder src id 0 o same)).pump

/-- Whether the front end runs: not before start-up step 6, nor halted (R514, R517). -/
def State.awake (s : State) : Bool :=
  match s.dev with
  | .running | .unlasted | .retired => true
  | _ => false

/-- R117, R118: an order of a row, by its source. A session's order is its CONTROL request in progress, answered under the
number of its last delivered message. -/
def State.rowOrder (s : State) (h : OrdHdr) (o : Order) : State :=
  let o' := some (o, !h.resv)
  if !s.awake then s
  else match h.src with
  | .mgmt p => s.windowOrder 0 (.mgmt p) h.id o' h.same
  | .fn f => s.windowOrder (1 + f) (.fn f) h.id o' h.same
  | .sess n =>
    let v := s.vg n
    if !v.isOpen ∨ s.ingressBusy n then s
    else
      let s := s.modVg n (fun v => { v with
        ctlBusy := true, ctl := (BitVec.ofNat 32 (v.rxNext - 1), .order []) :: v.ctl })
      (s.takeOrder (.sess n) h.id v.inc o' h.same).pump

/-- R130, R139, R364, R369 LAUNCH_DESCRIPTOR_READ: it waits while the Welt is disabled or writes back. -/
def execLaunchDescriptorRead (p : Fin 16) (q : Fin 32) (desc patch : List Byte) (host : HostRead) (s : State) : Out :=
  if s.host.disabled ∨ s.host.flushing ∨ (s.oldestUnread p q).isNone then .next s
  else .next ((s.noteTook p host.took).readDescriptor p q desc patch host.poison).pump

/-- R119 GRAPH_LOAD. -/
def execGraphLoad (o : OrdHdr) (slot ctx seg : Byte) (off len : W64) (s : State) : Out :=
  .next (s.rowOrder o (.graphLoad slot.toNat ctx.toNat seg.toNat off.toNat len.toNat))

/-- R119, R151, R160 GRAPH_LOAD_COMPLETE. An image in host memory waits while the Welt is disabled or writes back (R369). -/
def execGraphLoadComplete (p : Fin 16) (slot : Fin 64) (img : HostImage) (s : State) : Out :=
  let host := match ((s.parcel p).gslot slot).window with | some w => decide (w.target = 1) | none => false
  if s.cellsTested p ∨ (host = true ∧ (s.host.disabled ∨ s.host.flushing)) then .next s
  else .next (s.loadComplete p slot img).pump

/-- R121 GRAPH_UNLOAD. -/
def execGraphUnload (o : OrdHdr) (slot : Byte) (s : State) : Out := .next (s.rowOrder o (.graphUnload slot.toNat))

/-- R121 GRAPH_UNLOAD_COMPLETE. -/
def execGraphUnloadComplete (p : Fin 16) (slot : Fin 64) (s : State) : Out :=
  if s.cellsTested p then .next s else .next (s.unloadComplete p slot).pump

/-- R123 QUEUE_BIND. -/
def execQueueBind (o : OrdHdr) (q slot mode : Byte) (count : W16) (s : State) : Out :=
  .next (s.rowOrder o (.queueBind q.toNat slot.toNat mode.toNat count.toNat))

/-- R124 QUEUE_UNBIND. -/
def execQueueUnbind (o : OrdHdr) (q : Byte) (s : State) : Out := .next (s.rowOrder o (.queueUnbind q.toNat))

/-- R124, R159 QUEUE_UNBIND_COMPLETE. -/
def execQueueUnbindComplete (p : Fin 16) (q : Fin 32) (s : State) : Out := .next (s.unbindComplete p q).pump

/-- R136 QUEUE_TIMEOUT. -/
def execQueueTimeout (o : OrdHdr) (q : Byte) (ns : W64) (s : State) : Out :=
  .next (s.rowOrder o (.queueTimeout q.toNat ns.toNat))

/-- R125 QUEUE_RINGS. -/
def execQueueRings (o : OrdHdr) (q ctx seg : Byte) (count : W16) (sq cq vec : W64) (s : State) : Out :=
  .next (s.rowOrder o (.queueRings q.toNat ctx.toNat seg.toNat count.toNat sq.toNat cq.toNat vec.toNat))

/-- R511 QUEUE_RESET. -/
def execQueueReset (o : OrdHdr) (q : Byte) (s : State) : Out := .next (s.rowOrder o (.queueReset q.toNat))

/-- R142 CANCEL. -/
def execCancel (o : OrdHdr) (q : Byte) (tag : W64) (s : State) : Out := .next (s.rowOrder o (.cancel q.toNat tag))

/-- R75 QUIESCE. -/
def execQuiesce (o : OrdHdr) (s : State) : Out := .next (s.rowOrder o .quiesce)

/-- R75 RESUME. -/
def execResume (o : OrdHdr) (s : State) : Out := .next (s.rowOrder o .resume)

/-- R76 PARCEL_QUIET: a DRAINING parcel with nothing in flight is QUIET. -/
def execParcelQuiet (p : Fin 16) (s : State) : Out :=
  if s.isQuiet p && !s.cellsTested p then .next (s.modParcel p (fun x => { x with state := .quiet, drained := false })) else .next s

/-- R330, R331 SEG_SET. -/
def execSegSet (o : OrdHdr) (ctx seg mode : Byte) (count : W16) (vbase tbase limit : W64) (s : State) : Out :=
  .next (s.rowOrder o (.segSet ctx.toNat seg.toNat mode.toNat count.toNat vbase.toNat tbase.toNat limit.toNat))

/-- R330 SEG_CLEAR. -/
def execSegClear (o : OrdHdr) (ctx seg : Byte) (s : State) : Out := .next (s.rowOrder o (.segClear ctx.toNat seg.toNat))

/-- R330 CTX_CLEAR. -/
def execCtxClear (o : OrdHdr) (ctx : Byte) (s : State) : Out := .next (s.rowOrder o (.ctxClear ctx.toNat))

/-- R342 SEG_FENCE. -/
def execSegFence (o : OrdHdr) (mode : Byte) (base len : W64) (s : State) : Out :=
  .next (s.rowOrder o (.segFence mode.toNat base.toNat len.toNat))

/-- R342 SEG_FENCE_COMPLETE: the first fence that nothing holds up completes. -/
def execSegFenceComplete (p : Fin 16) (s : State) : Out := .next (s.fenceComplete p).pump

/-- R512, R513 PARCEL_RESET. -/
def execParcelReset (o : OrdHdr) (mode : Byte) (s : State) : Out := .next (s.rowOrder o (.parcelReset mode.toNat))

/-- R513 PARCEL_RESET_COMPLETE. -/
def execParcelResetComplete (p : Fin 16) (s : State) : Out :=
  if s.cellsTested p then .next s else .next (s.resetComplete p).pump

end Sys2Proof.Machine
end

