-- ==== Sys2Proof/Machine/Power.lean ====
section
/-! DEFINITION. Temperature and power: sensors, throttling of cells and stacks, the power limiter, the thermal emergency,
hard shutdown and the rails (R458 to R478, R577 to R583). Temperatures are in units of 0.125 °C. -/

namespace Sys2Proof.Machine

/-! Parts. -/

/-- What the throttle keeps of an unlisted stack. -/
def ThStack.zero : ThStack := {}
/-- What the throttle keeps of stack k. -/
def State.thStack (s : State) (k : Nat) : ThStack := spGet ThStack.zero s.th.stks k
/-- Changes what the throttle keeps of stack k. -/
def State.modStack (s : State) (k : Nat) (f : ThStack → ThStack) : State :=
  { s with th := { s.th with stks := spMod ThStack.zero s.th.stks k f } }
/-- Changes what the throttle keeps of cell n. -/
def State.modThCell (s : State) (n : Nat) (f : ThCell → ThCell) : State :=
  { s with th := { s.th with cells := spMod ThCell.zero s.th.cells n f } }

/-- Sensor j of stack k. -/
def State.stackSensor (s : State) (k j : Nat) : Int := meanOf (spGet [] (s.thStack k).temps j)
/-- The reading of a stack: the highest of its four sensors. -/
def State.stackTemp (s : State) (k : Nat) : Int := highest ((List.range 4).map (s.stackSensor k))
/-- Sensor j of the hub die. -/
def State.hubSensor (s : State) (j : Nat) : Int := meanOf (spGet [] s.th.hub j)
/-- The reading of the hub die. -/
def State.hubTemp (s : State) : Int := highest ((List.range 4).map s.hubSensor)
/-- Regulator sensor v. -/
def State.vrTemp (s : State) (v : Nat) : Int := meanOf (spGet [] s.th.vr v)
/-- The hottest regulator. -/
def State.vrHottest (s : State) : Int := highest ((List.range 8).map s.vrTemp)
/-- The coolant reading. -/
def State.coolTemp (s : State) : Int := meanOf s.th.cool

/-- A reading as a signed 16-bit register value (R477). -/
def temp16 (t : Int) : Nat := (BitVec.ofInt 16 t).toNat

/-- The assembly is cooled by immersion (R2, R560). -/
def State.immersed (s : State) : Bool := decide (s.mg.assembly.toNat % 2 = 0)
/-- The assembly is a sled (R574). -/
def State.sled (s : State) : Bool := decide (3 ≤ s.mg.assembly.toNat)

/-- R170: a cell with no loaded graph is gated. -/
def Cell.gated (c : Cell) : Bool := c.graph.isNone
/-- The floor of a cell's parcel. -/
def State.floorOf (s : State) (n : Nat) : Nat := match (s.cell n).parcel with | some p => (s.parcel p).cfg.floorClk | none => 0
/-- The target of a cell's parcel. -/
def State.targetOf (s : State) (n : Nat) : Nat := match (s.cell n).parcel with | some p => (s.parcel p).cfg.targetClk | none => 0
/-- The cells that are not gated, ascending. -/
def State.ungated (s : State) : List Nat := (List.range 128).filter (fun n => !(s.cell n).gated)

/-- Whether the main rails are up and the clocks run. -/
def State.powered (s : State) : Bool :=
  match s.dev with
  | .off | .halted => false
  | .starting k => decide (1 ≤ k)
  | _ => true

/-- The 1 ms average of input power (R459), W. -/
def State.powerAvg (s : State) : Nat := if s.th.power.isEmpty then 0 else s.th.power.foldl (· + ·) 0 / s.th.power.length

/-- R471, R577: the input capacity of a card, W. -/
def State.capacity (s : State) : Option Nat := s.th.capacity.map (fun c => 66 + c.1 + c.2)

/-- R472: the effective limit, W. -/
def State.effLimit (s : State) : Nat :=
  let a := s.th.limit.toNat
  let b := match s.capacity with | some c => min a c | none => a
  let c := if s.th.vrDerate then min b 900 else b
  let overAt := ((s.coolTemp - 400) / 8).toNat
  if s.immersed && decide (400 < s.coolTemp) then min c (max 600 (1150 - 25 * overAt)) else c

/-! Clock changes (R463, R467, R540). -/

/-- R467: an entry into the emergency: its log entry, count and alert. -/
def State.enterEmergency (s : State) (kind unit : Nat) (reading : Nat) : State :=
  let s := s.log { logEntry s 0x0A03 with
    aux := BitVec.ofNat 8 kind, unit := BitVec.ofNat 16 unit, arg := BitVec.ofNat 64 reading }
  { s with th := { s.th with emergs := satAdd32 s.th.emergs 1 } }.alert 1 0x0A03

/-- A cell's clock takes a code, its die's rail first where it rises and last where it falls (R581); the trace record names
the reason: 1 thermal, 2 power limiter, 3 rise, 4 build, 5 emergency. -/
def State.setClock (s : State) (n code reason : Nat) : State :=
  let s := ((s.raiseDie n code).modCell n (fun c => { c with clk := code })).fallDie (n / 32)
  let s := s.modThCell n (fun h => if reason = 3 then { h with rise := some s.datum } else { h with low := some s.datum })
  s.trace 8 1 ((s.cell n).parcel.map (·.val)) none n (code + 256 * reason) 0

/-- R107, R467: the instance on a cell that falls below its floor is thermal. -/
def State.markThermal (s : State) (n : Nat) : State :=
  match (s.cell n).inst with
  | some i => s.modInst i (fun x => { x with thermal := true })
  | none => s

/-- R466, R474: a cell falls a step below its floor. -/
def State.fallBelow (s : State) (n : Nat) : State :=
  let s := ((s.setClock n ((s.cell n).clk - 1) 5).modThCell n (fun h => { h with emerg := true })).markThermal n
  { s with lc := { s.lc with below := s.lc.below ||| (1#128 <<< n) } }

/-! Cells (R462, R463, R466). -/

/-- R462: whether a cell is a candidate. -/
def State.throttles (s : State) (n : Nat) : Bool :=
  let t := s.cellTemp n
  let k := (s.cell n).clk
  (decide (760 ≤ t) && decide (s.floorOf n < k)) || (decide (800 ≤ t) && decide (k ≤ s.floorOf n) && decide (0 < k))

/-- The number of the highest value of a function over a list, the first winning a tie. -/
def argMax (f : Nat → Int) : List Nat → Option Nat
  | [] => none
  | a :: t => match argMax f t with
    | none => some a
    | some b => if f a < f b then some b else some a

/-- Whether `d` ns have passed since an instant; true where there was none. -/
def since (now : Nat) (o : Option Nat) (d : Nat) : Bool := match o with | some a => decide (a + d ≤ now) | none => true

/-- R462, R467 CELL_THROTTLE_STEP: the hottest candidate is lowered one step; one step per 2 µs. -/
def execCellThrottleStep (t : Nat) (s : State) : Out :=
  let s := s.at t
  if !s.powered ∨ !since s.datum s.th.lastCell 2000 then .next s
  else match argMax s.cellTemp (s.ungated.filter s.throttles) with
    | none => .next s
    | some n =>
      let s := { s with th := { s.th with lastCell := some s.datum } }
      if s.floorOf n < (s.cell n).clk then .next (s.setClock n ((s.cell n).clk - 1) 1)
      else
        let new := !(s.thCell n).emerg
        let s := s.fallBelow n
        .next (if new then s.enterEmergency 1 n (temp16 (s.cellTemp n)) else s)

/-- R473, R474: the average has stayed 50 W below the effective limit for 10 ms. -/
def State.subsided (s : State) : Bool := match s.th.under with | some a => decide (a + 10000000 ≤ s.datum) | none => false

/-- R463, R466, R474: whether a cell rises now. -/
def State.rises (s : State) (n : Nat) : Bool :=
  let h := s.thCell n
  let c := s.cell n
  let t := s.cellTemp n
  if c.clk < s.floorOf n then
    if s.th.pemerg then s.subsided && since s.datum h.rise 1000000 && decide (t < 776)
    else decide (t < 776) && since s.datum h.rise 20000
  else decide (c.clk < s.targetOf n) && decide (t < 736) && !h.held && !s.th.pemerg && since s.datum h.low 1000000
    && since s.datum h.rise 1000000

/-- R466: a cell at its floor is out of the emergency. -/
def State.leaveEmergency (s : State) (n : Nat) : State :=
  if s.floorOf n ≤ (s.cell n).clk then s.modThCell n (fun h => { h with emerg := false }) else s

/-- R463, R466, R474 CELL_CLOCK_RISE: every cell that may rise does, one step; the power emergency ends with the last
cell at its floor. -/
def execCellClockRise (t : Nat) (s : State) : Out :=
  let s := s.at t
  if !s.powered then .next s
  else
    let s := (s.ungated.filter s.rises).foldl (fun s n => (s.setClock n ((s.cell n).clk + 1) 3).leaveEmergency n) s
    if s.th.pemerg && s.subsided && s.ungated.all (fun n => decide (s.floorOf n ≤ (s.cell n).clk)) then
      .next { s with th := { s.th with pemerg := false } }
    else .next s

/-! Stacks (R444, R465). -/

/-- R436, R444: the cap steps of stack k that reach no parcel's share: the slots beyond every SHARE, in sixteenths. -/
def State.capFree (s : State) (k : Nat) : Nat :=
  let held := s.parcels.foldl (fun n e => if e.2.state = .absent then n else n + e.2.cfg.share.getD k 0) 0
  (32 - held) / 2

/-- Whether the cap of a stack can still tighten. -/
def State.canTighten (s : State) (k : Nat) : Bool :=
  let t := s.stackTemp k
  let h := s.thStack k
  decide (720 ≤ t) && (decide (h.cap < s.capFree k) || (decide (800 ≤ t) && decide (h.cap < s.capFree k + 12)))

/-- R465, R467 STACK_CAP_STEP: the hottest stack whose cap can tighten takes a step; one step per 100 µs. -/
def execStackCapStep (t : Nat) (s : State) : Out :=
  let s := s.at t
  if !s.powered ∨ !since s.datum s.th.lastCap 100000 then .next s
  else match argMax s.stackTemp ((List.range 8).filter s.canTighten) with
    | none => .next s
    | some k =>
      let s := { s with th := { s.th with lastCap := some s.datum } }
      let h := s.thStack k
      let deep := decide (s.capFree k ≤ h.cap)
      let s := s.modStack k (fun h => { h with cap := h.cap + 1, emerg := h.emerg || deep })
      .next (if deep && !h.emerg then s.enterEmergency 2 k (temp16 (s.stackTemp k)) else s)

/-- R465, R466 STACK_CAP_RELEASE: each cooled stack releases a step, one per 1 ms. -/
def execStackCapRelease (t : Nat) (s : State) : Out :=
  let s := s.at t
  if !s.powered then .next s
  else
    let may (k : Nat) : Bool :=
      let h := s.thStack k
      decide (0 < h.cap) && since s.datum h.release 1000000 && decide (s.stackTemp k < (if h.emerg then 776 else 696))
    .next (((List.range 8).filter may).foldl (fun s k =>
      let free := s.capFree k
      s.modStack k (fun h => { h with
        cap := h.cap - 1, release := some s.datum, emerg := h.emerg && decide (free < h.cap - 1) })) s)

/-! Power (R472 to R474). -/

/-- R473 POWER_LIMITER_STEP: over the limit, every cell above its floor is lowered and held; in the power emergency every
cell is lowered. One step per 50 µs. -/
def State.limiterStep (s : State) : State :=
  if s.powerAvg ≤ s.effLimit ∨ !since s.datum s.th.lastStep 50000 then s
  else
    let s := { s with th := { s.th with lastStep := some s.datum } }
    if s.th.pemerg then (s.ungated.filter (fun n => decide (0 < (s.cell n).clk))).foldl (fun s n =>
      if s.floorOf n < (s.cell n).clk then s.setClock n ((s.cell n).clk - 1) 2 else s.fallBelow n) s
    else (s.ungated.filter (fun n => decide (s.floorOf n < (s.cell n).clk))).foldl (fun s n =>
      (s.setClock n ((s.cell n).clk - 1) 2).modThCell n (fun h => { h with held := true })) s

/-- R473, R474 POWER_LIMITER_STEP. -/
def execPowerLimiterStep (t : Nat) (s : State) : Out :=
  let s := s.at t
  if !s.powered then .next s else .next s.limiterStep

/-- R474 POWER_EMERGENCY: 2 ms over the limit with every cell at or below its floor. -/
def execPowerEmergency (t : Nat) (s : State) : Out :=
  let s := s.at t
  match s.th.overAt with
  | some a =>
    if !s.powered ∨ s.th.pemerg ∨ s.datum < a + 2000000 then .next s
    else .next ({ s with th := { s.th with pemerg := true } }.enterEmergency 0 0 s.powerAvg).limiterStep
  | none => .next s

/-- R459, R473, R474: the conditions that the average must hold are timed from each sample. -/
def State.timePower (s : State) : State :=
  let avg := s.powerAvg
  let low := decide (avg + 50 ≤ s.effLimit)
  let high := decide (s.effLimit < avg) && s.ungated.all (fun n => decide ((s.cell n).clk ≤ s.floorOf n))
  let keep (b : Bool) (o : Option Nat) : Option Nat := if b then some (o.getD s.datum) else none
  let s := { s with th := { s.th with
    under := keep low s.th.under, overAt := keep high s.th.overAt, peak := BitVec.ofNat 32 (max s.th.peak.toNat avg) } }
  if s.subsided then (List.range 128).foldl (fun s n => s.modThCell n (fun h => { h with held := false })) s else s

/-! Hard shutdown and loss of the main rails (R469, R470, R580, R582). -/

/-- The wear store's running values go back to what was committed (R500). -/
def We.reload (w : We) : We := { w with units := w.stUnits, life := w.stLife }

/-- What the loss of the main rails leaves: the management plane, the error log, the sticky block, and what is kept in
non-volatile memory. -/
def State.dropMain (s : State) : State :=
  { s with
    tk := {}, cells := [], parcels := [], insts := [], lc := {}, cyc := {}, ords := [], sv := {}, ob := {}
    stk := { loss := s.stk.loss, lossDatum := s.stk.lossDatum, pprUsed := s.stk.pprUsed }
    img := { slotA := s.img.slotA, slotB := s.img.slotB, badA := s.img.badA, badB := s.img.badB, floor := s.img.floor
             floorOld := s.img.floorOld }
    net := { mods := s.net.mods }
    host := { perst := s.host.perst, masked := s.host.masked }
    th := { hotstop := s.th.hotstop, hotstopDatum := s.th.hotstopDatum, hotstopPin := s.th.hotstopPin, cyc := s.th.cyc
            capacity := s.th.capacity }
    we := s.we.reload
    mg := { s.mg with owner := none, rails := false } }

/-- R469, R470, R525: a hard shutdown by a list of units (kind, index, reading), the one to record first. -/
def State.hardShutdown (s : State) (units : List (Nat × Nat × Nat)) : State :=
  match units with
  | [] => s
  | (kind, index, temp) :: _ =>
    let s := units.foldl (fun s u => s.log { logEntry s 0x0A04 with
      cls := 4, aux := BitVec.ofNat 8 u.1, unit := BitVec.ofNat 16 u.2.1, arg := BitVec.ofNat 64 u.2.2 }) s
    let s := { s with th := { s.th with
      hotstop := BitVec.ofNat 32 (2 ^ 31 + kind * 2 ^ 24 + index % 256 * 2 ^ 16 + temp % 65536)
      hotstopDatum := BitVec.ofNat 64 s.datum, hotstopPin := true } }
    { s.dropMain with
      mg := { s.dropMain.mg with owner := if s.img.on then some s.img.cfg.mgmtEid else s.mg.owner } }.toDev .halted

/-- R468, R470: the units at their shutdown level, in the order of R470. -/
def State.overLimit (s : State) : List (Nat × Nat × Nat) :=
  let pick (kind n : Nat) (f : Nat → Int) (lim : Int) : List (Nat × Nat × Nat) :=
    ((List.range n).filter (fun i => decide (lim ≤ f i))).map (fun i => (kind, i, temp16 (f i)))
  pick 1 128 s.cellTemp 880 ++ pick 2 8 s.stackTemp 840 ++ pick 3 1 (fun _ => s.hubTemp) 880 ++ pick 4 8 s.vrTemp 1000

/-- R582 RAIL_FAULT: a stage of R580, 1 to 6, or compute dies 7 to 10. -/
def execRailFault (stage : Fin 11) (s : State) : Out :=
  match s.dev with
  | .off | .halted => .next s
  | _ => if stage.val = 0 then .next s else .next (s.hardShutdown [(4, 0x80 + stage.val, temp16 s.vrHottest)])

/-- R578, R580: the main rails go; their return is a cold reset. -/
def State.loseMain (s : State) : State :=
  match s.dev with
  | .off => s
  | .halted => { s with mg := { s.mg with rails := false } }
  | _ => s.dropMain.toDev .off

/-- R578 MAIN_INPUT_LOSS. -/
def execMainInputLoss (s : State) : Out := .next s.loseMain

/-- R583 PWR_EN_LOW: on a sled, as a loss of the main input. -/
def execPwrEnLow (s : State) : Out := if s.sled then .next s.loseMain else .next s

/-- R577 CBL_PRES_DEASSERT: the capacity of a connector goes while the core rails are up. -/
def execCblPresDeassert (c : Fin 2) (s : State) : Out :=
  if !s.powered then .next s
  else .next { s with th := { s.th with
    capacity := s.th.capacity.map (fun x => if c = 0 then (0, x.2) else (x.1, 0)) } }

/-! Sampling (R443, R458, R459, R461, R468, R472, R476). -/

/-- A sensor takes a sample: its last four are kept. -/
def pushSample (x : W16) (l : List Int) : List Int := (x.toInt :: l).take 4

/-- R458, R459: the samples of one instant. -/
def State.takeSamples (s : State) (m : Sample) : State :=
  let s := m.cells.foldl (fun s e => s.modThCell e.1 (fun h => { h with temps := pushSample e.2 h.temps })) s
  let s := m.stks.foldl (fun s e =>
    s.modStack e.1.1 (fun h => { h with temps := spMod [] h.temps e.1.2 (pushSample e.2) })) s
  { s with th := { s.th with
    hub := m.hub.foldl (fun t e => spMod [] t e.1 (pushSample e.2)) s.th.hub
    vr := m.vr.foldl (fun t e => spMod [] t e.1 (pushSample e.2)) s.th.vr
    cool := match m.cool with | some x => pushSample x s.th.cool | none => s.th.cool
    power := match m.power with
      | some (a, b, c) => ((a.toNat + b.toNat + c.toNat) :: s.th.power).take 100
      | none => s.th.power
    ins := match m.power with
      | some (a, b, c) => [a.toNat, b.toNat, c.toNat]
      | none => s.th.ins } }

/-- R443: refresh doubles at 85 °C and returns below 82 °C. -/
def State.refreshRate (s : State) : State :=
  let r := (List.range 8).foldl (fun (r : Byte) k =>
    let b : Byte := 1#8 <<< k
    if 680 ≤ s.stackTemp k then r ||| b else if s.stackTemp k < 656 then r &&& ~~~b else r) s.stk.refx2
  { s with stk := { s.stk with refx2 := r } }

/-- R472: regulator derating from 115 °C until every reading is below 110 °C. -/
def State.derate (s : State) : State :=
  let t := (List.range 8).map s.vrTemp
  { s with th := { s.th with
    vrDerate := t.any (fun x => decide (920 ≤ x)) || (s.th.vrDerate && t.any (fun x => decide (880 ≤ x))) } }

/-- R460, R461, R468: the coolant and hub-die alerts. -/
def State.coolAlerts (s : State) : State :=
  let t := s.coolTemp
  let top : Int := if s.immersed then 400 else 360
  let hot := decide (top < t)
  let rise := hot && !s.th.coolHot
  let s := { s with th := { s.th with
    coolOut := !s.th.cool.isEmpty && (hot || decide (t < 160)), coolHot := hot } }
  let s := if rise then (s.log { logEntry s 0x0A01 with arg := BitVec.ofNat 64 (temp16 t) }).alert 7 0x0A01 else s
  let h := s.hubTemp
  let hub := decide (800 ≤ h)
  let riseH := hub && !s.th.hubHot
  let s := { s with th := { s.th with hubHot := hub } }
  if riseH then (s.log { logEntry s 0x0A02 with arg := BitVec.ofNat 64 (temp16 h) }).alert 8 0x0A02 else s

/-- R476: one unit's filtered reading moves its cycle counter: the bin of a cycle that ends. -/
def ThTrack.step (k : ThTrack) (x : Int) : ThTrack × Option Nat :=
  match k.low, k.peak with
  | none, _ => ({ low := some x, peak := none }, none)
  | some m, none =>
    if x < m then ({ low := some x, peak := none }, none)
    else if m + 160 ≤ x then ({ low := some m, peak := some x }, none)
    else (k, none)
  | some m, some p =>
    if p < x then ({ low := some m, peak := some x }, none)
    else if x ≤ p - 160 then
      ({ low := some x, peak := none }, some (if p - m < 320 then 0 else if p - m < 480 then 1 else 2))
    else (k, none)

/-- R476: the cycles that filtered readings complete are counted. -/
def State.countCycles (s : State) (l : List (Fin 137 × Int)) : State :=
  l.foldl (fun s e =>
    let (k, bin) := (spGet {} s.th.track e.1).step e.2
    { s with th := { s.th with
      track := spPut {} k e.1 s.th.track
      cyc := match bin with
        | some b => spMod 0 s.th.cyc (e.1 * 3 + b) (fun n => satAdd32 n 1)
        | none => s.th.cyc } }) s

/-- The reading of unit u: cells, stacks, the hub die. -/
def State.unitTemp (s : State) (u : Nat) : Int :=
  if u < 128 then s.cellTemp u else if u < 136 then s.stackTemp (u - 128) else s.hubTemp

/-- An unlisted unit of the wear store. -/
def WeUnit.zero : WeUnit := {}

/-- R501: readings and clock codes add to the present hour. -/
def State.addWear (s : State) : State :=
  { s with we := { s.we with units := (List.range 137).foldl (fun m u =>
    let live := decide (128 ≤ u) || !(s.cell u).gated
    spMod WeUnit.zero m u (fun w => { w with
      tempSum := w.tempSum + s.unitTemp u, samples := w.samples + 1
      clkSum := w.clkSum + (if u < 128 then (s.cell u).clk else 0)
      awake := w.awake + live.toNat })) s.we.units } }

/-- R458, R459, R461, R468 to R470, R476 SENSOR_SAMPLE. -/
def execSensorSample (t : Nat) (smp : Sample) (s : State) : Out :=
  let s := s.at t
  if !s.powered then .next s
  else
    let s := (((((s.takeSamples smp).refreshRate).derate).coolAlerts).countCycles smp.filtered).addWear.timePower
    .next (s.hardShutdown s.overLimit)

end Sys2Proof.Machine
end

