-- ==== Sys2Proof/Machine/Clock.lean ====
section
/-! DEFINITION. What passes with time alone: one hub-die cycle of 1.2 GHz (R31, R43, R168, R170, R391, R544, R546). -/

namespace Sys2Proof.Machine

/-- R43, R168, R170: one hub-die cycle at a cell whose clock runs at code c: 10 + c thirtieths of a cycle of its own. -/
def Cell.tickCycle (c : Cell) : Cell × Bool :=
  let f := c.cycleFrac + 10 + c.clk
  if 30 ≤ f then ({ c with cycle := c.cycle + 1, cycleFrac := f - 30 }, true) else ({ c with cycleFrac := f }, false)

/-- R192, R544: one hub-die cycle at cell n: it and its counters advance unless it is gated. -/
def State.cellCycle (s : State) (n : Nat) : State :=
  let c := s.cell n
  if c.gated && !s.testing n then s
  else
    let r := c.tickCycle
    let p := c.parcel.map (·.val)
    let s := s.setCell n r.1
    if !r.2 then s
    else
      let s := s.countEvent 0x10 n p 1
      if c.clk < s.floorOf n then s.countEvent 0x16 n p 1 else s

/-- R31, R86, R391, R546: the datum and the local time counter run 5/6 ns a cycle at the rate that the servo gives, in
parts of 1/(6 × 10^9) ns. -/
def State.datumCycle (s : State) : State :=
  let f := s.ob.frac + (5 * (1000000000 + s.net.ptp.freq)).toNat
  { s with
    datum := s.datum + f / 6000000000
    lc := { s.lc with ctr := s.lc.ctr + f / 6000000000 }
    ob := { s.ob with frac := f % 6000000000, cycle := s.ob.cycle + 1 } }

/-- One hub-die cycle with no command waiting; without the main rails nothing counts. -/
def State.idle (s : State) : State :=
  let s := { s with cyc := {} }
  if !s.powered then s
  else ((List.range 128).foldl (fun s n => s.cellCycle n) s.datumCycle).countEvent 1 0 none 1

end Sys2Proof.Machine
end

