-- ==== Sys2Proof/Machine/Upkeep.lean ====
section
/-! DEFINITION. Entry into RETIRED (R520, R525), and what the stacks do on their own: refresh, scrub, remap copies,
margining and loss (R443 to R454). -/

namespace Sys2Proof.Machine

/-! RETIRED (R144, R417, R519, R520). -/

/-- The reference of a session record is dropped: its report is sent. -/
def UpdRec.noReport (r : UpdRec) : UpdRec := { r with sess := none }

/-- R144, R415, R520: every order, request and update report of a parcel ends with RETIRED. -/
def State.retireParcel (s : State) (p : Nat) : State :=
  let s := (List.range 32).foldl (fun s q => s.flushQueue p q ccRetired 0)
    ((s.endWindow p).modParcel p (fun x => { x with inCompute := false }))
  let s := (s.instsOf p).foldl (fun s e => s.abortInst e.1 ccRetired 0) s
  let x := s.parcel p
  let s := x.slots.foldl (fun s e => match e.2.order with
    | some r =>
      let s := if e.2.state = .loading then s.emptySlot p e.1 else s.modSlot p e.1 (fun g => { g with order := none })
      s.orderResult p r ccRetired 0
    | none => s) s
  let s := x.queues.foldl (fun s e => match e.2.unbind with
    | some r => (s.modQueue p e.1 (fun y => { y with unbind := none })).orderResult p r ccRetired 0
    | none => s) s
  let s := x.fences.foldl (fun s f => s.orderResult p f.ref ccRetired 0) (s.modParcel p (fun x => { x with fences := [] }))
  let s := x.waits.foldl (fun s w => s.orderResult p w.ref ccRetired 0) (s.modParcel p (fun x => { x with waits := [] }))
  let s := x.resetting.foldl (fun s o => match o with | some r => s.orderResult p r ccRetired 0 | none => s)
    (s.modParcel p (fun x => { x with resetting := [] }))
  let log := (s.parcel p).log
  let s := s.modParcel p (fun x => { x with log := x.log.map UpdRec.noReport })
  log.foldl (fun s r => match r.sess with
    | some e => s.settleUpd e (some (updReport r.uid 0 s.datum ccRetired.toNat 0 0 0))
    | none => s) s

/-- R361, R520: every line of the Welt is written back or dropped. -/
def State.evictAll (s : State) : State := (s.host.lines.map (·.1)).foldl (fun s k => s.evict k) s

/-- R520: the E40 enters RETIRED; the cause of MG_RETIRE: 1 stack loss, 2 hub-die error, 3 self-test, 4 order. -/
def State.retire (s : State) (cause : Nat) : State :=
  if s.dev = .retired then s
  else
    let s := { s with tk := {}, mg := { s.mg with retire := BitVec.ofNat 8 cause }
                      img := { s.img with building := false } }
    let s := (s.toDev .retired).stopTrace
    let s := (s.parcels.map (·.1)).foldl (fun s p => s.retireParcel p) s
    let s := s.evictAll
    let s := s.log { logEntry s 0x1001 with cls := 4, aux := BitVec.ofNat 8 cause }
    (((s.alert 9 0x1001).allFnEvent 3).vgAlertAll 2).pump

/-- R522, R525 HUB_UNCORRECTABLE_ERROR: a device-fatal error of a hub-die structure. -/
def execHubUncorrectableError (unit : W16) (addr : W64) (s : State) : Out :=
  if !s.powered then .next s
  else
    let s := { s with er := { s.er with sramUe := satAdd32 s.er.sramUe 1 } }
    .next ((s.log { logEntry s 0x0D02 with cls := 4, unit := unit, arg := addr }).retire 2)

/-! Losing a stack (R453, R454). -/

/-- R454: a stack is lost; a loss already recorded stays. -/
def State.loseStack (s : State) (k chan cause : Nat) : State :=
  let s := { s with stk := { s.stk with lost := s.stk.lost ||| (1#8 <<< k) } }
  let s := if s.stk.loss.getLsbD 15 then s else { s with stk := { s.stk with
    loss := BitVec.ofNat 32 (2 ^ 15 + cause * 256 + chan * 16 + k), lossDatum := BitVec.ofNat 64 s.datum } }
  ((s.log { logEntry s 0x0904 with
    cls := 4, unit := BitVec.ofNat 16 k, aux := BitVec.ofNat 8 cause, arg := BitVec.ofNat 64 chan }).alert 3 0x0904).retire 1

/-- R453, R454 STACK_LOST, with a cause of SM_LOSS, 1 to 6. -/
def execStackLost (stack : Fin 8) (chan : Fin 16) (cause : Byte) (s : State) : Out :=
  if !s.powered ∨ s.stk.lost.getLsbD stack ∨ cause = 0 ∨ 6 < cause.toNat then .next s
  else .next (s.loseStack stack chan cause.toNat)

/-! Refresh, scrub, remap copies (R443, R447 to R449). -/

/-- R443 REFRESH: a bank is refreshed. -/
def execRefresh (stack : Fin 8) (pch : Fin 32) (_bank : Fin 16) (s : State) : Out :=
  if !s.powered then .next s else .next (s.countEvent 0x23 (stack * 32 + pch) none 1)

/-- R433: the device address whose byte lives at a place, in a range of origin O, granule g and stacks. -/
def addrAt (origin gran : Nat) (stks : List Nat) (phys : Nat) : Option Nat :=
  let k := phys / 2 ^ 36
  let l := phys % 2 ^ 36
  match stks.findIdx? (fun x => decide (x = k)) with
  | some i => if l < origin / 8 then none
    else some (origin + ((l - origin / 8) / gran * stks.length + i) * gran + (l - origin / 8) % gran)
  | none => none

/-- The device address of a place in a parcel's region: in its log, a table, or a valid STACK segment. -/
def Parcel.addrOf (x : Parcel) (phys : Nat) : Option Nat :=
  let inR (lo hi : Nat) (o : Option Nat) : Option Nat := o.filter (fun a => decide (lo ≤ a) && decide (a < hi))
  let stop := x.cfg.regionBase + x.cfg.regionSize
  (inR x.cfg.logBase stop (addrAt x.cfg.logBase 64 (List.range 8) phys)).or
    (((x.tables.filterMap (·.2)).findSome? (fun t => inR t.base (t.base + t.bytes) (addrAt t.base t.rstride (stackList t.stks.toNat) phys))).or
      (((x.segs.filterMap (·.2)).filter (fun d => decide (d.target = 2))).findSome? (fun d =>
        inR d.tbase (d.tbase + d.limit) (addrAt x.cfg.regionBase (2 ^ (6 + d.gran)) (stackList d.stks) phys))))

/-- The parcel and device address of a place; storage that nothing places is named as the system region places it. -/
def State.whoseAddr (s : State) (phys : Nat) : Option Nat × Nat :=
  match s.parcels.findSome? (fun e =>
    if e.2.state = .absent ∨ !e.2.inSpace phys then none else (e.2.addrOf phys).map (fun a => (e.1, a))) with
  | some (p, a) => (some p, a)
  | none => (none, (addrAt 0 4096 (List.range 8) phys).getD 0)

/-- Sectors of a stack (R431). -/
def stackSectors : Nat := 48 * 2 ^ 30 / 32

/-- R447 SCRUB_READ: a sector is read, and what its ECC found is applied; SM_SCRUB counts a pass over every stack. -/
def execScrubRead (stack : Fin 8) (sector : Nat) (ecc : Ecc) (s : State) : Out :=
  if !s.powered ∨ stackSectors ≤ sector then .next s
  else
    let phys := stack * 2 ^ 36 + sector * 32
    let (p, dev) := s.whoseAddr phys
    let s := s.countSector 0x20 phys p
    let n := s.stk.scrubCount + 1
    let s := if n = 8 * stackSectors then
        { s with stk := { s.stk with scrubCount := 0, scrubPasses := satAdd32 s.stk.scrubPasses 1 } }
      else { s with stk := { s.stk with scrubCount := n } }
    .next (match ecc with
      | .clean => s
      | .corrected => s.stackCE phys
      | .uncorrectable => s.stackUE p phys dev)

/-- R482: the DRAM rows of range i of a pseudo-channel, numbered row × 512 + pseudo-channel × 16 + bank. -/
def rangeRows (c i : Nat) : List Nat := (List.range 8).map (fun k => (8 * (i / 16) + k) * 512 + c * 16 + i % 16)

/-- R497: whether a DRAM row of stack k lies in a range under test: its copy waits until the test ends. -/
def State.rowTested (s : State) (k row : Nat) : Bool :=
  let c := row % 512 / 16
  s.testing (128 + 32 * k + c) && (rangeRows c (s.agent (128 + 32 * k + c)).region).contains row

/-- R449, R497 REMAP_COPY_END: the copy of the stack's first row in copy ends; its bytes and poison are as before. -/
def execRemapCopyEnd (stack : Fin 8) (s : State) : Out :=
  if ((spGet [] s.stk.copying stack).take 1).any (s.rowTested stack) then .next s
  else .next { s with stk := { s.stk with copying := spMod [] s.stk.copying stack (·.drop 1) } }

/-! Margining (R452). -/

/-- R452 MARGIN_PASS_END: a pass ends: one started in UNLASTED, or that of start-up step 2. -/
def execMarginPassEnd (results : List Byte) (s : State) : Out :=
  let atStart : Bool := match s.dev with | .starting 0 => s.stk.marginEn | _ => false
  if s.stk.marginRun ∨ atStart then
    .next { s with stk := { s.stk with margin := results.take 1024, marginRun := false } }
  else .next s

end Sys2Proof.Machine
end

