-- ==== Sys2Proof/Machine/Survey.lean ====
section
/-! DEFINITION. Survey slices and SRAM repair (R482 to R498). A region is numbered as R482 orders it: for a cell, banks 0 to
255, then 256 for the tile file. -/

namespace Sys2Proof.Machine

/-! Contexts (R187, R188). -/

/-- R187: the bytes that a save of the cell's context writes. -/
def Cell.ctxBytes (c : Cell) : List Byte :=
  let use (t : Nat) : Bool := c.tuse.getLsbD t
  let tiles := (List.range 16).filter use
  leBytes 8 c.tuse.toNat ++ leBytes 8 tiles.length ++ leBytes 48 0
    ++ leBytes 8 (match c.wait with | .atWaitq _ => c.pc + 4 | _ => c.pc)
    ++ (List.range 31).flatMap (fun i => leBytes 8 (spGet 0 c.g (i + 1)).toNat)
    ++ leBytes 8 (c.p.toNat / 2 * 2 + 1) ++ leBytes 8 c.status.toNat ++ leBytes 8 c.qh.toNat ++ leBytes 8 c.rsmpc.toNat
    ++ leBytes 8 c.rsmcnt.toNat ++ leBytes 8 c.rsmsrc.toNat ++ leBytes 8 c.rsmdst.toNat ++ leBytes 136 0
    ++ (List.range 32).flatMap (fun i => rowBytes (spGet 0 c.v i) 256)
    ++ (if use 16 then (List.range 64).flatMap (fun r => leBytes 1024 (c.accRow r).toNat) else [])
    ++ tiles.flatMap (fun t => (List.range 64).flatMap (fun r => rowBytes (c.tileRow t r) 256))

/-- R187: the size of a save. -/
def Cell.ctxSize (c : Cell) : Nat :=
  0x2200 + (if c.tuse.getLsbD 16 then 0x10000 else 0) + 0x4000 * ((List.range 16).filter (fun t => c.tuse.getLsbD t)).length

/-- R188: a save rounded up to 32 KiB. -/
def Cell.ctxRoom (c : Cell) : Nat := (c.ctxSize + 0x7FFF) / 0x8000 * 0x8000

/-- R188: whether the cell's context may be saved. -/
def Cell.maySave (c : Cell) : Bool :=
  decide ((match c.graph with | some g => g.storeBytes | none => 0) + c.ctxRoom ≤ 0x800000)

/-- R188: the context is saved to the cell's own store. -/
def Cell.saveCtx (c : Cell) : Cell := c.storeOwn (0x800000 - c.ctxRoom) c.ctxBytes

/-- R187, R486: the context comes back; a tile or accumulator that was not in use holds any value. -/
def Cell.restoreCtx (c : Cell) (mark : Nat) : Cell :=
  let c := ((List.range 16).filter (fun t => !c.tuse.getLsbD t)).foldl (fun c t =>
    c.setTileRows t 0 ((List.range 64).map (fun r => (Config.freeRow mark (t * 64 + r)).setWidth 2048))) c
  if c.tuse.getLsbD 16 then c
  else { c with
    acc := (List.range 64).foldl (fun m r => spPut 0 (Config.freeRow mark (1024 + r)) r m) c.acc, accPoison := [] }

/-! Which agents test (R483 to R485). -/

/-- A field of SV_CTRL: EN_STORE 0, EN_TILE 1, EN_STACK 2, EN_WELT 3. -/
def State.svOn (s : State) (k : Nat) : Bool := s.sv.ctrl.getLsbD k

/-- The regions of an agent. -/
def agentRegions (k : Nat) : Nat := if k < 128 then 257 else if k < 384 then 196608 else 1024

/-- The agent goes on to its next region. -/
def SvAgent.advance (k : Nat) (g : SvAgent) : SvAgent :=
  if g.region + 1 < agentRegions k then { g with region := g.region + 1 } else { g with region := 0, passes := g.passes + 1 }

/-- R482: the test due: PATTERN on every second pass. -/
def SvAgent.due (g : SvAgent) : Bool := decide (g.passes % 2 = 1)

/-- R485: the test that fits, the one due before PATTERN; none: neither fits. `fits p`: whether it fits, PATTERN or not. -/
def pickTest (due : Bool) (fits : Bool → Bool) : Option Bool :=
  if fits due then some due else if !due && fits true then some true else none

/-- R485: a count of SV_SKIP that stops at its largest value. -/
def satAdd16 (a : W16) (n : Nat) : W16 := BitVec.ofNat 16 (min (a.toNat + n) 0xFFFF)

/-- R105: whether an overrunning instance keeps the cell. -/
def State.overruns (s : State) (n : Nat) : Bool :=
  s.insts.any (fun e => match e.2 with | some x => x.overrun && decide (n ∈ x.cells) | none => false)

/-- R483: whether no instance runs on the cell and a task on it waits in WAITQ. -/
def State.restful (s : State) (n : Nat) : Bool :=
  match (s.cell n).inst with
  | some i => match s.inst i, (s.cell n).wait with | some x, .atWaitq _ => !x.running && !x.entry | _, _ => false
  | none => true

/-- R483: whether a slot that is being loaded or unloaded holds the cell, or its parcel builds. -/
def State.heldBack (s : State) (n : Nat) : Bool :=
  match (s.cell n).parcel with
  | some p =>
    let x := s.parcel p
    decide (x.state = .building) || x.slots.any (fun e => (decide (e.2.state = .loading) || decide (e.2.state = .unloading))
      && e.2.cells.contains n)
  | none => false

/-- R483: whether the cell's clock allows a test: at or above the floor, and at 0.96 GHz when it wakes for the test. -/
def State.clockAllows (s : State) (n : Nat) : Bool :=
  if (s.cell n).gated then decide (s.cellTemp n < 760) else decide (s.floorOf n ≤ (s.cell n).clk)

/-- R485: the clock code by which a cell's test is timed. -/
def State.testClock (s : State) (n : Nat) : Nat :=
  let c := s.cell n
  let k := if c.gated then 14 else c.clk
  if c.parcel.isNone then 14 else min k (s.floorOf n)

/-- R485: whether a cell's test fits the slice. -/
def State.cellFits (s : State) (n : Nat) (pattern : Bool) : Bool :=
  let cycles := if (s.agent n).region < 256 then (if pattern then 2048 else 3584) else (if pattern then 966 else 1350)
  decide (cycles ≤ (s.img.cfg.survey - 1) * (400 + 40 * s.testClock n))

/-- R482, R484: a cell agent passes over the regions that SV_CTRL does not enable. -/
def State.passOver (s : State) (n : Nat) : State :=
  let g := s.agent n
  if g.region < 256 then (if s.svOn 0 then s else s.modAgent n (fun g => { g with region := 256 }))
  else if s.svOn 1 then s else s.modAgent n (SvAgent.advance n)

/-- R483, R485, R486, R105: a cell agent at the start of a slice. -/
def State.cellSlice (s : State) (n : Nat) : State :=
  if s.we.fences.getLsbD n ∨ (!s.svOn 0 ∧ !s.svOn 1) then s
  else
    let s := s.passOver n
    let c := s.cell n
    let g := s.agent n
    if s.overruns n then { s with sv := { s.sv with overrun := satAdd16 s.sv.overrun 1 } }
    else if !s.restful n ∨ s.heldBack n ∨ !s.clockAllows n then s
    else if g.region = 256 ∧ !c.maySave then
      { s with sv := { s.sv with nosave := satAdd16 s.sv.nosave 1 } }.modAgent n (SvAgent.advance n)
    else match pickTest g.due (s.cellFits n) with
      | none => { s with sv := { s.sv with nofit := satAdd16 s.sv.nofit 1 } }
      | some t =>
        let s := if c.gated then s.raiseDie n 14 else s
        let s := s.modCell n (fun c => let c := if g.region = 256 then c.saveCtx else c
          if c.gated then { c with clk := 14 } else c)
        s.modAgent n (fun g => { g with testing := some t })

/-- R484, R485: a stack agent. -/
def State.stackSlice (s : State) (k c : Nat) : State :=
  let a := 128 + 32 * k + c
  let g := s.agent a
  let div := bits s.sv.ctrl.toNat 8 16 + 1
  if !s.svOn 2 ∨ s.tk.epoch.toNat % div ≠ 0 ∨ (spGet [] s.stk.copying k).any (fun r => (rangeRows c g.region).contains r) then s
  else match pickTest g.due (fun p => decide ((if p then 4 else 8) ≤ s.img.cfg.survey - 1)) with
    | none => { s with sv := { s.sv with nofit := satAdd16 s.sv.nofit 1 } }
    | some t => s.modAgent a (fun g => { g with testing := some t })

/-- R484, R485: the Welt. -/
def State.weltSlice (s : State) : State :=
  if !s.svOn 3 then s
  else match pickTest (s.agent 384).due (fun p => decide ((if p then 6656 else 12800) * 5 ≤ (s.img.cfg.survey - 1) * 6000)) with
    | none => { s with sv := { s.sv with nofit := satAdd16 s.sv.nofit 1 } }
    | some t => s.modAgent 384 (fun g => { g with testing := some t })

/-- R90, R482 to R486 SURVEY_SLICE_START: between T − S − D and T − D, once in a tick, the compute phases are over and
every eligible agent starts the test of its region. -/
def execSurveySliceStart (t : Nat) (s : State) : Out :=
  let s := s.at t
  let c := s.img.cfg
  if !s.ticking ∨ s.lc.surveyed ∨ s.offset < c.computeEnd ∨ c.computeEnd + c.survey * 1000 ≤ s.offset ∨
      s.sv.agents.any (fun e => e.2.testing.isSome) then .next s
  else
    let s := { s with lc := { s.lc with surveyed := true } }
    let s := (List.range 16).foldl (fun s p => s.endCompute p) s
    let s := (List.range 128).foldl (fun s n => s.cellSlice n) s
    let s := (List.range 256).foldl (fun s j => s.stackSlice (j / 32) (j % 32)) s
    .next s.weltSlice

/-! Spares (R490). -/

/-- The failing words of a find, in the order found. -/
def foundWords (f : TestFind) : List Nat := (f.fails.map (·.1)).eraseDups

/-- R490: the SRAM region of a failing word of a cell's test. -/
def spareRegion (region w : Nat) : Nat := if region < 256 then region else if w < 1024 then 256 + w / 64 else 272

/-- R490: row and column spares of an SRAM region of a cell. -/
def spareLimit (r : Nat) : Nat × Nat := if r < 256 then (2, 4) else if r < 272 then (1, 2) else (2, 8)

/-- R490: how the faults of one SRAM region are mended: the bit positions that take a column spare, the words that take a
row spare, and whether these suffice. `cols`, `rows`: the spares left. -/
def mendPlan (fails : List (Nat × Nat)) (rows cols : Nat) : List Nat × List Nat × Bool :=
  let ws (b : Nat) : Nat := ((fails.filter (fun e => decide (e.2 = b))).map (·.1)).eraseDups.length
  let bad := (List.range 8192).filter (fun b => decide (2 ≤ ws b))
  let mended := bad.take cols
  let left := ((fails.filter (fun e => !mended.contains e.2)).map (·.1)).eraseDups
  (mended, left, decide (left.length ≤ rows))

/-- Outcomes of R489. -/
def outRow : Nat := 1
def outColumn : Nat := 2
def outRemapped : Nat := 3
def outPending : Nat := 4
def outMasked : Nat := 5
def outFenced : Nat := 6
def outNoEntry : Nat := 7

/-- R491: spares of a region are spent, with the hour in which they were. -/
def We.spend (w : We) (key rows cols : Nat) : We :=
  if rows + cols = 0 then w
  else { w with
    spares := spMod 0 w.spares key (· + (rows * 16 + cols))
    spareLog := if key < 128 * 1024 then (w.life, key, rows + cols) :: w.spareLog else w.spareLog }

/-- R490, R491, R494: the faults of a cell's region are mended from its spares; the outcome of the first failing word, or
FENCED where the spares do not suffice. -/
def State.mendCell (s : State) (n region : Nat) (f : TestFind) : State × Nat :=
  let parts := (((foundWords f).map (spareRegion region)).eraseDups).map (fun r =>
    let used := spGet 0 s.we.spares (n * 1024 + r)
    let (rows, cols) := spareLimit r
    (r, mendPlan (f.fails.filter (fun e => decide (spareRegion region e.1 = r))) (rows - used / 16) (cols - used % 16)))
  if parts.all (fun e => e.2.2.2) then
    let w := parts.foldl (fun w e => w.spend (n * 1024 + e.1) e.2.2.1.length e.2.1.length) s.we
    let first := (foundWords f).headD 0
    let rowed := parts.any (fun e => e.2.2.1.contains first && decide (e.1 = spareRegion region first))
    ({ s with we := w }, if rowed then outRow else outColumn)
  else (s, outFenced)

/-- R494, R524: a cell is fenced in service. -/
def State.fenceCell (s : State) (n : Nat) : State :=
  let s := { s with we := { s.we with fences := s.we.fences ||| (1#128 <<< n) } }
  let e : LogEntry := { logEntry s 0x0B02 with cls := 3, unit := BitVec.ofNat 16 n }
  match (s.cell n).parcel with
  | some p => (s.log { e with parcel := BitVec.ofNat 8 p }).parcelReset p none 0
  | none => s.log e

/-- R490, R495: failing frames of Welt segment j take row spares while there are any; the others are masked. -/
def State.mendWelt (s : State) (j : Nat) (f : TestFind) : State × Nat :=
  let key := 128 * 1024 + j
  let left := 4 - spGet 0 s.we.spares key / 16
  let gone := (foundWords f).drop left
  let s := { s with we := s.we.spend key (min left (foundWords f).length) 0 }
  let s := s.modHost (fun h => { h with
    masked := gone.foldl (fun m w => spPut false true ((1024 * (j % 64) + w) * 16 + j / 64) m) h.masked })
  let s := s.host.lines.foldl (fun s e => match e.2 with
    | some l => if spGet false s.host.masked (e.1 % 65536 * 16 + l.way) then s.evict e.1 else s
    | none => s) s
  (s, if left = 0 then outMasked else outRow)

/-- R448, R450, R496: failing rows of a range take free entries of the remap table at once, without a copy. -/
def State.mendRange (s : State) (k c i : Nat) (f : TestFind) : State × Nat :=
  let rows := ((foundWords f).map (fun w => (rangeRows c i).getD (w / 32) 0)).eraseDups
  let left := 1024 - (spGet [] s.stk.remap k).length
  let s := { s with stk := { s.stk with remap := spMod [] s.stk.remap k (· ++ rows.take left) } }
  let s := (rows.drop left).foldl (fun s _ =>
    (s.log { logEntry s 0x0903 with unit := BitVec.ofNat 16 k }).alert 2 0x0903) s
  (s, if left = 0 then outNoEntry else outRemapped)

/-! Records (R489). -/

/-- The index of an agent. -/
def agentIndex : Agent → Nat
  | .cell n => n
  | .pch k c => 128 + 32 * k + c
  | .welt => 384

/-- R489: KIND of an agent's region. -/
def regionKind (k region : Nat) : Nat := if k < 128 then (if region < 256 then 1 else 2) else if k < 384 then 3 else 4

/-- R489: UNIT. -/
def recordUnit (k region : Nat) : Nat := if k < 128 then k else if k < 384 then k - 128 else region / 64

/-- R435: the stack-local address of a DRAM row (numbered as `dramRow` numbers them) and sector. -/
def rowAddr (row sec : Nat) : Nat :=
  let r := row / 512
  let c := row % 512 / 16
  r * 2 ^ 19 + sec / 8 * 2 ^ 17 + ((row % 16) ^^^ (r % 16)) * 2 ^ 13 + c / 2 * 2 ^ 9 + c % 2 * 2 ^ 8 + sec % 8 * 32

/-- R489: ADDR of a failing word. -/
def recordAddr (k region w : Nat) : Nat :=
  if k < 128 then (if region < 256 then w * 32768 + region * 128 else w)
  else if k < 384 then rowAddr ((rangeRows ((k - 128) % 32) region).getD (w / 32) 0) (w % 32)
  else 1024 * (region % 64) + w

/-- R489: the 32 bytes of a result record. -/
def resultRecord (kind test outcome unit addr now : Nat) (f : TestFind) : List Byte :=
  let w := (foundWords f).headD 0
  let bit := ((f.fails.filter (fun e => decide (e.1 = w))).map (·.2)).foldl min 0xFFFF
  [BitVec.ofNat 8 kind, BitVec.ofNat 8 test, f.elem, BitVec.ofNat 8 outcome] ++ leBytes 2 unit ++ leBytes 2 bit
    ++ leBytes 6 addr ++ leBytes 2 (min 0xFFFF (foundWords f).length) ++ leBytes 8 f.syndrome.toNat ++ leBytes 8 now

/-- R489: a result record enters the ring. -/
def State.svRecord (s : State) (bytes : List Byte) : State :=
  let h := s.sv.head.toNat
  { s with sv := { s.sv with head := s.sv.head + 1, res := spPut [] bytes (h % 256) s.sv.res } }

/-- R489, R492: the record and the log entry of a test that found a failing word. -/
def State.surveyFail (s : State) (k region outcome : Nat) (pattern : Bool) (f : TestFind) : State :=
  let n := s.sv.head
  let kind := regionKind k region
  let s := s.svRecord (resultRecord kind (if pattern then 2 else 1) outcome (recordUnit k region)
    (recordAddr k region ((foundWords f).headD 0)) s.datum f)
  let s := { s with sv := { s.sv with failed := satAdd32 s.sv.failed 1 } }
  let s := s.log { logEntry s 0x0B01 with unit := BitVec.ofNat 16 kind, arg := n.setWidth 64 }
  if outcome = outPending then s.alert 4 0x0B01 else s

/-- The region of an agent is back in service. -/
def State.endTest (s : State) (k : Nat) : State :=
  let region := (s.agent k).region
  let s := if k < 128 ∧ region = 256 then (s.modCell k (fun c => c.restoreCtx s.fresh)).useFresh else s
  let s := if k < 128 ∧ (s.cell k).gated then s.modCell k (fun c => { c with clk := 0 }) else s
  let s := s.modAgent k (fun g => { g with testing := none })
  if k < 128 then s.fallDie (k / 32) else s

/-- A completed test is counted and the agent goes on (R485). -/
def SvAgent.completed (k : Nat) (g : SvAgent) : SvAgent :=
  SvAgent.advance k (if k < 128 ∧ g.region = 256 then { g with tiles := g.tiles + 1 } else { g with others := g.others + 1 })

/-- R485, R487: 1 µs before the slice's end, less `offset`: from 0 on a test may still end. -/
def State.sliceLeft (s : State) : Int :=
  if s.offset < s.img.cfg.computeEnd then -1
  else (s.img.cfg.computeEnd + s.img.cfg.survey * 1000 : Nat) - 1000 - (s.offset : Int)

/-- R485, R487, R489 to R496 SURVEY_TEST_END: a test that ends by 1 µs before the slice's end. -/
def execSurveyTestEnd (a : Agent) (find : TestFind) (t : Nat) (s : State) : Out :=
  let k := agentIndex a
  let s := s.at t
  let g := s.agent k
  match g.testing with
  | none => .next s
  | some pattern =>
    if s.sliceLeft < 0 then .next s else
    let s := { s with sv := { s.sv with run := satAdd32 s.sv.run 1 } }
    let s := (s.endTest k).modAgent k (SvAgent.completed k)
    if find.fails.isEmpty then .next (s.trace 9 1 none none k 0 (BitVec.ofNat 64 g.region))
    else
      let (s, outcome) := match a with
        | .cell n => s.mendCell n g.region find
        | .pch st c => s.mendRange st c g.region find
        | .welt => s.mendWelt g.region find
      let s := s.surveyFail k g.region outcome pattern find
      let s := s.trace 9 1 none none k outcome (BitVec.ofNat 64 g.region)
      .next (if k < 128 ∧ outcome = outFenced then (s.fenceCell k).pump else s)

/-- R487, R492 SURVEY_ABANDON: a test that still runs 1 µs before the slice's end is abandoned; a fault it found is
pending. -/
def execSurveyAbandon (a : Agent) (find : TestFind) (t : Nat) (s : State) : Out :=
  let k := agentIndex a
  let s := s.at t
  let g := s.agent k
  match g.testing with
  | none => .next s
  | some pattern =>
    if 0 < s.sliceLeft then .next s else
    let s := { s with sv := { s.sv with abandon := satAdd16 s.sv.abandon 1 } }.endTest k
    let bad := !find.fails.isEmpty
    let s := if bad then s.surveyFail k g.region outPending pattern find else s
    .next (s.trace 9 1 none none k ((if bad then outPending else 0) + 256) (BitVec.ofNat 64 g.region))

/-- SV_COVER: the completed passes of a region kind, 1 to 4, over all its regions. -/
def State.svCover (s : State) (kind : Nat) : Nat :=
  let least (l : List Nat) (f : Nat → Nat) : Nat := match l with | [] => 0 | a :: t => t.foldl (fun m k => min m (f k)) (f a)
  let cells := (List.range 128).filter (fun n => !s.we.fences.getLsbD n)
  min 0xFFFF (match kind with
    | 1 => least cells (fun n => (s.agent n).others / 256)
    | 2 => least cells (fun n => (s.agent n).tiles)
    | 3 => least ((List.range 256).map (128 + ·)) (fun k => (s.agent k).others / 196608)
    | _ => (s.agent 384).others / 1024)

end Sys2Proof.Machine
end

