-- ==== Sys2Proof/Machine/Wear.lean ====
section
/-! DEFINITION. Wear: oscillators, stress hours, the wear model and the wear store (R499 to R503). Units are cells 0 to 127,
stacks 128 to 135, the hub die 136. Stress is counted in 2^−32 hours. -/

namespace Sys2Proof.Machine

/-- An unlisted unit's values are those of `WeUnit.zero`. -/
def State.weUnit (s : State) (u : Nat) : WeUnit := spGet WeUnit.zero s.we.units u

/-- R499 OSCILLATOR_MEASURE: the drifts measured, in ppm. -/
def execOscillatorMeasure (drifts : List (Fin 536 × W32)) (s : State) : Out :=
  if !s.powered then .next s
  else .next { s with we := { s.we with drift := drifts.foldl (fun m e => spPut 0 e.2.toInt e.1 m) s.we.drift } }

/-- R499: the oscillators of a unit. -/
def oscillators (u : Nat) : List Nat :=
  if u < 128 then (List.range 4).map (4 * u + ·)
  else if u < 136 then (List.range 2).map (520 + 2 * (u - 128) + ·)
  else (List.range 8).map (512 + ·)

/-- R499: a unit's drift: the largest of its oscillators. -/
def State.unitDrift (s : State) (u : Nat) : Int := highest ((oscillators u).map (fun o => spGet 0 s.we.drift o))

/-! The acceleration factor (R501). -/

/-- The largest y below 2^n with y^80 at most 2^m, bits tried from the highest. -/
def root80 (m : Nat) : Nat → Nat → Nat
  | 0, y => y
  | n + 1, y => if (y + 2 ^ n) ^ 80 ≤ 2 ^ m then root80 m n (y + 2 ^ n) else root80 m n y

/-- 2^((t − 85) / 10) × 2^32, rounded down, for a reading in eighths of a degree. -/
def accel (t8 : Int) : Nat := root80 (2560 + (t8 - 680)).toNat 64 0

/-- The points of the table of v: code and thousandths. -/
def vTable : List (Nat × Nat) := [(10, 500), (12, 750), (14, 1000), (16, 1400), (18, 2000), (20, 2800)]

/-- v in thousandths of the mean code q / n, linear between the points of the table. -/
def vAt (q n : Nat) : List (Nat × Nat) → Nat
  | (a, x) :: (b, y) :: t =>
    if q ≤ a * n then x
    else if q ≤ b * n then x + (y - x) * (q - a * n) / ((b - a) * n)
    else vAt q n ((b, y) :: t)
  | [(_, x)] => x
  | [] => 0

/-- R501: the stress of the present hour. -/
def WeUnit.stress (w : WeUnit) (u : Nat) : Nat :=
  if w.awake = 0 then 0
  else
    let a := accel (w.tempSum / w.samples)
    if u < 128 then a * vAt w.clkSum w.awake vTable / 1000 else a

/-! Damage and spares (R476, R500, R502). -/

/-- R500: lifetime thermal cycles of a unit in a bin. -/
def State.lifeCycles (s : State) (u b : Nat) : Nat := (s.weUnit u).cyc.getD b 0 + (spGet 0 s.th.cyc (u * 3 + b)).toNat

/-- R502: thermal damage of a unit in 1/100,000 of its life. -/
def State.damage (s : State) (u : Nat) : Nat := s.lifeCycles u 0 + 5 * s.lifeCycles u 1 + 25 * s.lifeCycles u 2

/-- R451, R502: hard-repair spares and soft entries of stack k spent. -/
def State.stackSpent (s : State) (k : Nat) : Nat :=
  s.stk.pprUsed.foldl (fun n e => if e.1 / 512 = k then n + e.2 else n) 0 + spGet 0 s.stk.soft k

/-- R501, R502: a unit at the end of an hour. -/
def State.wearHour (s : State) (u : Nat) (w : WeUnit) : WeUnit :=
  let d := s.damage u
  let sp := if 128 ≤ u ∧ u < 136 then s.stackSpent (u - 128) else 0
  let x := w.stress u
  { w with
    heq := w.heq + x, drifts := (s.unitDrift u :: w.drifts).take 24
    hours := ((x, d - w.dmg, sp - w.spent) :: w.hours).take 720
    dmg := d, spent := sp, tempSum := 0, clkSum := 0, samples := 0, awake := 0 }

/-! Predictions (R502). -/

/-- Twice the median of a list. -/
def twiceMedian (l : List Int) : Int :=
  let a := l.mergeSort
  a.getD (a.length / 2) 0 + a.getD ((a.length - 1) / 2) 0

/-- Sums of the recorded hours: stress, damage, spares. -/
def WeUnit.sums (w : WeUnit) : Nat × Nat × Nat :=
  w.hours.foldl (fun a e => (a.1 + e.1, a.2.1 + e.2.1, a.2.2 + e.2.2)) (0, 0, 0)

/-- A quotient that reports no limit when the rate is 0. -/
def perHour (left rate : Nat) : Option Nat := if rate = 0 then none else some (left / rate)

/-- R502: a unit's remaining equivalent life by drift, in 2^−32 hours; none: no drift yet. -/
def WeUnit.driftLife (w : WeUnit) (u : Nat) : Option Nat :=
  let m := (twiceMedian w.drifts).toNat
  let top := if 128 ≤ u ∧ u < 136 then 60000 else 80000
  if m = 0 then none else some (w.heq * (top ^ 4 - m ^ 4) / m ^ 4)

/-- A prediction: mechanism 1 to 3, unit kind and number, hours at present and at rated conditions. -/
structure WearPred where
  mech : Nat
  kind : Nat
  index : Nat
  now : Option Nat
  rated : Option Nat
  deriving DecidableEq, Repr

/-- R502: what one unit predicts, over the last `h` hours. -/
def WeUnit.predict (w : WeUnit) (u h : Nat) : List WearPred :=
  let (kind, index) := if u < 128 then (1, u) else if u < 136 then (2, u - 128) else (3, 0)
  let (stress, dmg, spare) := w.sums
  let rated := if u < 128 then 28 * 2 ^ 32 / 5 else if u < 136 then 2 ^ 32 else accel 800
  let drift := match w.driftLife u with
    | some r => [⟨1, kind, index, perHour (r * h) stress, perHour r rated⟩]
    | none => []
  let left := 100000 - w.dmg
  let fatigue : WearPred := ⟨2, kind, index, perHour (left * h) dmg, perHour (left * 24) 5⟩
  let entries := 2048 - w.spent
  let spares := if kind = 2 then [⟨3, kind, index, perHour (entries * h) spare, perHour (entries * h) spare⟩] else []
  drift ++ (if w.dmg = 0 then [] else [fatigue]) ++ spares

/-- The least of the hours that predictions give, and the first prediction that gives it. -/
def leastOf (f : WearPred → Option Nat) : List WearPred → Option (Nat × WearPred)
  | [] => none
  | a :: t => match f a, leastOf f t with
    | some x, some (y, p) => if x ≤ y then some (x, a) else some (y, p)
    | some x, none => some (x, a)
    | none, r => r

/-- Hours as a register holds them. -/
def hours32 (o : Option Nat) : W32 := match o with | some n => BitVec.ofNat 32 (min n 0xFFFFFFFF) | none => 0xFFFFFFFF

/-- R490: spares of an SRAM region of a cell in all. -/
def spareTotal (r : Nat) : Nat := (spareLimit r).1 + (spareLimit r).2

/-- R502: the least hours until a cell's region exhausts its spares. -/
def We.fenceHours (w : We) (h : Nat) : Option Nat :=
  let keys := (w.spareLog.map (·.2.1)).eraseDups
  let all := keys.filterMap (fun k =>
    let recent := w.spareLog.foldl (fun n e => if e.2.1 = k then n + e.2.2 else n) 0
    let used := spGet 0 w.spares k
    perHour ((spareTotal (k % 1024) - (used / 16 + used % 16)) * h) recent)
  match all with | [] => none | a :: t => some (t.foldl min a)

/-- R502, R503: every prediction is computed and written. -/
def State.predict (s : State) : State :=
  if s.we.life < 168 then s
  else
    let h := min 720 s.we.life
    let ps := (List.range 137).flatMap (fun u => (s.weUnit u).predict u h)
    let ordered := ps.filter (fun p => p.mech = 1) ++ ps.filter (fun p => p.mech = 2) ++ ps.filter (fun p => p.mech = 3)
    let now := leastOf (·.now) ordered
    { s with we := { s.we with
      eolNow := hours32 (now.map (·.1)), eolRated := hours32 ((leastOf (·.rated) ordered).map (·.1))
      fenceH := hours32 (s.we.fenceHours h)
      limit := match now with
        | some (_, p) => BitVec.ofNat 32 (p.mech * 65536 + p.kind * 256 + p.index)
        | none => 0 } }

/-! The wear store (R500). -/

/-- R500: the running values are committed. -/
def State.commitWear (s : State) : State :=
  { s with we := { s.we with stUnits := s.we.units, stLife := s.we.life, stCyc := s.th.cyc } }

/-- R500, R508: TH_CYC is added to the wear store's counts, and is cleared. -/
def State.foldCycles (s : State) (cyc : Sparse W32) : State :=
  let add (m : Sparse WeUnit) : Sparse WeUnit := (List.range 137).foldl (fun m u => spMod WeUnit.zero m u (fun w => { w with
    cyc := (List.range 3).map (fun b => w.cyc.getD b 0 + (spGet 0 cyc (u * 3 + b)).toNat) })) m
  { s with th := { s.th with cyc := [] }, we := { s.we with units := add s.we.units, stUnits := add s.we.stUnits, stCyc := [] } }

/-- R500 to R503 WEAR_HOURLY: an hour's stress, drift and damage are recorded, every prediction is recomputed, and the
wear store is committed. -/
def execWearHourly (t : Nat) (s : State) : Out :=
  let s := s.at t
  if !s.powered then .next s
  else
    let units := (List.range 137).foldl (fun m u => spMod WeUnit.zero m u (s.wearHour u)) s.we.units
    let life := s.we.life + 1
    let s := { s with we := { s.we with
      units := units, life := life, spareLog := s.we.spareLog.filter (fun e => decide (life ≤ e.1 + 720)) } }
    .next s.predict.commitWear

end Sys2Proof.Machine
end

