-- ==== Sys2Proof/Machine/Resets.lean ====
section
/-! DEFINITION. Reset levels, start-up, device-wide orders and the supplies (R506 to R520, R577 to R580). -/

namespace Sys2Proof.Machine

/-- R514, R517: whether a management owner can exist; in HALTED the one before the shutdown stays. -/
def State.hasOwner (s : State) : Bool :=
  s.img.on || decide (s.dev = .unlasted) || (decide (s.dev = .halted) && s.mg.owner.isSome)

/-! What a reset leaves (R508, R509). -/

/-- The error log's entry of a reset (R507). -/
def State.logReset (s : State) (level : Nat) : State := s.log { logEntry s 0x0D01 with aux := BitVec.ofNat 8 level }

/-- The wear registers that a reset returns to their Reset values. -/
def We.clearRegs (w : We) : We :=
  { w with drift := [], eolNow := 0xFFFFFFFF, eolRated := 0xFFFFFFFF, fenceH := 0xFFFFFFFF, limit := 0 }

/-- The management registers that a reset returns to their Reset values; a firmware update ends (R596). -/
def Mg.clearRegs (m : Mg) (cause : Nat) : Mg :=
  { m with
    orderDone := false, orderCode := 0, resetCause := BitVec.ofNat 8 cause, keyRec := [], keyDone := false, keyCode := 0
    owner := none, fw := none }

/-- The image slots and the serial floor, which no reset changes. -/
def ImgSt.flash (i : ImgSt) : ImgSt :=
  { slotA := i.slotA, slotB := i.slotB, badA := i.badA, badB := i.badB, floor := i.floor, floorOld := i.floorOld }

/-- R471, R515: step 1: on a card the core rails come up when the input capacity is at least 600 W. -/
def State.startRails (s : State) : State :=
  match s.capacity with
  | some c => if c < 600 then
      { s with mg := { s.mg with rails := false } }.log { logEntry s 0x0A05 with arg := BitVec.ofNat 64 c }
    else { s with mg := { s.mg with rails := true } }
  | none => { s with mg := { s.mg with rails := true } }

/-- The modules of a port whose supply was removed initialise again. -/
def restartMods (m : Sparse Nat) : Sparse Nat := m.map (fun e => (e.1, e.2 / 4 * 4 + 1))

/-- R596: an update in progress ends and leaves its slot invalid. -/
def State.dropUpdate (s : State) : State :=
  match s.mg.fw with
  | none => s
  | some u => { s with
      mg := { s.mg with fw := none }
      img := { s.img with badA := s.img.badA || decide (u.comp = 1), badB := s.img.badB || decide (u.comp = 2) } }

/-- R508, R509: a cold reset; `cause` as MG_RESET_CAUSE has it: 1 power-on, 2 an order. The stack rails stay up. -/
def State.coldReset (s : State) (cause : Nat) : State :=
  let s := (s.dropUpdate.foldCycles s.th.cyc).commitWear
  let s := { s.toDev (.starting 0) with
    datum := 0, tk := {}, lc := {}, cells := [], parcels := [], insts := [], cyc := {}, ords := [], sv := {}, ob := {}, er := {}
    stk := { remap := s.stk.remap, pprUsed := s.stk.pprUsed }
    img := s.img.flash
    net := { mods := restartMods s.net.mods }
    host := { perst := s.host.perst, masked := s.host.masked }
    th := { capacity := s.th.capacity }
    we := s.we.clearRegs
    mg := { s.mg.clearRegs cause with retire := 0, alertPin := false, step := 1 } }
  (s.logReset 1).startRails

/-- R392: the datum leaves LOCKED. -/
def State.ptpUnlock (s : State) : State :=
  let p := s.net.ptp
  (s.log { logEntry s 0x0705 with
    unit := BitVec.ofNat 16 (p.src.getD 0), arg := BitVec.ofInt 64 p.offset }).alert 5 0x0705

/-- R508: the datum at a warm reset: a disciplined one enters HOLDOVER. -/
def State.ptpWarm (s : State) (old : PtpSt) : State :=
  let hold := decide (old.state = 1) || decide (old.state = 2)
  let s := { s with net := { s.net with ptp :=
    { state := if hold then 3 else old.state, holdFrom := if hold then s.datum else old.holdFrom, freq := old.freq, src := old.src
      offset := old.offset } } }
  let s := if old.state = 2 then s.ptpUnlock else s
  { s with net := { s.net with ptp := { s.net.ptp with src := none, offset := 0 } } }

/-- What a warm reset leaves of a cell: its store, its tiles and its cycle count (R508). -/
def Cell.warm (c : Cell) : Cell :=
  { faultPc := 0, cycle := c.cycle, cycleFrac := c.cycleFrac, tiles := c.tiles, acc := c.acc, store := c.store
    storePoison := c.storePoison, storeFree := c.storeFree, tilePoison := c.tilePoison, accPoison := c.accPoison }

/-- What a warm reset leaves of the cells. -/
def warmCells (m : Sparse Cell) : Sparse Cell :=
  (m.map (fun e => (e.1, e.2.warm))).filter (fun e => decide (e.2 ≠ Cell.zero))

/-- The parcels of the image in force, as the build after a warm reset compares with them. -/
def oldParcels (m : Sparse Parcel) : List OldParcel :=
  m.filterMap (fun e => if e.2.state = .absent then none else some ⟨e.1, e.2.cfg⟩)

/-- What a warm reset leaves of the temperature and power registers. -/
def Th.warm (t : Th) : Th :=
  { t with
    limit := 1150, peak := 0, emergs := 0, pemerg := false, lastStep := none, lastCell := none, lastCap := none
    overAt := none, die := []
    cells := t.cells.map (fun e => (e.1, { temps := e.2.temps })) }

/-- R508 to R510: a warm reset; `cause`: 3 an order, 4 PERST_n. -/
def State.warmReset (s : State) (cause : Nat) : State :=
  let s := s.dropUpdate
  let s := (List.range 385).foldl (fun s k => if s.testing k then s.endTest k else s) s
  let s := (s.insts.filterMap (·.2)).foldl (fun s x => x.cells.foldl (fun s n => s.abortCell n) s) s
  let ptp := s.net.ptp
  let lost := (s.host.lines.filter (fun e => match e.2 with | some l => decide (l.st = .m) | none => false)).length
  let s := { s.toDev (.starting 3) with
    tk := {}, cells := warmCells s.cells, parcels := []
    insts := [], cyc := {}, ords := [], sv := {}
    ob := { cycle := s.ob.cycle, frac := s.ob.frac }, stk := { s.stk with
      ce := [], ue := [], soft := [], pprLast := [], scrubPasses := 0, scrubCount := 0, marginRun := false, margin := [] }
    img := { s.img.flash with before := oldParcels s.parcels }
    net := { mods := s.net.mods }
    host := { perst := s.host.perst, masked := s.host.masked, lostLines := satAdd32 0 lost }
    th := s.th.warm
    we := s.we.clearRegs
    mg := { s.mg.clearRegs cause with step := 4 } }
  (s.logReset 2).ptpWarm ptp

/-! Device-wide orders (R518). -/

/-- R518: the result of a device-wide order. -/
def State.orderCode (s : State) (c : Nat) : State :=
  { s with mg := { s.mg with orderDone := true, orderCode := BitVec.ofNat 8 c } }

/-- R518: a device-wide order is judged: its code; none: it has no effect. `op`: 1 COLD, 2 WARM, 3 RETIRE. -/
def State.judgeOrder (s : State) (who : Accessor) (op : Nat) : Option Nat :=
  match who with
  | .fn _ => none
  | .mgmt _ _ =>
    if !s.hasOwner then none
    else if !s.ownerAccess who then some 3
    else match s.dev with
      | .starting _ => some 4
      | .retired => some (if op = 2 then 2 else if 1 ≤ op ∧ op ≤ 3 then 0 else 1)
      | .halted => some (if op = 1 then 0 else 1)
      | _ => some (if 1 ≤ op ∧ op ≤ 3 then 0 else 1)

/-- R518: a write to MG_ORDER. -/
def State.deviceOrder (s : State) (who : Accessor) (op : Nat) : State :=
  match s.judgeOrder who op with
  | none => s
  | some c =>
    let s := s.orderCode c
    if c ≠ 0 then s
    else if op = 1 then s.coldReset 2
    else if op = 2 then s.warmReset 3
    else s.retire 4

/-- R518 MG_ORDER_COLD. -/
def execMgOrderCold (who : Accessor) (s : State) : Out := .next (s.deviceOrder who 1)

/-- R518 MG_ORDER_WARM. -/
def execMgOrderWarm (who : Accessor) (s : State) : Out := .next (s.deviceOrder who 2)

/-- R518, R520 MG_ORDER_RETIRE. -/
def execMgOrderRetire (who : Accessor) (s : State) : Out := .next (s.deviceOrder who 3)

/-! Supplies (R507, R562, R564, R577 to R579). -/

/-- R577: the capacity that a connector advertises: CBL_PRES_n asserted, SENSE0 and SENSE1 at ground. -/
def senseWatts (x : Bool × Bool × Bool) : Nat :=
  match x with
  | (false, _, _) => 0
  | (true, true, true) => 600
  | (true, false, true) => 450
  | (true, true, false) => 300
  | (true, false, false) => 150

/-- R507, R514, R577 POWER_ON: the standby and main inputs are good: a cold reset, and step 1. `sense`: the connectors of a
card, read when the standby supply comes up. -/
def execPowerOn (sense : List (Bool × Bool × Bool)) (s : State) : Out :=
  let off := decide (s.dev = .off) || (decide (s.dev = .halted) && !s.mg.rails)
  if !off then .next s
  else
    let w (i : Nat) : Nat := senseWatts (sense.getD i (false, false, false))
    let cap := if s.sled then none else if s.mg.standby then s.th.capacity else some (w 0, w 1)
    let s := { s with
      th := { s.th with capacity := cap }, mg := { s.mg with standby := true }
      stk := { s.stk with remap := [], copying := [] } }
    .next (s.coldReset 1)

/-- R562, R564: what a loss of power takes of a key-slot or serial-floor write made in the instant of the loss. -/
def State.cutOff (s : State) : State :=
  let slots := match s.mg.fusing with
    | some (k, d) => if d = s.datum then spMod {} s.mg.slots k (fun (x : KeySlot) => { x with prog := true, revoked := true })
      else s.mg.slots
    | none => s.mg.slots
  let floor := match s.img.floorOld with
    | some (f, d) => if d = s.datum then f else s.img.floor
    | none => s.img.floor
  { s with mg := { s.mg with slots := slots, fusing := none }, img := { s.img with floor := floor, floorOld := none } }

/-- R500, R562, R564, R579 STANDBY_SUPPLY_LOSS: the management plane, the error log and the sticky block go, and with them
the main rails; the wear store, the fuses and the flash are non-volatile. -/
def execStandbySupplyLoss (s : State) : Out :=
  let s := s.cutOff.dropUpdate
  let s := { s with we := s.we.reload }.foldCycles s.we.stCyc
  .next { s.dropMain with
    dev := .off, er := {}, th := {}
    stk := { pprUsed := s.stk.pprUsed }
    mg := { assembly := s.mg.assembly, slots := s.mg.slots } }

/-! Start-up (R479 to R481, R514, R515). -/

/-- Start-up has done step `k`. -/
def State.stepDone (s : State) (k : Nat) : State := { s.toDev (.starting k) with mg := { s.mg with step := k + 1 } }

/-- R453, R514 STACK_TRAINING: steps 1 and 2 end; a channel that fails loses its stack. -/
def execStackTraining (fails : List (Fin 8 × Fin 16)) (s : State) : Out :=
  if s.dev ≠ .starting 0 ∨ !s.mg.rails then .next s
  else
    let s := s.stepDone 2
    let bad := fails.foldl (fun (b : Byte) e => b ||| (1#8 <<< e.1.val)) 0
    let s := { s with stk := { s.stk with trained := ~~~bad } }
    .next (fails.foldl (fun s e => if s.stk.lost.getLsbD e.1 then s else s.loseStack e.1 e.2 1) s)

/-- R481, R490, R494: a failing region of a cell at power-on: mended, or the cell is fenced. -/
def State.postCell (s : State) (n region : Nat) (f : TestFind) : State :=
  let (s, outcome) := s.mendCell n region f
  let s := s.surveyFail n region outcome false f
  if outcome = outFenced ∧ !s.we.fences.getLsbD n then
    { s with we := { s.we with fences := s.we.fences ||| (1#128 <<< n) } }.log
      { logEntry s 0x0B02 with cls := 3, unit := BitVec.ofNat 16 n }
  else s

/-- R489: a cell whose logic fails is fenced. -/
def State.postLogic (s : State) (n : Nat) : State :=
  let h := s.sv.head
  let s := s.svRecord (resultRecord 5 3 outFenced n 0 s.datum ⟨[], 0, 0⟩)
  let s := { s with sv := { s.sv with failed := satAdd32 s.sv.failed 1 } }
  let s := s.log { logEntry s 0x0B01 with unit := 5, arg := h.setWidth 64 }
  { s with we := { s.we with fences := s.we.fences ||| (1#128 <<< n) } }.log
    { logEntry s 0x0B02 with cls := 3, unit := BitVec.ofNat 16 n }

/-- The record of a region other than a cell's at power-on. -/
def State.postRegion (s : State) (k region : Nat) (pattern : Bool) (f : TestFind) (r : State × Nat) : State :=
  if (foundWords f).isEmpty then s else r.1.surveyFail k region r.2 pattern f

/-- R481: SV_POST. -/
def State.postRegs (s : State) (parts : List Nat) : State :=
  let first := match parts.findIdx? (fun n => decide (n ≠ 0)) with | some i => i + 1 | none => 0
  { s with sv := { s.sv with
    postFirst := BitVec.ofNat 8 first, postFails := BitVec.ofNat 16 (min 0xFFFF (parts.foldl (· + ·) 0)) } }

/-- R479 to R481, R494 POWER_ON_SELF_TEST: faults are mended, a cell that now passes leaves its fence, and every stack,
store, tile and accumulator is zero. -/
def execPowerOnSelfTest (find : PostFind) (s : State) : Out :=
  if s.dev ≠ .starting 2 then .next s
  else
    let s := s.stepDone 3
    let s := { s with we := { s.we with fences := 0 } }
    let s := find.logic.foldl (fun s n => s.postLogic n) s
    let s := find.cells.foldl (fun s e => if e.2.2.fails.isEmpty then s else s.postCell e.1 e.2.1 e.2.2) s
    let s := find.welt.foldl (fun s e => s.postRegion 384 e.1 false e.2 (s.mendWelt e.1 e.2)) s
    let s := find.ranges.foldl (fun s e => s.postRegion (128 + 32 * e.1 + e.2.1) e.2.2.1 true e.2.2.2
      (s.mendRange e.1 e.2.1 e.2.2.1 e.2.2.2)) s
    let s := s.postRegs find.parts
    let s := { s with stk := { s.stk with mem := [], poison := [], unsettled := [], wrote := [] }, cells := [] }
    let s := find.channels.foldl (fun s e => if s.stk.lost.getLsbD e.1 then s else s.loseStack e.1 e.2 6) s
    .next (if find.hub then s.retire 3 else s)

/-- R451: post-package repair of one stack: entries whose bank has a spare left are repaired and freed. -/
def Stacks.repair (t : Stacks) (k : Nat) : Stacks :=
  let t := { t with copying := spPut [] [] k t.copying }
  (spGet [] t.remap k).foldl (fun (t : Stacks) row =>
    let bank := k * 512 + row % 512
    if spGet 0 t.pprUsed bank < 2 then { t with
      pprUsed := spMod 0 t.pprUsed bank (· + 1), pprLast := spMod 0 t.pprLast k (· + 1)
      remap := spMod [] t.remap k (·.erase row) }
    else { t with soft := spMod 0 t.soft k (· + 1) }) { t with soft := spPut 0 0 k t.soft, pprLast := spPut 0 0 k t.pprLast }

/-- R451, R514 POST_PACKAGE_REPAIR. -/
def execPostPackageRepair (s : State) : Out :=
  if s.dev ≠ .starting 3 then .next s
  else .next ({ s with stk := (List.range 8).foldl (fun t k => t.repair k) s.stk }.stepDone 4)

/-- R69, R84: the reason code of a slot at the fetch step; 0xFF: unread, or a slot update left it invalid. -/
def State.slotReason (s : State) (bytes : List Byte) (bad unread : Bool) : Nat :=
  if unread then 0xFF
  else
    let r := s.checkImage .slot bytes
    if r = 0 ∧ bad then 0xFF else r

/-- R69, R70, R84, R514 IMAGE_FETCH: both slots are checked and one comes into force, or the E40 enters UNLASTED. `badA`,
`badB`: the flash could not be read at that slot: both then count as invalid. -/
def execImageFetch (badA badB : Bool) (s : State) : Out :=
  if s.dev ≠ .starting 4 then .next s
  else
    let unread := badA || badB
    let ra := s.slotReason s.img.slotA s.img.badA unread
    let rb := s.slotReason s.img.slotB s.img.badB unread
    let log (b : Bool) (k : Nat) (s : State) : State :=
      if b then s.log { logEntry s 0x0F02 with aux := BitVec.ofNat 8 k } else s
    let s := log badB 2 (log badA 1 s)
    let s := { s with img := { s.img with reasonA := BitVec.ofNat 8 ra, reasonB := BitVec.ofNat 8 rb } }
    let serial (b : List Byte) : Nat := field b 0x10 8
    let sel := if ra = 0 ∧ (rb ≠ 0 ∨ serial s.img.slotB ≤ serial s.img.slotA) then 1 else if rb = 0 then 2 else 0
    if sel = 0 then .next { (s.toDev .unlasted) with img := { s.img with sel := 0 } }
    else
      let b := if sel = 1 then s.img.slotA else s.img.slotB
      .next ({ s with img := { s.img with
        cfg := devOf b, on := true, serial := BitVec.ofNat 64 (serial b), label := (b.drop 0x30).take 16
        digest := Config.sha384 (b.take (field b 8 4)), sel := sel } }.stepDone 5)

/-- R508: the parcels of the image before a warm reset stand again, for the build to compare with. -/
def State.recall (s : State) : State :=
  s.img.before.foldl (fun s e => s.setParcel e.num { Parcel.zero with state := .quiet, cfg := e.cfg }) s

/-- R80, R508, R514 STARTUP_BUILD: a whole-device build of the image in force. -/
def execStartupBuild (s : State) : Out :=
  if s.dev ≠ .starting 5 then .next s
  else
    let b := if s.img.sel = 1 then s.img.slotA else s.img.slotB
    let s := s.recall.applyDevice b s.img.sel
    .next ({ s with img := { s.img with before := [] } }.stepDone 6)

/-- R514 READY: the build ends, the tick machine starts, and MG_STATE reads READY. -/
def execReady (t : Nat) (s : State) : Out :=
  if s.dev ≠ .starting 6 then .next s else .next (((s.at t).endBuild).toDev .running)

end Sys2Proof.Machine
end

