-- ==== Sys2Proof/Machine/Logs.lean ====
section
/-! DEFINITION. The error log store (R526 to R533), the trace (R537 to R543), the counters and the snapshots (R544 to R549). -/

namespace Sys2Proof.Machine

/-! The error log (R526, R529, R530, R533). -/

/-- R526: the 32 bytes of entry `k`. -/
def LogEntry.bytes (e : LogEntry) (k : Nat) (epoch : W32) : List Byte :=
  leBytes 8 e.datum ++ leBytes 4 k ++ leBytes 2 e.code.toNat ++
    [BitVec.ofNat 8 (e.cls + 8 * e.cont.isSome.toNat), e.parcel] ++ leBytes 2 e.unit.toNat ++ [e.qindex, e.aux] ++
    leBytes 4 epoch.toNat ++ leBytes 8 e.arg.toNat

/-- R526: the 32 bytes of the continuation of `e`, entry `k`; it has the parcel of `e`. -/
def LogEntry.contBytes (e : LogEntry) (k : Nat) (extra : List Byte) : List Byte :=
  leBytes 8 e.datum ++ leBytes 4 k ++ leBytes 2 0x0D00 ++ [0, e.parcel] ++ extra.take 16

/-- R529: the slot of entry k. -/
def logSlot (k : Nat) : Nat := if k = 0 then 0 else 1 + (k - 1) % 4095

/-- R529: 32 bytes are written as the next entry. -/
def ErrLog.put (r : ErrLog) (bytes : List Byte) : ErrLog :=
  { r with slots := spPut none (some ⟨bytes, false⟩) (logSlot r.count) r.slots, count := r.count + 1 }

/-- R540: the record of a written entry. -/
def State.traceLog (s : State) (e : LogEntry) (unit code : W16) : State :=
  let opt (b : Byte) : Option Nat := if b = 0xFF then none else some b.toNat
  s.trace 11 1 (opt e.parcel) (opt e.qindex) unit.toNat code.toNat (BitVec.ofNat 64 (s.er.count % 2 ^ 32))

/-- R533: the log store fails; `first`: the code of the entry concerned; `n`: the events not logged, with those of the
entries that wait. -/
def State.loseLog (s : State) (first : W16) (n : Nat) : State :=
  if s.er.lost then s
  else { s with er := { s.er with
    lost := true, lostFirst := first, queue := [], lostCount := satAdd32 s.er.lostCount n } }.alert 0 first

/-- R530, R533 ERROR_LOG_ENTRY_WRITE: the oldest queued entry is written, with its continuation; `fail`: its read-back does
not verify. -/
def execErrorLogEntryWrite (fail : Bool) (s : State) : Out :=
  match s.er.queue with
  | [] => .next s
  | e :: rest =>
    if fail then .next (s.loseLog e.code s.er.queue.length).pump
    else
      let r := { s.er with queue := rest }.put (e.bytes s.er.count s.epoch32)
      let s := { s with er := r }.traceLog e e.unit e.code
      match e.cont with
      | none => .next s
      | some x => .next ({ s with er := s.er.put (e.contBytes s.er.count x) }.traceLog e 0 0x0D00)

/-- R529, R533: the log is emptied; a failed store takes no write. -/
def State.clearLog (s : State) : State := if s.er.lost then s else { s with er := { s.er with slots := [], count := 0 } }

/-- R529 ERROR_LOG_CLEAR, by the management owner. -/
def execErrorLogClear (who : Accessor) (s : State) : Out :=
  if s.ownerAccess who then .next s.clearLog else .next s

/-- R529: ER_OVERFLOW. -/
def ErrLog.overflow (r : ErrLog) : Nat := min 0xFFFFFFFF (r.count - 4096)

/-! The trace (R537 to R543). -/

/-- R537: CAP. -/
def DevCfg.traceCap (d : DevCfg) : Nat := (d.sysUnits * 2 ^ 30 - 2 ^ 29) / 32

/-- R539: a write of OB_TRACE_CTRL; its reserved bits read 0. -/
def State.writeTrace (s : State) (v : W64) : State :=
  let v := v &&& 0xCF000000FFFF8FFE
  let was := s.ob.ctrl.getLsbD 63
  let on := v.getLsbD 63
  let s := { s with ob := { s.ob with ctrl := v } }
  if on && !was then
    { s with ob := { s.ob with run := true, full := false, cause := 0, wptr := 0, drop := 0, loss := false, queue := [] } }.trace
      15 1 none none 0 0 v
  else if was && !on then
    let s := s.trace 15 2 none none 0 0 v
    { s with ob := { s.ob with run := false, full := false, cause := if s.ob.run then 1 else s.ob.cause } }
  else s

/-- A write of OB_TRACE_CTRL by an accessor whose value starts, stops or keeps the trace as `want` says. -/
def State.traceRow (s : State) (who : Accessor) (v : W64) (want : Bool → Bool → Bool) : State :=
  if s.ownerAccess who && want (s.ob.ctrl.getLsbD 63) (v.getLsbD 63) then s.writeTrace v else s

/-- R539 TRACE_START: EN goes from 0 to 1. -/
def execTraceStart (who : Accessor) (v : W64) (s : State) : Out := .next (s.traceRow who v (fun was on => !was && on))

/-- R539 TRACE_STOP: EN goes from 1 to 0. -/
def execTraceStop (who : Accessor) (v : W64) (s : State) : Out := .next (s.traceRow who v (fun was on => was && !on))

/-- R539 TRACE_RECONFIGURE: EN keeps its value. -/
def execTraceReconfigure (who : Accessor) (v : W64) (s : State) : Out := .next (s.traceRow who v (fun was on => was == on))

/-- R541: the 32 bytes of record r. -/
def TrRec.bytes (t : TrRec) (r : Nat) (loss : Bool) : List Byte :=
  leBytes 8 t.datum ++ leBytes 4 r ++ [BitVec.ofNat 8 (t.cls + 128 * loss.toNat), BitVec.ofNat 8 t.event, t.parcel, t.qindex]
    ++ leBytes 2 t.unit.toNat ++ leBytes 2 t.aux.toNat ++ leBytes 4 t.epoch.toNat ++ leBytes 8 t.arg.toNat

/-- R433, R537: where byte b of the trace buffer lives. -/
def DevCfg.tracePlace (d : DevCfg) (b : Nat) : Nat :=
  placeAt (d.sysBase * 2 ^ 30) 4096 (List.range 8) (d.sysBase * 2 ^ 30 + 2 ^ 29 + b)

/-- R433, R446, R537: 32 bytes are written at an index of the trace buffer. -/
def State.putRecord (s : State) (i : Nat) (bytes : List Byte) : State :=
  let ph := s.img.cfg.tracePlace (32 * i)
  if s.stk.lost.getLsbD (ph / 2 ^ 36) then s
  else
    let a := s.img.cfg.sysBase * 2 ^ 30 + 2 ^ 29 + 32 * i
    { s with stk := { s.stk with
      mem := writeBytes s.stk.mem ph bytes, poison := spPut false false (ph / 32) s.stk.poison }.settle a (a + 32) }.countSector
      0x21 ph none

/-- R539: an index of the trace buffer as it reads; a lost stack reads zero. -/
def State.getRecord (s : State) (i : Nat) : List Byte :=
  let a := s.img.cfg.sysBase * 2 ^ 30 + 2 ^ 29 + 32 * i
  let ph := s.img.cfg.tracePlace (32 * i)
  if s.stk.lost.getLsbD (ph / 2 ^ 36) then List.replicate 32 0
  else (List.range 32).map (fun k => match s.stk.mark (a + k) with
    | some m => Config.freeByte m (a + k)
    | none => spGet 0 s.stk.mem (ph + k))

/-- R538, R542: what a queued record does: it is written, or counted where a STOP trace has filled. -/
def State.writeRec (s : State) (t : TrRec) : State :=
  let cap := s.img.cfg.traceCap
  let stop := s.ob.ctrl.getLsbD 62
  let n := s.ob.wptr.toNat
  if cap = 0 ∨ (stop ∧ cap ≤ n) then { s with ob := { s.ob with drop := satAdd32 s.ob.drop 1, loss := true } }
  else
    let s := s.putRecord (n % cap) (t.bytes n s.ob.loss)
    let full := stop && decide (n + 1 = cap)
    { s with ob := { s.ob with
      wptr := s.ob.wptr + 1, loss := false
      run := s.ob.run && !full, full := s.ob.full || full, cause := if full then 2 else s.ob.cause } }

/-- R542 TRACE_RECORD_WRITE: the oldest queued record is written. -/
def execTraceRecordWrite (s : State) : Out :=
  match s.ob.queue with
  | [] => .next s
  | t :: rest => .next ({ s with ob := { s.ob with queue := rest } }.writeRec t)

/-! Counters and snapshots (R544 to R549). -/

/-- R544: a write to OB_CSEL[i] selects an event and sets the counter to 0. -/
def State.selectCounter (s : State) (i : Nat) (v : W32) : State :=
  { s with ob := { s.ob with
    csel := spPut 0 (v &&& 0x83FFFFFF) i s.ob.csel, cnt := spPut 0 0 i s.ob.cnt
    reselNow := spPut false true i s.ob.reselNow } }

/-- R536, R544 COUNTER_SELECT, by the management plane. -/
def execCounterSelect (who : Accessor) (i : Fin 1024) (v : W32) (s : State) : Out :=
  if s.ownerAccess who then .next (s.selectCounter i v) else .next s

/-- R548: the bank that a latch of a snapshot fills. -/
def OrdSt.bank (o : OrdSt) (n : Snap) : Sparse Byte :=
  let same := decide (o.snapDatum = some n.datum)
  let head := leBytes 8 n.epoch.toNat ++ leBytes 8 n.datum ++ leBytes 8 n.cycle.toNat ++ leBytes 8 o.snapEpoch.toNat
  let m := writeBytes [] 0 head
  let m := n.counts.foldl (fun m e => writeBytes m (0x40 + 8 * e.1) (leBytes 8 e.2.toNat)) m
  if same then m
  else
    let m := o.wraps.foldl (fun m e => writeBytes m (0x2040 + e.1) [BitVec.ofNat 8 e.2]) m
    o.resel.foldl (fun m e => writeBytes m (0x2040 + e.1) [BitVec.ofNat 8 (128 + spGet 0 o.wraps e.1)]) m

/-- R548: an accessor latches the latest snapshot into its bank. -/
def State.latch (s : State) (a : Nat) : State :=
  match s.ob.snap with
  | none => s
  | some n => s.modOrd a (fun o => { o with
      snap := o.bank n, snapDone := true, snapEpoch := n.epoch, snapDatum := some n.datum, wraps := [], resel := [] })

/-- R548 SNAPSHOT_LATCH: a write of 1 to OB_SNAP_LATCH. -/
def execSnapshotLatch (who : Accessor) (s : State) : Out :=
  match who with
  | .fn f => .next (s.latch (1 + f))
  | .mgmt _ _ => if s.ownerAccess who then .next (s.latch 0) else .next s

end Sys2Proof.Machine
end

