-- ==== Sys2Proof/Machine/HostRows.lean ====
section
/-! DEFINITION. The host link, function resets, and what the host does to the Welt (R347 to R370, R507, R521). -/

namespace Sys2Proof.Machine

/-! Accesses that wait for the Welt (R360, R361, R366 to R369). -/

/-- Whether an access needs its line in E or M. -/
def ExtAcc.needsOwn (e : ExtAcc) : Bool := match e.kind with | .load .. | .sweepR _ => false | _ => true

/-- The request that an access of the Welt sends: 0 RdShared, 1 RdOwn, 2 RdOwnNoData. -/
def ExtAcc.request (e : ExtAcc) : Nat := match e.kind with | .load .. | .sweepR _ => 0 | .sweepW _ => 2 | _ => 1

/-- Whether a host access waits for line k. -/
def ExtAcc.waitsFor (e : ExtAcc) (k : Nat) : Bool := decide (e.target = .host) && decide (e.addr / 64 = k) && !e.done

/-- The host accesses of cell n that wait for line k; those of an aborted instance. -/
def State.waitingOn (s : State) (n k : Nat) : List ExtAcc := (s.cell n).ext.filter (fun e => e.waitsFor k)
def State.goneOn (s : State) (n k : Nat) : List ExtAcc := (s.cell n).gone.filter (fun e => e.waitsFor k)

/-- R204, R205, R213, R367: an access of cell n is served with the bytes at its address. -/
def State.serveExt (s : State) (n : Nat) (e : ExtAcc) (bs : List Byte) (poison : Bool) : State :=
  let p := (s.cell n).par
  let drop (s : State) : State := s.modCell n (fun c => { c with ext := c.ext.erase e })
  match e.kind with
  | .load rd size signed =>
    if poison then (drop s).hostPoisoned n e.addr
    else (drop (s.weltTouch e.addr)).modCell n (fun c => c.setG rd (extend (bs.take size) signed))
  | .store => match (s.cell n).sbuf with
    | b :: _ => ((drop s).performStore n b).modCell n Cell.popStore
    | [] => drop s
  | .amo op d rd v expected =>
    if poison then (drop s).hostPoisoned n e.addr
    else
      let x := amoApply op d (bs.take (if d then 8 else 4)) v expected
      let s := (drop (s.weltTouch e.addr)).modCell n (fun c => c.setG rd x.2)
      match x.1 with | some w => s.hostStore p e.addr w | none => s
  | .sweepR _ =>
    if poison then s.hostPoisoned n e.addr
    else (s.weltTouch e.addr).modCell n (fun c => c.sweepDone e bs)
  | .sweepW w => (s.hostStore p e.addr w).modCell n (fun c => c.sweepDone e [])

/-- R137, R185, R205, R213: an access that an aborted instance of cell n left behind is served: a load's data go nowhere,
an atomic and a line store are performed. -/
def State.serveGone (s : State) (n : Nat) (e : ExtAcc) (bs : List Byte) (poison : Bool) : State :=
  let p := (s.cell n).par
  let s := s.modCell n (fun c => { c with gone := c.gone.erase e })
  match e.kind with
  | .sweepW w => s.hostStore p e.addr w
  | .amo op d _ v expected =>
    if poison then s.notePoison p e.addr
    else match (amoApply op d (bs.take (if d then 8 else 4)) v expected).1 with
      | some w => (s.weltTouch e.addr).hostStore p e.addr w
      | none => s.weltTouch e.addr
  | _ => if poison then s.notePoison p e.addr else s.weltTouch e.addr

/-- Serves what an aborted instance left behind at cell n for line k. -/
def State.serveLeft (s : State) (n k : Nat) : State :=
  (s.goneOn n k).foldl (fun s e => match s.weltServe e.addr (64 - e.addr % 64) e.needsOwn with
    | some (bs, poison) => s.serveGone n e bs poison
    | none => s) s

/-- Serves what of cell n waits for line k and can be served. -/
def State.serveCell (s : State) (n k : Nat) : State :=
  let s := s.serveLeft n k
  let s := (s.waitingOn n k).foldl (fun s e =>
    if !(s.cell n).ext.contains e then s
    else match s.weltServe e.addr (64 - e.addr % 64) e.needsOwn with
      | some (bs, poison) => s.serveExt n e bs poison
      | none => s) s
  match (s.cell n).sweep with
  | some w => s.sweepPump n (w.lines + 1)
  | none => s

/-- Serves what waits for line k, by cell. -/
def State.serveLine (s : State) (k : Nat) : State := (List.range 128).foldl (fun s n => s.serveCell n k) s

/-- Every line that an access of cell n waits for. -/
def State.linesOf (s : State) (n : Nat) : List Nat :=
  ((((s.cell n).ext ++ (s.cell n).gone).filter (fun e => decide (e.target = .host) && !e.done)).map (fun e => e.addr / 64)).eraseDups

/-- A host access whose request the Welt held back; with its request sent. -/
def ExtAcc.held (e : ExtAcc) : Bool := decide (e.target = .host) && !e.done && !e.asked
def ExtAcc.send (e : ExtAcc) : ExtAcc := { e with asked := true }

/-- R369: the requests of cell n that the Welt held back go to the host. -/
def State.askHeld (s : State) (n : Nat) : State :=
  let c := s.cell n
  ((c.ext ++ c.gone).filter (·.held)).foldl (fun s e => s.weltAsk e.addr e.request)
    (s.modCell n (fun c => { c with ext := c.ext.map ExtAcc.send, gone := c.gone.map ExtAcc.send }))

/-- R368, R369: every waiting host access is served, or its request goes out. -/
def State.serveAll (s : State) : State :=
  let s := (List.range 128).foldl (fun s n =>
    let s := (s.linesOf n).foldl (fun s k => s.serveCell n k) s
    s.askHeld n) s
  s.runStores none

/-- What waits for line k: cells, the stores outside them, and the queues whose next record goes there. -/
def State.cellsOn (s : State) (k : Nat) : List Nat :=
  (List.range 128).filter (fun n => !(s.waitingOn n k).isEmpty || !(s.goneOn n k).isEmpty)
def State.storesOn (s : State) (k : Nat) : List HostStore := s.host.stores.filter (fun e => decide (e.addr / 64 = k))
def State.recordsOn (s : State) (k : Nat) : List (Nat × Nat) :=
  (List.range 16).flatMap (fun p => ((List.range 32).filter (fun q =>
    let y := s.queue p q
    y.recAsked && decide (y.recordAddr.map (· / 64) = some k))).map (fun q => (p, q)))

/-- The parcel that a line comes for. -/
def State.parcelOn (s : State) (k : Nat) : Option Nat :=
  match s.cellsOn k, s.storesOn k, s.recordsOn k with
  | n :: _, _, _ => some (s.cell n).par
  | [], e :: _, _ => some e.parcel
  | [], [], e :: _ => some e.1
  | [], [], [] => none

/-- R361, R366: a line that the host answers with arrives for parcel p. Where only whole-line writes wait, the host sends no
data, and a copy held keeps its own. `own`: what waits needs the line in E or M. -/
def State.fillAnswer (s : State) (p k : Nat) (a : HostAnswer) (own noData : Bool) : State :=
  let bad : LineSt := if own then .e else .s
  let pad (b : List Byte) : List Byte := (b ++ List.replicate 64 0).take 64
  match a with
  | .line b => s.fill p k .s (pad b) false
  | .owned b => match s.line k with
    | some l => if noData then s.fill p k .e l.bytes l.poison else s.fill p k .e (pad b) false
    | none => s.fill p k .e (pad b) false
  | .poison b => s.fill p k bad (pad b) true
  | .error => s.fill p k bad (pad []) true

/-- R364: what waits for line k took `took` ns. -/
def State.noteAnswer (s : State) (k took : Nat) : State :=
  let s := (s.cellsOn k).foldl (fun s n =>
    let s := if (s.goneOn n k).isEmpty then s else s.noteTook (s.cell n).par took
    (s.waitingOn n k).foldl (fun s e => s.noteLatency n e.addr took) s) s
  ((s.storesOn k).map (·.parcel) ++ (s.recordsOn k).map (·.1)).foldl (fun s p => s.noteTook p took) s

/-- R361, R364, R366 HOST_RESPONSE: the host answers the Welt's request for a line, `took` ns after the access was sent:
what waits for the line is served, stores before the records behind them. -/
def execHostResponse (addr : Nat) (a : HostAnswer) (took : Nat) (s : State) : Out :=
  let k := addr / 64
  match s.parcelOn k with
  | none => .next s
  | some p =>
    let accs := (s.cellsOn k).flatMap (fun n => s.waitingOn n k ++ s.goneOn n k)
    let rest := !(s.storesOn k).isEmpty || !(s.recordsOn k).isEmpty
    let recs := s.recordsOn k
    let own := rest || accs.any (·.needsOwn)
    let noData := !rest && accs.all (fun e => decide (e.request = 2))
    let s := (((s.fillAnswer p k a own noData).noteAnswer k took).serveLine k).runStores (some k)
    let s := recs.foldl (fun s e => (s.modQueue e.1 e.2 (fun y => { y with recAsked := false })).tryRecord e.1 e.2) s
    .next (s.dropSpare k)

/-- R360, R366 HOST_SNOOP: SnpData leaves the line shared, SnpInv takes it, SnpCur changes nothing; an M line's bytes
travel. A poisoned M line leaves the Welt with its poison at SnpData. -/
def execHostSnoop (kind : Snoop) (addr : Nat) (s : State) : Out :=
  let k := addr / 64
  match s.line k with
  | none => .next (s.emit (.snoopRsp (64 * k) false none none false))
  | some l =>
    let data := if l.st = .m then some l.bytes else none
    let gone := decide (kind = .inv) || (decide (kind = .data) && l.poison && decide (l.st = .m))
    let after : Option LineSt := if gone then none else if kind = .data then some .s else some l.st
    let s := s.emit (.snoopRsp (64 * k) true after data l.poison)
    .next (match after with
      | none => s.setLine k none
      | some st => s.setLine k (some { l with st := st }))

/-- R34, R351: whether the host reaches the CXL DVSEC of function 0: the link is up and the image presents the function. -/
def State.hasFn0 (s : State) : Bool := s.host.up && decide (0 < s.img.cfg.nfunc)

/-- R369 CACHE_WRITEBACK_INVALIDATE: the write-back starts; host accesses wait until it completes. -/
def execCacheWritebackInvalidate (s : State) : Out :=
  if s.hasFn0 then .next (s.modHost (fun h => { h with flushing := true })) else .next s

/-- R361, R369 CACHE_WRITEBACK_COMPLETE: every M line is written back, every line is invalid, CacheFlushed is sent. -/
def execCacheWritebackComplete (s : State) : Out :=
  if !s.host.flushing then .next s
  else
    let s := (s.evictAll.emit (.weltReq 4 0)).modHost (fun h => { h with flushing := false, invalid := true })
    .next s.serveAll

/-- R369 CACHE_DISABLE: while it is set, host accesses wait. -/
def execCacheDisable (b : Bool) (s : State) : Out :=
  if !s.hasFn0 then .next s else
  let s := s.modHost (fun h => { h with disabled := b })
  .next (if b then s else s.serveAll)

/-! Functions (R349, R351, R353, R354, R560). -/

/-- R351, R560: what the configuration space of a function says of it; BARs in bytes, `cxl`: it carries the CXL DVSEC. -/
structure FnConfig where
  vendor : Nat
  device : Nat
  revision : Nat
  subVendor : Nat
  subsystem : Nat
  classCode : Nat := 0x120000
  bar0 : Nat := 33554432
  bar2 : Nat := 1048576
  cxl : Bool
  deriving DecidableEq, Repr

/-- R349: an answer to a configuration request. -/
inductive ConfigAnswer where
  | config (c : FnConfig)
  /-- Configuration Request Retry Status -/
  | retry
  /-- no such function -/
  | absent
  deriving DecidableEq, Repr

/-- R34, R349, R351, R560: what a configuration request to function f meets; `id`: MG_ID. -/
def State.configAnswer (s : State) (id f : Nat) : ConfigAnswer :=
  if s.img.cfg.nfunc ≤ f then .absent
  else if !s.host.up then .retry
  else .config { vendor := bits id 0 16, device := bits id 16 16, revision := bits id 32 8, subVendor := bits id 0 16
                 subsystem := bits id 40 8, cxl := decide (f = 0) }

/-- R353: a function's configuration space, MSI-X table and WL_EVENT return to reset. -/
def State.resetFunction (s : State) (f : Nat) : State :=
  s.modOrd (f + 1) (fun o => { o with event := 0, msix := [], msixPending := [], msixDue := [], d3 := false })

/-- Every function returns to reset. -/
def State.resetFunctions (s : State) : State := (List.range 8).foldl (fun s f => s.resetFunction f) s

/-- R353: the records that a parcel reset produces are counted in WL_LOST.DROPPED in place of being written. `had`: the
records each queue held before it. -/
def State.dropNewRecords (s : State) (p : Nat) (had : Nat → Nat) : State :=
  (List.range 32).foldl (fun s q =>
    let n := (s.queue p q).records.length - had q
    (s.modQueue p q (fun y => { y with records := y.records.take (had q) })).modHost
      (fun h => { h with lostRecs := satAdd32 h.lostRecs n })) s

/-- R353, R513 FUNCTION_LEVEL_RESET: the parcel reset it orders is refused in BUILDING and while another is in progress. -/
def execFunctionLevelReset (f : Fin 8) (s : State) : Out :=
  if s.img.cfg.nfunc ≤ f.val then .next s
  else
    let s := (s.resetFunction f).modOrd (f + 1) (fun o => { o with mboxFree := [(0, 0x100000, s.fresh)] })
    let s := s.useFresh
    match (List.range 16).find? (fun p => (s.parcel p).ownedBy f) with
    | none => .next s
    | some p =>
      if s.dev ≠ .running ∨ (s.parcel p).state = .building ∨ !(s.parcel p).resetting.isEmpty then .next s
      else
        let had (q : Nat) : Nat := (s.queue p q).records.length
        .next ((s.parcelReset p none 0).dropNewRecords p had).pump

/-- R354 POWER_STATE_CHANGE: a function enters D3hot, or returns to D0 and its messages issue. -/
def execPowerStateChange (f : Fin 8) (d3 : Bool) (s : State) : Out :=
  if s.img.cfg.nfunc ≤ f.val then .next s else .next (s.modOrd (f + 1) (fun o => { o with d3 := d3 }))

/-! The link (R349, R350, R368, R507, R510, R514, R521). -/

/-- R33, R34, R70, R510, R514: whether the host link may train. -/
def State.mayTrain (s : State) : Bool :=
  s.img.on && s.img.cfg.card && !s.host.perst && (match s.dev with
    | .starting k => decide (6 ≤ k)
    | .running | .unlasted | .retired => true
    | _ => false)

/-- R371: WL_LINK. -/
def HostPort.link (h : HostPort) : W32 :=
  BitVec.ofNat 32 (h.up.toNat * 2 ^ 31 + h.flit.toNat * 2 ^ 30 + h.cache.toNat * 2 ^ 29 + h.degraded.toNat * 2 ^ 28
    + h.speed % 16 * 2 ^ 16 + h.width % 32)

/-- A host access whose request the link did not carry. -/
def ExtAcc.unsend (e : ExtAcc) : ExtAcc := { e with asked := false }

/-- R80, R349: requests that a retrain lost go out again. -/
def State.askAgain (s : State) : State :=
  let s := (List.range 128).foldl (fun s n =>
    if (s.cell n).ext.isEmpty && (s.cell n).gone.isEmpty then s
    else s.modCell n (fun c => { c with ext := c.ext.map ExtAcc.unsend, gone := c.gone.map ExtAcc.unsend })) s
  (s.modHost (fun h => { h with stores := h.stores.map (fun e => { e with asked := false }) })).serveAll

/-- R349, R350, R368 LINK_UP: the link reaches L0, degraded below ×16 or 64 GT/s (speed 6); functions answer from reset. -/
def execLinkUp (width speed : Nat) (flit cache : Bool) (s : State) : Out :=
  if !s.mayTrain ∨ s.host.up ∨ width = 0 ∨ 16 < width ∨ speed = 0 ∨ 6 < speed then .next s
  else
    let bad := decide (width < 16) || decide (speed < 6)
    let s := s.resetFunctions.modHost (fun h => { h with
      up := true, flit := flit, cache := cache, degraded := bad, speed := speed, width := width, dead := false })
    let s := if bad then s.log { logEntry s 0x0601 with arg := s.host.link.setWidth 64 } else s
    .next s.askAgain

/-- R366 to R368: the link is lost: host accesses are poisoned, and the lines are discarded. -/
def State.loseLink (s : State) : State :=
  let lost := (s.host.lines.filter (fun e => match e.2 with | some l => decide (l.st = .m) | none => false)).length
  let late := s.host.stores
  let s := s.modHost (fun h => { h.linkDown with
    dead := true, lines := [], stores := [], lostLines := satAdd32 h.lostLines lost })
  (late.foldl (fun s e => s.notePoison e.parcel e.addr) s).serveAll

/-- R368, R524: every parcel that a function owns is reset. -/
def State.resetHostParcels (s : State) : State :=
  ((List.range 16).filter (fun p => decide ((s.parcel p).state ≠ .absent) && !(s.parcel p).cfg.ownerSess)).foldl (fun s p =>
    (s.logP 0x0605 p (fun e => { e with cls := 3 })).parcelReset p none 0) s

/-- R368 LINK_DOWN: outside a retrain of the E40's own. -/
def execLinkDown (s : State) : Out :=
  if !s.host.up then .next s
  else
    let s := s.loseLink
    .next (if s.dev = .running then s.resetHostParcels.pump else s)

/-- R507, R519, R521 PERST_ASSERT: a warm reset in card mode; in RETIRED the link and the functions' configuration return to
reset; otherwise ignored and logged. -/
def execPerstAssert (s : State) : Out :=
  if s.sled then .next s
  else
    let s := s.modHost (fun h => { h with perst := true })
    match s.dev with
    | .off => .next s
    | .retired => .next s.loseLink.resetFunctions
    | _ =>
      if s.img.on ∧ s.img.cfg.card ∧ s.dev ≠ .halted then .next (s.warmReset 4)
      else .next (s.log (logEntry s 0x1002))

/-- R510 PERST_DEASSERT: the host link may train. -/
def execPerstDeassert (s : State) : Out := if s.sled then .next s else .next (s.modHost (fun h => { h with perst := false }))

end Sys2Proof.Machine
end

