-- ==== Sys2Proof/Machine/Ports.lean ====
section
/-! DEFINITION. Network ports, MACsec and PTP (R374 to R396, R583). -/

namespace Sys2Proof.Machine

/-! Modules and sub-ports (R374, R375, R379, R380). -/

/-- Changes what is kept of a cage. -/
def State.setMod (s : State) (p v : Nat) : State := { s with net := { s.net with mods := spPut 0 v p s.net.mods } }

/-- R379 MODULE_INSERT: a module that advertises a host interface, numbered as MODE. -/
def execModuleInsert (p : Fin 4) (hostIf : BitVec 2) (s : State) : Out := .next (s.setMod p (1 + 4 * hostIf.toNat))

/-- R379 MODULE_READY: a module of the right host interface is ready; another is held in low power and logged. -/
def execModuleReady (p : Fin 4) (s : State) : Out :=
  let v := spGet 0 s.net.mods p
  let mode := (s.port p).mode
  if v % 4 ≠ 1 ∨ mode = 0 ∨ !s.powered then .next s
  else if v / 4 = mode then .next (s.setMod p (v / 4 * 4 + 2))
  else .next ((s.setMod p (v / 4 * 4 + 3)).log { logEntry s 0x0701 with unit := BitVec.ofNat 16 p })

/-- R380 SUBPORT_UP: PCS alignment on a port whose module is ready. -/
def execSubportUp (i : Fin 16) (s : State) : Out :=
  if s.portsTrain && s.subExists i && decide (spGet 0 s.net.mods (i / 4) % 4 = 2) then
    .next (s.modSub i (fun u => { u with up := true }))
  else .next s

/-- R380: a sub-port goes down: a flap is counted, and one entry a second is logged for its port. -/
def State.subDown (s : State) (i : Nat) : State :=
  if !(s.sub i).up then s
  else
    let s := s.modSub i (fun u => { u with up := false, flaps := satAdd16 u.flaps 1 })
    let last := (s.sub (i / 4 * 4)).lastFlapLog
    if since s.datum last 1000000000 then
      (s.modSub (i / 4 * 4) (fun u => { u with lastFlapLog := some s.datum })).log
        { logEntry s 0x0702 with unit := BitVec.ofNat 16 i }
    else s

/-- R380 SUBPORT_DOWN: PCS alignment is lost. -/
def execSubportDown (i : Fin 16) (s : State) : Out := .next (s.subDown i)

/-- R380 MODULE_REMOVAL: the cage is empty and the port's sub-ports go down. -/
def execModuleRemoval (p : Fin 4) (s : State) : Out :=
  .next ((List.range 4).foldl (fun s k => s.subDown (4 * p + k)) (s.setMod p 0))

/-- A counter of a sub-port (R396, R565). -/
def State.bump (s : State) (i c : Nat) : State :=
  s.modSub i (fun u => { u with ctr := spMod 0 u.ctr c (· + 1) })

/-! MACsec associations (R382 to R385). -/

/-- R384: the result code of a key record; `op`: 1 INSTALL, 2 DELETE, 3 ACTIVATE. -/
def State.saCode (s : State) (op : Nat) (r : SaRec) : Nat :=
  let i := r.subport.toNat
  let a := r.an.toNat
  let u := s.sub i
  if r.resv ∨ op = 0 ∨ 3 < op ∨ 15 < i ∨ 1 < r.dir.toNat ∨ 3 < r.rsc.toNat ∨ 3 < a ∨ (r.dir = 0 ∧ (r.rsc ≠ 0 ∨ r.sci ≠ 0))
      ∨ (op = 1 ∧ r.pn = 0) ∨ (op = 3 ∧ r.dir = 1) then 1
  else if !s.subExists i ∨ !(s.port (i / 4)).macsec then 2
  else
    let held := if r.dir = 0 then (spGet none u.txSa a).isSome else (spGet none u.rxSa (r.rsc.toNat * 4 + a)).isSome
    if op ≠ 1 ∧ !held then 3
    else if op = 2 ∧ r.dir = 0 ∧ u.cur = some a then 4
    else 0

/-- R382, R383, R385, R386: a good record is applied to its sub-port. -/
def SubPort.applySa (u : SubPort) (op : Nat) (r : SaRec) : SubPort :=
  let a := r.an.toNat
  let c := r.rsc.toNat
  let sa : Sa := { pn := r.pn.toNat, ssci := r.ssci, salt := r.salt, sak := r.sak }
  if r.dir = 0 then
    if op = 1 then { u with txSa := spPut none (some sa) a u.txSa, cur := some (u.cur.getD a), noSa := false }
    else if op = 2 then { u with txSa := spPut none none a u.txSa }
    else { u with cur := some a, noSa := false }
  else if op = 1 then
    let kept := if spGet none u.rxSci c = some r.sci then u.rxSa else spKeep (fun k => decide (k / 4 ≠ c)) u.rxSa
    { u with rxSci := spPut none (some r.sci) c u.rxSci, rxSa := spPut none (some sa) (c * 4 + a) kept }
  else { u with rxSa := spPut none none (c * 4 + a) u.rxSa }

/-- R383, R384: a key record is taken. -/
def State.takeSa (s : State) (op : Nat) (r : SaRec) : State :=
  let code := s.saCode op r
  let s := if code = 0 then s.modSub r.subport.toNat (fun u => u.applySa op r) else s
  { s with net := { s.net with msecDone := true, msecCode := BitVec.ofNat 8 code } }

/-- A record written by an accessor: the management owner alone. -/
def State.saRow (s : State) (who : Accessor) (op : Nat) (r : SaRec) : State := if s.ownerAccess who then s.takeSa op r else s

/-- R383 to R386 SA_INSTALL. -/
def execSaInstall (who : Accessor) (r : SaRec) (s : State) : Out := .next (s.saRow who 1 r)

/-- R384 SA_DELETE. -/
def execSaDelete (who : Accessor) (r : SaRec) (s : State) : Out := .next (s.saRow who 2 r)

/-- R385 SA_ACTIVATE. -/
def execSaActivate (who : Accessor) (r : SaRec) (s : State) : Out := .next (s.saRow who 3 r)

/-! Frames (R375, R377, R378, R385, R386, R398, R400). -/

/-- R377: whether a sub-port accepts a destination address. -/
def State.addrOk (s : State) (i : Nat) (d : BitVec 48) : Bool :=
  let p := s.port (i / 4)
  decide (d = p.mac + BitVec.ofNat 48 (i % 4)) || decide (d = 0xFFFFFFFFFFFF) || decide (d.toNat / 2 ^ 32 = 0x3333)
    || (p.ptp && decide (d = 0x011B19000000))

/-- R377: the EtherTypes of frames that carry no SecTAG, or of what a SecTAG protects. -/
def etypeOk (e : W16) : Bool := decide (e = 0x0800) || decide (e = 0x0806) || decide (e = 0x86DD) || decide (e = 0x88F7)

/-- R386: a protected frame: the counter of its drop, or the sub-port after its acceptance. -/
def SubPort.verify (u : SubPort) (t : SecTag) : Nat ⊕ SubPort :=
  match (List.range 4).find? (fun c => decide (spGet none u.rxSci c = some t.sci)) with
  | none => .inl 12
  | some c => match spGet none u.rxSa (c * 4 + t.an) with
    | none => .inl 12
    | some sa =>
      if t.pn + u.rpw.toNat < sa.pn then .inl 13
      else if !t.icvOk then .inl 11
      else .inr { u with rxSa := spPut none (some { sa with pn := max sa.pn (t.pn + 1) }) (c * 4 + t.an) u.rxSa }

/-- R378: the frame that a sub-port sends next, and the rest. -/
def nextFrame (q : List TxFrame) : Option (TxFrame × List TxFrame) :=
  match q.find? (·.ptp) with
  | some f => some (f, q.erase f)
  | none => match q with
    | f :: t => some (f, t)
    | [] => none

/-- R385: the association that a sub-port sends under: its current one, or the next installed when its packet numbers are
used up. -/
def SubPort.usable (u : SubPort) : Option (Nat × Sa) :=
  match u.cur with
  | none => none
  | some a => ([0, 1, 2, 3].map (fun k => (a + k) % 4)).findSome? (fun n => match spGet none u.txSa n with
    | some x => if x.pn < 2 ^ 64 then some (n, x) else none
    | none => none)

/-- R378, R385 FRAME_TRANSMIT: the next frame leaves, protected where the port's MACSEC is 1. Counters: 1 TX_FRAMES, 8
MS_OUT_PROT, 9 MS_TX_NOSA. -/
def execFrameTransmit (i : Fin 16) (s : State) : Out :=
  let u := s.sub i
  if !s.subExists i ∨ !u.up then .next s
  else match nextFrame u.txq with
    | none => .next s
    | some (f, rest) =>
      let s := s.modSub i (fun u => { u with txq := rest })
      if !(s.port (i / 4)).macsec then .next ((s.emit (.frame i none f)).bump i 1)
      else match u.usable with
        | none =>
          let s := s.bump i 9
          if u.noSa then .next s
          else
            let s := s.modSub i (fun u => { u with noSa := true })
            .next ((s.log { logEntry s 0x0704 with unit := BitVec.ofNat 16 i }).alert 6 0x0704).pump
        | some (a, x) =>
          let s := s.modSub i (fun u => { u with
            cur := some a, noSa := false, txSa := spPut none (some { x with pn := x.pn + 1 }) a u.txSa })
          let s := ((s.emit (.frame i (some (a, x.pn)) f)).bump i 1).bump i 8
          .next (if x.pn + 1 = 0xC000000000000000 then
            s.log { logEntry s 0x0703 with unit := BitVec.ofNat 16 i, aux := BitVec.ofNat 8 a } else s)

/-! Neighbours (R399). -/

/-- R399 NEIGHBOR_SOLICITATION: a Neighbor Advertisement of an own address goes to its asker. -/
def execNeighborSolicitation (i : Fin 16) (target src : BitVec 128) (mac : BitVec 48) (s : State) : Out :=
  let own := s.ownAddr i false
  if !s.subReceives i ∨ own = 0 ∨ target ≠ own then .next s
  else .next (s.queueFrame i { ptp := false, dst := mac, etype := 0x86DD
                               bytes := (leBytes 16 target.toNat).reverse ++ (leBytes 16 src.toNat).reverse })

/-- R399 ARP_REQUEST: an ARP reply of an own address goes to its asker. -/
def execArpRequest (i : Fin 16) (target src : BitVec 32) (mac : BitVec 48) (s : State) : Out :=
  let own := s.ownAddr i true
  if !s.subReceives i ∨ own = 0 ∨ v4Mapped target ≠ own then .next s
  else .next (s.queueFrame i { ptp := false, dst := mac, etype := 0x0806
                               bytes := (leBytes 4 target.toNat).reverse ++ (leBytes 4 src.toNat).reverse })

/-- R399 NEIGHBOR_RESOLVED: an advertisement or reply resolves a next hop that is being resolved or refreshed. -/
def execNeighborResolved (i : Fin 16) (addr : BitVec 128) (mac : BitVec 48) (s : State) : Out :=
  if !s.subReceives i then .next s
  else .next (s.modSub i (fun u => { u with
    neigh := u.neigh.map (fun e => if e.addr = addr then { e with mac := some mac, asked := 0 } else e) }))

/-- R399 NEIGHBOR_REFRESH: an entry is solicited again; three solicitations unanswered make it unreachable. -/
def execNeighborRefresh (i : Fin 16) (addr : BitVec 128) (s : State) : Out :=
  if !(s.sub i).neigh.any (fun e => decide (e.addr = addr)) then .next s
  else
    let s := s.modSub i (fun u => { u with neigh := u.neigh.map (fun e =>
      if e.addr ≠ addr then e
      else if 3 ≤ e.asked then { e with mac := none }
      else { e with asked := e.asked + 1 }) })
    .next (s.queueFrame i (solicitation addr))

/-! The time receiver (R388 to R393). -/

/-- What the time receiver keeps of an unlisted port. -/
def PtpPort.zero : PtpPort := {}
/-- What the time receiver keeps of port p. -/
def State.ptpPort (s : State) (p : Nat) : PtpPort := spGet PtpPort.zero s.net.ptp.ports p
/-- Changes the time receiver. -/
def State.modPtp (s : State) (f : PtpSt → PtpSt) : State := { s with net := { s.net with ptp := f s.net.ptp } }
/-- Changes what it keeps of port p. -/
def State.modPtpPort (s : State) (p : Nat) (f : PtpPort → PtpPort) : State :=
  s.modPtp (fun t => { t with ports := spMod PtpPort.zero t.ports p f })

/-- R390: a dataset as a number that compares as IEEE 1588-2019 compares datasets: the lower is the better. -/
def datasetRank (d : PtpDataset) : Nat :=
  packNat 64 [d.steps.toNat, d.identity.toNat, d.prio2.toNat, d.variance.toNat, d.accuracy.toNat, d.clockClass.toNat, d.prio1.toNat]

/-- Whether port p takes part in PTP. -/
def State.ptpOn (s : State) (p : Nat) : Bool := s.portsTrain && (s.port p).ptp && decide ((s.port p).mode ≠ 0)

/-- R375, R377: whether a PTP message can reach port p. -/
def State.ptpReceives (s : State) (p : Nat) : Bool := s.ptpOn p && (List.range 4).any (fun k => s.subReceives (4 * p + k))

/-- R390: the qualified port with the best dataset, the lower-numbered on a tie. -/
def State.bestPort (s : State) : Option Nat :=
  argMax (fun p => match (s.ptpPort p).data with | some d => -((datasetRank d : Nat) : Int) | none => 0)
    ((List.range 4).filter (fun p => s.ptpOn p && (s.ptpPort p).qualified))

/-- R390, R392: a source is taken; without one before, the datum is ACQUIRING. -/
def State.takeSource (s : State) (p : Nat) : State :=
  s.modPtp (fun t => { t with
    src := some p, state := if t.src.isNone then 1 else t.state, good := if t.src.isNone then 0 else t.good
    ports := spMod PtpPort.zero t.ports p (fun x => { x with better := 0, sync := none }) })

/-- R390: an Announce of a port that is not the source: four better ones in a row take the source over. -/
def State.compareSource (s : State) (p src : Nat) (d : PtpDataset) : State :=
  let beats := match (s.ptpPort src).data with | some e => decide (datasetRank d < datasetRank e) | none => true
  if !beats then s.modPtpPort p (fun x => { x with better := 0 })
  else
    let s := s.modPtpPort p (fun x => { x with better := x.better + 1 })
    if 4 ≤ (s.ptpPort p).better then s.takeSource p else s

/-- R390 PTP_ANNOUNCE: a time transmitter is qualified by its third Announce after the first. -/
def execPtpAnnounce (p : Fin 4) (d : PtpDataset) (s : State) : Out :=
  if !s.ptpReceives p then .next s
  else
    let s := s.modPtpPort p (fun x => { x with
      data := some d, announces := x.announces + 1, qualified := x.qualified || decide (3 ≤ x.announces) })
    if !(s.ptpPort p).qualified then .next s
    else match s.net.ptp.src with
      | none => match s.bestPort with
        | some q => .next (s.takeSource q)
        | none => .next s
      | some src => if src = p.val then .next s else .next (s.compareSource p src d)

/-- R390, R392 ANNOUNCE_TIMEOUT: a port's time transmitter is lost; if it was the source, the next best port is the source,
or the datum enters HOLDOVER. -/
def execAnnounceTimeout (p : Fin 4) (s : State) : Out :=
  let s' := s.modPtpPort p (fun x => { delay := x.delay, asym := x.asym })
  if s.net.ptp.src ≠ some p.val then .next s'
  else match s'.bestPort with
    | some q => .next (s'.takeSource q)
    | none =>
      let s := if s.net.ptp.state = 2 then s'.ptpUnlock else s'
      .next (s.modPtp (fun t => { t with src := none, state := 3, good := 0, holdFrom := s.datum })).pump

/-- R391: the datum is corrected by a measured offset, datum less source time: stepped beyond 1 ms, back only while the tick
machine is stopped, and otherwise slewed by up to 500 ppm. -/
def State.servo (s : State) (o : Int) : State :=
  let drop (s : State) : State := s.modPtp (fun t => { t with ports := t.ports.map (fun e => (e.1, { e.2 with sync := none })) })
  if o < -1000000 ∨ (1000000 < o ∧ !s.tk.run) then drop { s with datum := (s.datum - o).toNat }
  else s.modPtp (fun t => { t with freq := max (-500000) (min 500000 (Config.slewRate t.freq o)) })

/-- R391, R392: an offset is measured: the filtered offset, the LOCKED condition, the servo. `sync`: the measurement is a
Sync's. -/
def State.measure (s : State) (o : Int) : State :=
  let f := Config.filterOffset s.net.ptp.offset o
  let near := decide (-50 ≤ f) && decide (f ≤ 50)
  let s := s.modPtp (fun t => { t with offset := f, good := if near then t.good + 1 else 0 })
  let t := s.net.ptp
  let s := if t.state = 2 ∧ !near then s.ptpUnlock.modPtp (fun t => { t with state := 1 })
    else if t.state = 1 ∧ 64 ≤ t.good then s.modPtp (fun t => { t with state := 2 })
    else s
  (s.servo o).pump

/-- R388: the offset of port p's last Sync, once its path delay is measured. -/
def PtpPort.offset (x : PtpPort) : Option Int :=
  match x.sync, x.delay with
  | some (t1, t2), some d => some (t2 - t1 - d - x.asym.toInt)
  | _, _ => none

/-- R388, R391 PTP_SYNC: a Sync with its origin time and correction, received at local time `rx`. -/
def execPtpSync (p : Fin 4) (origin : Nat) (corr : Int) (rx : Nat) (s : State) : Out :=
  if !s.ptpReceives p then .next s
  else
    let s := s.modPtpPort p (fun x => { x with sync := some (origin + corr, (rx : Int)) })
    if s.net.ptp.src ≠ some p.val then .next s
    else match (s.ptpPort p).offset with
      | some o => .next (s.measure o)
      | none => .next s

/-- R388, R391 PTP_DELAY_RESP: the end-to-end delay of the last Sync and a Delay_Req sent at `t3`, received at `t4`; the
first one completes an offset measurement. -/
def execPtpDelayResp (p : Fin 4) (t3 t4 : Nat) (corr : Int) (s : State) : Out :=
  if !s.ptpReceives p then .next s
  else match (s.ptpPort p).sync with
    | none => .next s
    | some (t1, t2) =>
      let first := (s.ptpPort p).delay.isNone
      let s := s.modPtpPort p (fun x => { x with delay := some ((t2 - t1 + (t4 - t3 - corr)) / 2) })
      match first, decide (s.net.ptp.src = some p.val), (s.ptpPort p).offset with
      | true, true, some o => .next (s.measure o)
      | _, _, _ => .next s

/-! Frames received (R375, R377, R378, R385, R386, R398 to R400). -/

/-- The state that a meaning leads to; the one before where it stops. -/
def outState (s : State) (o : Out) : State := match o with | .next t => t | _ => s

/-- R377, R388, R398 to R400: what an accepted frame carries reaches the Vangir engine, or the time receiver. -/
def State.takePayload (s : State) (i : Fin 16) (etype : W16) (x : Payload) : State :=
  let port : Fin 4 := Fin.ofNat 4 (i / 4)
  let of (e : Nat) (o : Out) : State := if etype.toNat = e then outState s o else s
  match x with
  | .other => s
  | .solicitation target src mac => of 0x86DD (execNeighborSolicitation i target src mac s)
  | .arpRequest target src mac => of 0x0806 (execArpRequest i target src mac s)
  | .resolved addr mac => of (if isV4 addr then 0x0806 else 0x86DD) (execNeighborResolved i addr mac s)
  | .ptpSync origin corr rx => of 0x88F7 (execPtpSync port origin corr rx s)
  | .ptpDelayResp t3 t4 corr => of 0x88F7 (execPtpDelayResp port t3 t4 corr s)
  | .ptpAnnounce d => of 0x88F7 (execPtpAnnounce port d s)
  | .vangir v6 ipOk sumOk dst src sport dport hdr msg =>
    if !ipOk ∨ !sumOk ∨ dport ≠ s.img.cfg.vgPort ∨ etype ≠ (if v6 then 0x86DD else 0x0800) then s
    else
      let mine := match s.sessCfg hdr.sid with
        | some (_, c) => decide (c.subport = i) && decide (src = c.peerAddr) && decide (sport.toNat = c.peerPort)
        | none => false
      let own := s.ownAddr i (!v6)
      if own = 0 ∨ dst ≠ own ∨ !mine then s.modSub i (fun u => { u with nosess := satAdd32 u.nosess 1 })
      else s.vgReceive hdr msg

/-- R375, R377, R381, R386 FRAME_RECEIVE. Counters: 0 RX_FRAMES, 2 RX_FCS, 3 RX_SIZE, 4 RX_ADDR, 5 RX_TYPE, 10 MS_IN_OK,
11 MS_IN_NOTVALID, 12 MS_IN_NOSA, 13 MS_IN_LATE, 14 MS_IN_UNTAGGED. -/
def execFrameReceive (i : Fin 16) (fr : Frame) (s : State) : Out :=
  let msec := (s.port (i / 4)).macsec
  if !s.subExists i ∨ !(s.sub i).up then .next s
  else if !fr.fcsOk then .next (s.bump i 2)
  else if fr.size < 64 ∨ 9216 < fr.size then .next (s.bump i 3)
  else if !s.addrOk i fr.dst then .next (s.bump i 4)
  else match fr.tag with
    | none =>
      if !etypeOk fr.etype then .next (s.bump i 5)
      else if msec then .next ((s.bump i 0).bump i 14)
      else .next ((s.bump i 0).takePayload i fr.etype fr.payload).pump
    | some t =>
      if !msec then .next (s.bump i 5)
      else match (s.sub i).verify t with
        | .inl c => .next ((s.bump i 0).bump i c)
        | .inr u =>
          let s := ((s.modSub i (fun _ => u)).bump i 0).bump i 10
          if !etypeOk fr.etype then .next (s.bump i 5)
          else .next (s.takePayload i fr.etype fr.payload).pump

/-- R583 PPS_OUT: a pulse at a whole second while the datum is LOCKED or in HOLDOVER. -/
def execPpsOut (t : Nat) (s : State) : Out :=
  let s := s.at t
  if s.datum % 1000000000 = 0 ∧ 2 ≤ s.net.ptp.state then .next (s.emit (.pps (s.datum / 1000000000))) else .next s

end Sys2Proof.Machine
end

