-- ==== Sys2Proof/Machine/Manage.lean ====
section
/-! DEFINITION. What the management owner writes: key slots, the serial floor, session keys, the power limit, the wear store,
margining (R404, R405, R452, R472, R500, R562, R564). -/

namespace Sys2Proof.Machine

/-- Whether the blocks beside the management plane, the error log and the sticky block are powered (R573). -/
def State.live (s : State) : Bool :=
  match s.dev with
  | .off | .halted => false
  | _ => true

/-! Key slots (R65, R562). -/

/-- An empty key slot. -/
def KeySlot.zero : KeySlot := {}
/-- Key slot k. -/
def State.keySlot (s : State) (k : Nat) : KeySlot := spGet KeySlot.zero s.mg.slots k

/-- R562: the result of a key record; `op`: 1 PROGRAM, 2 REVOKE. -/
def State.keySlotCode (s : State) (op slot : Nat) (qx qy : BitVec 384) (resv : Bool) : Nat :=
  let k := s.keySlot slot
  if resv ∨ 3 < slot ∨ (op ≠ 1 ∧ op ≠ 2) ∨ (op = 2 ∧ (qx ≠ 0 ∨ qy ≠ 0)) then 1
  else if op = 1 ∧ k.prog then 2
  else if op = 2 ∧ !k.prog then 3
  else if op = 1 ∧ !Config.keyValid qx qy then 4
  else 0

/-- R65, R562: a key record is taken: a key is written once, a revoke bit is only set. -/
def State.takeKeySlot (s : State) (op slot : Nat) (qx qy : BitVec 384) (resv : Bool) : State :=
  let code := s.keySlotCode op slot qx qy resv
  let k := s.keySlot slot
  let k' : KeySlot := if op = 1 then { prog := true, revoked := false, qx := qx, qy := qy } else { k with revoked := true }
  let s := if code = 0 then { s with mg := { s.mg with
    slots := spPut KeySlot.zero k' slot s.mg.slots
    fusing := if op = 1 then some (slot, s.datum) else s.mg.fusing } } else s
  { s with mg := { s.mg with keyDone := true, keyCode := BitVec.ofNat 8 code } }

/-- R562 KEY_SLOT_PROGRAM. -/
def execKeySlotProgram (who : Accessor) (slot : Byte) (qx qy : BitVec 384) (resv : Bool) (s : State) : Out :=
  if s.ownerAccess who then .next (s.takeKeySlot 1 slot.toNat qx qy resv) else .next s

/-- R562 KEY_SLOT_REVOKE. -/
def execKeySlotRevoke (who : Accessor) (slot : Byte) (qx qy : BitVec 384) (resv : Bool) (s : State) : Out :=
  if s.ownerAccess who then .next (s.takeKeySlot 2 slot.toNat qx qy resv) else .next s

/-- R564: a write to LS_SERIAL_FLOOR: it takes effect above the floor and up to LS_SERIAL. -/
def State.raiseFloor (s : State) (v : W64) : State :=
  if s.img.floor < v ∧ v ≤ s.img.serial then
    { s with img := { s.img with floor := v, floorOld := some (s.img.floor, s.datum) } }
  else s

/-- R564 SERIAL_FLOOR_WRITE. -/
def execSerialFloorWrite (who : Accessor) (v : W64) (s : State) : Out :=
  if s.live && s.ownerAccess who then .next (s.raiseFloor v) else .next s

/-! Session keys (R404, R405). -/

/-- R405: the result of a session-key record; `op`: 1 INSTALL, 2 DELETE. -/
def State.vgKeyCode (s : State) (op index : Nat) (resv : Bool) : Nat :=
  if resv ∨ 255 < index ∨ (op ≠ 1 ∧ op ≠ 2) then 1
  else if op = 2 ∧ (s.vgKey index).isNone then 2
  else 0

/-- R405: every OPEN session whose KEY is an index closes with KEY_DELETED. -/
def State.closeKeyed (s : State) (index : Nat) : State :=
  (List.range 256).foldl (fun s n => match s.sessCfg n with
    | some (_, c) => if c.key = index then s.closeSession n 8 else s
    | none => s) s

/-- R404, R405: a session-key record is taken. -/
def State.takeVgKey (s : State) (op index : Nat) (key : BitVec 256) (resv : Bool) : State :=
  let code := s.vgKeyCode op index resv
  let s := if code ≠ 0 then s
    else
      let s := if op = 2 then s.closeKeyed index else s
      { s with net := { s.net with keys := spPut none (if op = 1 then some key else none) index s.net.keys } }
  { s with net := { s.net with keyDone := true, keyCode := BitVec.ofNat 8 code } }

/-- R404, R405 SESSION_KEY_INSTALL. -/
def execSessionKeyInstall (who : Accessor) (index : W16) (key : BitVec 256) (resv : Bool) (s : State) : Out :=
  if s.live && s.ownerAccess who then .next (s.takeVgKey 1 index.toNat key resv) else .next s

/-- R405 SESSION_KEY_DELETE. -/
def execSessionKeyDelete (who : Accessor) (index : W16) (resv : Bool) (s : State) : Out :=
  if s.live && s.ownerAccess who then .next (s.takeVgKey 2 index.toNat 0 resv).pump else .next s

/-! The power limit, the wear store, margining (R452, R472, R500). -/

/-- R472: a write to TH_PWR_LIMIT. -/
def State.writeLimit (s : State) (v : W32) : State :=
  let w := v &&& 0xFFFF
  if 600 ≤ w.toNat ∧ w.toNat ≤ 1150 then { s with th := { s.th with limit := w } }
  else s.log { logEntry s 0x0A06 with arg := w.setWidth 64 }

/-- R472 POWER_LIMIT_WRITE. -/
def execPowerLimitWrite (who : Accessor) (v : W32) (s : State) : Out :=
  if s.live && s.ownerAccess who then .next (s.writeLimit v) else .next s

/-- R500 WEAR_COMMIT. -/
def execWearCommit (who : Accessor) (s : State) : Out :=
  if s.live && s.ownerAccess who then .next s.commitWear else .next s

/-- R452: SM_MARGIN_CTRL.RUN is written 1; only UNLASTED accepts it. -/
def State.startMargin (s : State) : State :=
  if s.dev = .unlasted then { s with stk := { s.stk with marginRun := true } } else s

/-- R452 MARGIN_RUN. -/
def execMarginRun (who : Accessor) (s : State) : Out := if s.ownerAccess who then .next s.startMargin else .next s

/-! The mailbox (R71 to R73, R358). -/

/-- Byte b of an accessor's mailbox; an undefined one is a free value. -/
def OrdSt.mailByte (o : OrdSt) (b : Nat) : Byte :=
  match markAt o.mboxFree b with
  | some m => Config.freeByte m b
  | none => spGet 0 o.mbox b

/-- R358: a write to LS_MB_CTRL. -/
def State.mailGo (s : State) (who : Accessor) (v : W32) : State :=
  let o := s.ord (accIndex who)
  if !v.getLsbD 31 then s
  else if o.mbBusy then s.log { logEntry s 0x0602 with unit := accUnit who }
  else
    let r := s.pushImage (pusherOf who) ((List.range (v.toNat % 2 ^ 21)).map o.mailByte)
    r.2.pushResult (accIndex who) r.1

/-- Whether an accessor's write or read reaches its instance: a function of the image that is not in D3hot, or the
management owner in its session (R34, R354, R556, R587). -/
def State.reaches (s : State) (who : Accessor) : Bool :=
  match who with
  | .fn f => decide (f.val < s.img.cfg.nfunc) && s.live && !(s.ord (1 + f)).d3
  | .mgmt _ _ => s.ownerAccess who

/-- R358 MAILBOX_GO. -/
def execMailboxGo (who : Accessor) (v : W32) (s : State) : Out :=
  if s.live && s.reaches who then .next (s.mailGo who v) else .next s

end Sys2Proof.Machine
end

