-- ==== Sys2Proof/Machine/RegMap.lean ====
section
/-! DEFINITION. The BAR0 register map: where each register stands, how wide it is, how many there are, and who writes it
(R555, R561 to R570). -/

namespace Sys2Proof.Machine

/-- The registers and byte windows of BAR0, by name. -/
inductive Reg where
  | mgId | mgState | mgOrder | mgOrderResult | mgResetCause | mgRetire | mgKeyslot | mgKeyGo | mgKeyResult | mgKeyRec
  | tkCtrl | tkPhase | tkCount | tkAlignErr | tkEpoch | tkBoundary | tkOverrun
  | lsSlotStatus | lsSerial | lsSerialFloor | lsLabel
  | awEng | wlLink | wlLost
  | npPtpCfg | npPtpStatus | npPtpOffset | npPtpFreq | npDatum | npMsecGo | npMsecResult | npMsecRec | npPort | npPtpAsym
  | npSub | npMsecRpw | npMsecTxan | npCounter
  | vgKeyGo | vgKeyResult | vgKeyMap | vgKeyRec | vgPbuf | vgRoute | vgNosess | vgSess | vgSretx | vgSdisc | vgSrxdrop
  | smScrub | smLoss | smLossDatum | smMarginCtrl | smState | smEcc | smRemap | smPpr | smMargin
  | thCool | thPwr | thPwrIn | thPwrPeak | thPwrLimit | thState | thEmerg | thHotstop | thHotstopDatum | thHub | thVr0 | thVr1
  | thStack | thStackS | thCell | thCyc
  | svCtrl | svResHead | svTests | svSkip | svCover | svPost | svFence | svRes
  | weEolNow | weEolRated | weFenceH | weLimit | weLife | weCommit | weDrift | weHeq
  | erCtrl | erOverflow | erCount | erDropped | erLoglost | erLostcount | erSram | erAlert | erLog
  | obTraceCtrl | obTraceStatus | obTraceCap | obTraceWptr | obTraceDrop | obTraceWbase | obCycle | obDatum | obCsel | obCnt
  | obTraceWin
  | lsParcelStatus | lsPserial | feLdchk | feLdchkNeed | feDeclExcess | tkPoverrun | feSlotState | awPbad | awPpoison | sgFaults
  | sgLast | wlPways | wlPpoison | wlPlatmax | smHot | smPlace | upLoguse | upDue | upWin | upApplied | upLate | upReject | upQsat
  | feQstat | feQlat | feQdepth | feSlotCells | sgTable
  | feOrd | feOrdGo | feOrdStatus | feOrdParcel | feOrdResult | lsMbCtrl | lsMbStatus | lsPushResult | wlEvent | obSnapLatch
  | msixPba | obSnap | msixTable | lsMbData
  deriving DecidableEq, Repr

/-- The Writers column (R561): no one, the management plane, the parcel's owner or the management plane, the accessor. -/
inductive Writers where
  | none | m | o | a
  deriving DecidableEq, Repr

/-- Which view an offset belongs to (R556). -/
inductive RegView where
  | device
  | parcel (p : Nat)
  | function
  deriving DecidableEq, Repr

/-- A row of the map: first offset, bytes of one instance, instances and their stride; a byte window or not. -/
structure RegRow where
  reg : Reg
  off : Nat
  size : Nat := 4
  wr : Writers := .none
  n : Nat := 1
  stride : Nat := 0
  win : Bool := false
  deriving DecidableEq, Repr

/-- R561: MG_, TK_, LS_. -/
def mapMg : List RegRow := [
  { reg := .mgId, off := 0x0, size := 8 }, { reg := .mgState, off := 0x8 }, { reg := .mgOrder, off := 0xC, wr := .m },
  { reg := .mgOrderResult, off := 0x10, wr := .m }, { reg := .mgResetCause, off := 0x14 }, { reg := .mgRetire, off := 0x18 },
  { reg := .mgKeyslot, off := 0x20 }, { reg := .mgKeyGo, off := 0x24, wr := .m }, { reg := .mgKeyResult, off := 0x28, wr := .m },
  { reg := .mgKeyRec, off := 0x80, size := 128, wr := .m, win := true },
  { reg := .tkCtrl, off := 0x10000 }, { reg := .tkPhase, off := 0x10004 }, { reg := .tkCount, off := 0x10008 },
  { reg := .tkAlignErr, off := 0x1000C }, { reg := .tkEpoch, off := 0x10010, size := 8 },
  { reg := .tkBoundary, off := 0x10018, size := 8 }, { reg := .tkOverrun, off := 0x10020, wr := .m },
  { reg := .lsSlotStatus, off := 0x20000 }, { reg := .lsSerial, off := 0x20008, size := 8 },
  { reg := .lsSerialFloor, off := 0x20010, size := 8, wr := .m }, { reg := .lsLabel, off := 0x20020, size := 16, win := true }]

/-- R565: AW_, WL_, NP_, VG_. -/
def mapNp : List RegRow := [
  { reg := .awEng, off := 0x30000, n := 8, stride := 4 },
  { reg := .wlLink, off := 0x40000 }, { reg := .wlLost, off := 0x40008, size := 8, wr := .m },
  { reg := .npPtpCfg, off := 0x50000, wr := .m }, { reg := .npPtpStatus, off := 0x50004 },
  { reg := .npPtpOffset, off := 0x50008, size := 8 }, { reg := .npPtpFreq, off := 0x50010 },
  { reg := .npDatum, off := 0x50018, size := 8 }, { reg := .npMsecGo, off := 0x50020, wr := .m },
  { reg := .npMsecResult, off := 0x50024, wr := .m }, { reg := .npMsecRec, off := 0x50080, size := 96, wr := .m, win := true },
  { reg := .npPort, off := 0x50100, n := 4, stride := 8 }, { reg := .npPtpAsym, off := 0x50104, wr := .m, n := 4, stride := 8 },
  { reg := .npSub, off := 0x51000, n := 16, stride := 0x100 },
  { reg := .npMsecRpw, off := 0x51004, wr := .m, n := 16, stride := 0x100 },
  { reg := .npMsecTxan, off := 0x51008, n := 16, stride := 0x100 },
  { reg := .npCounter, off := 0x51010, size := 120, n := 16, stride := 0x100 },
  { reg := .vgKeyGo, off := 0x60000, wr := .m }, { reg := .vgKeyResult, off := 0x60004, wr := .m },
  { reg := .vgKeyMap, off := 0x60020, size := 8, n := 4, stride := 8 },
  { reg := .vgKeyRec, off := 0x60080, size := 48, wr := .m, win := true }, { reg := .vgPbuf, off := 0x60100, n := 4, stride := 4 },
  { reg := .vgRoute, off := 0x60400, size := 32, wr := .m, n := 16, stride := 32, win := true },
  { reg := .vgNosess, off := 0x60600, wr := .m, n := 16, stride := 4 },
  { reg := .vgSess, off := 0x61000, n := 256, stride := 16 }, { reg := .vgSretx, off := 0x61004, wr := .m, n := 256, stride := 16 },
  { reg := .vgSdisc, off := 0x61008, wr := .m, n := 256, stride := 16 },
  { reg := .vgSrxdrop, off := 0x6100C, wr := .m, n := 256, stride := 16 }]

/-- R566: SM_, TH_. -/
def mapTh : List RegRow := [
  { reg := .smScrub, off := 0x80000 }, { reg := .smLoss, off := 0x80004 }, { reg := .smLossDatum, off := 0x80008, size := 8 },
  { reg := .smMarginCtrl, off := 0x80010, wr := .m }, { reg := .smState, off := 0x80100, n := 8, stride := 0x20 },
  { reg := .smEcc, off := 0x80108, size := 8, wr := .m, n := 8, stride := 0x20 },
  { reg := .smRemap, off := 0x80110, n := 8, stride := 0x20 }, { reg := .smPpr, off := 0x80114, n := 8, stride := 0x20 },
  { reg := .smMargin, off := 0x80400, size := 1024, win := true },
  { reg := .thCool, off := 0x90000 }, { reg := .thPwr, off := 0x90004 }, { reg := .thPwrIn, off := 0x90008, size := 8 },
  { reg := .thPwrPeak, off := 0x90010, wr := .m }, { reg := .thPwrLimit, off := 0x90014, wr := .m },
  { reg := .thState, off := 0x90018 }, { reg := .thEmerg, off := 0x9001C, wr := .m }, { reg := .thHotstop, off := 0x90020 },
  { reg := .thHotstopDatum, off := 0x90028, size := 8 }, { reg := .thHub, off := 0x90030, size := 8 },
  { reg := .thVr0, off := 0x90038, size := 8 }, { reg := .thVr1, off := 0x90040, size := 8 },
  { reg := .thStack, off := 0x90100, n := 8, stride := 4 }, { reg := .thStackS, off := 0x90140, size := 8, n := 8, stride := 8 },
  { reg := .thCell, off := 0x90200, n := 128, stride := 4 }, { reg := .thCyc, off := 0x91000, n := 411, stride := 4 }]

/-- R566: SV_, WE_, ER_. -/
def mapSv : List RegRow := [
  { reg := .svCtrl, off := 0xA0000, wr := .m }, { reg := .svResHead, off := 0xA0004 },
  { reg := .svTests, off := 0xA0008, size := 8, wr := .m }, { reg := .svSkip, off := 0xA0010, size := 8, wr := .m },
  { reg := .svCover, off := 0xA0018, size := 8 }, { reg := .svPost, off := 0xA0020 }, { reg := .svFence, off := 0xA0030, size := 16 },
  { reg := .svRes, off := 0xA2000, size := 8192, win := true }, { reg := .weEolNow, off := 0xA8000 },
  { reg := .weEolRated, off := 0xA8004 }, { reg := .weFenceH, off := 0xA8008 }, { reg := .weLimit, off := 0xA800C },
  { reg := .weLife, off := 0xA8010 }, { reg := .weCommit, off := 0xA8014, wr := .m },
  { reg := .weDrift, off := 0xA9000, size := 2144, win := true }, { reg := .weHeq, off := 0xAA000, n := 137, stride := 4 },
  { reg := .erCtrl, off := 0xC0000, wr := .m }, { reg := .erOverflow, off := 0xC0004 },
  { reg := .erCount, off := 0xC0008, size := 8 }, { reg := .erDropped, off := 0xC0010 }, { reg := .erLoglost, off := 0xC0014 },
  { reg := .erLostcount, off := 0xC0018 }, { reg := .erSram, off := 0xC0020, size := 8, wr := .m },
  { reg := .erAlert, off := 0xC0028, size := 8, wr := .m }, { reg := .erLog, off := 0xE0000, size := 131072, win := true }]

/-- R566: OB_. -/
def mapOb : List RegRow := [
  { reg := .obTraceCtrl, off := 0x100000, size := 8, wr := .m }, { reg := .obTraceStatus, off := 0x100008 },
  { reg := .obTraceCap, off := 0x10000C }, { reg := .obTraceWptr, off := 0x100010, size := 8 },
  { reg := .obTraceDrop, off := 0x100018 }, { reg := .obTraceWbase, off := 0x10001C, wr := .m },
  { reg := .obCycle, off := 0x100020, size := 8 }, { reg := .obDatum, off := 0x100028, size := 8 },
  { reg := .obCsel, off := 0x101000, wr := .m, n := 1024, stride := 4 },
  { reg := .obCnt, off := 0x102000, size := 8, n := 1024, stride := 8 },
  { reg := .obTraceWin, off := 0x200000, size := 0x100000, win := true }]

/-- R567: a parcel region, by the offset in it. -/
def mapParcel : List RegRow := [
  { reg := .lsParcelStatus, off := 0x0, wr := .o }, { reg := .lsPserial, off := 0x8, size := 8 }, { reg := .feLdchk, off := 0x10 },
  { reg := .feLdchkNeed, off := 0x14 }, { reg := .feDeclExcess, off := 0x18, wr := .o }, { reg := .tkPoverrun, off := 0x1C, wr := .o },
  { reg := .feSlotState, off := 0x20, size := 16 }, { reg := .awPbad, off := 0x40, wr := .o },
  { reg := .awPpoison, off := 0x44, wr := .o }, { reg := .sgFaults, off := 0x48, wr := .o }, { reg := .sgLast, off := 0x50, size := 8 },
  { reg := .wlPways, off := 0x58 }, { reg := .wlPpoison, off := 0x5C, wr := .o }, { reg := .wlPlatmax, off := 0x60, wr := .o },
  { reg := .smHot, off := 0x64, wr := .o }, { reg := .smPlace, off := 0x68, wr := .o }, { reg := .upLoguse, off := 0x80 },
  { reg := .upDue, off := 0x84 }, { reg := .upWin, off := 0x88 }, { reg := .upApplied, off := 0x8C, wr := .o },
  { reg := .upLate, off := 0x90, wr := .o }, { reg := .upReject, off := 0x94, wr := .o }, { reg := .upQsat, off := 0x98, wr := .o },
  { reg := .feQstat, off := 0x100, n := 32, stride := 8 }, { reg := .feQlat, off := 0x104, n := 32, stride := 8 },
  { reg := .feQdepth, off := 0x200, n := 32, stride := 4 }, { reg := .feSlotCells, off := 0x400, size := 16, n := 64, stride := 16 },
  { reg := .sgTable, off := 0x2000, size := 8192, win := true }]

/-- R569: the function region and the mailbox window. -/
def mapFn : List RegRow := [
  { reg := .feOrd, off := 0x800000, size := 64, wr := .a, win := true }, { reg := .feOrdGo, off := 0x800040, wr := .a },
  { reg := .feOrdStatus, off := 0x800044, wr := .a }, { reg := .feOrdParcel, off := 0x800048, wr := .a },
  { reg := .feOrdResult, off := 0x800050, size := 16, win := true }, { reg := .lsMbCtrl, off := 0x800060, wr := .a },
  { reg := .lsMbStatus, off := 0x800064 }, { reg := .lsPushResult, off := 0x800068, wr := .a },
  { reg := .wlEvent, off := 0x800070, wr := .a }, { reg := .obSnapLatch, off := 0x800078, wr := .a },
  { reg := .msixPba, off := 0x800800, size := 256, win := true }, { reg := .obSnap, off := 0x804000, size := 16384, win := true },
  { reg := .msixTable, off := 0x808000, size := 32768, wr := .a, win := true },
  { reg := .lsMbData, off := 0x1000000, size := 0x100000, wr := .a, win := true }]

/-- R555, R556: the view of an offset and the offset that its map uses. -/
def regView (off : Nat) : RegView × Nat :=
  if 0x400000 ≤ off ∧ off < 0x500000 then (.parcel ((off - 0x400000) / 0x10000), off % 0x10000)
  else if (0x800000 ≤ off ∧ off < 0x810000) ∨ (0x1000000 ≤ off ∧ off < 0x1100000) then (.function, off)
  else (.device, off)

/-- The map of a view. -/
def RegView.map : RegView → List RegRow
  | .device => mapMg ++ mapNp ++ mapTh ++ mapSv ++ mapOb
  | .parcel _ => mapParcel
  | .function => mapFn

/-- The instance and the byte of it that an offset meets. -/
def RegRow.at (r : RegRow) (off : Nat) : Option (Nat × Nat) :=
  if off < r.off then none
  else
    let d := off - r.off
    let i := if r.stride = 0 then 0 else d / r.stride
    let b := d - i * r.stride
    if i < r.n ∧ b < r.size then some (i, b) else none

/-- The register that an offset of a view meets: its row, its instance, the byte of it. -/
def findReg (rows : List RegRow) (off : Nat) : Option (RegRow × Nat × Nat) :=
  rows.findSome? (fun r => (r.at off).map (fun x => (r, x.1, x.2)))

/-- R21, R558: whether an access of a width meets a register whole, or a half of a 64-bit one, or a window's bytes. -/
def RegRow.widthOk (r : RegRow) (b width : Nat) : Bool :=
  if r.win then decide (b + width ≤ r.size)
  else if r.size = 4 then decide (width = 4)
  else true

/-- R573: the registers that read in HALTED: MG_, ER_, TH_HOTSTOP, TH_HOTSTOP_DATUM and the sticky block. -/
def Reg.sticky : Reg → Bool
  | .mgId | .mgState | .mgOrder | .mgOrderResult | .mgResetCause | .mgRetire | .mgKeyslot | .mgKeyGo | .mgKeyResult | .mgKeyRec
  | .erCtrl | .erOverflow | .erCount | .erDropped | .erLoglost | .erLostcount | .erSram | .erAlert | .erLog
  | .thHotstop | .thHotstopDatum | .thCyc | .smLoss | .smLossDatum => true
  | _ => false

/-- R556, R557, R573: whether an accessor sees an instance: it exists, and the accessor's view holds it. -/
def State.sees (s : State) (who : Accessor) (v : RegView) (r : Reg) (i : Nat) : Bool :=
  (s.live || r.sticky) &&
  (match v, who with
    | .parcel p, .fn f => (s.parcel p).ownedBy f
    | .function, .mgmt _ _ => !(r = .msixPba || r = .msixTable || r = .wlEvent)
    | _, _ => true) &&
  (match v with
    | .parcel p => decide ((s.parcel p).state ≠ .absent) && decide (p < s.img.cfg.nparcel) &&
        (match r with
          | .feQstat | .feQlat | .feQdepth => ((s.parcel p).qcfg i).isSome
          | _ => true)
    | _ => match r with
      | .npSub | .npMsecRpw | .npMsecTxan | .npCounter | .vgRoute | .vgNosess =>
        decide (i % 4 < modeSubs (s.port (i / 4)).mode)
      | .vgSess | .vgSretx | .vgSdisc | .vgSrxdrop => (s.sessCfg i).isSome
      | _ => true)

end Sys2Proof.Machine
end

