-- ==== Sys2Proof/Machine/RegRead.lean ====
section
/-! DEFINITION. What each register of BAR0 reads, and a BAR0 read (R19 to R23, R554 to R570). -/

namespace Sys2Proof.Machine

/-! Fields of registers. -/

/-- A result register: DONE in bit 8, CODE in [7:0]. -/
def resultReg (done : Bool) (code : Byte) : Nat := done.toNat * 256 + code.toNat

/-- Flags at bits 0, 1, and so on. -/
def flagBits (l : List Bool) : Nat := packNat 1 (l.map (·.toNat))

/-- Four sensors, 16 bits each, the first in [15:0] (R477). -/
def fourTemps (f : Nat → Int) : Nat := packNat 16 ((List.range 4).map (fun j => temp16 (f j)))

/-- R327: the 32 bytes of a descriptor. -/
def SegDesc.bytes (d : SegDesc) : List Byte :=
  leBytes 8 d.vbase ++ leBytes 8 d.tbase ++ leBytes 8 d.limit ++
    leBytes 1 d.target ++ leBytes 1 (d.permR.toNat + 2 * d.permW.toNat) ++ leBytes 1 d.mirrored.toNat ++
    leBytes 1 d.stks ++ leBytes 1 d.gran ++ leBytes 3 0

/-- R401, R412: LEN of a partner's reliable message, its tag included. -/
def bodySize (b : VBody) (enc : Bool) : Nat :=
  32 + (if enc then 16 else 0) + (match b with
    | .rank w | .gather w => 16 + w.patch.length
    | .update x => x.length
    | .order d => d.length
    | .stage _ d => 16 + d.length
    | .push _ _ => 24)

/-- R421: lines of 64 bytes that a session keeps in its port's buffer. -/
def VgSess.bufLines (v : VgSess) (enc : Bool) : Nat :=
  v.unacked.foldl (fun n t => n + (t.bytes.length + 63) / 64) 0 + v.held.foldl (fun n e => n + (bodySize e.2 enc + 63) / 64) 0

/-- R429: VG_PBUF of a port. -/
def State.vgBuf (s : State) (p : Nat) : Nat :=
  s.parcels.foldl (fun n e => if e.2.state = .absent then n
    else n + ((e.2.cfg.sessions.filter (fun c => decide (c.subport / 4 = p))).foldl (fun m c => m + (s.vg c.session).bufLines c.enc) 0)) 0

/-- R296, R301: sector reads that a gather slot still waits for on engine k, of those at P2 or of the others. -/
def GatherSlot.left (g : GatherSlot) (k : Nat) (p2 : Bool) : Nat :=
  if g.phase = .reading then
    let st := stackList g.table.stks.toNat
    g.rows.foldl (fun n r => if r.p2 == p2 && decide (st.getD (r.index % st.length) 8 = k) then
      n + (g.table.rstride / 32 - r.got.length) else n) 0
  else 0

/-- R295: the reads of a cell on engine k, at P0 or at a lower class. -/
def State.cellReads (s : State) (c : Cell) (k : Nat) (p0 : Bool) : Nat :=
  let rt := match c.graph, c.parcel with
    | some g, some p => !((s.parcel p).gslot g.slot).hdr.be
    | _, _ => false
  let sum (p2 : Bool) : Nat := (c.goneGather.map (·.2) ++ [c.slot 0, c.slot 1]).foldl (fun n g => n + g.left k p2) 0
  if p0 then (if rt then sum false else 0) else sum true + (if rt then 0 else sum false)

/-- Sector reads that the cells of parcel p wait for on engine k, at P0 or at a lower class. -/
def State.sectorsLeft (s : State) (p k : Nat) (p0 : Bool) : Nat :=
  s.cells.foldl (fun n e => if e.2.parcel.map (·.val) = some p then n + s.cellReads e.2 k p0 else n) 0

/-- R296: the sector reads of engine k that parcel p owns. -/
def State.ownReads (s : State) (p k : Nat) : Nat := 128 * (s.parcel p).cfg.share.getD k 0

/-- R296, R301: AW_ENG: a parcel's reads take the slots it owns, P0 first; what they leave over takes the slots that no
parcel owns, in class order (log 104). -/
def State.awEng (s : State) (k : Nat) : Nat :=
  let ps := List.range 16
  let sum (f : Nat → Nat) : Nat := ps.foldl (fun n p => n + f p) 0
  let free := 4096 - sum (fun p => s.ownReads p k)
  let over0 := sum (fun p => s.sectorsLeft p k true - s.ownReads p k)
  let all (p : Nat) : Nat := s.sectorsLeft p k true + s.sectorsLeft p k false
  let own := sum (fun p => min (s.ownReads p k) (all p))
  let more := sum (fun p => all p - s.ownReads p k)
  (min 0x1FFF (over0 - free)) * 2 ^ 16 + min 4096 (own + min free more)

/-- R126, R134: FE_QSTAT; in flight is what holds an instance of the share. -/
def State.feQstat (s : State) (p q : Nat) : Nat :=
  let y := s.queue p q
  let st := match y.state with | .unbound => 0 | .launched => 1 | .persistent => 2 | .unbinding => 3
  let cls := match (s.parcel p).qcfg q with | some c => c.be.toNat | none => 0
  let fly := ((s.instsOf p).filter (fun e => decide (e.2.q = q))).length + (y.records.filter (·.holdsShare)).length
  st * 2 ^ 28 + cls * 2 ^ 27 + (if y.state = .unbound then 0 else y.slot % 64 * 2 ^ 21) + min 0x1FFF y.waiting.length * 256 + min 255 fly

/-- R568: the code of a slot's state. -/
def SlotState.code : SlotState → Nat
  | .empty => 0 | .loading => 1 | .loaded => 2 | .unloading => 3

/-- R568: FE_SLOT_CELLS. -/
def GraphSlot.mask (g : GraphSlot) : Nat :=
  match g.state with
  | .empty | .loading => 0
  | _ => g.cells.foldl (fun (m : BitVec 128) n => m ||| (1#128 <<< n)) 0 |>.toNat

/-- R563: LS_PARCEL_STATUS.STATE. -/
def PState.code : PState → Nat
  | .absent | .active => 0 | .draining => 1 | .quiet => 2 | .building => 3

/-! Values. -/

/-- MG_, TK_, LS_ (R109, R534, R560, R562, R563). -/
def State.readMg (s : State) (r : Reg) : Nat :=
  let t := s.tk
  let when (v : Nat) : Nat := if t.run then v else 0
  match r with
  | .mgId => s.mg.assembly.toNat * 2 ^ 40 + 0x01E0401F6B
  | .mgState => s.mg.step * 256 + s.dev.code
  | .mgOrderResult => resultReg s.mg.orderDone s.mg.orderCode
  | .mgResetCause => s.mg.resetCause.toNat
  | .mgRetire => if s.dev = .retired then s.mg.retire.toNat else 0
  | .mgKeyslot => flagBits ((List.range 4).map (fun k => (s.keySlot k).prog) ++ (List.range 4).map (fun k => (s.keySlot k).revoked))
  | .mgKeyResult => resultReg s.mg.keyDone s.mg.keyCode
  | .tkCtrl => when (t.aligned.toNat * 2 ^ 17 + 2 ^ 16) + s.img.cfg.align.toNat * 2 ^ 15 + s.img.cfg.period % 256
  | .tkPhase => 3 * 2 ^ 24 + s.img.cfg.drain % 256 * 256 + s.img.cfg.survey % 256
  | .tkCount => when t.count.toNat
  | .tkAlignErr => when t.alignErr.toNat
  | .tkEpoch => when t.epoch.toNat
  | .tkBoundary => when t.boundary
  | .tkOverrun => when t.overrun.toNat
  | .lsSlotStatus => s.img.reasonB.toNat * 2 ^ 16 + s.img.reasonA.toNat * 256 + s.img.sel
  | .lsSerial => s.img.serial.toNat
  | .lsSerialFloor => s.img.floor.toNat
  | _ => 0

/-- AW_, WL_, NP_ (R301, R371, R396). -/
def State.readNp (s : State) (r : Reg) (i : Nat) : Nat :=
  let t := s.net.ptp
  let u := s.sub i
  match r with
  | .awEng => s.awEng i
  | .wlLink => s.host.link.toNat
  | .wlLost => s.host.lostLines.toNat * 2 ^ 32 + s.host.lostRecs.toNat
  | .npPtpCfg => t.domain.toNat
  | .npPtpStatus => (if t.state = 3 then min 0xFFFFFF ((s.datum - t.holdFrom) / 1000000000) * 256 else 0) + t.src.getD 0 * 4 + t.state
  | .npPtpOffset => (BitVec.ofInt 64 t.offset).toNat
  | .npPtpFreq => (BitVec.ofInt 32 t.freq).toNat
  | .npDatum => s.datum
  | .npMsecResult => resultReg s.net.msecDone s.net.msecCode
  | .npPort =>
    let e := s.port i
    (if e.mode = 0 then 0 else spGet 0 s.net.mods i % 4) * 2 ^ 28 + (decide (t.src = some i)).toNat * 2 ^ 17 + e.ptp.toNat * 2 ^ 16 + e.macsec.toNat * 512 + e.mode % 4
  | .npPtpAsym => (s.ptpPort i).asym.toNat
  | .npSub => u.up.toNat * 2 ^ 31 + u.flaps.toNat
  | .npMsecRpw => u.rpw.toNat
  | .npMsecTxan => u.cur.getD 0 * 32 + u.cur.isSome.toNat * 16 + flagBits ((List.range 4).map (fun a => (spGet none u.txSa a).isSome))
  | _ => 0

/-- VG_ (R405, R429). -/
def State.readVg (s : State) (r : Reg) (i : Nat) : Nat :=
  let v := s.vg i
  match r with
  | .vgKeyResult => resultReg s.net.keyDone s.net.keyCode
  | .vgKeyMap => flagBits ((List.range 64).map (fun k => (s.vgKey (64 * i + k)).isSome))
  | .vgPbuf => s.vgBuf i
  | .vgNosess => (s.sub i).nosess.toNat
  | .vgSess => v.isOpen.toNat * 2 ^ 31 + v.close.toNat * 2 ^ 16 + (if v.inc = 0 then 0 else min 0xFFFF (v.rto / 1000))
  | .vgSretx => v.retx.toNat
  | .vgSdisc => v.disc.toNat
  | .vgSrxdrop => v.rxdrop.toNat
  | _ => 0

/-- SM_ (R456), by stack. -/
def State.readSm (s : State) (r : Reg) (k : Nat) : Nat :=
  let m := s.stk
  let used := (spGet [] m.remap k).length
  match r with
  | .smScrub => m.scrubPasses.toNat
  | .smLoss => m.loss.toNat
  | .smLossDatum => m.lossDatum.toNat
  | .smMarginCtrl => m.marginRun.toNat * 2 + m.marginEn.toNat
  | .smState => (m.lost.getLsbD k).toNat * 2 ^ 31 + (m.trained.getLsbD k).toNat * 2 ^ 30
      + (decide ((s.thStack k).cap ≠ 0)).toNat * 2 ^ 11 + (m.refx2.getLsbD k).toNat * 2 ^ 10
  | .smEcc => (spGet 0 m.ue k).toNat * 2 ^ 32 + (spGet 0 m.ce k).toNat
  | .smRemap => (decide (1024 ≤ used)).toNat * 2 ^ 31 + spGet 0 m.soft k * 2 ^ 16 + used
  | .smPpr => spGet 0 m.pprLast k * 2 ^ 16
      + (1024 - m.pprUsed.foldl (fun n e => if e.1 / 512 = k then n + e.2 else n) 0)
  | _ => 0

/-- TH_ (R477), by unit. -/
def State.readTh (s : State) (r : Reg) (i : Nat) : Nat :=
  let t := s.th
  match r with
  | .thCool => t.coolOut.toNat * 2 ^ 16 + temp16 s.coolTemp
  | .thPwr => s.effLimit * 2 ^ 16 + s.powerAvg
  | .thPwrIn => packNat 16 t.ins
  | .thPwrPeak => t.peak.toNat % 2 ^ 16
  | .thPwrLimit => t.limit.toNat
  | .thState => flagBits [t.pemerg, (List.range 128).any (fun n => !(s.cell n).gated && decide ((s.cell n).clk < s.floorOf n)),
      (List.range 8).any s.stackEmerg, t.vrDerate, s.immersed && decide (400 < s.coolTemp)]
  | .thEmerg => t.emergs.toNat
  | .thHotstop => t.hotstop.toNat
  | .thHotstopDatum => t.hotstopDatum.toNat
  | .thHub => fourTemps s.hubSensor
  | .thVr0 => fourTemps s.vrTemp
  | .thVr1 => fourTemps (fun j => s.vrTemp (4 + j))
  | .thStack => (s.stackEmerg i).toNat * 2 ^ 20 + min (s.thStack i).cap 15 * 2 ^ 16 + temp16 (s.stackTemp i)
  | .thStackS => fourTemps (s.stackSensor i)
  | .thCell =>
    let c := s.cell i
    (s.thCell i).emerg.toNat * 2 ^ 22 + (!c.gated && decide (c.clk < s.targetOf i)).toNat * 2 ^ 21 + c.clk % 32 * 2 ^ 16 + temp16 (s.cellTemp i)
  | .thCyc => (spGet 0 t.cyc i).toNat
  | _ => 0

/-- SV_, WE_ (R504). -/
def State.readSv (s : State) (r : Reg) (i : Nat) : Nat :=
  let v := s.sv
  match r with
  | .svCtrl => v.ctrl.toNat
  | .svResHead => v.head.toNat
  | .svTests => v.failed.toNat * 2 ^ 32 + v.run.toNat
  | .svSkip => packNat 16 [v.abandon.toNat, v.overrun.toNat, v.nosave.toNat, v.nofit.toNat]
  | .svCover => packNat 16 ((List.range 4).map (fun k => s.svCover (k + 1)))
  | .svPost => v.postFirst.toNat * 2 ^ 24 + v.postFails.toNat
  | .svFence => s.we.fences.toNat
  | .weEolNow => s.we.eolNow.toNat
  | .weEolRated => s.we.eolRated.toNat
  | .weFenceH => s.we.fenceH.toNat
  | .weLimit => s.we.limit.toNat
  | .weLife => s.we.life
  | .weHeq => (s.weUnit i).heq / 2 ^ 32
  | _ => 0

/-- ER_, OB_ (R534, R544, R551). -/
def State.readOb (s : State) (r : Reg) (i : Nat) : Nat :=
  let e := s.er
  let b := s.ob
  match r with
  | .erOverflow => e.overflow
  | .erCount => e.count
  | .erDropped => e.dropped.toNat
  | .erLoglost => e.lost.toNat * 2 ^ 31 + e.lostFirst.toNat
  | .erLostcount => e.lostCount.toNat
  | .erSram => e.sramUe.toNat * 2 ^ 32 + e.sramCe.toNat
  | .erAlert => e.alertFirst.toNat * 2 ^ 32 + e.alertCause.toNat
  | .obTraceCtrl => b.ctrl.toNat
  | .obTraceStatus => b.run.toNat * 2 ^ 31 + b.full.toNat * 2 ^ 30 + b.cause * 2 ^ 28
  | .obTraceCap => s.img.cfg.traceCap
  | .obTraceWptr => b.wptr.toNat
  | .obTraceDrop => b.drop.toNat
  | .obTraceWbase => b.wbase.toNat
  | .obCycle => b.cycle.toNat
  | .obDatum => s.datum
  | .obCsel => (spGet 0 b.csel i).toNat
  | .obCnt => (spGet 0 b.cnt i).toNat
  | _ => 0

/-- The registers of parcel p (R126, R165, R301, R324, R344, R371, R456, R563, R568). -/
def State.readParcel (s : State) (p : Nat) (r : Reg) (i : Nat) : Nat :=
  let x := s.parcel p
  match r with
  | .lsParcelStatus => x.noEffect.toNat * 256 + x.state.code
  | .lsPserial => x.serial.toNat
  | .feLdchk => x.ldchk.toNat
  | .feLdchkNeed => x.ldchkNeed.toNat
  | .feDeclExcess => x.declExcess.toNat
  | .tkPoverrun => x.overruns.toNat
  | .feSlotState => packNat 2 ((List.range 64).map (fun g => (x.gslot g).state.code))
  | .awPbad => x.awPbad.toNat
  | .awPpoison => x.awPpoison.toNat
  | .sgFaults => x.sgFaults.toNat
  | .sgLast => x.sgLast.toNat
  | .wlPways => s.wayBase p % 16 * 256 + x.cfg.weltWays
  | .wlPpoison => x.wlPoison.toNat
  | .wlPlatmax => x.wlLatMax.toNat
  | .smHot => x.smHot.toNat
  | .smPlace => x.smPlace.toNat
  | .upLoguse => x.logUsed + s.creditOut p
  | .upDue => x.upDue.toNat
  | .upWin => x.upWin.toNat
  | .upApplied => x.upApplied.toNat
  | .upLate => x.upLate.toNat
  | .upReject => x.upReject.toNat
  | .upQsat => x.upQsat.toNat
  | .feQstat => s.feQstat p i
  | .feQlat => if (x.queue i).state = .unbound then 0 else min 0xFFFFFFFF (x.queue i).lq
  | .feQdepth => (x.queue i).waiting.length
  | .feSlotCells => (x.gslot i).mask
  | _ => 0

/-- The registers of accessor a's own instance (R117, R358, R371, R551, R570). -/
def State.readOwn (s : State) (a : Nat) (r : Reg) : Nat :=
  let o := s.ord a
  match r with
  | .feOrdStatus => o.done.toNat * 2 + o.busy.toNat
  | .feOrdParcel => if a = 0 then o.parcel else 0
  | .lsMbStatus => o.mbBusy.toNat
  | .lsPushResult => resultReg o.pushDone o.pushCode
  | .wlEvent => o.event.toNat
  | .obSnapLatch => o.snapDone.toNat * 2
  | _ => 0

/-- The whole value of instance i of a register, as accessor a sees it; a write-only one reads zero (R19). -/
def State.regValue (s : State) (a : Nat) (v : RegView) (r : Reg) (i : Nat) : Nat :=
  match v with
  | .parcel p => s.readParcel p r i
  | .function => s.readOwn a r
  | .device => s.readMg r + s.readNp r i + s.readVg r i + s.readSm r i + s.readTh r i + s.readSv r i + s.readOb r i

/-! Byte windows. -/

/-- R533: byte b of the log store. -/
def State.logByte (s : State) (b : Nat) : Byte :=
  match spGet none s.er.slots (b / 32) with
  | none => 0
  | some x => if x.lost then (if b % 32 = 0xC ∨ b % 32 = 0xD then 0xFF else 0) else x.bytes.getD (b % 32) 0

/-- Whether an accessor reads the trace window (R543). -/
def State.readsTrace (s : State) (a : Nat) : Bool := decide (a = 0) || decide ((s.ob.ctrl >>> 56).toNat % 16 + 1 = a)

/-- R543: byte b of the trace window. -/
def State.traceByte (s : State) (a b : Nat) : Byte :=
  let i := s.ob.wbase.toNat + b / 32
  if s.readsTrace a && decide (i < s.img.cfg.traceCap) then (s.getRecord i).getD (b % 32) 0 else 0

/-- R344: byte b of SG_TABLE. -/
def Parcel.segByte (x : Parcel) (b : Nat) : Byte :=
  if x.cfg.nctx ≤ b / 512 then 0
  else match x.seg (b / 512) (b / 32 % 16) with
    | some d => d.bytes.getD (b % 32) 0
    | none => 0

/-- R117: byte b of FE_ORD_RESULT. -/
def OrdSt.resultByte (o : OrdSt) (b : Nat) : Byte :=
  (leBytes 8 o.result.1.toNat ++ [o.result.2.1, o.result.2.2]).getD b 0

/-- Byte b of instance i of a window; a write-only one reads zero. -/
def State.winByte (s : State) (a : Nat) (v : RegView) (r : Reg) (i b : Nat) : Byte :=
  let o := s.ord a
  match r with
  | .lsLabel => s.img.label.getD b 0
  | .npCounter => (leBytes 8 (spGet 0 (s.sub i).ctr (b / 8)).toNat).getD (b % 8) 0
  | .vgRoute => spGet 0 (s.sub i).route b
  | .smMargin => s.stk.margin.getD b 0
  | .svRes => (spGet [] s.sv.res (b / 32)).getD (b % 32) 0
  | .weDrift => (leBytes 4 (BitVec.ofInt 32 (spGet 0 s.we.drift (b / 4))).toNat).getD (b % 4) 0
  | .erLog => s.logByte b
  | .obTraceWin => s.traceByte a b
  | .sgTable => match v with | .parcel p => (s.parcel p).segByte b | _ => 0
  | .feOrd => o.window.getD b 0
  | .feOrdResult => o.resultByte b
  | .msixPba => if 8 * b < s.vectors then BitVec.ofNat 8 (flagBits ((List.range 8).map (fun k => spGet false o.msixPending (8 * b + k)))) else 0
  | .obSnap => spGet 0 o.snap b
  | .msixTable => if b / 16 < s.vectors then o.msixByte b else 0
  | _ => 0

/-! Reads. -/

/-- R23, R528: an entry for an access that R21 or R557 names. -/
def State.badAccess (s : State) (who : Accessor) (off : Nat) : State :=
  s.log { logEntry s 0x0201 with unit := accUnit who, arg := BitVec.ofNat 64 off }

/-- R533: an uncorrectable error on a read of a slot of the log store. -/
def State.logReadFails (s : State) (slot : Nat) : State :=
  let s := { s with er := { s.er with slots := match spGet none s.er.slots slot with
    | some x => spPut none (some { x with lost := true }) slot s.er.slots
    | none => s.er.slots } }
  s.loseLog 0 (1 + s.er.queue.length)

/-- R21, R22: a read of a register of the map: of a half of a 64-bit register, the lower half with a latch of the upper. -/
def State.readReg (s : State) (a off : Nat) (v : RegView) (row : RegRow) (i b width : Nat) : State × Nat :=
  if row.win || decide (row.reg = .npCounter) && decide (width = 8) then
    (s, leNat ((List.range width).map (fun k => s.winByte a v row.reg i (b + k))))
  else
    let whole := if row.reg = .npCounter then (spGet 0 (s.sub i).ctr (b / 8)).toNat
      else s.regValue a v row.reg i / 2 ^ (64 * (b / 8))
    if width = 8 ∨ row.size = 4 then (s, whole % 2 ^ (8 * width))
    else if b % 8 = 0 then
      (s.modOrd a (fun o => { o with latch := spPut none (some (BitVec.ofNat 32 (whole / 2 ^ 32))) (off + 4) o.latch }), whole % 2 ^ 32)
    else match spGet none (s.ord a).latch off with
      | some x => (s.modOrd a (fun o => { o with latch := spPut none none off o.latch }), x.toNat)
      | none => (s, whole / 2 ^ 32 % 2 ^ 32)

/-- R19 to R23, R556, R557: a BAR0 read of an accessor. `logFail`: the slot of ER_LOG that it reads is uncorrectable. -/
def State.bar0Get (s : State) (who : Accessor) (off width : Nat) (logFail : Bool) : State × Nat :=
  let a := accIndex who
  let (v, rel) := regView off
  if (width ≠ 4 ∧ width ≠ 8) ∨ off % width ≠ 0 then (s.badAccess who off, 0)
  else match findReg v.map rel with
    | none => if width = 8 ∧ (findReg v.map (rel + 4)).isSome then (s.badAccess who off, 0) else (s, 0)
    | some (row, i, b) =>
      if !row.widthOk b width then (s.badAccess who off, 0)
      else if !s.sees who v row.reg i then (s, 0)
      else
        let s := if logFail && decide (row.reg = .erLog) then s.logReadFails (b / 32) else s
        s.readReg a off v row i b width

/-- R22, R23, R533, R556 BAR0_READ. -/
def execBar0Read (f : Fin 8) (off width : Nat) (logFail : Bool) (s : State) : Out :=
  if !s.reaches (.fn f) then .next s
  else
    let r := s.bar0Get (.fn f) off width logFail
    .next (r.1.emit (.bar0 (1 + f) (BitVec.ofNat 64 r.2))).pump

/-- R22 LOWER_HALF_READ: a 32-bit read. -/
def execLowerHalfRead (who : Accessor) (off : Nat) (logFail : Bool) (s : State) : Out :=
  if !s.reaches who then .next s
  else
    let r := s.bar0Get who off 4 logFail
    .next (r.1.emit (.bar0 (accIndex who) (BitVec.ofNat 64 r.2))).pump

end Sys2Proof.Machine
end

