-- ==== Sys2Proof/Machine/RegWrite.lean ====
section
/-! DEFINITION. What a write to each register of BAR0 does (R19, R21, R23, R352, R534, R556 to R570). -/

namespace Sys2Proof.Machine

/-! Parts. -/

/-- R19, W1C: the bits written 1 are cleared. -/
def w1c (x : W32) (v : Nat) : W32 := x &&& ~~~(BitVec.ofNat 32 v)
/-- W1C on a 16-bit count. -/
def w1c16 (x : W16) (v : Nat) : W16 := x &&& ~~~(BitVec.ofNat 16 v)
/-- W1C on a 64-bit count of two halves: the high half, the low half. -/
def hi32 (v : Nat) : Nat := v / 2 ^ 32

/-- Writes bytes of a window. -/
def putWindow (m : Sparse Byte) (b : Nat) (bs : List Byte) : Sparse Byte := writeBytes m b bs

/-- R562: the record in MG_KEY_REC. -/
def State.goKey (s : State) : State :=
  let b := readBytes s.mg.keyRec 0 128
  let num (off : Nat) : BitVec 384 := BitVec.ofNat 384 (beNat ((b.drop off).take 48))
  s.takeKeySlot (field b 1 1) (field b 0 1) (num 0x10) (num 0x40) (!(zeroBytes b 2 14 && zeroBytes b 0x70 16))

/-- R383: the record in NP_MSEC_REC. -/
def State.goMsec (s : State) : State :=
  let b := readBytes s.net.msecRec 0 96
  s.takeSa (field b 1 1) {
    subport := BitVec.ofNat 8 (field b 0 1), dir := BitVec.ofNat 8 (field b 2 1), rsc := BitVec.ofNat 8 (field b 3 1)
    an := BitVec.ofNat 8 (field b 4 1), sci := BitVec.ofNat 64 (field b 8 8), pn := BitVec.ofNat 64 (field b 0x10 8)
    ssci := BitVec.ofNat 32 (field b 0x18 4), salt := BitVec.ofNat 96 (field b 0x1C 12), sak := BitVec.ofNat 256 (field b 0x30 32)
    resv := !(zeroBytes b 5 3 && zeroBytes b 0x28 8 && zeroBytes b 0x50 16) }

/-- R404: the record in VG_KEY_REC. -/
def State.goVgKey (s : State) : State :=
  let b := readBytes s.net.keyRec 0 48
  s.takeVgKey (field b 2 1) (field b 0 2) (BitVec.ofNat 256 (field b 0x10 32)) (!zeroBytes b 3 13)

/-- R532, R583: CAUSE bits of ER_ALERT are cleared, and ALERT_n is deasserted once none is left. -/
def State.clearAlert (s : State) (v : Nat) : State :=
  let c := s.er.alertCause &&& ~~~(BitVec.ofNat 10 v)
  { s with er := { s.er with alertCause := c }, mg := { s.mg with alertPin := s.mg.alertPin && decide (c ≠ 0) } }

/-- R117, R570: FE_ORD_GO: the order in the accessor's window is given. -/
def State.goOrder (s : State) (who : Accessor) : State :=
  if !s.awake then s
  else
    let a := accIndex who
    let o := s.ord a
    let src : Source := match who with | .fn f => .fn f | .mgmt _ _ => .mgmt (Fin.ofNat 16 o.parcel)
    s.windowOrder a src (BitVec.ofNat 64 (field o.window 0x38 8)) (decodeOrder o.window) true

/-- R543: a write to OB_TRACE_WBASE: a multiple of 32,768 below CAP. -/
def State.writeWbase (s : State) (v : Nat) : State :=
  if v % 32768 = 0 ∧ v < s.img.cfg.traceCap then { s with ob := { s.ob with wbase := BitVec.ofNat 32 v } } else s

/-- R356: bytes of a function's MSI-X table are written; a vector unmasked by it issues its pending message. -/
def State.writeMsix (s : State) (f : Fin 8) (b : Nat) (bs : List Byte) : State :=
  (List.range bs.length).foldl (fun s k =>
    let x := bs.getD k 0
    let n := b + k
    if s.vectors ≤ n / 16 then s
    else if n % 16 = 12 ∧ !x.getLsbD 0 then
      (s.modOrd (1 + f) (fun o => o.setMsix n (x ||| 1))).unmaskVector f (n / 16)
    else s.modOrd (1 + f) (fun o => o.setMsix n x)) s

/-! Writes of whole values, under their Access codes. -/

/-- MG_, TK_, LS_. -/
def State.writeMg (s : State) (who : Accessor) (r : Reg) (v : Nat) : State :=
  let on (k : Nat) : Bool := decide (v / 2 ^ k % 2 = 1)
  let mg (f : Mg → Mg) : State := { s with mg := f s.mg }
  match r with
  | .mgOrder => s.deviceOrder who (v % 256)
  | .mgOrderResult => mg (fun m => { m with orderDone := m.orderDone && !on 8 })
  | .mgKeyGo => if on 0 then s.goKey else s
  | .mgKeyResult => mg (fun m => { m with keyDone := m.keyDone && !on 8 })
  | .tkOverrun => { s with tk := { s.tk with overrun := w1c s.tk.overrun v } }
  | .lsSerialFloor => s.raiseFloor (BitVec.ofNat 64 v)
  | _ => s

/-- WL_, NP_, VG_. -/
def State.writeNp (s : State) (r : Reg) (i v : Nat) : State :=
  let on (k : Nat) : Bool := decide (v / 2 ^ k % 2 = 1)
  let net (f : Net → Net) : State := { s with net := f s.net }
  match r with
  | .wlLost => s.modHost (fun h => { h with lostLines := w1c h.lostLines (hi32 v), lostRecs := w1c h.lostRecs v })
  | .npPtpCfg => s.modPtp (fun t => { t with domain := BitVec.ofNat 8 (v % 128) })
  | .npMsecGo => if on 0 then s.goMsec else s
  | .npMsecResult => net (fun n => { n with msecDone := n.msecDone && !on 8 })
  | .npPtpAsym => s.modPtpPort i (fun x => { x with asym := BitVec.ofNat 32 v })
  | .npMsecRpw => s.modSub i (fun u => { u with rpw := BitVec.ofNat 32 v })
  | .vgKeyGo => if on 0 then s.goVgKey.pump else s
  | .vgKeyResult => net (fun n => { n with keyDone := n.keyDone && !on 8 })
  | .vgNosess => s.modSub i (fun u => { u with nosess := w1c u.nosess v })
  | .vgSretx => s.modVg i (fun x => { x with retx := w1c x.retx v })
  | .vgSdisc => s.modVg i (fun x => { x with disc := w1c x.disc v })
  | .vgSrxdrop => s.modVg i (fun x => { x with rxdrop := w1c x.rxdrop v })
  | _ => s

/-- SM_, TH_, SV_, WE_. -/
def State.writeTh (s : State) (r : Reg) (i v : Nat) : State :=
  let on (k : Nat) : Bool := decide (v / 2 ^ k % 2 = 1)
  let stk (f : Stacks → Stacks) : State := { s with stk := f s.stk }
  let th (f : Th → Th) : State := { s with th := f s.th }
  let sv (f : Sv → Sv) : State := { s with sv := f s.sv }
  match r with
  | .smMarginCtrl =>
    let s := stk (fun k => { k with marginEn := on 0 })
    if on 1 then s.startMargin else s
  | .smEcc => stk (fun k => { k with ue := spMod 0 k.ue i (fun x => w1c x (hi32 v)), ce := spMod 0 k.ce i (fun x => w1c x v) })
  | .thPwrPeak => th (fun t => { t with peak := w1c t.peak (v % 2 ^ 16) })
  | .thPwrLimit => s.writeLimit (BitVec.ofNat 32 v)
  | .thEmerg => th (fun t => { t with emergs := w1c t.emergs v })
  | .svCtrl => sv (fun x => { x with ctrl := BitVec.ofNat 32 v &&& 0x00FFFF0F })
  | .svTests => sv (fun x => { x with failed := w1c x.failed (hi32 v), run := w1c x.run v })
  | .svSkip => sv (fun x => { x with
      nofit := w1c16 x.nofit (v / 2 ^ 48), nosave := w1c16 x.nosave (v / 2 ^ 32), overrun := w1c16 x.overrun (v / 2 ^ 16)
      abandon := w1c16 x.abandon v })
  | .weCommit => if on 0 then s.commitWear else s
  | _ => s

/-- ER_, OB_. -/
def State.writeOb (s : State) (r : Reg) (i v : Nat) : State :=
  match r with
  | .erCtrl => if v % 2 = 1 then s.clearLog else s
  | .erSram => { s with er := { s.er with sramUe := w1c s.er.sramUe (hi32 v), sramCe := w1c s.er.sramCe v } }
  | .erAlert => s.clearAlert (v % 1024)
  | .obTraceCtrl => s.writeTrace (BitVec.ofNat 64 v)
  | .obTraceWbase => s.writeWbase v
  | .obCsel => s.selectCounter i (BitVec.ofNat 32 v)
  | _ => s

/-- The registers of parcel p. -/
def State.writeParcel (s : State) (p : Nat) (r : Reg) (v : Nat) : State :=
  s.modParcel p (fun x => match r with
    | .lsParcelStatus => { x with noEffect := x.noEffect && decide (v / 256 % 2 = 0) }
    | .feDeclExcess => { x with declExcess := w1c x.declExcess v }
    | .tkPoverrun => { x with overruns := w1c x.overruns v }
    | .awPbad => { x with awPbad := w1c x.awPbad v }
    | .awPpoison => { x with awPpoison := w1c x.awPpoison v }
    | .sgFaults => { x with sgFaults := w1c x.sgFaults v }
    | .wlPpoison => { x with wlPoison := w1c x.wlPoison v }
    | .wlPlatmax => { x with wlLatMax := w1c x.wlLatMax v }
    | .smHot => { x with smHot := w1c x.smHot v }
    | .smPlace => { x with smPlace := w1c x.smPlace v }
    | .upApplied => { x with upApplied := w1c x.upApplied v }
    | .upLate => { x with upLate := w1c x.upLate v }
    | .upReject => { x with upReject := w1c x.upReject v }
    | .upQsat => { x with upQsat := w1c x.upQsat v }
    | _ => x)

/-- The registers of the accessor's own instance. -/
def State.writeOwn (s : State) (who : Accessor) (r : Reg) (v : Nat) : State :=
  let a := accIndex who
  let on (k : Nat) : Bool := decide (v / 2 ^ k % 2 = 1)
  match r with
  | .feOrdGo => if on 0 then s.goOrder who else s
  | .feOrdStatus => s.modOrd a (fun o => { o with done := o.done && !on 1 })
  | .feOrdParcel => if a = 0 then s.modOrd a (fun o => { o with parcel := v % 16 }) else s
  | .lsMbCtrl => s.mailGo who (BitVec.ofNat 32 v)
  | .lsPushResult => s.modOrd a (fun o => { o with pushDone := o.pushDone && !on 8 })
  | .wlEvent => s.modOrd a (fun o => { o with event := o.event &&& ~~~(BitVec.ofNat 4 v) })
  | .obSnapLatch =>
    let s := s.modOrd a (fun o => { o with snapDone := o.snapDone && !on 1 })
    if on 0 then s.latch a else s
  | _ => s

/-- A whole value written to instance i of a register. -/
def State.setReg (s : State) (who : Accessor) (v : RegView) (r : Reg) (i x : Nat) : State :=
  match v with
  | .parcel p => s.writeParcel p r x
  | .function => s.writeOwn who r x
  | .device => (((s.writeMg who r x).writeNp r i x).writeTh r i x).writeOb r i x

/-- Bytes written to instance i of a window, from byte b on; the reserved bytes of VG_ROUTE take none (R14, R429). -/
def State.setWin (s : State) (who : Accessor) (r : Reg) (i b : Nat) (bs : List Byte) : State :=
  let a := accIndex who
  match r with
  | .mgKeyRec => { s with mg := { s.mg with keyRec := writeBytes s.mg.keyRec b bs } }
  | .npMsecRec => { s with net := { s.net with msecRec := writeBytes s.net.msecRec b bs } }
  | .vgKeyRec => { s with net := { s.net with keyRec := writeBytes s.net.keyRec b bs } }
  | .vgRoute => s.modSub i (fun u => { u with route := writeBytes u.route b (bs.take (0x16 - b)) })
  | .feOrd => s.modOrd a (fun o => { o with window := patchBytes o.window b bs })
  | .msixTable => match who with | .fn f => s.writeMsix f b bs | .mgmt _ _ => s
  | .lsMbData =>
    if (s.ord a).mbBusy then s.log { logEntry s 0x0602 with unit := accUnit who }
    else s.modOrd a (fun o => { o with mbox := writeBytes o.mbox b bs, mboxFree := settleRange o.mboxFree b (b + bs.length) })
  | _ => s

/-! Writes (R19, R21, R23, R352, R556 to R558). -/

/-- R352, R556, R561: whether an accessor may write a register. -/
def State.mayWrite (s : State) (who : Accessor) (row : RegRow) : Bool :=
  match row.wr, who with
  | .none, _ => false
  | .a, _ => true
  | .o, _ => true
  | .m, .mgmt _ _ => true
  | .m, .fn f => decide (row.reg = .obTraceWbase) && decide ((s.ob.ctrl >>> 56).toNat % 16 = f.val)

/-- R558: whether a register of 64 bits has RW fields. -/
def Reg.rw64 : Reg → Bool
  | .lsSerialFloor | .obTraceCtrl => true
  | _ => false

/-- R21, R558: a write of `width` bytes at byte b of a register. -/
def State.writeRow (s : State) (who : Accessor) (off : Nat) (v : RegView) (row : RegRow) (i b width x : Nat) : State :=
  let a := accIndex who
  if row.win then s.setWin who row.reg i b (leBytes width x)
  else if row.size = 4 ∨ width = 8 then s.setReg who v row.reg i x
  else if !row.reg.rw64 then s.setReg who v row.reg i (x * 2 ^ (8 * (b % 8)))
  else if b % 8 = 0 then s.modOrd a (fun o => { o with lower := spPut none (some (BitVec.ofNat 32 x)) off o.lower })
  else
    let low := match spGet none (s.ord a).lower (off - 4) with
      | some y => y.toNat
      | none => s.regValue a v row.reg i % 2 ^ 32
    (s.modOrd a (fun o => { o with lower := spPut none none (off - 4) o.lower })).setReg who v row.reg i (x * 2 ^ 32 + low)

/-- A BAR0 write of an accessor: `width` bytes of value x at an offset. -/
def State.bar0Put (s : State) (who : Accessor) (off width x : Nat) : State :=
  let (v, rel) := regView off
  if (width ≠ 4 ∧ width ≠ 8) ∨ off % width ≠ 0 then s.badAccess who off
  else match findReg v.map rel with
    | none => s.badAccess who off
    | some (row, i, b) =>
      if !row.widthOk b width then s.badAccess who off
      else if !s.sees who v row.reg i ∨ !s.mayWrite who row then s
      else s.writeRow who off v row i b width (x % 2 ^ (8 * width))

/-- R19, R23, R352 REGISTER_WRITE. -/
def execRegisterWrite (who : Accessor) (off width : Nat) (v : W64) (s : State) : Out :=
  if s.reaches who then .next (s.bar0Put who off width v.toNat).pump else .next s

end Sys2Proof.Machine
end

