-- ==== Sys2Proof/Machine/Bus.lean ====
section
/-! DEFINITION. The management bus: I3C and MCTP addresses, register access, PLDM base, monitoring and events, SPDM (R584 to
R593, R597, R598). A message of a published standard is answered with the values that the spec gives it. -/

namespace Sys2Proof.Machine

/-! Messages (R585, R586). -/

/-- An answer leaves on the bus: MCTP type, destination, command, completion code, values. Only a powered management plane
answers. -/
def State.answer (s : State) (type : Nat) (eid : Byte) (cmd code : Nat) (data : List Byte) : State :=
  if s.mg.standby then s.emit (.mctp type eid (leBytes 1 cmd ++ leBytes 1 code ++ data)) else s

/-- Completion codes of PLDM and MCTP control. -/
def ccSuccess : Nat := 0
def ccError : Nat := 1
def ccInvalidData : Nat := 2

/-- The SPDM session of an index. -/
def State.spdm (s : State) (k : Nat) : Option SpdmSess := spGet none s.mg.spdm k
/-- Replaces an SPDM session. -/
def State.setSpdm (s : State) (k : Nat) (x : Option SpdmSess) : State :=
  { s with mg := { s.mg with spdm := spPut none x k s.mg.spdm } }

/-- Whether the session that a message names is established with its requester; a message outside any session needs none. -/
def State.inSession (s : State) (who : Requester) : Bool :=
  match who.sess with
  | none => true
  | some k => match s.spdm k with
    | some x => decide (x.eid = who.eid) && x.open_
    | none => false

/-- R597: a message in a session restarts its three periods. -/
def State.touch (s : State) (who : Requester) : State :=
  match who.sess with
  | none => s
  | some k => match s.spdm k with
    | some x => if s.inSession who then s.setSpdm k (some { x with last := s.datum }) else s
    | none => s

/-- The accessor of register accesses that a requester is. -/
def asAccessor (who : Requester) : Accessor := .mgmt who.eid who.sess

/-! Addresses (R584, R585). -/

/-- R584: a dynamic address is taken by an E40 that has none. -/
def State.takeAddr (s : State) (a : BitVec 7) : State :=
  if s.mg.standby && s.mg.addr.isNone then { s with mg := { s.mg with addr := some a } } else s

/-- R584 I3C_ENTDAA. -/
def execI3cEntdaa (addr : BitVec 7) (s : State) : Out := .next (s.takeAddr addr)

/-- R584 I3C_SETDASA. -/
def execI3cSetdasa (static dyn : BitVec 7) (s : State) : Out := if static = 0x4A then .next (s.takeAddr dyn) else .next s

/-- R585 SET_ENDPOINT_ID: 0 and 0xFF are no endpoint ID. -/
def execSetEndpointId (eid : Byte) (s : State) : Out :=
  if eid = 0 ∨ eid = 0xFF then .next (s.answer 0 0 1 ccInvalidData [s.mg.eid])
  else if s.mg.standby then .next ({ s with mg := { s.mg with eid := eid } }.answer 0 0 1 ccSuccess [eid])
  else .next s

/-- R585 GET_ENDPOINT_ID. -/
def execGetEndpointId (s : State) : Out := .next (s.answer 0 0 2 ccSuccess [s.mg.eid])

/-- R585 GET_ENDPOINT_UUID. -/
def execGetEndpointUuid (s : State) : Out := .next (s.answer 0 0 3 ccSuccess Config.endpointUuid)

/-- R585: the message types supported. -/
def mctpTypes : List Byte := [0x00, 0x01, 0x05, 0x06, 0x7E]

/-- R585 GET_MCTP_VERSION_SUPPORT. -/
def execGetMctpVersionSupport (type : Byte) (s : State) : Out :=
  if type = 0xFF ∨ mctpTypes.contains type then .next (s.answer 0 0 4 ccSuccess (Config.versions type.toNat))
  else .next (s.answer 0 0 4 0x80 [])

/-- R585 GET_MESSAGE_TYPE_SUPPORT. -/
def execGetMessageTypeSupport (s : State) : Out :=
  .next (s.answer 0 0 5 ccSuccess (leBytes 1 mctpTypes.length ++ mctpTypes))

/-- R585 GET_VENDOR_DEFINED_MESSAGE_SUPPORT: one set, PCI vendor 0x1F6B. -/
def execGetVendorDefinedMessageSupport (sel : Byte) (s : State) : Out :=
  if sel = 0 then .next (s.answer 0 0 6 ccSuccess [0xFF, 0x00, 0x1F, 0x6B]) else .next (s.answer 0 0 6 ccInvalidData [])

/-! Register access (R587, R589, R590). -/

/-- R589: whether the fields of a request lie in the table. -/
def regAccessOk (width count : Byte) (off : W32) (bad : Bool) : Bool :=
  !bad && (decide (width = 4) || decide (width = 8)) && decide (1 ≤ count.toNat) && decide (count.toNat ≤ 16)
    && decide (off.toNat < 0x2000000) && decide (off.toNat % width.toNat = 0)

/-- R589: a response; `op`: 1 READ, 2 WRITE. -/
def State.regResponse (s : State) (eid : Byte) (op : Nat) (tag : Byte) (status : Nat) (count : Byte) (off : W32)
    (data : List Byte) : State :=
  if s.mg.standby then
    s.emit (.mctp 0x7E eid (leBytes 1 (op + 0x80) ++ [tag] ++ leBytes 1 status ++ [count] ++ leBytes 4 off.toNat ++ data))
  else s

/-- R590: the accesses of a READ, in ascending order, and the bytes read. -/
def State.readMany (s : State) (who : Accessor) (width : Nat) (logFail : Bool) : Nat → Nat → List Byte → State × List Byte
  | 0, _, acc => (s, acc)
  | n + 1, off, acc =>
    let r := s.bar0Get who off width logFail
    r.1.readMany who width logFail n (off + width) (acc ++ leBytes width r.2)

/-- R590: the accesses of a WRITE, in ascending order. -/
def State.writeMany (s : State) (who : Accessor) (width : Nat) : Nat → Nat → List Byte → State
  | 0, _, _ => s
  | n + 1, off, data => (s.bar0Put who off width (leNat (data.take width))).writeMany who width n (off + width) (data.drop width)

/-- R587, R590 REG_ACCESS_READ. `bad`: the body's length or OP is not the table's. -/
def execRegAccessRead (who : Requester) (tag width count : Byte) (off : W32) (bad logFail : Bool) (s : State) : Out :=
  let s := s.touch who
  if !s.ownerAccess (asAccessor who) then .next (s.regResponse who.eid 1 tag 2 count off [])
  else if !regAccessOk width count off bad then .next (s.regResponse who.eid 1 tag 1 count off [])
  else
    let r := s.readMany (asAccessor who) width.toNat logFail count.toNat off.toNat []
    .next (r.1.regResponse who.eid 1 tag 0 count off r.2).pump

/-- R587, R590 REG_ACCESS_WRITE. -/
def execRegAccessWrite (who : Requester) (tag width count : Byte) (off : W32) (data : List Byte) (bad : Bool) (s : State) : Out :=
  let s := s.touch who
  if !s.ownerAccess (asAccessor who) then .next (s.regResponse who.eid 2 tag 2 count off [])
  else if !regAccessOk width count off (bad || decide (data.length ≠ count.toNat * width.toNat)) then
    .next (s.regResponse who.eid 2 tag 1 count off [])
  else .next ((s.writeMany (asAccessor who) width.toNat count.toNat off.toNat data).regResponse who.eid 2 tag 0 count off []).pump

/-! PLDM base (R591). -/

/-- R591 GET_TID. -/
def execGetTid (s : State) : Out := .next (s.answer 1 0 2 ccSuccess [s.mg.tid])

/-- R591 SET_TID: 0 and 0xFF are no terminus ID. -/
def execSetTid (tid : Byte) (s : State) : Out :=
  if tid = 0 ∨ tid = 0xFF then .next (s.answer 1 0 1 ccInvalidData [])
  else if s.mg.standby then .next ({ s with mg := { s.mg with tid := tid } }.answer 1 0 1 ccSuccess [])
  else .next s

/-- The commands of a PLDM type that the E40 answers (R591, R594), by the standard's numbers; none for a type it does not
support. -/
def pldmCommands (type : Nat) : Option (List Nat) :=
  match type with
  | 0 => some [1, 2, 3, 4, 5]
  | 2 => some [0x04, 0x0B, 0x11, 0x21, 0x50, 0x51]
  | 5 => some [0x01, 0x02, 0x10, 0x13, 0x14, 0x1A, 0x1B, 0x1D]
  | _ => none

/-- A set of numbers as a bit field. -/
def bitField (l : List Nat) : Nat := (List.range 256).foldl (fun n k => if l.contains k then n + 2 ^ k else n) 0

/-- R591 GET_PLDM_VERSION. -/
def execGetPldmVersion (type : Byte) (s : State) : Out :=
  match pldmCommands type.toNat with
  | some _ => .next (s.answer 1 0 3 ccSuccess (Config.versions (256 + type.toNat)))
  | none => .next (s.answer 1 0 3 0x83 [])

/-- R591 GET_PLDM_TYPES: types 0, 2 and 5. -/
def execGetPldmTypes (s : State) : Out := .next (s.answer 1 0 4 ccSuccess (leBytes 8 (bitField [0, 2, 5])))

/-- R591 GET_PLDM_COMMANDS. -/
def execGetPldmCommands (type : Byte) (s : State) : Out :=
  match pldmCommands type.toNat with
  | some l => .next (s.answer 1 0 5 ccSuccess (leBytes 32 (bitField l)))
  | none => .next (s.answer 1 0 5 0x83 [])

/-! PLDM monitoring (R592). -/

/-- A sensor: its reading, and its upper warning, critical and fatal thresholds; `state`: a state sensor. -/
structure Sensor where
  state : Bool := false
  value : Int
  warn : Option Int := none
  crit : Option Int := none
  fatal : Option Int := none
  deriving DecidableEq, Repr

/-- Thresholds in whole degrees. -/
def tempSensor (v : Int) (w c f : Int) : Sensor := { value := v, warn := some (8 * w), crit := some (8 * c), fatal := some (8 * f) }

/-- R592: the sensor of an ID. -/
def State.sensor (s : State) (id : Nat) : Option Sensor :=
  if id = 0x0001 then some (tempSensor (highest ((List.range 128).map s.cellTemp)) 95 100 110)
  else if 0x0100 ≤ id ∧ id < 0x0180 then some (tempSensor (s.cellTemp (id - 0x0100)) 95 100 110)
  else if 0x0200 ≤ id ∧ id < 0x0208 then some (tempSensor (s.stackTemp (id - 0x0200)) 85 100 105)
  else if id = 0x0210 then some { value := s.hubTemp, warn := some 800, fatal := some 880 }
  else if 0x0220 ≤ id ∧ id < 0x0228 then some { value := s.vrTemp (id - 0x0220), warn := some 920, fatal := some 1000 }
  else if id = 0x0230 then some { value := s.coolTemp, warn := some (if s.immersed then 400 else 360) }
  else if id = 0x0300 then some { value := s.powerAvg, warn := some s.effLimit }
  else if id = 0x0301 then some { value := s.effLimit }
  else if id = 0x0400 then some { value := s.we.eolNow.toNat }
  else if id = 0x0401 then some { value := s.we.eolRated.toNat }
  else if id = 0x0402 then some { value := s.we.fenceH.toNat }
  else if id = 0x0410 then some { value := s.we.life }
  else if id = 0x0500 then some { state := true, value := s.dev.code }
  else if id = 0x0501 then some { state := true, value := s.net.ptp.state }
  else if id = 0x0502 then some { state := true, value := if s.er.alertCause = 0 then 0 else 1 }
  else none

/-- R592: the sensors of the end of life read as unavailable while their register is all ones. -/
def unavailable (id : Nat) (x : Sensor) : Bool := decide (0x0400 ≤ id) && decide (id ≤ 0x0402) && decide (x.value = 0xFFFFFFFF)

/-- The state of a reading against its thresholds: 1 normal, 8 upper warning, 9 upper critical, 10 upper fatal. -/
def Sensor.level (x : Sensor) : Nat :=
  let overAt (o : Option Int) : Bool := match o with | some t => decide (t ≤ x.value) | none => false
  if overAt x.fatal then 10 else if overAt x.crit then 9 else if overAt x.warn then 8 else 1

/-- R592 GET_SENSOR_READING: operational state (0 enabled, 2 unavailable), present state, reading. -/
def execGetSensorReading (id : W16) (s : State) : Out :=
  match s.sensor id.toNat with
  | some x =>
    if x.state then .next (s.answer 1 0 0x11 0x80 [])
    else if unavailable id.toNat x then .next (s.answer 1 0 0x11 ccSuccess [2, 0])
    else .next (s.answer 1 0 0x11 ccSuccess (leBytes 1 0 ++ leBytes 1 x.level ++ leBytes 4 (BitVec.ofInt 32 x.value).toNat))
  | none => .next (s.answer 1 0 0x11 0x80 [])

/-- R592 GET_STATE_SENSOR_READINGS. -/
def execGetStateSensorReadings (id : W16) (s : State) : Out :=
  match s.sensor id.toNat with
  | some x => if x.state then .next (s.answer 1 0 0x21 ccSuccess (leBytes 1 0 ++ leBytes 1 x.value.toNat)) else .next (s.answer 1 0 0x21 0x80 [])
  | none => .next (s.answer 1 0 0x21 0x80 [])

/-- R592: every sensor ID, ascending. -/
def sensorIds : List Nat :=
  [0x0001] ++ (List.range 128).map (0x0100 + ·) ++ (List.range 8).map (0x0200 + ·) ++ [0x0210] ++ (List.range 8).map (0x0220 + ·)
    ++ [0x0230, 0x0300, 0x0301, 0x0400, 0x0401, 0x0402, 0x0410, 0x0500, 0x0501, 0x0502]

/-- R591 GET_PDR_REPOSITORY_INFO: one record for each sensor. -/
def execGetPdrRepositoryInfo (s : State) : Out := .next (s.answer 1 0 0x50 ccSuccess (leBytes 1 0 ++ leBytes 4 sensorIds.length))

/-- A threshold of a PDR: present, value. -/
def thresholdBytes (o : Option Int) : List Byte :=
  match o with
  | some t => 1 :: leBytes 4 (BitVec.ofInt 32 t).toNat
  | none => 0 :: leBytes 4 0

/-- R591, R592 GET_PDR: records are numbered from 1 in the order of their sensors; 0 names the first. -/
def execGetPdr (handle : W32) (s : State) : Out :=
  let k := if handle = 0 then 0 else handle.toNat - 1
  match sensorIds[k]? with
  | some id => match s.sensor id with
    | some x =>
      let next := if k + 1 < sensorIds.length then k + 2 else 0
      .next (s.answer 1 0 0x51 ccSuccess (leBytes 4 next ++ leBytes 1 (if x.state then 4 else 2) ++ leBytes 2 id
        ++ thresholdBytes x.warn ++ thresholdBytes x.crit ++ thresholdBytes x.fatal))
    | none => .next (s.answer 1 0 0x51 0x82 [])
  | none => .next (s.answer 1 0 0x51 0x82 [])

/-! Platform events (R593). -/

/-- R593 SET_EVENT_RECEIVER, for the MCTP transport only. -/
def execSetEventReceiver (eid : Byte) (mctp : Bool) (s : State) : Out :=
  if !mctp then .next (s.answer 1 0 4 ccInvalidData [])
  else if s.mg.standby then .next ({ s with mg := { s.mg with receiver := some eid } }.answer 1 0 4 ccSuccess [])
  else .next s

/-- An event is acknowledged. -/
def State.ackEvent (s : State) (id : W16) : State :=
  { s with mg := { s.mg with events := s.mg.events.filter (fun e => decide (e.id ≠ id)) } }

/-- R593 PLATFORM_EVENT_ACK. -/
def execPlatformEventAck (id : W16) (s : State) : Out := .next (s.ackEvent id)

/-- R593 POLL_FOR_PLATFORM_EVENT_MESSAGE: the event named is acknowledged, and the oldest held one is returned. -/
def execPollForPlatformEventMessage (ack : Option W16) (s : State) : Out :=
  let s := match ack with | some id => s.ackEvent id | none => s
  match s.mg.events with
  | e :: _ => .next (s.answer 1 0 0x0B ccSuccess (leBytes 2 e.id.toNat ++ [e.cls] ++ e.data))
  | [] => .next (s.answer 1 0 0x0B ccSuccess (leBytes 2 0))

/-- R593 PLDM_EVENT_RESEND: each event sent a second ago or more and not acknowledged is sent again. -/
def execPldmEventResend (t : Nat) (s : State) : Out :=
  let s := s.at t
  match s.mg.receiver with
  | none => .next s
  | some r =>
    let old (e : PldmEvent) : Bool := decide (e.sent + 1000000000 ≤ s.datum)
    let s' := { s with mg := { s.mg with events := s.mg.events.map (fun e => if old e then { e with sent := s.datum } else e) } }
    .next ((s.mg.events.filter old).foldl (fun s e => s.emit (.mctp 1 r (leBytes 2 e.id.toNat ++ [e.cls] ++ e.data))) s')

/-! SPDM (R588, R597, R598). -/

/-- An SPDM answer: a response code and its values, secured when the request was (R597). -/
def State.spdmAnswer (s : State) (who : Requester) (code : Nat) (data : List Byte) : State :=
  s.answer (if who.sess.isSome then 6 else 5) who.eid code 0 data

/-- SPDM error codes. -/
def seInvalidRequest : Nat := 1
def seInvalidSession : Nat := 2
def seUnexpected : Nat := 4
def seDecrypt : Nat := 6
def seUnsupported : Nat := 7
def seSessionLimit : Nat := 10

/-- An SPDM ERROR. -/
def State.spdmError (s : State) (who : Requester) (e : Nat) : State := s.answer (if who.sess.isSome then 6 else 5) who.eid 0x7F e []

/-- A request is taken, its session restarted, unless it names a session that is not established. -/
def State.spdmTake (s : State) (who : Requester) (f : State → State) : Out :=
  if !s.mg.standby then .next s
  else if !s.inSession who then .next (s.spdmError who seInvalidSession)
  else .next (f (s.touch who))

/-- R597 GET_VERSION: 1.2 and 1.3. -/
def execGetVersion (who : Requester) (s : State) : Out :=
  s.spdmTake who (fun s => s.spdmAnswer who 0x04 (leBytes 1 2 ++ leBytes 2 0x1200 ++ leBytes 2 0x1300))

/-- R597: the capability flags of the standard: CERT, CHAL, MEAS with signature, ENCRYPT, MAC, MUT_AUTH, KEY_EX, ENCAP, HBEAT,
KEY_UPD. -/
def spdmCaps : Nat := 0x73D6

/-- R597 GET_CAPABILITIES: CTExponent 16 and the flags. -/
def execGetCapabilities (who : Requester) (s : State) : Out :=
  s.spdmTake who (fun s => s.spdmAnswer who 0x61 (leBytes 1 16 ++ leBytes 4 spdmCaps))

/-- R597 NEGOTIATE_ALGORITHMS: of what the requester offers, ECDSA P-384, SHA-384, secp384r1 and AES-256-GCM are taken. -/
def execNegotiateAlgorithms (who : Requester) (p384 sha384 dhe aead : Bool) (s : State) : Out :=
  s.spdmTake who (fun s => s.spdmAnswer who 0x63 ([p384, sha384, dhe, aead].flatMap (fun b => leBytes 1 b.toNat)))

/-- The 48 bytes of a digest. -/
def digestBytes (d : BitVec 384) : List Byte := (leBytes 48 d.toNat).reverse

/-- R597 GET_DIGESTS: slot 0 only. -/
def execGetDigests (who : Requester) (s : State) : Out :=
  s.spdmTake who (fun s => s.spdmAnswer who 0x01 (1 :: digestBytes (Config.sha384 Config.certChain)))

/-- R597 GET_CERTIFICATE: a portion of the chain of slot 0, and how much is left. -/
def execGetCertificate (who : Requester) (slot : Byte) (off len : W16) (s : State) : Out :=
  s.spdmTake who (fun s =>
    if slot ≠ 0 then s.spdmError who seInvalidRequest
    else
      let part := (Config.certChain.drop off.toNat).take len.toNat
      s.spdmAnswer who 0x02 (leBytes 2 part.length ++ leBytes 2 (Config.certChain.length - off.toNat - part.length) ++ part))

/-- Bytes that the E40 draws or signs: a nonce, a signature. Free values. -/
def freshBytes (mark n : Nat) : List Byte := (List.range n).map (Config.freeByte mark)

/-- R597 CHALLENGE: the digest of the chain, a nonce and a signature over the transcript. -/
def execChallenge (who : Requester) (slot : Byte) (_nonce : BitVec 256) (s : State) : Out :=
  s.spdmTake who (fun s =>
    if slot ≠ 0 then s.spdmError who seInvalidRequest
    else (s.spdmAnswer who 0x03 (digestBytes (Config.sha384 Config.certChain) ++ freshBytes s.fresh 128)).useFresh)

/-- R598: a measurement block. -/
def State.measurement (s : State) (i : Nat) : BitVec 384 :=
  match i with
  | 1 => Config.romDigest
  | 2 => Config.sha384 (leBytes 8 (s.readMg .mgId) ++ leBytes 16 s.we.fences.toNat)
  | 3 => Config.sha384 ((List.range 4).flatMap (fun k =>
      let x := s.keySlot k
      leBytes 1 (x.prog.toNat + 2 * x.revoked.toNat) ++ digestBytes x.qx ++ digestBytes x.qy))
  | 4 => if s.img.on then s.img.digest else 0
  | 5 => Config.sha384 (leBytes 8 s.img.floor.toNat)
  | _ => Config.sha384 ((List.range 16).flatMap (fun p => digestBytes (s.parcel p).digest))

/-- R597, R598 GET_MEASUREMENTS: signed only; index 0 asks for their number, 0xFF for all. -/
def execGetMeasurements (who : Requester) (index : Byte) (sig : Bool) (_nonce : BitVec 256) (s : State) : Out :=
  s.spdmTake who (fun s =>
    let i := index.toNat
    if !sig then s.spdmError who seUnsupported
    else if 6 < i ∧ i ≠ 0xFF then s.spdmError who seInvalidRequest
    else
      let which := if i = 0 then [] else if i = 0xFF then [1, 2, 3, 4, 5, 6] else [i]
      let blocks := which.flatMap (fun k => leBytes 1 k ++ digestBytes (s.measurement k))
      (s.spdmAnswer who 0x60 (leBytes 1 (if i = 0 then 6 else which.length) ++ blocks ++ freshBytes s.fresh 128)).useFresh)

/-- R597 KEY_EXCHANGE: a session is begun in a free place of four; the heartbeat period is 60 s. -/
def execKeyExchange (who : Requester) (slot : Byte) (t : Nat) (s : State) : Out :=
  (s.at t).spdmTake who (fun s =>
    if who.sess.isSome then s.spdmError who seUnexpected
    else if slot ≠ 0 then s.spdmError who seInvalidRequest
    else match (List.range 4).find? (fun k => (s.spdm k).isNone) with
      | none => s.spdmError who seSessionLimit
      | some k =>
        let s := s.setSpdm k (some { eid := who.eid, open_ := false, auth := false, last := s.datum })
        (s.spdmAnswer who 0x64 (leBytes 1 60 ++ leBytes 1 k ++ freshBytes s.fresh 128)).useFresh)

/-- R588: whether a key stands in a programmed, non-revoked slot. -/
def State.usableKey (s : State) (k : BitVec 384 × BitVec 384) : Bool :=
  (List.range 4).any (fun i => let x := s.keySlot i; x.prog && !x.revoked && decide (x.qx = k.1) && decide (x.qy = k.2))

/-- R588: whether any key slot is programmed. -/
def State.anyKey (s : State) : Bool := (List.range 4).any (fun i => (s.keySlot i).prog)

/-- R588, R597 ENCAPSULATED_REQUEST: mutual authentication of a session in its handshake. `rootKey`: the key at the root of
the requester's chain; `verified`: its chain and its signature verify. -/
def execEncapsulatedRequest (who : Requester) (sess : Fin 4) (rootKey : BitVec 384 × BitVec 384) (verified : Bool) (s : State) : Out :=
  s.spdmTake who (fun s => match s.spdm sess with
    | some x =>
      if x.eid = who.eid ∧ !x.open_ then
        (s.setSpdm sess (some { x with auth := verified && s.usableKey rootKey, last := s.datum })).spdmAnswer who 0x6B []
      else s.spdmError who seUnexpected
    | none => s.spdmError who seInvalidSession)

/-- R70, R588: whether a session that completes gives its endpoint rights: its authentication, or in UNLASTED the absence of
any programmed key. -/
def State.enough (s : State) (x : SpdmSess) : Bool := x.auth || (decide (s.dev = .unlasted) && !s.img.on && !s.anyKey)

/-- R70, R588: in UNLASTED the first endpoint that completes such a session is the owner. -/
def State.claimOwner (s : State) (eid : Byte) (good : Bool) : State :=
  if good && decide (s.dev = .unlasted) && !s.img.on && s.mg.owner.isNone then { s with mg := { s.mg with owner := some eid } } else s

/-- R588, R597 FINISH. `ok`: what it carries verifies. -/
def execFinish (who : Requester) (sess : Fin 4) (ok : Bool) (t : Nat) (s : State) : Out :=
  (s.at t).spdmTake who (fun s => match s.spdm sess with
    | some x =>
      if x.eid ≠ who.eid ∨ x.open_ then s.spdmError who seUnexpected
      else if !ok then (s.setSpdm sess none).spdmError who seDecrypt
      else
        let good := s.enough x
        let s := s.setSpdm sess (some { x with open_ := true, auth := good, last := s.datum })
        (s.claimOwner who.eid good).spdmAnswer who 0x65 []
    | none => s.spdmError who seInvalidSession)

/-- A request that only a session carries. -/
def State.spdmInside (s : State) (who : Requester) (f : Fin 4 → State → State) : Out :=
  s.spdmTake who (fun s => match who.sess with
    | some k => f k s
    | none => s.spdmError who seUnexpected)

/-- R597 HEARTBEAT. -/
def execHeartbeat (who : Requester) (t : Nat) (s : State) : Out := (s.at t).spdmInside who (fun _ s => s.spdmAnswer who 0x68 [])

/-- R597 KEY_UPDATE. -/
def execKeyUpdate (who : Requester) (t : Nat) (s : State) : Out := (s.at t).spdmInside who (fun _ s => s.spdmAnswer who 0x69 [])

/-- R597 END_SESSION. -/
def execEndSession (who : Requester) (s : State) : Out :=
  s.spdmInside who (fun k s => (s.spdmAnswer who 0x6C []).setSpdm k none)

/-- R597 SPDM_SESSION_EXPIRY: no message for three heartbeat periods of 60 s. -/
def execSpdmSessionExpiry (sess : Fin 4) (t : Nat) (s : State) : Out :=
  let s := s.at t
  match s.spdm sess with
  | some x => if x.last + 180000000000 ≤ s.datum then .next (s.setSpdm sess none) else .next s
  | none => .next s

end Sys2Proof.Machine
end

