-- ==== Sys2Proof/Machine/Firmware.lean ====
section
/-! DEFINITION. PLDM firmware update: the two image slots (R594 to R596). -/

namespace Sys2Proof.Machine

/-- Completion codes of DSP0267. -/
def fwNotInUpdate : Nat := 0x80
def fwAlready : Nat := 0x81
def fwBadState : Nat := 0x84
def fwIncomplete : Nat := 0x85
def fwUnable : Nat := 0x8A
def fwNoSelf : Nat := 0x8C

/-- An answer of the firmware-update type. -/
def State.fwAnswer (s : State) (who : Requester) (cmd code : Nat) (data : List Byte) : State := s.answer 1 who.eid cmd code data

/-- R587, R588, R596: a command is taken; an update whose endpoint has lost its rights has ended. -/
def State.fwTake (s : State) (who : Requester) : State :=
  let s := s.touch who
  match s.mg.fw with
  | some u => if s.isMgmtOwner u.eid then s else s.dropUpdate
  | none => s

/-- A command of the owner; anyone else gets an ERROR. -/
def State.fwOwner (s : State) (who : Requester) (cmd : Nat) (f : State → State) : Out :=
  let s := s.fwTake who
  if s.ownerAccess (asAccessor who) then .next (f s) else .next (s.fwAnswer who cmd ccError [])

/-- A command that needs an update in progress. -/
def State.fwIn (s : State) (who : Requester) (cmd : Nat) (f : FwUpd → State → State) : Out :=
  s.fwOwner who cmd (fun s => match s.mg.fw with
    | some u => f u s
    | none => s.fwAnswer who cmd fwNotInUpdate [])

/-- Changes the update in progress. -/
def State.setFw (s : State) (u : Option FwUpd) : State := { s with mg := { s.mg with fw := u } }

/-- R594 QUERY_DEVICE_IDENTIFIERS: the PCI identifiers of R560. -/
def execQueryDeviceIdentifiers (who : Requester) (s : State) : Out :=
  s.fwOwner who 0x01 (fun s => s.fwAnswer who 0x01 ccSuccess
    (leBytes 2 0x1F6B ++ leBytes 2 0xE040 ++ leBytes 2 0x1F6B ++ leBytes 2 s.mg.assembly.toNat))

/-- R594: a component's comparison stamp: the low 32 bits of the SERIAL in a valid slot, or 0. -/
def State.stamp (s : State) (comp : Nat) : Nat :=
  let b := if comp = 1 then s.img.slotA else s.img.slotB
  let bad := if comp = 1 then s.img.badA else s.img.badB
  if s.slotReason b bad false = 0 then field b 0x10 4 else 0

/-- R594 GET_FIRMWARE_PARAMETERS: the classification, identifier and stamp of each component. -/
def execGetFirmwareParameters (who : Requester) (s : State) : Out :=
  s.fwOwner who 0x02 (fun s => s.fwAnswer who 0x02 ccSuccess
    ([1, 2].flatMap (fun c => leBytes 2 0xFFFF ++ leBytes 2 c ++ leBytes 4 (s.stamp c))))

/-- R596: whether the state takes an update. -/
def State.takesUpdate (s : State) : Bool :=
  match s.dev with
  | .off | .starting _ | .halted => false
  | _ => true

/-- R587, R596 REQUEST_UPDATE. -/
def execRequestUpdate (who : Requester) (s : State) : Out :=
  let s := s.fwTake who
  if !s.ownerAccess (asAccessor who) ∨ !s.takesUpdate then .next (s.fwAnswer who 0x10 fwUnable [])
  else if s.mg.fw.isSome then .next (s.fwAnswer who 0x10 fwAlready [])
  else .next ((s.setFw (some { eid := who.eid, table := false, comp := 0, size := 0, got := 0, verify := none })).fwAnswer who 0x10
    ccSuccess [])

/-- R594 PASS_COMPONENT_TABLE. -/
def execPassComponentTable (who : Requester) (comp : W16) (s : State) : Out :=
  s.fwIn who 0x13 (fun u s =>
    if comp = 1 ∨ comp = 2 then (s.setFw (some { u with table := true })).fwAnswer who 0x13 ccSuccess []
    else s.fwAnswer who 0x13 ccInvalidData [])

/-- Replaces the bytes of a slot and whether it is left unverified. -/
def State.setSlotImage (s : State) (comp : Nat) (b : List Byte) (bad : Bool) : State :=
  if comp = 1 then { s with img := { s.img with slotA := b, badA := bad } }
  else { s with img := { s.img with slotB := b, badB := bad } }

/-- The bytes of a slot. -/
def State.slotImage (s : State) (comp : Nat) : List Byte := if comp = 1 then s.img.slotA else s.img.slotB

/-- R594: the E40 asks for the next block of at most 1,024 bytes. -/
def State.askBlock (s : State) (u : FwUpd) : State :=
  s.answer 1 u.eid 0x15 0 (leBytes 4 u.got ++ leBytes 4 (min 1024 (u.size - u.got)))

/-- Whether data of an update is still to come. -/
def FwUpd.busy (u : FwUpd) : Bool := decide (u.comp ≠ 0) && decide (u.got < u.size)

/-- R594, R595 UPDATE_COMPONENT: the slot is erased and its data is asked for. -/
def execUpdateComponent (who : Requester) (comp : W16) (size : W32) (s : State) : Out :=
  s.fwIn who 0x14 (fun u s =>
    if u.busy then s.fwAnswer who 0x14 fwBadState []
    else if (comp ≠ 1 ∧ comp ≠ 2) ∨ size = 0 ∨ 1048576 < size.toNat then s.fwAnswer who 0x14 ccInvalidData []
    else
      let u := { u with comp := comp.toNat, size := size.toNat, got := 0, verify := none, failed := false }
      (((s.setSlotImage comp.toNat [] true).setFw (some u)).fwAnswer who 0x14 ccSuccess []).askBlock u)

/-- R84, R595: the transfer is complete: the slot is verified, and the E40 reports it; a slot whose write failed stays
invalid (its report: DESIGN CHOICE, log 105). -/
def State.fwVerify (s : State) (u : FwUpd) : State :=
  let s := s.answer 1 u.eid 0x16 0 [0]
  let r := s.checkImage .slot (s.slotImage u.comp)
  let bad := u.failed || decide (r ≠ 0)
  let s := (s.setSlotImage u.comp (s.slotImage u.comp) bad).setFw
    (some { u with verify := some (if u.failed && decide (r = 0) then 0xFF else BitVec.ofNat 8 r) })
  if !bad then (s.answer 1 u.eid 0x17 0 [0]).answer 1 u.eid 0x18 0 [0]
  else s.answer 1 u.eid 0x17 0 (leBytes 1 (0x90 + r))

/-- R84, R594, R595 FIRMWARE_DATA_RECEIVE: a block of the length asked for is written; another is asked for again. -/
def execFirmwareDataReceive (who : Requester) (block : FwBlock) (s : State) : Out :=
  s.fwIn who 0x15 (fun u s =>
    if !u.busy then s
    else if block.data.length ≠ min 1024 (u.size - u.got) then s.askBlock u
    else
      let u := { u with got := u.got + block.data.length, failed := u.failed || block.fail }
      let s := (s.setSlotImage u.comp (s.slotImage u.comp ++ block.data) true).setFw (some u)
      if u.got < u.size then s.askBlock u else s.fwVerify u)

/-- R594 ACTIVATE_FIRMWARE: it completes at once and the update ends. -/
def execActivateFirmware (who : Requester) (selfContained : Bool) (s : State) : Out :=
  s.fwIn who 0x1A (fun u s =>
    if selfContained then s.fwAnswer who 0x1A fwNoSelf []
    else if u.verify ≠ some 0 then s.fwAnswer who 0x1A fwIncomplete []
    else (s.setFw none).fwAnswer who 0x1A ccSuccess (leBytes 2 0))

/-- The update's state as the standard numbers it: 0 idle, 1 learn components, 2 ready to transfer, 3 download, 4 verify. -/
def fwState (o : Option FwUpd) : Nat :=
  match o with
  | none => 0
  | some u =>
    if u.comp = 0 then (if u.table then 2 else 1)
    else if u.busy then 3
    else if u.verify = some 0 then 2
    else 4

/-- R594 GET_STATUS. -/
def execGetStatus (who : Requester) (s : State) : Out :=
  s.fwOwner who 0x1B (fun s => s.fwAnswer who 0x1B ccSuccess (leBytes 1 (fwState s.mg.fw)))

/-- R596 CANCEL_UPDATE. -/
def execCancelUpdate (who : Requester) (s : State) : Out :=
  s.fwIn who 0x1D (fun _ s => s.dropUpdate.fwAnswer who 0x1D ccSuccess [])

end Sys2Proof.Machine
end

