-- ==== Sys2Proof/Machine/Scalar.lean ====
section
/-! DEFINITION. Scalar arithmetic, immediates, compares and predicates (R198 to R200). -/

namespace Sys2Proof.Machine

/-- A register operation: RD and the cs.status bits from the two operands. -/
def aluOp (h : Hdr) (rd rs1 rs2 : Fin 32) (f : W64 → W64 → AluRes) (s : State) : Out :=
  cellOp h 4 false [rd, rs1, rs2] (fun c =>
    let r := f (c.greg rs1) (c.greg rs2)
    (c.setG rd r.1).orStatus r.2) s

/-- A register operation without flags. -/
def plainOp (h : Hdr) (rd rs1 rs2 : Fin 32) (f : W64 → W64 → W64) (s : State) : Out :=
  aluOp h rd rs1 rs2 (fun a b => (f a b, 0)) s

/-- R198 ADD. -/
def execAdd (h : Hdr) (w : Bool) (rd rs1 rs2 : Fin 32) (s : State) : Out :=
  plainOp h rd rs1 rs2 (fun a b => if w then sext32 (lowW a + lowW b) else a + b) s
/-- R198 SUB. -/
def execSub (h : Hdr) (w : Bool) (rd rs1 rs2 : Fin 32) (s : State) : Out :=
  plainOp h rd rs1 rs2 (fun a b => if w then sext32 (lowW a - lowW b) else a - b) s
/-- R198 AND. -/
def execAndR (h : Hdr) (rd rs1 rs2 : Fin 32) (s : State) : Out := plainOp h rd rs1 rs2 (fun a b => a &&& b) s
/-- R198 OR. -/
def execOrR (h : Hdr) (rd rs1 rs2 : Fin 32) (s : State) : Out := plainOp h rd rs1 rs2 (fun a b => a ||| b) s
/-- R198 XOR. -/
def execXorR (h : Hdr) (rd rs1 rs2 : Fin 32) (s : State) : Out := plainOp h rd rs1 rs2 (fun a b => a ^^^ b) s
/-- R198 ANDN. -/
def execAndn (h : Hdr) (rd rs1 rs2 : Fin 32) (s : State) : Out := plainOp h rd rs1 rs2 (fun a b => a &&& ~~~b) s
/-- R198, R200 SLL. -/
def execSll (h : Hdr) (w : Bool) (rd rs1 rs2 : Fin 32) (s : State) : Out := plainOp h rd rs1 rs2 (shiftL w) s
/-- R198, R200 SRL. -/
def execSrl (h : Hdr) (w : Bool) (rd rs1 rs2 : Fin 32) (s : State) : Out := plainOp h rd rs1 rs2 (shiftR w) s
/-- R198, R200 SRA. -/
def execSra (h : Hdr) (w : Bool) (rd rs1 rs2 : Fin 32) (s : State) : Out := plainOp h rd rs1 rs2 (shiftA w) s
/-- R198, R200 NEG. -/
def execNeg (h : Hdr) (w : Bool) (rd rs1 : Fin 32) (s : State) : Out :=
  aluOp h rd rs1 0 (atWidth w (fun n a _ => negN n a)) s
/-- R198, R200 ABS. -/
def execAbs (h : Hdr) (w : Bool) (rd rs1 : Fin 32) (s : State) : Out :=
  aluOp h rd rs1 0 (atWidth w (fun n a _ => absN n a)) s
/-- R198 MIN. -/
def execMinR (h : Hdr) (rd rs1 rs2 : Fin 32) (s : State) : Out :=
  plainOp h rd rs1 rs2 (fun a b => if b.slt a then b else a) s
/-- R198 MAX. -/
def execMaxR (h : Hdr) (rd rs1 rs2 : Fin 32) (s : State) : Out :=
  plainOp h rd rs1 rs2 (fun a b => if a.slt b then b else a) s
/-- R198 MINU. -/
def execMinu (h : Hdr) (rd rs1 rs2 : Fin 32) (s : State) : Out :=
  plainOp h rd rs1 rs2 (fun a b => if b.ult a then b else a) s
/-- R198 MAXU. -/
def execMaxu (h : Hdr) (rd rs1 rs2 : Fin 32) (s : State) : Out :=
  plainOp h rd rs1 rs2 (fun a b => if a.ult b then b else a) s
/-- R198 CLZ. -/
def execClz (h : Hdr) (rd rs1 : Fin 32) (s : State) : Out := plainOp h rd rs1 0 (fun a _ => clz64 a) s
/-- R198 POPC. -/
def execPopc (h : Hdr) (rd rs1 : Fin 32) (s : State) : Out := plainOp h rd rs1 0 (fun a _ => popc64 a) s
/-- R198 MUL. -/
def execMul (h : Hdr) (w : Bool) (rd rs1 rs2 : Fin 32) (s : State) : Out :=
  plainOp h rd rs1 rs2 (fun a b => if w then sext32 (lowW a * lowW b) else a * b) s
/-- R198 MULH. -/
def execMulh (h : Hdr) (rd rs1 rs2 : Fin 32) (s : State) : Out := plainOp h rd rs1 rs2 mulh64 s
/-- R198 MULHU. -/
def execMulhu (h : Hdr) (rd rs1 rs2 : Fin 32) (s : State) : Out := plainOp h rd rs1 rs2 mulhu64 s
/-- R198, R200 DIV. -/
def execDiv (h : Hdr) (w : Bool) (rd rs1 rs2 : Fin 32) (s : State) : Out := aluOp h rd rs1 rs2 (atWidth w divN) s
/-- R198, R200 DIVU. -/
def execDivu (h : Hdr) (w : Bool) (rd rs1 rs2 : Fin 32) (s : State) : Out := aluOp h rd rs1 rs2 (atWidth w divuN) s
/-- R198, R200 REM. -/
def execRem (h : Hdr) (w : Bool) (rd rs1 rs2 : Fin 32) (s : State) : Out := aluOp h rd rs1 rs2 (atWidth w remN) s
/-- R198, R200 REMU. -/
def execRemu (h : Hdr) (w : Bool) (rd rs1 rs2 : Fin 32) (s : State) : Out := aluOp h rd rs1 rs2 (atWidth w remuN) s

/-- R199 ADDI. -/
def execAddi (h : Hdr) (rd rs1 : Fin 32) (imm : BitVec 11) (s : State) : Out :=
  plainOp h rd rs1 0 (fun a _ => a + sext64 imm) s
/-- R199 ANDI. -/
def execAndi (h : Hdr) (rd rs1 : Fin 32) (imm : BitVec 11) (s : State) : Out :=
  plainOp h rd rs1 0 (fun a _ => a &&& sext64 imm) s
/-- R199 ORI. -/
def execOri (h : Hdr) (rd rs1 : Fin 32) (imm : BitVec 11) (s : State) : Out :=
  plainOp h rd rs1 0 (fun a _ => a ||| sext64 imm) s
/-- R199 XORI. -/
def execXori (h : Hdr) (rd rs1 : Fin 32) (imm : BitVec 11) (s : State) : Out :=
  plainOp h rd rs1 0 (fun a _ => a ^^^ sext64 imm) s
/-- R199 SHI: IMM11[5:0] the amount, [7:6] the shift (3 reserved), [8] W, [10:9] reserved. -/
def execShi (h : Hdr) (rd rs1 : Fin 32) (imm : BitVec 11) (s : State) : Out :=
  let sel := bits imm.toNat 6 2
  let w := imm.getLsbD 8
  let amount : W64 := BitVec.ofNat 64 (bits imm.toNat 0 6)
  cellOp h 4 (decide (sel = 3) || decide (bits imm.toNat 9 2 ≠ 0)) [rd, rs1] (fun c =>
    let a := c.greg rs1
    c.setG rd (if sel = 0 then shiftL w a amount else if sel = 1 then shiftR w a amount else shiftA w a amount)) s
/-- R199 LUI: sext(IMM16 × 2^16). -/
def execLui (h : Hdr) (rd : Fin 32) (imm : W16) (s : State) : Out :=
  cellOp h 4 false [rd] (fun c => c.setG rd (sext32 (imm ++ 0#16))) s
/-- R199 LI. -/
def execLi (h : Hdr) (rd : Fin 32) (imm : W32) (s : State) : Out :=
  cellOp h 8 false [rd] (fun c => c.setG rd (sext64 imm)) s
/-- R199 LIH: RD[31:0] is kept. -/
def execLih (h : Hdr) (rd : Fin 32) (imm : W32) (s : State) : Out :=
  cellOp h 8 false [rd] (fun c => c.setG rd (imm ++ lowW (c.greg rd))) s

/-- R199 CMP; COND 7 is reserved. -/
def execCmp (h : Hdr) (pd : Fin 8) (cond : BitVec 3) (rs1 rs2 : Fin 32) (s : State) : Out :=
  cellOp h 4 (cond == 7) [rs1, rs2] (fun c => c.setP pd (condOf cond (c.greg rs1) (c.greg rs2))) s
/-- R199 CMPI. -/
def execCmpi (h : Hdr) (pd : Fin 8) (cond : BitVec 3) (rs1 : Fin 32) (imm : BitVec 10) (s : State) : Out :=
  cellOp h 4 (cond == 7) [rs1] (fun c => c.setP pd (condOf cond (c.greg rs1) (sext64 imm))) s

/-- Predicate logic (R199). -/
def predOp (h : Hdr) (pd pa pb : Fin 8) (f : Bool → Bool → Bool) (s : State) : Out :=
  cellOp h 4 false [] (fun c => c.setP pd (f (c.preg pa) (c.preg pb))) s
/-- R199: PA AND PB. -/
def execPredAnd (h : Hdr) (pd pa pb : Fin 8) (s : State) : Out := predOp h pd pa pb (fun a b => a && b) s
/-- R199: PA OR PB. -/
def execPredOr (h : Hdr) (pd pa pb : Fin 8) (s : State) : Out := predOp h pd pa pb (fun a b => a || b) s
/-- R199: PA XOR PB. -/
def execPredXor (h : Hdr) (pd pa pb : Fin 8) (s : State) : Out := predOp h pd pa pb (fun a b => a != b) s
/-- R199: PA AND NOT PB. -/
def execPredAndn (h : Hdr) (pd pa pb : Fin 8) (s : State) : Out := predOp h pd pa pb (fun a b => a && !b) s
/-- R199: NOT PA. -/
def execPredNot (h : Hdr) (pd pa : Fin 8) (s : State) : Out := predOp h pd pa 0 (fun a _ => !a) s

end Sys2Proof.Machine
end

