-- ==== Sys2Proof/Machine/Dispatch.lean ====
section
/-! DEFINITION. `exec`: one arm per command of the table, each a direct call of its meaning. -/

namespace Sys2Proof.Machine

/-- The effect of a command on everything but the queue. -/
def exec (i : Instr) (s : State) : Host.Outcome State Fault Refusal :=
  match i with
  | .add h w rd rs1 rs2 => Sys2Proof.Machine.execAdd h w rd rs1 rs2 s
  | .sub h w rd rs1 rs2 => Sys2Proof.Machine.execSub h w rd rs1 rs2 s
  | .andR h rd rs1 rs2 => Sys2Proof.Machine.execAndR h rd rs1 rs2 s
  | .orR h rd rs1 rs2 => Sys2Proof.Machine.execOrR h rd rs1 rs2 s
  | .xorR h rd rs1 rs2 => Sys2Proof.Machine.execXorR h rd rs1 rs2 s
  | .andn h rd rs1 rs2 => Sys2Proof.Machine.execAndn h rd rs1 rs2 s
  | .sll h w rd rs1 rs2 => Sys2Proof.Machine.execSll h w rd rs1 rs2 s
  | .srl h w rd rs1 rs2 => Sys2Proof.Machine.execSrl h w rd rs1 rs2 s
  | .sra h w rd rs1 rs2 => Sys2Proof.Machine.execSra h w rd rs1 rs2 s
  | .neg h w rd rs1 => Sys2Proof.Machine.execNeg h w rd rs1 s
  | .abs h w rd rs1 => Sys2Proof.Machine.execAbs h w rd rs1 s
  | .minR h rd rs1 rs2 => Sys2Proof.Machine.execMinR h rd rs1 rs2 s
  | .maxR h rd rs1 rs2 => Sys2Proof.Machine.execMaxR h rd rs1 rs2 s
  | .minu h rd rs1 rs2 => Sys2Proof.Machine.execMinu h rd rs1 rs2 s
  | .maxu h rd rs1 rs2 => Sys2Proof.Machine.execMaxu h rd rs1 rs2 s
  | .clz h rd rs1 => Sys2Proof.Machine.execClz h rd rs1 s
  | .popc h rd rs1 => Sys2Proof.Machine.execPopc h rd rs1 s
  | .mul h w rd rs1 rs2 => Sys2Proof.Machine.execMul h w rd rs1 rs2 s
  | .mulh h rd rs1 rs2 => Sys2Proof.Machine.execMulh h rd rs1 rs2 s
  | .mulhu h rd rs1 rs2 => Sys2Proof.Machine.execMulhu h rd rs1 rs2 s
  | .div h w rd rs1 rs2 => Sys2Proof.Machine.execDiv h w rd rs1 rs2 s
  | .divu h w rd rs1 rs2 => Sys2Proof.Machine.execDivu h w rd rs1 rs2 s
  | .rem h w rd rs1 rs2 => Sys2Proof.Machine.execRem h w rd rs1 rs2 s
  | .remu h w rd rs1 rs2 => Sys2Proof.Machine.execRemu h w rd rs1 rs2 s
  | .addi h rd rs1 imm => Sys2Proof.Machine.execAddi h rd rs1 imm s
  | .andi h rd rs1 imm => Sys2Proof.Machine.execAndi h rd rs1 imm s
  | .ori h rd rs1 imm => Sys2Proof.Machine.execOri h rd rs1 imm s
  | .xori h rd rs1 imm => Sys2Proof.Machine.execXori h rd rs1 imm s
  | .shi h rd rs1 imm => Sys2Proof.Machine.execShi h rd rs1 imm s
  | .lui h rd imm => Sys2Proof.Machine.execLui h rd imm s
  | .li h rd imm => Sys2Proof.Machine.execLi h rd imm s
  | .lih h rd imm => Sys2Proof.Machine.execLih h rd imm s
  | .cmp h pd cond rs1 rs2 => Sys2Proof.Machine.execCmp h pd cond rs1 rs2 s
  | .cmpi h pd cond rs1 imm => Sys2Proof.Machine.execCmpi h pd cond rs1 imm s
  | .predAnd h pd pa pb => Sys2Proof.Machine.execPredAnd h pd pa pb s
  | .predOr h pd pa pb => Sys2Proof.Machine.execPredOr h pd pa pb s
  | .predXor h pd pa pb => Sys2Proof.Machine.execPredXor h pd pa pb s
  | .predAndn h pd pa pb => Sys2Proof.Machine.execPredAndn h pd pa pb s
  | .predNot h pd pa => Sys2Proof.Machine.execPredNot h pd pa s
  | .lb h rd rs1 imm => Sys2Proof.Machine.execLb h rd rs1 imm s
  | .lbu h rd rs1 imm => Sys2Proof.Machine.execLbu h rd rs1 imm s
  | .lh h rd rs1 imm => Sys2Proof.Machine.execLh h rd rs1 imm s
  | .lhu h rd rs1 imm => Sys2Proof.Machine.execLhu h rd rs1 imm s
  | .lw h rd rs1 imm => Sys2Proof.Machine.execLw h rd rs1 imm s
  | .lwu h rd rs1 imm => Sys2Proof.Machine.execLwu h rd rs1 imm s
  | .ld h rd rs1 imm => Sys2Proof.Machine.execLd h rd rs1 imm s
  | .sb h rs2 rs1 imm => Sys2Proof.Machine.execSb h rs2 rs1 imm s
  | .sh h rs2 rs1 imm => Sys2Proof.Machine.execSh h rs2 rs1 imm s
  | .sw h rs2 rs1 imm => Sys2Proof.Machine.execSw h rs2 rs1 imm s
  | .sd h rs2 rs1 imm => Sys2Proof.Machine.execSd h rs2 rs1 imm s
  | .storeBufferDrain cell => Sys2Proof.Machine.execStoreBufferDrain cell s
  | .amoswap h d rd rs1 rs2 => Sys2Proof.Machine.execAmoswap h d rd rs1 rs2 s
  | .amoadd h d rd rs1 rs2 => Sys2Proof.Machine.execAmoadd h d rd rs1 rs2 s
  | .amoand h d rd rs1 rs2 => Sys2Proof.Machine.execAmoand h d rd rs1 rs2 s
  | .amoor h d rd rs1 rs2 => Sys2Proof.Machine.execAmoor h d rd rs1 rs2 s
  | .amoxor h d rd rs1 rs2 => Sys2Proof.Machine.execAmoxor h d rd rs1 rs2 s
  | .amomin h d rd rs1 rs2 => Sys2Proof.Machine.execAmomin h d rd rs1 rs2 s
  | .amomax h d rd rs1 rs2 => Sys2Proof.Machine.execAmomax h d rd rs1 rs2 s
  | .amominu h d rd rs1 rs2 => Sys2Proof.Machine.execAmominu h d rd rs1 rs2 s
  | .amomaxu h d rd rs1 rs2 => Sys2Proof.Machine.execAmomaxu h d rd rs1 rs2 s
  | .cas h d rd rs1 rs2 => Sys2Proof.Machine.execCas h d rd rs1 rs2 s
  | .br h off => Sys2Proof.Machine.execBr h off s
  | .call h off => Sys2Proof.Machine.execCall h off s
  | .jalr h rd rs1 imm => Sys2Proof.Machine.execJalr h rd rs1 imm s
  | .fenceSl h => Sys2Proof.Machine.execFenceSl h s
  | .uwait h mask => Sys2Proof.Machine.execUwait h mask s
  | .waitq h rd => Sys2Proof.Machine.execWaitq h rd s
  | .endI h => Sys2Proof.Machine.execEndI h s
  | .csrr h rd rs1 cs => Sys2Proof.Machine.execCsrr h rd rs1 cs s
  | .csrw h rd rs1 cs => Sys2Proof.Machine.execCsrw h rd rs1 cs s
  | .csrs h rd rs1 cs => Sys2Proof.Machine.execCsrs h rd rs1 cs s
  | .csrc h rd rs1 cs => Sys2Proof.Machine.execCsrc h rd rs1 cs s
  | .vcopy h rd rs1 rs2 => Sys2Proof.Machine.execVcopy h rd rs1 rs2 s
  | .hsweepR h rd rs1 rs2 => Sys2Proof.Machine.execHsweepR h rd rs1 rs2 s
  | .hsweepW h rd rs1 rs2 => Sys2Proof.Machine.execHsweepW h rd rs1 rs2 s
  | .vadd h sc rd rs1 rs2 => Sys2Proof.Machine.execVadd h sc rd rs1 rs2 s
  | .vsub h sc rd rs1 rs2 => Sys2Proof.Machine.execVsub h sc rd rs1 rs2 s
  | .vmul h sc rd rs1 rs2 => Sys2Proof.Machine.execVmul h sc rd rs1 rs2 s
  | .vmulh h sc rd rs1 rs2 => Sys2Proof.Machine.execVmulh h sc rd rs1 rs2 s
  | .vand h sc rd rs1 rs2 => Sys2Proof.Machine.execVand h sc rd rs1 rs2 s
  | .vor h sc rd rs1 rs2 => Sys2Proof.Machine.execVor h sc rd rs1 rs2 s
  | .vxor h sc rd rs1 rs2 => Sys2Proof.Machine.execVxor h sc rd rs1 rs2 s
  | .vsll h sc rd rs1 rs2 => Sys2Proof.Machine.execVsll h sc rd rs1 rs2 s
  | .vsrl h sc rd rs1 rs2 => Sys2Proof.Machine.execVsrl h sc rd rs1 rs2 s
  | .vsra h sc rd rs1 rs2 => Sys2Proof.Machine.execVsra h sc rd rs1 rs2 s
  | .vneg h rd rs1 => Sys2Proof.Machine.execVneg h rd rs1 s
  | .vabs h rd rs1 => Sys2Proof.Machine.execVabs h rd rs1 s
  | .vmin h sc rd rs1 rs2 => Sys2Proof.Machine.execVmin h sc rd rs1 rs2 s
  | .vmax h sc rd rs1 rs2 => Sys2Proof.Machine.execVmax h sc rd rs1 rs2 s
  | .vminu h sc rd rs1 rs2 => Sys2Proof.Machine.execVminu h sc rd rs1 rs2 s
  | .vmaxu h sc rd rs1 rs2 => Sys2Proof.Machine.execVmaxu h sc rd rs1 rs2 s
  | .vadds h sc rd rs1 rs2 => Sys2Proof.Machine.execVadds h sc rd rs1 rs2 s
  | .vsubs h sc rd rs1 rs2 => Sys2Proof.Machine.execVsubs h sc rd rs1 rs2 s
  | .vmuls h sc rd rs1 rs2 => Sys2Proof.Machine.execVmuls h sc rd rs1 rs2 s
  | .vceq h sc rd rs1 rs2 => Sys2Proof.Machine.execVceq h sc rd rs1 rs2 s
  | .vclt h sc rd rs1 rs2 => Sys2Proof.Machine.execVclt h sc rd rs1 rs2 s
  | .vcltu h sc rd rs1 rs2 => Sys2Proof.Machine.execVcltu h sc rd rs1 rs2 s
  | .vsel h sc rd rs1 rs2 => Sys2Proof.Machine.execVsel h sc rd rs1 rs2 s
  | .vfadd h sc rd rs1 rs2 => Sys2Proof.Machine.execVfadd h sc rd rs1 rs2 s
  | .vfsub h sc rd rs1 rs2 => Sys2Proof.Machine.execVfsub h sc rd rs1 rs2 s
  | .vfmul h sc rd rs1 rs2 => Sys2Proof.Machine.execVfmul h sc rd rs1 rs2 s
  | .vfma h sc rd rs1 rs2 => Sys2Proof.Machine.execVfma h sc rd rs1 rs2 s
  | .vfmin h sc rd rs1 rs2 => Sys2Proof.Machine.execVfmin h sc rd rs1 rs2 s
  | .vfmax h sc rd rs1 rs2 => Sys2Proof.Machine.execVfmax h sc rd rs1 rs2 s
  | .vfneg h rd rs1 => Sys2Proof.Machine.execVfneg h rd rs1 s
  | .vfabs h rd rs1 => Sys2Proof.Machine.execVfabs h rd rs1 s
  | .vfceq h sc rd rs1 rs2 => Sys2Proof.Machine.execVfceq h sc rd rs1 rs2 s
  | .vfclt h sc rd rs1 rs2 => Sys2Proof.Machine.execVfclt h sc rd rs1 rs2 s
  | .vfcle h sc rd rs1 rs2 => Sys2Proof.Machine.execVfcle h sc rd rs1 rs2 s
  | .vcvt h vd vs sfmt dfmt rnd part => Sys2Proof.Machine.execVcvt h vd vs sfmt dfmt rnd part s
  | .vld h vd rs1 imm => Sys2Proof.Machine.execVld h vd rs1 imm s
  | .vst h vs rs1 imm => Sys2Proof.Machine.execVst h vs rs1 imm s
  | .vbcast h vd rs1 => Sys2Proof.Machine.execVbcast h vd rs1 s
  | .vmvg h rd vs lane => Sys2Proof.Machine.execVmvg h rd vs lane s
  | .vins h vd rs1 lane => Sys2Proof.Machine.execVins h vd rs1 lane s
  | .vrsum h rd vs => Sys2Proof.Machine.execVrsum h rd vs s
  | .vrfsum h rd vs => Sys2Proof.Machine.execVrfsum h rd vs s
  | .vrmax h rd vs => Sys2Proof.Machine.execVrmax h rd vs s
  | .vrfmax h rd vs => Sys2Proof.Machine.execVrfmax h rd vs s
  | .vtr h v t row => Sys2Proof.Machine.execVtr h v t row s
  | .vtw h v t row => Sys2Proof.Machine.execVtw h v t row s
  | .tld h t rs1 rs2 shape => Sys2Proof.Machine.execTld h t rs1 rs2 shape s
  | .tst h t rs1 rs2 shape => Sys2Proof.Machine.execTst h t rs1 rs2 shape s
  | .tzero h t => Sys2Proof.Machine.execTzero h t s
  | .tfree h mask => Sys2Proof.Machine.execTfree h mask s
  | .tcopy h td ts => Sys2Proof.Machine.execTcopy h td ts s
  | .accz h => Sys2Proof.Machine.execAccz h s
  | .mma h ta tw afmt wfmt acol acc shape => Sys2Proof.Machine.execMma h ta tw afmt wfmt acol acc shape s
  | .accmv h td fmt rnd rs nrows => Sys2Proof.Machine.execAccmv h td fmt rnd rs nrows s
  | .arr h a => Sys2Proof.Machine.execArr h a s
  | .cagset h rs1 => Sys2Proof.Machine.execCagset h rs1 s
  | .conv h tw rs1 rs2 acol acc => Sys2Proof.Machine.execConv h tw rs1 rs2 acol acc s
  | .mvm h td rs1 rs2 batch xfmt wfmt kq nblk => Sys2Proof.Machine.execMvm h td rs1 rs2 batch xfmt wfmt kq nblk s
  | .agath h rs1 arg => Sys2Proof.Machine.execAgath h rs1 arg s
  | .await h arg => Sys2Proof.Machine.execAwait h arg s
  | .atab h rd rs1 => Sys2Proof.Machine.execAtab h rd rs1 s
  | .aupd h rd rs1 => Sys2Proof.Machine.execAupd h rd rs1 s
  | .gatherAccept cell slot host => Sys2Proof.Machine.execGatherAccept cell slot host s
  | .awlSectorData cell slot pos sec ecc => Sys2Proof.Machine.execAwlSectorData cell slot pos sec ecc s
  | .gatherCommit cell slot => Sys2Proof.Machine.execGatherCommit cell slot s
  | .tickBoundary t => Sys2Proof.Machine.execTickBoundary t s
  | .updateWindowStart p t => Sys2Proof.Machine.execUpdateWindowStart p t s
  | .updateApply p t ecc => Sys2Proof.Machine.execUpdateApply p t ecc s
  | .updateWindowEnd p t => Sys2Proof.Machine.execUpdateWindowEnd p t s
  | .computePhaseStart p t => Sys2Proof.Machine.execComputePhaseStart p t s
  | .computePhaseEnd p t => Sys2Proof.Machine.execComputePhaseEnd p t s
  | .queueTimeoutExpiry p inst t => Sys2Proof.Machine.execQueueTimeoutExpiry p inst t s
  | .surveySliceStart t => Sys2Proof.Machine.execSurveySliceStart t s
  | .surveyTestEnd a find t => Sys2Proof.Machine.execSurveyTestEnd a find t s
  | .surveyAbandon a find t => Sys2Proof.Machine.execSurveyAbandon a find t s
  | .sqTail f g v wide => Sys2Proof.Machine.execSqTail f g v wide s
  | .cqHead f g v wide => Sys2Proof.Machine.execCqHead f g v wide s
  | .launchDescriptorRead p q desc patch host => Sys2Proof.Machine.execLaunchDescriptorRead p q desc patch host s
  | .completionRecordWrite p q => Sys2Proof.Machine.execCompletionRecordWrite p q s
  | .msixMessage f v => Sys2Proof.Machine.execMsixMessage f v s
  | .msixVectorUnmask f v => Sys2Proof.Machine.execMsixVectorUnmask f v s
  | .graphLoad o slot ctx seg off len => Sys2Proof.Machine.execGraphLoad o slot ctx seg off len s
  | .graphLoadComplete p slot img => Sys2Proof.Machine.execGraphLoadComplete p slot img s
  | .graphUnload o slot => Sys2Proof.Machine.execGraphUnload o slot s
  | .queueBind o q slot mode count => Sys2Proof.Machine.execQueueBind o q slot mode count s
  | .queueUnbind o q => Sys2Proof.Machine.execQueueUnbind o q s
  | .queueUnbindComplete p q => Sys2Proof.Machine.execQueueUnbindComplete p q s
  | .queueTimeout o q ns => Sys2Proof.Machine.execQueueTimeout o q ns s
  | .queueRings o q ctx seg count sq cq vec => Sys2Proof.Machine.execQueueRings o q ctx seg count sq cq vec s
  | .queueReset o q => Sys2Proof.Machine.execQueueReset o q s
  | .cancel o q tag => Sys2Proof.Machine.execCancel o q tag s
  | .quiesce o => Sys2Proof.Machine.execQuiesce o s
  | .resume o => Sys2Proof.Machine.execResume o s
  | .parcelQuiet p => Sys2Proof.Machine.execParcelQuiet p s
  | .segSet o ctx seg mode count vbase tbase limit => Sys2Proof.Machine.execSegSet o ctx seg mode count vbase tbase limit s
  | .segClear o ctx seg => Sys2Proof.Machine.execSegClear o ctx seg s
  | .ctxClear o ctx => Sys2Proof.Machine.execCtxClear o ctx s
  | .segFence o mode base len => Sys2Proof.Machine.execSegFence o mode base len s
  | .segFenceComplete p => Sys2Proof.Machine.execSegFenceComplete p s
  | .parcelReset o mode => Sys2Proof.Machine.execParcelReset o mode s
  | .lastImagePush who bytes => Sys2Proof.Machine.execLastImagePush who bytes s
  | .parcelBuildEnd p => Sys2Proof.Machine.execParcelBuildEnd p s
  | .deviceBuildEnd t => Sys2Proof.Machine.execDeviceBuildEnd t s
  | .mgOrderCold who => Sys2Proof.Machine.execMgOrderCold who s
  | .mgOrderWarm who => Sys2Proof.Machine.execMgOrderWarm who s
  | .mgOrderRetire who => Sys2Proof.Machine.execMgOrderRetire who s
  | .keySlotProgram who slot qx qy resv => Sys2Proof.Machine.execKeySlotProgram who slot qx qy resv s
  | .keySlotRevoke who slot qx qy resv => Sys2Proof.Machine.execKeySlotRevoke who slot qx qy resv s
  | .serialFloorWrite who v => Sys2Proof.Machine.execSerialFloorWrite who v s
  | .saInstall who r => Sys2Proof.Machine.execSaInstall who r s
  | .saDelete who r => Sys2Proof.Machine.execSaDelete who r s
  | .saActivate who r => Sys2Proof.Machine.execSaActivate who r s
  | .sessionKeyInstall who index key resv => Sys2Proof.Machine.execSessionKeyInstall who index key resv s
  | .sessionKeyDelete who index resv => Sys2Proof.Machine.execSessionKeyDelete who index resv s
  | .powerLimitWrite who v => Sys2Proof.Machine.execPowerLimitWrite who v s
  | .errorLogClear who => Sys2Proof.Machine.execErrorLogClear who s
  | .traceStart who v => Sys2Proof.Machine.execTraceStart who v s
  | .traceStop who v => Sys2Proof.Machine.execTraceStop who v s
  | .traceReconfigure who v => Sys2Proof.Machine.execTraceReconfigure who v s
  | .traceRecordWrite => Sys2Proof.Machine.execTraceRecordWrite s
  | .counterSelect who idx v => Sys2Proof.Machine.execCounterSelect who idx v s
  | .snapshotLatch who => Sys2Proof.Machine.execSnapshotLatch who s
  | .wearCommit who => Sys2Proof.Machine.execWearCommit who s
  | .marginRun who => Sys2Proof.Machine.execMarginRun who s
  | .registerWrite who off width v => Sys2Proof.Machine.execRegisterWrite who off width v s
  | .lowerHalfRead who off logFail => Sys2Proof.Machine.execLowerHalfRead who off logFail s
  | .mailboxGo who v => Sys2Proof.Machine.execMailboxGo who v s
  | .errorLogEntryWrite fail => Sys2Proof.Machine.execErrorLogEntryWrite fail s
  | .pldmEventResend t => Sys2Proof.Machine.execPldmEventResend t s
  | .sessOpen h nonce isn resv => Sys2Proof.Machine.execSessOpen h nonce isn resv s
  | .sessClose h code resv => Sys2Proof.Machine.execSessClose h code resv s
  | .sessAck h blocks resv => Sys2Proof.Machine.execSessAck h blocks resv s
  | .rank h b => Sys2Proof.Machine.execRank h b s
  | .gather h b => Sys2Proof.Machine.execGather h b s
  | .update h body => Sys2Proof.Machine.execUpdate h body s
  | .order h desc => Sys2Proof.Machine.execOrder h desc s
  | .stage h w data => Sys2Proof.Machine.execStage h w data s
  | .push h w len => Sys2Proof.Machine.execPush h w len s
  | .retransmitTimeout sid seq t => Sys2Proof.Machine.execRetransmitTimeout sid seq t s
  | .ackDelayExpiry sid t => Sys2Proof.Machine.execAckDelayExpiry sid t s
  | .keepalive sid t => Sys2Proof.Machine.execKeepalive sid t s
  | .idleTimeout sid t => Sys2Proof.Machine.execIdleTimeout sid t s
  | .neighborSolicitation idx target src mac => Sys2Proof.Machine.execNeighborSolicitation idx target src mac s
  | .arpRequest idx target src mac => Sys2Proof.Machine.execArpRequest idx target src mac s
  | .neighborResolved idx addr mac => Sys2Proof.Machine.execNeighborResolved idx addr mac s
  | .neighborRefresh idx addr => Sys2Proof.Machine.execNeighborRefresh idx addr s
  | .frameReceive idx fr => Sys2Proof.Machine.execFrameReceive idx fr s
  | .frameTransmit idx => Sys2Proof.Machine.execFrameTransmit idx s
  | .ptpSync p origin corr rx => Sys2Proof.Machine.execPtpSync p origin corr rx s
  | .ptpDelayResp p t3 t4 corr => Sys2Proof.Machine.execPtpDelayResp p t3 t4 corr s
  | .ptpAnnounce p d => Sys2Proof.Machine.execPtpAnnounce p d s
  | .announceTimeout p => Sys2Proof.Machine.execAnnounceTimeout p s
  | .moduleInsert p hostIf => Sys2Proof.Machine.execModuleInsert p hostIf s
  | .moduleReady p => Sys2Proof.Machine.execModuleReady p s
  | .subportDown idx => Sys2Proof.Machine.execSubportDown idx s
  | .subportUp idx => Sys2Proof.Machine.execSubportUp idx s
  | .perstAssert => Sys2Proof.Machine.execPerstAssert s
  | .perstDeassert => Sys2Proof.Machine.execPerstDeassert s
  | .linkUp width speed flit cache => Sys2Proof.Machine.execLinkUp width speed flit cache s
  | .linkDown => Sys2Proof.Machine.execLinkDown s
  | .functionLevelReset f => Sys2Proof.Machine.execFunctionLevelReset f s
  | .powerStateChange f d3 => Sys2Proof.Machine.execPowerStateChange f d3 s
  | .hostSnoop kind addr => Sys2Proof.Machine.execHostSnoop kind addr s
  | .hostResponse addr a took => Sys2Proof.Machine.execHostResponse addr a took s
  | .cacheWritebackInvalidate => Sys2Proof.Machine.execCacheWritebackInvalidate s
  | .cacheWritebackComplete => Sys2Proof.Machine.execCacheWritebackComplete s
  | .cacheDisable b => Sys2Proof.Machine.execCacheDisable b s
  | .sensorSample t smp => Sys2Proof.Machine.execSensorSample t smp s
  | .cellThrottleStep t => Sys2Proof.Machine.execCellThrottleStep t s
  | .cellClockRise t => Sys2Proof.Machine.execCellClockRise t s
  | .stackCapStep t => Sys2Proof.Machine.execStackCapStep t s
  | .stackCapRelease t => Sys2Proof.Machine.execStackCapRelease t s
  | .powerLimiterStep t => Sys2Proof.Machine.execPowerLimiterStep t s
  | .powerEmergency t => Sys2Proof.Machine.execPowerEmergency t s
  | .railFault stage => Sys2Proof.Machine.execRailFault stage s
  | .mainInputLoss => Sys2Proof.Machine.execMainInputLoss s
  | .pwrEnLow => Sys2Proof.Machine.execPwrEnLow s
  | .cblPresDeassert c => Sys2Proof.Machine.execCblPresDeassert c s
  | .powerOn sense => Sys2Proof.Machine.execPowerOn sense s
  | .stackTraining fails => Sys2Proof.Machine.execStackTraining fails s
  | .powerOnSelfTest find => Sys2Proof.Machine.execPowerOnSelfTest find s
  | .postPackageRepair => Sys2Proof.Machine.execPostPackageRepair s
  | .imageFetch badA badB => Sys2Proof.Machine.execImageFetch badA badB s
  | .startupBuild => Sys2Proof.Machine.execStartupBuild s
  | .ready t => Sys2Proof.Machine.execReady t s
  | .refresh stack pch bank => Sys2Proof.Machine.execRefresh stack pch bank s
  | .scrubRead stack sector ecc => Sys2Proof.Machine.execScrubRead stack sector ecc s
  | .remapCopyEnd stack => Sys2Proof.Machine.execRemapCopyEnd stack s
  | .stackLost stack chan cause => Sys2Proof.Machine.execStackLost stack chan cause s
  | .hubUncorrectableError unit addr => Sys2Proof.Machine.execHubUncorrectableError unit addr s
  | .oscillatorMeasure drifts => Sys2Proof.Machine.execOscillatorMeasure drifts s
  | .wearHourly t => Sys2Proof.Machine.execWearHourly t s
  | .i3cEntdaa addr => Sys2Proof.Machine.execI3cEntdaa addr s
  | .i3cSetdasa static dyn => Sys2Proof.Machine.execI3cSetdasa static dyn s
  | .setEndpointId eid => Sys2Proof.Machine.execSetEndpointId eid s
  | .getEndpointId => Sys2Proof.Machine.execGetEndpointId s
  | .getEndpointUuid => Sys2Proof.Machine.execGetEndpointUuid s
  | .getMctpVersionSupport type => Sys2Proof.Machine.execGetMctpVersionSupport type s
  | .getMessageTypeSupport => Sys2Proof.Machine.execGetMessageTypeSupport s
  | .getVendorDefinedMessageSupport sel => Sys2Proof.Machine.execGetVendorDefinedMessageSupport sel s
  | .regAccessRead who tag width count off bad logFail => Sys2Proof.Machine.execRegAccessRead who tag width count off bad logFail s
  | .regAccessWrite who tag width count off data bad => Sys2Proof.Machine.execRegAccessWrite who tag width count off data bad s
  | .getTid => Sys2Proof.Machine.execGetTid s
  | .setTid tid => Sys2Proof.Machine.execSetTid tid s
  | .getPldmVersion type => Sys2Proof.Machine.execGetPldmVersion type s
  | .getPldmTypes => Sys2Proof.Machine.execGetPldmTypes s
  | .getPldmCommands type => Sys2Proof.Machine.execGetPldmCommands type s
  | .setEventReceiver eid mctp => Sys2Proof.Machine.execSetEventReceiver eid mctp s
  | .getSensorReading id => Sys2Proof.Machine.execGetSensorReading id s
  | .getStateSensorReadings id => Sys2Proof.Machine.execGetStateSensorReadings id s
  | .getPdrRepositoryInfo => Sys2Proof.Machine.execGetPdrRepositoryInfo s
  | .getPdr handle => Sys2Proof.Machine.execGetPdr handle s
  | .pollForPlatformEventMessage ack => Sys2Proof.Machine.execPollForPlatformEventMessage ack s
  | .platformEventAck id => Sys2Proof.Machine.execPlatformEventAck id s
  | .queryDeviceIdentifiers who => Sys2Proof.Machine.execQueryDeviceIdentifiers who s
  | .getFirmwareParameters who => Sys2Proof.Machine.execGetFirmwareParameters who s
  | .requestUpdate who => Sys2Proof.Machine.execRequestUpdate who s
  | .passComponentTable who comp => Sys2Proof.Machine.execPassComponentTable who comp s
  | .updateComponent who comp size => Sys2Proof.Machine.execUpdateComponent who comp size s
  | .firmwareDataReceive who block => Sys2Proof.Machine.execFirmwareDataReceive who block s
  | .activateFirmware who selfContained => Sys2Proof.Machine.execActivateFirmware who selfContained s
  | .getStatus who => Sys2Proof.Machine.execGetStatus who s
  | .cancelUpdate who => Sys2Proof.Machine.execCancelUpdate who s
  | .getVersion who => Sys2Proof.Machine.execGetVersion who s
  | .getCapabilities who => Sys2Proof.Machine.execGetCapabilities who s
  | .negotiateAlgorithms who p384 sha384 dhe aead => Sys2Proof.Machine.execNegotiateAlgorithms who p384 sha384 dhe aead s
  | .getDigests who => Sys2Proof.Machine.execGetDigests who s
  | .getCertificate who slot off len => Sys2Proof.Machine.execGetCertificate who slot off len s
  | .challenge who slot nonce => Sys2Proof.Machine.execChallenge who slot nonce s
  | .getMeasurements who index sig nonce => Sys2Proof.Machine.execGetMeasurements who index sig nonce s
  | .keyExchange who slot t => Sys2Proof.Machine.execKeyExchange who slot t s
  | .finish who sess ok t => Sys2Proof.Machine.execFinish who sess ok t s
  | .heartbeat who t => Sys2Proof.Machine.execHeartbeat who t s
  | .keyUpdate who t => Sys2Proof.Machine.execKeyUpdate who t s
  | .endSession who => Sys2Proof.Machine.execEndSession who s
  | .spdmSessionExpiry sess t => Sys2Proof.Machine.execSpdmSessionExpiry sess t s
  | .standbySupplyLoss => Sys2Proof.Machine.execStandbySupplyLoss s
  | .moduleRemoval p => Sys2Proof.Machine.execModuleRemoval p s
  | .ppsOut t => Sys2Proof.Machine.execPpsOut t s
  | .unitCommandCommit cell u => Sys2Proof.Machine.execUnitCommandCommit cell u s
  | .externalAccessComplete cell ecc => Sys2Proof.Machine.execExternalAccessComplete cell ecc s
  | .bar0Read f off width logFail => Sys2Proof.Machine.execBar0Read f off width logFail s
  | .marginPassEnd results => Sys2Proof.Machine.execMarginPassEnd results s
  | .graphUnloadComplete p slot => Sys2Proof.Machine.execGraphUnloadComplete p slot s
  | .parcelResetComplete p => Sys2Proof.Machine.execParcelResetComplete p s
  | .encapsulatedRequest who sess rootKey verified => Sys2Proof.Machine.execEncapsulatedRequest who sess rootKey verified s

end Sys2Proof.Machine
end

