-- ==== Sys2Proof/Safety.lean ====
section
/-! DEFINITION. The terms in which the statements speak: when a cell instruction can run, what its retiring changes, and the
plain arithmetic that the rules name. -/

namespace Sys2Proof.Safety

open Sys2Proof.Machine

/-! Cell instructions. -/

/-- R169, R180, R194, R197: an instruction of `len` bytes that uses the given registers executes on its cell: the cell
issues, PC lies in its code block and is aligned for the length, nothing reserved is set, the guard is true, and no
outstanding operation still reads or writes the registers. -/
structure Ready (h : Hdr) (len : Nat) (uses : List (Fin 32)) (s : State) : Prop where
  issuing : s.issuing h.cell = true
  inCode : (s.cell h.cell).pc < (s.cell h.cell).codeSize
  aligned : len = 8 → (s.cell h.cell).pc % 8 = 0
  noReserved : h.resv = false
  guardLegal : h.pn = true → h.pg ≠ 0
  guardTrue : (s.cell h.cell).preg h.pg ≠ h.pn
  regsFree : ∀ r ∈ uses, (s.cell h.cell).regFree r = true

/-- The cell `c` past an instruction of `len` bytes that the cell `old` issued. -/
def past (old : Cell) (len : Nat) (c : Cell) : Cell := { c with pc := old.pc + len, seq := old.seq + 1 }

/-- The instruction answers the state that differs only in its cell, which is `c` past the instruction. -/
def Retires (i : Instr) (h : Hdr) (len : Nat) (s : State) (c : Cell) : Prop :=
  exec i s = .next (s.setCell h.cell (past (s.cell h.cell) len c))

/-- The instruction takes a command into the queue of a unit of its cell (R181) and retires. -/
def Enqueues (i : Instr) (h : Hdr) (len : Nat) (s : State) (u : UnitId) (cmd : UnitCmd) : Prop :=
  let c := s.cell h.cell
  Retires i h len s (c.setQueue u (c.queue u ++ [⟨cmd, c.pc, c.seq⟩]))

/-- R181: a unit of the cell has room and nothing holds the tiles of a command (R180). -/
def UnitFree (c : Cell) (u : UnitId) (cmd : UnitCmd) : Prop :=
  c.tilesFree cmd.reads cmd.writes = true ∧ (c.queue u).length < 4

/-- R336: `n` bytes at an address of the own store, all below STORE_BYTES. -/
def OwnRange (c : Cell) (addr : W64) (n : Nat) : Prop :=
  addr.toNat < 2 ^ 52 ∧ addr.toNat + n ≤ (match c.graph with | some g => g.storeBytes | none => 0)

/-- R226: tiles t to t + n − 1 are an aligned group inside the TILES mask of the graph. -/
def Group (c : Cell) (t n : Nat) : Prop :=
  t % n = 0 ∧ ∀ k, k < n → ((match c.graph with | some g => g.tileMask | none => 0) / 2 ^ (t + k)) % 2 = 1

/-- No buffered store overlaps `len` bytes at `a` of a target (none: the own store of cell n). -/
def NoOverlap (c : Cell) (n : Nat) (t : Option ExtTarget) (a len : Nat) : Prop :=
  ∀ e ∈ c.sbuf, e.overlaps n t a len = false

/-- The youngest buffered store that overlaps the access contains all of it: the bytes it gives (R209). -/
def Contained (c : Cell) (n : Nat) (t : Option ExtTarget) (a len : Nat) (bs : List Byte) : Prop :=
  ∃ older e younger, c.sbuf = older ++ e :: younger ∧ (∀ x ∈ younger, x.overlaps n t a len = false) ∧
    e.overlaps n t a len = true ∧ e.addr ≤ a ∧ a + len ≤ e.addr + e.bytes.length ∧ bs = (e.bytes.drop (a - e.addr)).take len

/-! Arithmetic at a width: 64, or with W set 32 and a result sign-extended (R198). -/

/-- An operand read as signed. -/
def signedAt (w : Bool) (x : W64) : Int := if w then (x.setWidth 32).toInt else x.toInt

/-- An operand read as unsigned. -/
def unsignedAt (w : Bool) (x : W64) : Nat := if w then (x.setWidth 32).toNat else x.toNat

/-- The width in bits. -/
def widthOf (w : Bool) : Nat := if w then 32 else 64

/-- A result wrapped to the width. -/
def resultAt (w : Bool) (v : Int) : W64 := if w then (BitVec.ofInt 32 v).signExtend 64 else BitVec.ofInt 64 v

/-- R198, R200 SLL. -/
def leftShift (w : Bool) (a : W64) (n : Nat) : W64 :=
  if widthOf w ≤ n then 0 else resultAt w ((unsignedAt w a * 2 ^ n : Nat) : Int)

/-- R198, R200 SRL. -/
def rightShift (w : Bool) (a : W64) (n : Nat) : W64 :=
  if widthOf w ≤ n then 0 else resultAt w ((unsignedAt w a / 2 ^ n : Nat) : Int)

/-- R198, R200 SRA: every bit the sign bit at or above the width. -/
def signShift (w : Bool) (a : W64) (n : Nat) : W64 :=
  if widthOf w ≤ n then (if signedAt w a < 0 then -1 else 0) else resultAt w (signedAt w a / 2 ^ n)

/-- The bit OV of cs.status for the most negative number of the width (R192, R200). -/
def ovIfMin (w : Bool) (a : W64) : W64 := if signedAt w a = -(2 ^ (widthOf w - 1) : Int) then 1 else 0

/-- R200: the most negative number divided by −1. -/
def minByMinusOne (w : Bool) (a b : W64) : Prop := signedAt w a = -(2 ^ (widthOf w - 1) : Int) ∧ signedAt w b = -1

/-- The number of bits of a word that stand before its first set bit. -/
def leadingZeros (a : W64) : Nat := ((List.range 64).reverse.takeWhile (fun i => !a.getLsbD i)).length

/-- Bytes read as one number of `n` bytes, lowest address first, and extended to 64 bits (R203). -/
def loaded (signed : Bool) (n : Nat) (bs : List Byte) : W64 :=
  if signed then (BitVec.ofNat (8 * n) (leNat bs)).signExtend 64 else BitVec.ofNat 64 (leNat bs)

/-- R199: the conditions of CMP by number. -/
def condHolds (cond : Nat) (a b : W64) : Bool :=
  match cond with
  | 0 => decide (a = b)
  | 1 => decide (a ≠ b)
  | 2 => decide (a.toInt < b.toInt)
  | 3 => decide (b.toInt ≤ a.toInt)
  | 4 => decide (a.toNat < b.toNat)
  | 5 => decide (b.toNat ≤ a.toNat)
  | _ => decide (a &&& b ≠ 0)

/-- An exact result clamped to int32 (R267). -/
def clamp32 (v : Int) : Int := max (-2147483648) (min 2147483647 v)

/-- R194: the common fields of a cell instruction and its length in bytes; none for a command that is no instruction. -/
def cellHdr : Instr → Option (Hdr × Nat)
  | .add h _ _ _ _ | .sub h _ _ _ _ | .andR h _ _ _ | .orR h _ _ _ | .xorR h _ _ _ | .andn h _ _ _
  | .sll h _ _ _ _ | .srl h _ _ _ _ | .sra h _ _ _ _ | .neg h _ _ _ | .abs h _ _ _ | .minR h _ _ _
  | .maxR h _ _ _ | .minu h _ _ _ | .maxu h _ _ _ | .clz h _ _ | .popc h _ _ | .mul h _ _ _ _ | .mulh h _ _ _
  | .mulhu h _ _ _ | .div h _ _ _ _ | .divu h _ _ _ _ | .rem h _ _ _ _ | .remu h _ _ _ _ | .addi h _ _ _
  | .andi h _ _ _ | .ori h _ _ _ | .xori h _ _ _ | .shi h _ _ _ | .lui h _ _ | .cmp h _ _ _ _ | .cmpi h _ _ _ _
  | .predAnd h _ _ _ | .predOr h _ _ _ | .predXor h _ _ _ | .predAndn h _ _ _ | .predNot h _ _ | .lb h _ _ _
  | .lbu h _ _ _ | .lh h _ _ _ | .lhu h _ _ _ | .lw h _ _ _ | .lwu h _ _ _ | .ld h _ _ _ | .sb h _ _ _
  | .sh h _ _ _ | .sw h _ _ _ | .sd h _ _ _ | .amoswap h _ _ _ _ | .amoadd h _ _ _ _ | .amoand h _ _ _ _
  | .amoor h _ _ _ _ | .amoxor h _ _ _ _ | .amomin h _ _ _ _ | .amomax h _ _ _ _ | .amominu h _ _ _ _
  | .amomaxu h _ _ _ _ | .cas h _ _ _ _ | .br h _ | .call h _ | .jalr h _ _ _ | .fenceSl h | .uwait h _
  | .waitq h _ | .endI h | .csrr h _ _ _ | .csrw h _ _ _ | .csrs h _ _ _ | .csrc h _ _ _ | .vcopy h _ _ _
  | .hsweepR h _ _ _ | .hsweepW h _ _ _ | .vadd h _ _ _ _ | .vsub h _ _ _ _ | .vmul h _ _ _ _ | .vmulh h _ _ _ _
  | .vand h _ _ _ _ | .vor h _ _ _ _ | .vxor h _ _ _ _ | .vsll h _ _ _ _ | .vsrl h _ _ _ _ | .vsra h _ _ _ _
  | .vneg h _ _ | .vabs h _ _ | .vmin h _ _ _ _ | .vmax h _ _ _ _ | .vminu h _ _ _ _ | .vmaxu h _ _ _ _
  | .vadds h _ _ _ _ | .vsubs h _ _ _ _ | .vmuls h _ _ _ _ | .vceq h _ _ _ _ | .vclt h _ _ _ _
  | .vcltu h _ _ _ _ | .vsel h _ _ _ _ | .vfadd h _ _ _ _ | .vfsub h _ _ _ _ | .vfmul h _ _ _ _
  | .vfma h _ _ _ _ | .vfmin h _ _ _ _ | .vfmax h _ _ _ _ | .vfneg h _ _ | .vfabs h _ _ | .vfceq h _ _ _ _
  | .vfclt h _ _ _ _ | .vfcle h _ _ _ _ | .vld h _ _ _ | .vst h _ _ _ | .vbcast h _ _ | .vmvg h _ _ _
  | .vins h _ _ _ | .vrsum h _ _ | .vrfsum h _ _ | .vrmax h _ _ | .vrfmax h _ _ | .vtr h _ _ _ | .vtw h _ _ _
  | .tzero h _ | .tfree h _ | .tcopy h _ _ | .accz h | .accmv h _ _ _ _ _ | .arr h _ | .cagset h _
  | .conv h _ _ _ _ _ | .agath h _ _ | .await h _ | .atab h _ _ | .aupd h _ _ => some (h, 4)
  | .li h _ _ | .lih h _ _ | .vcvt h _ _ _ _ _ _ | .mvm h _ _ _ _ _ _ _ _ => some (h, 8)
  | .tld h _ _ _ shape => some (h, if shape.isSome then 8 else 4)
  | .tst h _ _ _ shape => some (h, if shape.isSome then 8 else 4)
  | .mma h _ _ _ _ _ _ shape => some (h, if shape.isSome then 8 else 4)
  | _ => none

/-- R572: the numbers of the cs registers. -/
def csNumbers : List Nat :=
  [0, 1, 2, 3, 4, 5, 6, 7, 8, 9, 0x10, 0x11, 0x20, 0x21, 0x22, 0x24, 0x25, 0x26, 0x27]

/-- R257, R269: the format codes and the rounding codes that are not reserved. -/
def fmtCodes : List Nat := [0, 1, 2, 3, 4, 5, 6, 7, 8, 9, 10, 11]
def rndCodes : List Nat := [0, 1, 2]

/-- R225: whether a shaped instruction has the length that the MODE of its cell asks for. -/
def shapeFits (c : Cell) (shape : Option Shape) : Bool := shape.isSome != c.fixedMode

/-- R216 ILLEGAL: a reserved value in the fields of an instruction, or an unknown CSNUM. -/
def reservedForm (c : Cell) : Instr → Bool
  | .shi _ _ _ imm => decide (imm.toNat / 64 % 4 = 3) || decide (512 ≤ imm.toNat)
  | .cmp _ _ cond _ _ | .cmpi _ _ cond _ _ => decide (cond = 7)
  | .uwait _ mask => mask.getLsbD 5 || mask.getLsbD 7
  | .csrr _ _ rs1 cs => decide (rs1 ≠ 0) || !csNumbers.contains cs.toNat
  | .csrw _ _ _ cs | .csrs _ _ _ cs | .csrc _ _ _ cs => !csNumbers.contains cs.toNat
  | .vcvt _ _ _ sf df rnd _ => !fmtCodes.contains sf.toNat || !fmtCodes.contains df.toNat || !rndCodes.contains rnd.toNat
  | .tld _ _ _ _ shape | .tst _ _ _ _ shape => !shapeFits c shape
  | .mma _ _ _ af wf _ _ shape => !shapeFits c shape || !fmtCodes.contains af.toNat || !fmtCodes.contains wf.toNat ||
    (match shape with | some sh => decide (sh.rb ≠ 0) | none => false)
  | .accmv _ _ fmt rnd _ _ => !fmtCodes.contains fmt.toNat || !rndCodes.contains rnd.toNat
  | .arr _ a => decide (a = 3)
  | .agath _ _ arg => decide (2 ≤ arg.toNat)
  | .await _ arg => decide (4 ≤ arg.toNat)
  | _ => false

/-! Key slots (R65, R562). -/

/-- Only slots 0 to 3 hold anything, in canonical form, and a revoked slot reads as programmed; a slot whose programming may
still be cut off is one of them. -/
def slotsLegal (s : State) : Bool :=
  spWf KeySlot.zero s.mg.slots && s.mg.slots.all (fun e => decide (e.1 < 4) && (!e.2.revoked || e.2.prog)) &&
    (match s.mg.fusing with | some x => decide (x.1 < 4) | none => true)

end Sys2Proof.Safety
end

