-- ==== Sys2Proof/Certificates/Slice0/Obligations.lean ====
section
/-! DEFINITION. The statements about the model, one definition each. -/

open Sys2Proof Sys2Proof.Machine Sys2Proof.Safety

/-! The queue of commands, and every command at once. -/

/-- The step takes the command at the front of the queue and runs it on the state with the queue's rest. -/
def Obligations.StepTakesFront : Prop :=
  ∀ (s : State) (c : Instr) (rest : List Instr),
    step { s with pending := c :: rest } = exec c { s with pending := rest }

/-- Design choice (log entry 2): on an empty queue one cycle of the hub die passes. With the main rails up OB_CYCLE counts
it (R546), the datum and the local time counter (R86) both gain five sixths of a nanosecond as the servo's rate adjusts
it, and a gated cell that is not under test stands still (R170); without them nothing counts. No parcel changes. -/
def Obligations.IdleStepIsOneCycle : Prop :=
  ∀ s : State, s.pending = [] → ∃ t, step s = .next t ∧ t.pending = [] ∧ t.parcels = s.parcels ∧
    (s.powered = true → t.ob.cycle = s.ob.cycle + 1 ∧
      (let passed := (s.ob.frac + (5 * (1000000000 + s.net.ptp.freq)).toNat) / 6000000000
       t.datum = s.datum + passed ∧ t.lc = { s.lc with ctr := s.lc.ctr + passed }) ∧
      ∀ n, (s.cell n).gated = true → s.testing n = false → t.cell n = s.cell n) ∧
    (s.powered = false → t = { s with cyc := {} })

/-- No command of the table ends in a fault or a refusal: every command answers a next state in every state. -/
def Obligations.EveryCommandAnswers : Prop :=
  ∀ (i : Instr) (s : State), ∃ t, exec i s = .next t

/-! How a cell instruction meets its cell. -/

/-- The registers and predicates of a cell (R191): g0 reads zero and discards writes, p0 reads 1 and discards writes, and
every other register holds what was last written and keeps it when another is written. Writing a cell changes that cell and
nothing else of the machine. The register files and the cells are in canonical form, as every state that a run reaches has
them. -/
def Obligations.RegistersHoldWhatIsWritten : Prop :=
  ((∀ (c : Cell) (v : W64), c.greg 0 = 0 ∧ c.setG 0 v = c) ∧
  (∀ (c : Cell) (b : Bool), c.preg 0 = true ∧ c.setP 0 b = c) ∧
  (∀ (c : Cell) (r q : Fin 32) (v : W64), spWf 0 c.g = true → r ≠ 0 →
    (c.setG r v).greg r = v ∧ (q ≠ r → (c.setG r v).greg q = c.greg q) ∧ spWf 0 (c.setG r v).g = true) ∧
  (∀ (c : Cell) (k j : Fin 8) (b : Bool), k ≠ 0 →
    (c.setP k b).preg k = b ∧ (j ≠ k → (c.setP k b).preg j = c.preg j)) ∧
  (∀ (c : Cell) (r q : Fin 32) (v : Row), spWf 0 c.v = true →
    (c.setV r v).vreg r = v ∧ (q ≠ r → (c.setV r v).vreg q = c.vreg q) ∧ spWf 0 (c.setV r v).v = true)) ∧
  (∀ (s : State) (n : Nat) (c : Cell),
    (∀ m, m ≠ n → (s.setCell n c).cell m = s.cell m) ∧
    (spWf Cell.zero s.cells = true → (s.setCell n c).cell n = c ∧ spWf Cell.zero (s.setCell n c).cells = true) ∧
    s.setCell n c = { s with cells := (s.setCell n c).cells })

/-! Scalar arithmetic (R198 to R200). -/

/-- The two-operand operations of R198, each with its result and the bits it sets in cs.status (OV 1, DZ 2). -/
def Sys2Proof.Safety.regOps (w : Bool) :
    List ((Hdr → Fin 32 → Fin 32 → Fin 32 → Instr) × (W64 → W64 → W64 × W64)) :=
  [ (fun h d x y => .add h w d x y, fun a b => (resultAt w (signedAt w a + signedAt w b), 0)),
    (fun h d x y => .sub h w d x y, fun a b => (resultAt w (signedAt w a - signedAt w b), 0)),
    (fun h d x y => .andR h d x y, fun a b => (a &&& b, 0)),
    (fun h d x y => .orR h d x y, fun a b => (a ||| b, 0)),
    (fun h d x y => .xorR h d x y, fun a b => (a ^^^ b, 0)),
    (fun h d x y => .andn h d x y, fun a b => (a &&& ~~~b, 0)),
    (fun h d x y => .sll h w d x y, fun a b => (leftShift w a b.toNat, 0)),
    (fun h d x y => .srl h w d x y, fun a b => (rightShift w a b.toNat, 0)),
    (fun h d x y => .sra h w d x y, fun a b => (signShift w a b.toNat, 0)),
    (fun h d x y => .minR h d x y, fun a b => (if a.toInt ≤ b.toInt then a else b, 0)),
    (fun h d x y => .maxR h d x y, fun a b => (if a.toInt ≤ b.toInt then b else a, 0)),
    (fun h d x y => .minu h d x y, fun a b => (if a.toNat ≤ b.toNat then a else b, 0)),
    (fun h d x y => .maxu h d x y, fun a b => (if a.toNat ≤ b.toNat then b else a, 0)),
    (fun h d x y => .mul h w d x y, fun a b => (resultAt w (signedAt w a * signedAt w b), 0)),
    (fun h d x y => .mulh h d x y, fun a b => (BitVec.ofInt 64 (a.toInt * b.toInt / 2 ^ 64), 0)),
    (fun h d x y => .mulhu h d x y, fun a b => (BitVec.ofNat 64 (a.toNat * b.toNat / 2 ^ 64), 0)) ]

/-- The divisions of R198 with the edge cases of R200. -/
def Sys2Proof.Safety.divOps (w : Bool) :
    List ((Hdr → Fin 32 → Fin 32 → Fin 32 → Instr) × (W64 → W64 → W64 × W64)) :=
  [ (fun h d x y => .div h w d x y, fun a b =>
      if signedAt w b = 0 then (-1, 2)
      else (resultAt w ((signedAt w a).tdiv (signedAt w b)), if signedAt w b = -1 then ovIfMin w a else 0)),
    (fun h d x y => .divu h w d x y, fun a b =>
      if unsignedAt w b = 0 then (-1, 2) else (resultAt w ((unsignedAt w a / unsignedAt w b : Nat) : Int), 0)),
    (fun h d x y => .rem h w d x y, fun a b =>
      if signedAt w b = 0 then (resultAt w (signedAt w a), 2)
      else (resultAt w ((signedAt w a).tmod (signedAt w b)), if signedAt w b = -1 then ovIfMin w a else 0)),
    (fun h d x y => .remu h w d x y, fun a b =>
      if unsignedAt w b = 0 then (resultAt w (signedAt w a), 2)
      else (resultAt w ((unsignedAt w a % unsignedAt w b : Nat) : Int), 0)) ]

/-- The one-operand operations of R198. -/
def Sys2Proof.Safety.unaryOps (w : Bool) : List ((Hdr → Fin 32 → Fin 32 → Instr) × (W64 → W64 × W64)) :=
  [ (fun h d x => .neg h w d x, fun a => (resultAt w (-(signedAt w a)), ovIfMin w a)),
    (fun h d x => .abs h w d x, fun a => (resultAt w (signedAt w a).natAbs, ovIfMin w a)),
    (fun h d x => .clz h d x, fun a => (BitVec.ofNat 64 (leadingZeros a), 0)),
    (fun h d x => .popc h d x, fun a => (BitVec.ofNat 64 ((List.range 64).filter (fun i => a.getLsbD i)).length, 0)) ]

/-- ADD, SUB, AND, OR, XOR, ANDN, SLL, SRL, SRA, MIN, MAX, MINU, MAXU, MUL, MULH, MULHU, DIV, DIVU, REM, REMU (with division
by zero and the most negative number by −1, R200), NEG, ABS, CLZ and POPC on a cell that can run them: RD takes the result,
cs.status only gains the flag, PC passes the instruction, and nothing else changes. -/
def Obligations.RegisterOperationsComplete : Prop :=
  ∀ (w : Bool) (s : State) (h : Hdr) (rd rs1 rs2 : Fin 32),
    let c := s.cell h.cell
    let done (r : W64 × W64) : Cell := { c.setG rd r.1 with status := c.status ||| r.2 }
    (∀ op ∈ regOps w ++ divOps w, Ready h 4 [rd, rs1, rs2] s →
      Retires (op.1 h rd rs1 rs2) h 4 s (done (op.2 (c.greg rs1) (c.greg rs2)))) ∧
    (∀ op ∈ unaryOps w, Ready h 4 [rd, rs1] s → Retires (op.1 h rd rs1) h 4 s (done (op.2 (c.greg rs1))))

/-- ADDI, ANDI, ORI, XORI, SHI (its amount, its shift and its W from IMM11), LUI, LI and LIH (R199). -/
def Obligations.ImmediatesComplete : Prop :=
  ∀ (s : State) (h : Hdr) (rd rs1 : Fin 32),
    let c := s.cell h.cell
    let a := c.greg rs1
    (Ready h 4 [rd, rs1] s → ∀ imm : BitVec 11,
      Retires (.addi h rd rs1 imm) h 4 s (c.setG rd (BitVec.ofInt 64 (a.toInt + imm.toInt))) ∧
      Retires (.andi h rd rs1 imm) h 4 s (c.setG rd (a &&& BitVec.ofInt 64 imm.toInt)) ∧
      Retires (.ori h rd rs1 imm) h 4 s (c.setG rd (a ||| BitVec.ofInt 64 imm.toInt)) ∧
      Retires (.xori h rd rs1 imm) h 4 s (c.setG rd (a ^^^ BitVec.ofInt 64 imm.toInt))) ∧
    (Ready h 4 [rd, rs1] s → ∀ (w : Bool) (n : Nat), n < 64 →
      let imm (sel : Nat) : BitVec 11 := BitVec.ofNat 11 (w.toNat * 256 + sel * 64 + n)
      Retires (.shi h rd rs1 (imm 0)) h 4 s (c.setG rd (leftShift w a n)) ∧
      Retires (.shi h rd rs1 (imm 1)) h 4 s (c.setG rd (rightShift w a n)) ∧
      Retires (.shi h rd rs1 (imm 2)) h 4 s (c.setG rd (signShift w a n))) ∧
    (Ready h 4 [rd] s → ∀ imm : W16,
      Retires (.lui h rd imm) h 4 s (c.setG rd (BitVec.ofInt 64 (imm.toInt * 65536)))) ∧
    (Ready h 8 [rd] s → ∀ imm : W32,
      Retires (.li h rd imm) h 8 s (c.setG rd (BitVec.ofInt 64 imm.toInt)) ∧
      Retires (.lih h rd imm) h 8 s (c.setG rd (BitVec.ofNat 64 (imm.toNat * 2 ^ 32 + (c.greg rd).toNat % 2 ^ 32))))

/-- CMP and CMPI with every condition that is not reserved, and the five forms of predicate logic (R199). -/
def Obligations.ComparesAndPredicatesComplete : Prop :=
  ∀ (s : State) (h : Hdr) (pd pa pb : Fin 8) (cond : BitVec 3) (rs1 rs2 : Fin 32) (imm : BitVec 10),
    let c := s.cell h.cell
    (Ready h 4 [rs1, rs2] s → cond ≠ 7 → Retires (.cmp h pd cond rs1 rs2) h 4 s
      (c.setP pd (condHolds cond.toNat (c.greg rs1) (c.greg rs2)))) ∧
    (Ready h 4 [rs1] s → cond ≠ 7 → Retires (.cmpi h pd cond rs1 imm) h 4 s
      (c.setP pd (condHolds cond.toNat (c.greg rs1) (BitVec.ofInt 64 imm.toInt)))) ∧
    (Ready h 4 [] s →
      Retires (.predAnd h pd pa pb) h 4 s (c.setP pd (c.preg pa && c.preg pb)) ∧
      Retires (.predOr h pd pa pb) h 4 s (c.setP pd (c.preg pa || c.preg pb)) ∧
      Retires (.predXor h pd pa pb) h 4 s (c.setP pd (c.preg pa ^^ c.preg pb)) ∧
      Retires (.predAndn h pd pa pb) h 4 s (c.setP pd (c.preg pa && !c.preg pb)) ∧
      Retires (.predNot h pd pa) h 4 s (c.setP pd (!c.preg pa)))

/-! Loads, stores and atomics (R203 to R209). -/

/-- The loads of R203: size and sign. -/
def Sys2Proof.Safety.loads : List ((Hdr → Fin 32 → Fin 32 → Byte → Instr) × Nat × Bool) :=
  [(.lb, 1, true), (.lbu, 1, false), (.lh, 2, true), (.lhu, 2, false), (.lw, 4, true), (.lwu, 4, false), (.ld, 8, false)]

/-- The stores of R203 with their sizes. -/
def Sys2Proof.Safety.stores : List ((Hdr → Fin 32 → Fin 32 → Byte → Instr) × Nat) :=
  [(.sb, 1), (.sh, 2), (.sw, 4), (.sd, 8)]

/-- An access that leaves the cell of an instruction now. -/
def Sys2Proof.Safety.leavesCell (h : Hdr) (s : State) (kind : ExtKind) (t : ExtTarget) (a : Nat) : ExtAcc :=
  { kind := kind, target := t, addr := a, pc := (s.cell h.cell).pc, seq := (s.cell h.cell).seq
    sent := s.lc.ctr, asked := !s.host.disabled && !s.host.flushing }

/-- LB to LD, where no earlier load is outstanding. In the own store RD takes the bytes of memory, or those of the
youngest buffered store that contains the load (R209). In another store or in stacked memory the access leaves the cell.
In host memory a line that the Welt holds serves it at once, and another is asked for, where the cell and the Welt have
room for one more request (R363). -/
def Obligations.LoadsComplete : Prop :=
  ∀ ld ∈ loads, ∀ (s : State) (h : Hdr) (rd rs1 : Fin 32) (imm : Byte), Ready h 4 [rd, rs1] s →
    let c := s.cell h.cell
    let size := ld.2.1
    let addr := c.greg rs1 + imm.signExtend 64 * BitVec.ofNat 64 size
    let i := ld.1 h rd rs1 imm
    let leaving := leavesCell h
    let value (bs : List Byte) := loaded ld.2.2 size bs
    addr.toNat % size = 0 → c.loadOut = false →
      (∀ a, s.resolve h.cell addr size true false = .own a → c.storeBad a size = false → NoOverlap c h.cell none a size →
        Retires i h 4 s (c.setG rd (value (c.loadOwn a size)))) ∧
      (∀ a bs, s.resolve h.cell addr size true false = .own a → Contained c h.cell none a size bs →
        Retires i h 4 s (c.setG rd (value bs))) ∧
      (∀ t a bs, s.resolve h.cell addr size true false = .ext t a → Contained c h.cell (some t) a size bs →
        Retires i h 4 s (c.setG rd (value bs))) ∧
      (∀ t a, s.resolve h.cell addr size true false = .ext t a → t ≠ .host → NoOverlap c h.cell (some t) a size →
        Retires i h 4 s { c with ext := c.ext ++ [leaving s (.load rd size ld.2.2) t a] }) ∧
      (∀ a bs, s.resolve h.cell addr size true false = .ext .host a → NoOverlap c h.cell (some .host) a size →
        s.weltServe a size false = some (bs, false) →
        exec i s = .next ((s.hostUse h.cell a).modCell h.cell (fun c => (c.setG rd (extend bs ld.2.2)).retire 4))) ∧
      (∀ a, s.resolve h.cell addr size true false = .ext .host a → NoOverlap c h.cell (some .host) a size →
        s.weltServe a size false = none → s.weltRoom h.cell = true →
        ∃ t, exec i s = .next t ∧
          (t.cell h.cell).ext = c.ext ++ [leaving s (.load rd size ld.2.2) .host a])

/-- SB to SD, where the store buffer has room and no HSWEEP is in progress: the store enters the buffer with its bytes
and its resolved target, lowest byte first; no byte of memory changes. STORE_BUFFER_DRAIN performs the oldest store, unless it
has been sent or an earlier load is outstanding: in the own store every stored byte then reads as stored and every other byte
as before; toward another store or stacked memory it is sent, and EXTERNAL_ACCESS_COMPLETE performs it. -/
def Obligations.StoresComplete : Prop :=
  (∀ st ∈ stores, ∀ (s : State) (h : Hdr) (rs2 rs1 : Fin 32) (imm : Byte), Ready h 4 [rs2, rs1] s →
    let c := s.cell h.cell
    let size := st.2
    let addr := c.greg rs1 + imm.signExtend 64 * BitVec.ofNat 64 size
    let entry (t : Option ExtTarget) (a : Nat) : SbEntry :=
      { target := t, addr := a, bytes := leBytes size (c.greg rs2).toNat, pc := c.pc, seq := c.seq }
    addr.toNat % size = 0 → c.sbuf.length < 8 → c.sweep = none →
      (∀ a, s.resolve h.cell addr size false true = .own a →
        Retires (st.1 h rs2 rs1 imm) h 4 s { c with sbuf := c.sbuf ++ [entry none a] }) ∧
      (∀ t a, s.resolve h.cell addr size false true = .ext t a →
        Retires (st.1 h rs2 rs1 imm) h 4 s { c with sbuf := c.sbuf ++ [entry (some t) a] })) ∧
  (∀ (s : State) (cell : Fin 128) (e : SbEntry) (rest : List SbEntry),
    let c := s.cell cell
    c.sbuf = e :: rest → e.sent = false → c.olderLoad e.seq = false → spWf Cell.zero s.cells = true →
    spWf 0 c.store = true →
      (e.target = none → ∃ t, exec (.storeBufferDrain cell) s = .next t ∧ (t.cell cell).sbuf = rest ∧
        (∀ k, k < e.bytes.length → (t.cell cell).storeByte (e.addr + k) = e.bytes.getD k 0) ∧
        (∀ a, a < e.addr ∨ e.addr + e.bytes.length ≤ a → (t.cell cell).storeByte a = c.storeByte a) ∧
        (∀ m, m ≠ cell.val → t.cell m = s.cell m) ∧ t = { s with cells := t.cells }) ∧
      (∀ tg, e.target = some tg → tg ≠ .host →
        exec (.storeBufferDrain cell) s = .next (s.setCell cell { c with
          sbuf := { e with sent := true } :: rest
          ext := c.ext ++ [{ kind := .store, target := tg, addr := e.addr, pc := e.pc, seq := e.seq
                             sent := s.lc.ctr, asked := !s.host.disabled && !s.host.flushing }] })))

/-- The atomics of R205 but CAS, with what they write for memory m and operand v of a width. -/
def Sys2Proof.Safety.atomics :
    List ((Hdr → Bool → Fin 32 → Fin 32 → Fin 32 → Instr) × ((n : Nat) → BitVec n → BitVec n → BitVec n) × AmoOp) :=
  [ (.amoswap, fun _ _ v => v, .swap), (.amoadd, fun _ m v => m + v, .add), (.amoand, fun _ m v => m &&& v, .and),
    (.amoor, fun _ m v => m ||| v, .or), (.amoxor, fun _ m v => m ^^^ v, .xor),
    (.amomin, fun _ m v => if m.toInt ≤ v.toInt then m else v, .min),
    (.amomax, fun _ m v => if m.toInt ≤ v.toInt then v else m, .max),
    (.amominu, fun _ m v => if m.toNat ≤ v.toNat then m else v, .minu),
    (.amomaxu, fun _ m v => if m.toNat ≤ v.toNat then v else m, .maxu) ]

/-- AMOSWAP to AMOMAXU and CAS at 32 and 64 bits, where the store buffer is empty and no load is outstanding. In the own
store the atomic reads m, writes its result and returns m sign-extended to RD in one step; CAS writes only when m equals
RD. Toward another store or stacked memory it leaves the cell. -/
def Obligations.AtomicsComplete : Prop :=
  ∀ (s : State) (h : Hdr) (d : Bool) (rd rs1 rs2 : Fin 32), Ready h 4 [rd, rs1, rs2] s →
    let c := s.cell h.cell
    let size := if d then 8 else 4
    let addr := c.greg rs1
    let n := 8 * size
    addr.toNat % size = 0 → c.sbuf = [] → c.loadOut = false →
    (∀ a, s.resolve h.cell addr size true true = .own a → c.storeBad a size = false →
      let m : BitVec n := BitVec.ofNat n (leNat (c.loadOwn a size))
      let v : BitVec n := (c.greg rs2).setWidth n
      (∀ op ∈ atomics, Retires (op.1 h d rd rs1 rs2) h 4 s
        ((c.storeOwn a (leBytes size (op.2.1 n m v).toNat)).setG rd (m.signExtend 64))) ∧
      (Retires (.cas h d rd rs1 rs2) h 4 s
        ((if m = (c.greg rd).setWidth n then c.storeOwn a (leBytes size v.toNat) else c).setG rd (m.signExtend 64)))) ∧
    (∀ t a, s.resolve h.cell addr size true true = .ext t a → t ≠ .host →
      let access (op : AmoOp) : ExtAcc :=
        leavesCell h s (.amo op d rd (c.greg rs2) (c.greg rd)) t a
      (∀ op ∈ atomics, Retires (op.1 h d rd rs1 rs2) h 4 s { c with ext := c.ext ++ [access op.2.2] }) ∧
      Retires (.cas h d rd rs1 rs2) h 4 s { c with ext := c.ext ++ [access .cas] })

/-- EXTERNAL_ACCESS_COMPLETE ends the oldest outstanding access that is not the host's, where no aborted instance left
one behind on the cell (those complete first, R185). A load of another cell's store gives RD the bytes there; a store
there writes its bytes, and leaves the store buffer. -/
def Obligations.ExternalAccessesComplete : Prop :=
  ∀ (s : State) (cell k : Fin 128) (ecc : Ecc) (e : ExtAcc) (host rest : List ExtAcc),
    let c := s.cell cell
    c.ext = host ++ e :: rest → (∀ x ∈ host, x.target = .host) → (∀ x ∈ c.gone, x.target = .host) → k ≠ cell →
    (e.target = .replica k ∨ e.target = .storeSeg k) → s.bankTested k e.addr = false →
    spWf Cell.zero s.cells = true →
      (∀ rd size signed, e.kind = .load rd size signed → (s.cell k).storeBad e.addr size = false →
        exec (.externalAccessComplete cell ecc) s = .next (s.setCell cell
          ({ c with ext := host ++ rest }.setG rd (extend ((s.cell k).loadOwn e.addr size) signed)))) ∧
      (∀ b more, e.kind = .store → c.sbuf = b :: more → b.target = some e.target →
        ∃ t, exec (.externalAccessComplete cell ecc) s = .next t ∧
          t.cell cell = { c with ext := host ++ rest, sbuf := more } ∧
          t.cell k = (s.cell k).storeOwn b.addr b.bytes ∧ (∀ m, m ≠ cell.val → m ≠ k.val → t.cell m = s.cell m) ∧
          t = { s with cells := t.cells })

/-! Control flow, fences, queue instructions (R201, R208, R211). -/

/-- A taken branch (R201): PC becomes the target, the link register takes the address after the instruction. -/
def Sys2Proof.Safety.Jumps (i : Instr) (h : Hdr) (s : State) (c : Cell) (target : Nat) : Prop :=
  exec i s = .next (s.setCell h.cell { c with pc := target, seq := (s.cell h.cell).seq + 1 })

/-- BR, CALL and JALR to a target inside the code block, FENCE.SL with an empty store buffer and no HSWEEP.W in progress,
and UWAIT when everything its mask names has ended. A fence or UWAIT whose condition does not hold yet leaves the state as
it is. -/
def Obligations.ControlFlowCompletes : Prop :=
  ∀ (s : State) (h : Hdr),
    let c := s.cell h.cell
    (∀ (off : BitVec 21) (target : Nat), (target : Int) = (c.pc : Int) + off.toInt * 4 → target % 4 = 0 →
      target < c.codeSize →
        (Ready h 4 [] s → Jumps (.br h off) h s c target) ∧
        (Ready h 4 [31] s → Jumps (.call h off) h s (c.setG 31 (BitVec.ofNat 64 (c.pc + 4))) target)) ∧
    (∀ (rd rs1 : Fin 32) (imm : BitVec 11), Ready h 4 [rd, rs1] s →
      let target := (c.greg rs1 + BitVec.ofInt 64 (imm.toInt * 4)).toNat
      target % 4 = 0 → target < c.codeSize →
        Jumps (.jalr h rd rs1 imm) h s (c.setG rd (BitVec.ofNat 64 (c.pc + 4))) target) ∧
    (Ready h 4 [] s →
      let performed := c.sbuf = [] ∧ ∀ w, c.sweep = some w → w.write = false
      (performed → Retires (.fenceSl h) h 4 s c) ∧ (¬ performed → exec (.fenceSl h) s = .next s)) ∧
    (Ready h 4 [] s → ∀ mask : Byte, mask.getLsbD 5 = false → mask.getLsbD 7 = false →
      let ended := ∀ k u, (k, u) ∈ [(0, UnitId.array), (1, .mv), (2, .cag), (3, .vec), (4, .tmove)] →
        mask.getLsbD k = true → c.queue u = []
      (ended ∧ (mask.getLsbD 6 = true → c.sbuf = []) → Retires (.uwait h mask) h 4 s c) ∧
      (¬ (ended ∧ (mask.getLsbD 6 = true → c.sbuf = [])) → exec (.uwait h mask) s = .next s))

/-- END of a launched instance (R211): a cell whose units, store buffer, accesses and gathers have ended stops issuing; in
the last cell of the replica the instance ends, and a doorbell's request completes with OK and the low 32 bits of g1 of
the first cell. WAITQ of a persistent task (R132, R211): the cell stops; when the whole replica stands there, the held
doorbell request completes with OK and RET, and outside the compute phase the task waits without a request. -/
def Obligations.EndAndWaitqComplete : Prop :=
  (∀ (s : State) (h : Hdr) (i : Nat) (x : Inst), Ready h 4 [] s → s.instOn h.cell = some (i, x) → x.task = none →
    (s.cell h.cell).quietForQueue = true → spWf Cell.zero s.cells = true → spWf none s.insts = true →
    ((∃ n ∈ x.cells, n ≠ h.cell.val ∧ (s.cell n).wait ≠ .atEnd) →
      Retires (.endI h) h 4 s { s.cell h.cell with wait := .atEnd }) ∧
    (∀ (r : Request) (first : Nat) (more : List Nat) (f : Fin 8) (k : W32),
      (∀ n ∈ x.cells, n ≠ h.cell.val → (s.cell n).wait = .atEnd) → x.req = some r → x.cells = first :: more →
      r.src = .bell f k → ∃ t, exec (.endI h) s = .next t ∧ t.inst i = none ∧
        (t.queue x.parcel x.q).records = (s.queue x.parcel x.q).records ++
          [r.record s.datum 0 0 (((s.cell first).greg 1).setWidth 32) x.overrun true first])) ∧
  (∀ (s : State) (h : Hdr) (rd : Fin 32) (i : Nat) (x : Inst), Ready h 4 [rd] s → s.instOn h.cell = some (i, x) →
    x.task ≠ none → (s.cell h.cell).quietForQueue = true → spWf Cell.zero s.cells = true → spWf none s.insts = true →
    let waits (c : Cell) : Prop := ∃ r, c.wait = .atWaitq r
    ((∃ n ∈ x.cells, n ≠ h.cell.val ∧ ¬ waits (s.cell n)) →
      exec (.waitq h rd) s = .next (s.setCell h.cell
        { s.cell h.cell with wait := .atWaitq rd, seq := (s.cell h.cell).seq + 1 })) ∧
    (∀ (r : Request) (first : Nat) (more : List Nat) (f : Fin 8) (k : W32),
      (∀ n ∈ x.cells, n ≠ h.cell.val → waits (s.cell n)) → x.req = some r → x.cells = first :: more →
      r.src = .bell f k → x.removing = false → (s.parcel x.parcel).inCompute = false →
      ∃ t, exec (.waitq h rd) s = .next t ∧ (t.inst i).map (·.req) = some none ∧
        (t.queue x.parcel x.q).records = (s.queue x.parcel x.q).records ++
          [r.record s.datum 0 0 (((s.cell first).greg 1).setWidth 32) x.overrun false first]))

/-! cs registers (R192, R210, R223). -/

/-- The values of the cs registers of a cell that the cell alone holds, by number, and of cs.datum. -/
def Sys2Proof.Safety.csValues (s : State) (c : Cell) : List (Nat × W64) :=
  [ (0x000, c.status), (0x001, c.cycle), (0x002, BitVec.ofNat 64 s.datum), (0x003, c.qh),
    (0x004, BitVec.ofNat 64 (c.faultPc.toNat * 2 ^ 16 + c.faultCause.toNat)), (0x005, c.rsmpc), (0x006, c.rsmcnt),
    (0x007, c.rsmsrc), (0x008, c.rsmdst), (0x009, c.rng), (0x020, c.tuse.setWidth 64), (0x021, c.tsat.setWidth 64),
    (0x022, BitVec.ofNat 64 (c.cagv.toNat * 64 + c.acct.toNat * 32 + c.defarr.toNat * 8 + c.arr.toNat * 2 +
      c.fixedMode.toNat)) ]

/-- The cs registers that CSRW, CSRS and CSRC write: RSMPC's fields, RSMCNT, RSMSRC, RSMDST and RNG. -/
def Sys2Proof.Safety.csWritable : List (Nat × (Cell → W64) × (Cell → W64 → Cell)) :=
  [ (0x005, (·.rsmpc), fun c v => { c with rsmpc := v &&& 0xF00000000000FFFF }),
    (0x006, (·.rsmcnt), fun c v => { c with rsmcnt := v }), (0x007, (·.rsmsrc), fun c v => { c with rsmsrc := v }),
    (0x008, (·.rsmdst), fun c v => { c with rsmdst := v }), (0x009, (·.rng), fun c v => { c with rng := v }) ]

/-- CSRR reads; CSRW, CSRS and CSRC write a writable register with the operand, its OR or its AND NOT, clear the bits of
cs.status and cs.tsat that CSRW and CSRC name, and leave every other register as it was; the old value goes to RD. -/
def Obligations.CsInstructionsComplete : Prop :=
  ∀ (s : State) (h : Hdr) (rd rs1 : Fin 32), Ready h 4 [rd, rs1] s →
    let c := s.cell h.cell
    let v := c.greg rs1
    (∀ e ∈ csValues s c, rs1 = 0 → Retires (.csrr h rd rs1 (BitVec.ofNat 9 e.1)) h 4 s (c.setG rd e.2)) ∧
    (∀ e ∈ csWritable,
      let cs : BitVec 9 := BitVec.ofNat 9 e.1
      let old := e.2.1 c
      Retires (.csrw h rd rs1 cs) h 4 s ((e.2.2 c v).setG rd old) ∧
      Retires (.csrs h rd rs1 cs) h 4 s ((e.2.2 c (old ||| v)).setG rd old) ∧
      Retires (.csrc h rd rs1 cs) h 4 s ((e.2.2 c (old &&& ~~~v)).setG rd old)) ∧
    (Retires (.csrw h rd rs1 0) h 4 s (({ c with status := c.status &&& ~~~v } : Cell).setG rd c.status) ∧
      Retires (.csrc h rd rs1 0) h 4 s (({ c with status := c.status &&& ~~~v } : Cell).setG rd c.status) ∧
      Retires (.csrs h rd rs1 0) h 4 s (c.setG rd c.status)) ∧
    (let c' : Cell := { c with tsat := c.tsat &&& ~~~(v.setWidth 17) }
     Retires (.csrw h rd rs1 0x21) h 4 s (c'.setG rd (c.tsat.setWidth 64)) ∧
     Retires (.csrc h rd rs1 0x21) h 4 s (c'.setG rd (c.tsat.setWidth 64))) ∧
    (∀ e ∈ csValues s c, e.1 ∈ [0x001, 0x002, 0x003, 0x004, 0x020, 0x022] →
      Retires (.csrw h rd rs1 (BitVec.ofNat 9 e.1)) h 4 s (c.setG rd e.2))

/-! Long operations (R213). -/

/-- VCOPY between windows of the own store and the replica: nothing for a count of zero, else a command of the vector
unit. HSWEEP.R and HSWEEP.W of one line whose line the Welt holds (for a write in E or M, with no store waiting for a
line) end at once: the 64 bytes are copied, the count falls to zero and both addresses pass the line. -/
def Obligations.LongOperationsComplete : Prop :=
  ∀ (s : State) (h : Hdr) (rd rs1 rs2 : Fin 32), Ready h 4 [rd, rs1, rs2] s → spWf Cell.zero s.cells = true →
    let n := h.cell.val
    let c := s.cell n
    let count := c.greg rd
    let a := c.greg rs1
    let b := c.greg rs2
    (count.toNat % 256 = 0 → a.toNat % 256 = 0 → b.toNat % 256 = 0 → s.rangesMeet n a b count.toNat = false →
      (s.winKind n a = .own ∨ s.winKind n a = .replica) → (s.winKind n b = .own ∨ s.winKind n b = .replica) →
      s.reachable n a count.toNat true false = true → s.reachable n b count.toNat false true = true →
        (count = 0 → Retires (.vcopy h rd rs1 rs2) h 4 s c) ∧
        (count ≠ 0 → (c.queue .vec).length < 4 →
          Enqueues (.vcopy h rd rs1 rs2) h 4 s .vec (.vcopy rd rs1 rs2 count a b))) ∧
    (count = 64 → a.toNat % 64 = 0 → b.toNat % 64 = 0 → c.sbuf = [] → c.loadOut = false → c.ext = [] → c.gone = [] →
      s.weltRoom n = true →
      s.host.dead = false → s.host.disabled = false → s.host.flushing = false →
      (∀ (o g : Nat) (l : WLine), s.winKind n a = .pointer 1 → s.winKind n b = .own →
        s.resolve n a 64 true false = .ext .host g → s.resolve n b 64 false true = .own o → g < 2 ^ 52 →
        g % 64 = 0 → s.line (g / 64) = some l → l.poison = false →
        ∃ t, exec (.hsweepR h rd rs1 rs2) s = .next t ∧
          t.cell n = past c 4 ((c.storeOwn o (l.bytes.take 64)).setLong rd rs1 rs2 0 (a + 64) (b + 64))) ∧
      (∀ (o g : Nat) (l : WLine), s.winKind n a = .own → s.winKind n b = .pointer 1 →
        s.resolve n a 64 true false = .own o → s.resolve n b 64 false true = .ext .host g → g < 2 ^ 52 →
        g % 64 = 0 → s.line (g / 64) = some l → l.st ≠ .s → s.host.stores = [] →
        ∃ t, exec (.hsweepW h rd rs1 rs2) s = .next t ∧
          t.cell n = past c 4 (c.setLong rd rs1 rs2 0 (a + 64) (b + 64)) ∧
          (t.line (g / 64)).map (fun l => (l.st, l.bytes.take 64, l.poison)) = some (.m, c.loadOwn o 64, false)))

/-! The vector unit (R246 to R251, R267, R268). -/

/-- The integer lane operations of R247: a lane's result from lanes a, b and the old lane d, and its cs.status bit (VOV 4,
VSAT 8). Shifts by 32 or more follow R200 at width 32. -/
def Sys2Proof.Safety.intLanes :
    List ((Hdr → Bool → Fin 32 → Fin 32 → Fin 32 → Instr) × (W32 → W32 → W32 → W32 × W64)) :=
  let sat (v : Int) : W32 × W64 := (BitVec.ofInt 32 (clamp32 v), if clamp32 v = v then 0 else 8)
  let mask (b : Bool) : W32 × W64 := (if b then -1 else 0, 0)
  [ (.vadd, fun a b _ => (BitVec.ofInt 32 (a.toInt + b.toInt), 0)),
    (.vsub, fun a b _ => (BitVec.ofInt 32 (a.toInt - b.toInt), 0)),
    (.vmul, fun a b _ => (BitVec.ofInt 32 (a.toInt * b.toInt), 0)),
    (.vmulh, fun a b _ => (BitVec.ofInt 32 (a.toInt * b.toInt / 2 ^ 32), 0)),
    (.vand, fun a b _ => (a &&& b, 0)), (.vor, fun a b _ => (a ||| b, 0)), (.vxor, fun a b _ => (a ^^^ b, 0)),
    (.vsll, fun a b _ => (if 32 ≤ b.toNat then 0 else BitVec.ofNat 32 (a.toNat * 2 ^ b.toNat), 0)),
    (.vsrl, fun a b _ => (if 32 ≤ b.toNat then 0 else BitVec.ofNat 32 (a.toNat / 2 ^ b.toNat), 0)),
    (.vsra, fun a b _ =>
      (if 32 ≤ b.toNat then (if a.toInt < 0 then -1 else 0) else BitVec.ofInt 32 (a.toInt / 2 ^ b.toNat), 0)),
    (fun h _ d x _ => .vneg h d x, fun a _ _ => (BitVec.ofInt 32 (-a.toInt), if a.toInt = -2147483648 then 4 else 0)),
    (fun h _ d x _ => .vabs h d x, fun a _ _ => (BitVec.ofInt 32 a.toInt.natAbs, if a.toInt = -2147483648 then 4 else 0)),
    (.vmin, fun a b _ => (if a.toInt ≤ b.toInt then a else b, 0)),
    (.vmax, fun a b _ => (if a.toInt ≤ b.toInt then b else a, 0)),
    (.vminu, fun a b _ => (if a.toNat ≤ b.toNat then a else b, 0)),
    (.vmaxu, fun a b _ => (if a.toNat ≤ b.toNat then b else a, 0)),
    (.vadds, fun a b _ => sat (a.toInt + b.toInt)), (.vsubs, fun a b _ => sat (a.toInt - b.toInt)),
    (.vmuls, fun a b _ => sat (a.toInt * b.toInt)),
    (.vceq, fun a b _ => mask (decide (a = b))), (.vclt, fun a b _ => mask (decide (a.toInt < b.toInt))),
    (.vcltu, fun a b _ => mask (decide (a.toNat < b.toNat))),
    (.vsel, fun a b d => ((a &&& d) ||| (b &&& ~~~d), 0)) ]

/-- The fp32 lane operations of R248, each with the operation of R268 on a lane. -/
def Sys2Proof.Safety.fpLanes :
    List ((Hdr → Bool → Fin 32 → Fin 32 → Fin 32 → Instr) × (W32 → W32 → W32 → F32Res)) :=
  [ (.vfadd, fun a b _ => f32Add a b), (.vfsub, fun a b _ => f32Sub a b), (.vfmul, fun a b _ => f32Mul a b),
    (.vfma, fun a b d => f32Fma a b d), (.vfmin, fun a b _ => f32Min a b), (.vfmax, fun a b _ => f32Max a b),
    (fun h _ d x _ => .vfneg h d x, fun a _ _ => f32Neg a), (fun h _ d x _ => .vfabs h d x, fun a _ _ => f32Abs a),
    (.vfceq, fun a b _ => f32Eq a b), (.vfclt, fun a b _ => f32Lt a b), (.vfcle, fun a b _ => f32Le a b) ]

/-- The lanes of a vector operation: the three operands of lane i, RS2 a register of lanes or with SC the low word of g[RS2]. -/
def Sys2Proof.Safety.LanesAre (c : Cell) (sc : Bool) (rd rs1 rs2 : Fin 32) (f : W32 → W32 → W32 → W32 × W64) (r : Row)
    (fl : W64) : Prop :=
  let op (i : Nat) : W32 × W64 :=
    f (laneOf (c.vreg rs1) i) (if sc then (c.greg rs2).setWidth 32 else laneOf (c.vreg rs2) i) (laneOf (c.vreg rd) i)
  (∀ i, i < 64 → laneOf r i = (op i).1) ∧ fl = (List.range 64).foldl (fun m i => m ||| (op i).2) 0

/-- The integer vector instructions compute every lane modulo 2^32, the saturating ones clamp (R267), and the FP32
instructions round each lane by R268 and write the FP32 result; a scalar second source is used for all lanes. -/
def Obligations.LanesComplete : Prop :=
  (∀ op ∈ intLanes, ∀ (s : State) (h : Hdr) (sc : Bool) (rd rs1 rs2 : Fin 32), Ready h 4 (if sc then [rs2] else []) s →
    let c := s.cell h.cell
    ∃ (r : Row) (fl : W64), LanesAre c sc rd rs1 rs2 op.2 r fl ∧
      Retires (op.1 h sc rd rs1 rs2) h 4 s { c.setV rd r with status := c.status ||| fl }) ∧
  (∀ op ∈ fpLanes, ∀ (s : State) (h : Hdr) (sc : Bool) (rd rs1 rs2 : Fin 32), Ready h 4 (if sc then [rs2] else []) s →
    let c := s.cell h.cell
    ∃ (r : Row) (fl : W64),
      LanesAre c sc rd rs1 rs2 (fun a b d => ((op.2 a b d).1, (op.2 a b d).2.mask)) r fl ∧
      Retires (op.1 h sc rd rs1 rs2) h 4 s { c.setV rd r with status := c.status ||| fl })

/-- VCVT, VLD, VST, VBCAST, VMVG, VINS, the reductions, VTR and VTW. -/
def Obligations.VectorMovesComplete : Prop :=
  ∀ (s : State) (h : Hdr) (rd vs vd rs1 : Fin 32),
    let c := s.cell h.cell
    let lane (i : Nat) := laneOf (c.vreg vs) i
    (∀ sfmt dfmt rnd part sf df mode, Ready h 8 [] s → fmtOf sfmt = some sf → fmtOf dfmt = some df →
      rndOf rnd = some mode → part.toNat < 2048 / (64 * max sf.bits df.bits) →
      let r := vcvtRow sf df mode part.toNat h.cell (c.vreg vs) (c.vreg vd) c.rng
      Retires (.vcvt h vd vs sfmt dfmt rnd part) h 8 s { c.setV vd r.1 with
        rng := r.2.2.2, status := c.status ||| (r.2.1.mask ||| (if r.2.2.1 then 8 else 0)) }) ∧
    (∀ imm : Byte, Ready h 4 [rs1] s →
      let a := c.greg rs1 + BitVec.ofInt 64 (imm.toInt * 256)
      a.toNat % 128 = 0 → OwnRange c a 256 → c.loadOut = false →
        (NoOverlap c h.cell none a.toNat 256 → c.storeBad a.toNat 256 = false →
          Retires (.vld h vd rs1 imm) h 4 s (c.setV vd (BitVec.ofNat 2048 (leNat (c.loadOwn a.toNat 256))))) ∧
        (c.sbuf = [] → Retires (.vst h vs rs1 imm) h 4 s (c.storeOwn a.toNat (leBytes 256 (c.vreg vs).toNat)))) ∧
    (Ready h 4 [rs1] s → ∃ r : Row, (∀ i, i < 64 → laneOf r i = (c.greg rs1).setWidth 32) ∧
      Retires (.vbcast h vd rs1) h 4 s (c.setV vd r)) ∧
    (∀ k : Fin 64, Ready h 4 [rs1] s → ∃ r : Row,
      (∀ i, i < 64 → laneOf r i = if i = k.val then (c.greg rs1).setWidth 32 else laneOf (c.vreg vd) i) ∧
      Retires (.vins h vd rs1 k) h 4 s (c.setV vd r)) ∧
    (Ready h 4 [rd] s →
      (∀ k : Fin 64, Retires (.vmvg h rd vs k) h 4 s (c.setG rd (BitVec.ofInt 64 (lane k).toInt))) ∧
      Retires (.vrsum h rd vs) h 4 s
        (c.setG rd (BitVec.ofInt 64 ((List.range 64).foldl (fun t i => t + (lane i).toInt) 0))) ∧
      (∃ m : W32, (∃ i, i < 64 ∧ m = lane i) ∧ (∀ i, i < 64 → (lane i).toInt ≤ m.toInt) ∧
        Retires (.vrmax h rd vs) h 4 s (c.setG rd (BitVec.ofInt 64 m.toInt))) ∧
      (let t := f32Tree f32Add (c.vreg vs)
       Retires (.vrfsum h rd vs) h 4 s { c.setG rd (t.1.setWidth 64) with status := c.status ||| t.2.mask }) ∧
      (let t := f32Tree f32Max (c.vreg vs)
       Retires (.vrfmax h rd vs) h 4 s { c.setG rd (t.1.setWidth 64) with status := c.status ||| t.2.mask })) ∧
    (∀ (t : Fin 16) (row : Fin 64), Ready h 4 [] s → Group c t 1 →
      (c.tilesFree (2 ^ t.val) 0 = true → c.tileBad t row 1 32 = false →
        Retires (.vtr h vd t row) h 4 s (c.setV vd (c.tileRow t row))) ∧
      (c.tilesFree 0 (2 ^ t.val) = true →
        Retires (.vtw h vs t row) h 4 s { c.setTileRow t row (c.vreg vs) with
          tuse := c.tuse ||| BitVec.ofNat 17 (2 ^ t.val)
          latches := c.latches.filter (fun l => decide (l.tw + 4 ≤ t.val) || decide (t.val + 1 ≤ l.tw)) }))

/-! Tiles and units (R225 to R245, R252). -/

/-- R225: the rows and row bytes / 32 of a shaped instruction: in its second word in SHAPED mode, in cs.tshape in FIXED mode. -/
def Sys2Proof.Safety.ShapeIs (c : Cell) (t : Fin 16) (shape : Option Shape) (rows rb len : Nat) : Prop :=
  (c.fixedMode = false ∧ ∃ sh, shape = some sh ∧ rows = sh.rows.toNat + 1 ∧ rb = sh.rb.toNat + 1 ∧ len = 8) ∨
  (c.fixedMode = true ∧ shape = none ∧ len = 4 ∧
    rows = bits (c.tshape.getD (t.val / 4) 0).toNat (16 * (t.val % 4)) 6 + 1 ∧
    rb = bits (c.tshape.getD (t.val / 4) 0).toNat (16 * (t.val % 4) + 6) 3 + 1)

/-- TLD, TST, TZERO, TCOPY, ACCZ, MMA, ACCMV, ARR, CAGSET, CONV and MVM whose operands pass their checks enter the queue of
their unit with the operands captured at issue; TFREE clears the flags it names at issue. -/
def Obligations.UnitInstructionsComplete : Prop :=
  ∀ (s : State) (h : Hdr) (t ts tw : Fin 16) (rs1 rs2 : Fin 32),
    let c := s.cell h.cell
    let v := c.greg rs1
    let w := c.greg rs2
    (∀ shape rows rb len, ShapeIs c t shape rows rb len → Ready h len [rs1, rs2] s → Group c t 1 → v.toNat % 32 = 0 →
      w.toNat % 32 = 0 → OwnRange c v (32 * rb) → OwnRange c v ((rows - 1) * w.toNat + 32 * rb) →
      (UnitFree c .tmove (.tld t v.toNat w.toNat rows rb) →
        Enqueues (.tld h t rs1 rs2 shape) h len s .tmove (.tld t v.toNat w.toNat rows rb)) ∧
      (UnitFree c .tmove (.tst t v.toNat w.toNat rows rb) →
        Enqueues (.tst h t rs1 rs2 shape) h len s .tmove (.tst t v.toNat w.toNat rows rb))) ∧
    (Ready h 4 [] s → Group c t 1 →
      (UnitFree c .tmove (.tzero t) → Enqueues (.tzero h t) h 4 s .tmove (.tzero t)) ∧
      (t ≠ ts → Group c ts 1 → UnitFree c .tmove (.tcopy t ts) →
        Enqueues (.tcopy h t ts) h 4 s .tmove (.tcopy t ts))) ∧
    (Ready h 4 [] s → ∀ mask : BitVec 17, (∀ k, k < 16 → mask.getLsbD k = true → Group c k 1) →
      c.tilesFree 0 mask.toNat = true → Retires (.tfree h mask) h 4 s { c with tuse := c.tuse &&& ~~~mask }) ∧
    (Ready h 4 [] s → UnitFree c .array .accz → Enqueues (.accz h) h 4 s .array .accz) ∧
    (∀ a : BitVec 2, Ready h 4 [] s → a ≠ 3 → (c.queue .array).length < 4 →
      Retires (.arr h a) h 4 s (({ c with arr := a } : Cell).setQueue .array (c.queue .array ++ [⟨.arr, c.pc, c.seq⟩]))) ∧
    (∀ afmt wfmt acol acc shape rows rb len, ShapeIs c t shape rows rb len → Ready h len [] s →
      (∀ sh, shape = some sh → sh.rb = 0) → (pairOf afmt wfmt).isSome = true → acol.toNat < arrGroup c.arr →
      Group c t (arrGroup c.arr) → Group c tw 4 → UnitFree c .array (.mma t tw afmt wfmt acol acc rows c.arr) →
        Enqueues (.mma h t tw afmt wfmt acol acc shape) h len s .array (.mma t tw afmt wfmt acol acc rows c.arr)) ∧
    (∀ fmt rnd nrows f, Ready h 4 [rs1] s → fmtOf fmt = some f → (rndOf rnd).isSome = true →
      Group c t (fmtTiles f) →
      let cmd : UnitCmd :=
        .accmv t fmt rnd (if rs1 = 0 then none else some (v.setWidth 32)) (nrows.toNat + 1)
      UnitFree c .array cmd → Enqueues (.accmv h t fmt rnd rs1 nrows) h 4 s .array cmd) ∧
    (Ready h 4 [rs1] s → v.toNat % 64 = 0 → OwnRange c v 64 → UnitFree c .cag (.cagset v.toNat) →
      Enqueues (.cagset h rs1) h 4 s .cag (.cagset v.toNat)) ∧
    (∀ acol acc, Ready h 4 [rs1, rs2] s → Group c tw 4 → acol.toNat < arrGroup c.arr →
      let nt := bits v.toNat 40 8
      let choff := bits v.toNat 48 16
      1 ≤ nt → nt ≤ 225 → choff % 32 = 0 → 1 ≤ w.toNat → w.toNat ≤ 64 → (c.cagv = true ∨ c.queue .cag ≠ []) →
      let cmd : UnitCmd := .conv tw (bits v.toNat 0 32) (bits v.toNat 32 8) nt choff w.toNat acol acc c.arr
      UnitFree c .array cmd → Enqueues (.conv h tw rs1 rs2 acol acc) h 4 s .array cmd) ∧
    (∀ batch xfmt wfmt kq nblk, Ready h 8 [rs1, rs2] s → Group c t 4 →
      let k := BitVec.toNat (w := 8) kq
      let nb := BitVec.toNat (w := 7) nblk
      let vecs := if batch then 2 else 1
      1 ≤ k → k ≤ 128 → (wfmt = false → k % 2 = 0) → 1 ≤ nb → nb * vecs ≤ 64 → v.toNat % 32768 = 0 →
      w.toNat % 128 = 0 → OwnRange c v (nb * (if wfmt then k else k / 2) * 32768) → OwnRange c w (vecs * 128 * k) →
      let cmd : UnitCmd := .mvm t v.toNat w.toNat batch xfmt wfmt k nb
      UnitFree c .mv cmd → Enqueues (.mvm h t rs1 rs2 batch xfmt wfmt kq nblk) h 8 s .mv cmd)

/-- UNIT_COMMAND_COMMIT (R230, R232, R252): the head of a unit's queue reaches its commit point and leaves the queue. TLD
fills the tile's rows from the store and the rest with zeros, TZERO clears them, TCOPY copies them, ACCZ clears the
accumulator; TST writes store bytes only. -/
def Obligations.UnitCommandsCommit : Prop :=
  ∀ (s : State) (cell : Fin 128) (u : UnitId) (q : QCmd) (rest : List QCmd), spWf Cell.zero s.cells = true →
    let c := s.cell cell
    let i : Instr := .unitCommandCommit cell u
    c.queue u = q :: rest → spWf 0 c.tiles = true → spWf [] c.queues = true →
      (∀ t base stride rows rb, q.cmd = .tld t base stride rows rb → rows ≤ 64 → rb ≤ 8 →
        (∀ r, r < rows → c.storeBad (base + r * stride) (32 * rb) = false) →
        ∃ s', exec i s = .next s' ∧ (s'.cell cell).queue u = rest ∧ (s'.cell cell).tuse = c.tuse ||| BitVec.ofNat 17 (2 ^ t.val) ∧
          ∀ r, r < 64 → (s'.cell cell).tileRow t r =
            if r < rows then BitVec.ofNat 2048 (leNat (c.loadOwn (base + r * stride) (32 * rb))) else 0) ∧
      (∀ t base stride rb, q.cmd = .tst t base stride 1 rb → rb ≤ 8 → c.tileBad t 0 1 (4 * rb) = false →
        exec i s = .next (s.setCell cell
          ((c.storeOwn base (leBytes (32 * rb) (c.tileRow t 0).toNat)).setQueue u rest))) ∧
      (∀ t, q.cmd = .tzero t → ∃ s', exec i s = .next s' ∧ (s'.cell cell).queue u = rest ∧
        (∀ r, r < 64 → (s'.cell cell).tileRow t r = 0) ∧
        (∀ k r, k ≠ t.val → r < 64 → (s'.cell cell).tileRow k r = c.tileRow k r)) ∧
      (∀ td ts, q.cmd = .tcopy td ts → c.tileBad ts 0 64 32 = false → ∃ s', exec i s = .next s' ∧
        (s'.cell cell).queue u = rest ∧ ∀ r, r < 64 → (s'.cell cell).tileRow td r = c.tileRow ts r) ∧
      (q.cmd = .accz → ∃ s', exec i s = .next s' ∧ (s'.cell cell).queue u = rest ∧ (s'.cell cell).acct = false ∧
        ∀ r, (s'.cell cell).accRow r = 0) ∧
      (∀ c', (∀ a b d x y z, q.cmd ≠ .vcopy a b d x y z) → commitCmd cell q c = .done c' →
        exec i s = .next (s.setCell cell (c'.setQueue u rest)))

/-- R236, R264: an integer array operation gives word j of block ACOL of accumulator row m the old word (or zero) plus the
exact sum of products, clamped to int32; the words of the other blocks stay. -/
def Obligations.ArraySumsAreExact : Prop :=
  ∀ (c : Cell) (afmt wfmt : BitVec 4) (arr acol : BitVec 2) (tw : Nat) (accum : Bool) (acts : List Nat) (w : Nat)
    (fa fw : Fmt), spWf 0 c.acc = true → pairOf afmt wfmt = some (w, false) → fmtOf afmt = some fa →
    fmtOf wfmt = some fw → acol.toNat < arrGroup arr → arr ≠ 3 →
    let c' := arrayOp afmt wfmt arr tw acol.toNat accum acts c
    let n := arrN arr
    (∀ m j, m < acts.length → j < n →
      let sum := (List.range (arrRowBytes arr * 8 / w)).foldl (fun t k =>
        t + intValue fa (bits (acts.getD m 0) (k * w) w) * intValue fw (blockElem c tw w (k * n + j))) 0
      accWord (c'.accRow m) (acol.toNat * n + j) = BitVec.ofInt 32
        (clamp32 ((if accum then (accWord (c.accRow m) (acol.toNat * n + j)).toInt else 0) + sum))) ∧
    (∀ m k, k < 256 → (m < acts.length → k < acol.toNat * n ∨ acol.toNat * n + n ≤ k) →
      accWord (c'.accRow m) k = accWord (c.accRow m) k) ∧
    c'.acct = false ∧ c'.tuse = c.tuse ||| 0x10000

/-- R244, R266: the sums of the matrix-vector path stay within 534,773,760 in magnitude. So no word of an MVM saturates: output
n of block j and vector b is the exact sum, as lane n mod 64 of row j × (BATCH + 1) + b of tile TD + n / 64. Every other tile
row is unchanged, and an MVM sets no sticky bit. -/
def Obligations.MatrixVectorNeverSaturates : Prop :=
  (∀ (c : Cell) (wbase xbase kq : Nat) (w8 xu8 : Bool) (j b n : Nat), kq ≤ 128 →
    (mvmSum c wbase xbase kq w8 xu8 j b n).natAbs ≤ 534773760) ∧
  (∀ (td : Fin 16) (wb xb kq nblk : Nat) (batch xf wf : Bool) (c : Cell),
    let vecs := if batch then 2 else 1
    let c' := unitMvm td wb xb batch xf wf kq nblk c
    spWf 0 c.tiles = true → kq ≤ 128 → nblk * vecs ≤ 64 →
      c'.status = c.status ∧ c'.tsat = c.tsat ∧
      (∀ j b n, j < nblk → b < vecs → n < 256 →
        (laneOf (c'.tileRow (td + n / 64) (j * vecs + b)) (n % 64)).toInt = mvmSum c wb xb kq wf xf j b n) ∧
      (∀ t r, r < 64 → (t < td.val ∨ td.val + 4 ≤ t ∨ nblk * vecs ≤ r) → c'.tileRow t r = c.tileRow t r))

/-- R257: the integer formats: the signed ones are two's complement of their width, the unsigned ones plain binary, and
every encoding has a value. -/
def Obligations.IntegerFormats : Prop :=
  (∀ f w, (f, w) ∈ [(Fmt.int4, 4), (.int8, 8), (.int32, 32)] → ∀ raw, raw < 2 ^ w →
    intValue f raw = (BitVec.ofNat w raw).toInt ∧ ∃ n m, f.value raw = .fin n m 0) ∧
  (∀ f w, (f, w) ∈ [(Fmt.uint4, 4), (.uint8, 8)] → ∀ raw, raw < 2 ^ w →
    intValue f raw = (raw : Int) ∧ ∃ n m, f.value raw = .fin n m 0)

/-! The front end: ticks, windows, doorbells (R87 to R140, R309 to R316, R355, R356). -/

/-- TICK_BOUNDARY, UPDATE_WINDOW_START and _END, COMPUTE_PHASE_START and _END at a datum instant: time passes to it on the
datum and on the local time counter (R86). A boundary falls where that counter reaches the end of the tick, and the next
tick is shortened by its alignment error, by at most 1 µs (R87, R88, R89, R111); it is stated for a device in which
nothing runs or waits. The window of an ACTIVE parcel opens once in a tick, between 3 µs and 3 µs + W, and its compute
phase once, from there to T − S − D, where it ends (R90); before and after these, only time passes. What has not completed
when the compute phase ends overruns (R105). -/
def Obligations.TickPhasesComplete : Prop :=
  ∀ (s : State) (p : Fin 16) (at' : Nat),
    let u := s.at at'
    let x := s.parcel p
    let cfg := s.img.cfg
    let due := s.lc.edge + s.lc.len
    let b := u.datum - (u.lc.ctr - due)
    let T := max 1 cfg.tickNs
    let late := u.lc.ctr - s.lc.edge
    let from' := 3000 + x.cfg.updWin * 1000
    (u.datum = max s.datum at' ∧ u.lc.ctr = s.lc.ctr + (at' - s.datum)) ∧
    (s.tk.run = true → due ≤ u.lc.ctr → s.insts = [] →
      (∀ e ∈ s.parcels, ∀ q ∈ e.2.queues, q.2.ready = [] ∧ q.2.waiting = [] ∧ q.2.unseated = []) →
      ∃ t, exec (.tickBoundary at') s = .next t ∧ t.datum = u.datum ∧ t.tk.started = true ∧ t.tk.boundary = b ∧
        t.tk.epoch = BitVec.ofNat 64 (b / T) ∧ t.tk.count = (if s.tk.started then s.tk.count + 1 else 0) ∧
        t.tk.alignErr = (if cfg.align then BitVec.ofNat 32 (b % T) else 0) ∧
        t.tk.aligned = (cfg.align && decide (b % T ≤ 20)) ∧ t.lc.ctr = u.lc.ctr ∧ t.lc.edge = due ∧
        t.lc.len = T - (if cfg.align = true ∧ 20 < b % T then min (b % T) 1000 else 0) ∧ t.insts = []) ∧
    (s.tk.run = false ∨ u.lc.ctr < due → exec (.tickBoundary at') s = .next u) ∧
    (let opens := x.state = .active ∧ s.tk.run = true ∧ s.tk.started = true ∧ x.windowRan = false ∧ 3000 ≤ late ∧
       late < from'
     (opens → ∃ t, exec (.updateWindowStart p at') s = .next t ∧ t.datum = u.datum ∧ (t.parcel p).inWindow = true ∧
        (t.parcel p).windowRan = true ∧ (t.parcel p).winStart = s.lc.edge + 3000 ∧
        ∀ k, k ≠ p.val → t.parcel k = s.parcel k) ∧
     (¬ opens → exec (.updateWindowStart p at') s = .next u)) ∧
    (x.state = .active → x.inWindow = true → from' ≤ late → ∃ t, exec (.updateWindowEnd p at') s = .next t ∧
      (t.parcel p).inWindow = false ∧ (t.parcel p).upDue = BitVec.ofNat 32 x.due.length) ∧
    (late < from' → exec (.updateWindowEnd p at') s = .next u) ∧
    (let opens := s.tk.run = true ∧ s.tk.started = true ∧ x.computeRan = false ∧ x.computeOver = false ∧ from' ≤ late ∧
       late < cfg.computeEnd
     (opens → x.state = .active → s.instsOf p = [] → ∃ t, exec (.computePhaseStart p at') s = .next t ∧
        (t.parcel p).inCompute = true ∧ (t.parcel p).computeRan = true ∧ (t.parcel p).inWindow = false) ∧
     (¬ opens → exec (.computePhaseStart p at') s = .next u)) ∧
    (x.state = .active → s.tk.run = true → s.tk.started = true → cfg.computeEnd ≤ late → x.computeOver = false →
      ∃ t, exec (.computePhaseEnd p at') s = .next t ∧ (t.parcel p).inCompute = false ∧ (t.parcel p).computeOver = true ∧
        ∀ i y, s.inst i = some y → y.parcel = p → (y.task = none ∨ y.running = true ∨ y.req.isSome = true) →
          (t.inst i).map (·.overrun) = some true) ∧
    (late < cfg.computeEnd → exec (.computePhaseEnd p at') s = .next u)

/-- R97: a boundary admits no more requests of a queue than its quota. QUEUE_TIMEOUT_EXPIRY, once the local time counter has
reached the timeout, ends the request of an instance with TIMEOUT, and with DETAIL 5 one that has not started, whose
windows end with it (R106, R136, R340); before that, only time passes. -/
def Obligations.QuotaAndTimeout : Prop :=
  (∀ (s : State) (p : Fin 16) (c : QueueCfg) (waiting : List Request),
    (s.admitQueue p c waiting 0).nextInst ≤ s.nextInst + c.quota) ∧
  (∀ (s : State) (i at' : Nat) (x : Inst) (r : Request) (f : Fin 8) (k : W32), s.inst i = some x → x.req = some r →
    let u := s.at at'
    (r.src = .bell f k → r.timeout ≠ 0 → x.start + r.timeout ≤ u.lc.ctr →
      x.task = none → x.running = false → x.cells = [] → x.overrun = false →
      ∃ t, exec (.queueTimeoutExpiry x.parcel i at') s = .next t ∧
        (t.queue x.parcel x.q).records = (s.queue x.parcel x.q).records ++
          [{ r with windows := [] }.record u.datum ccTimeout 5 0 false true 0]) ∧
    (r.timeout = 0 ∨ u.lc.ctr < x.start + r.timeout → exec (.queueTimeoutExpiry x.parcel i at') s = .next u))

/-- UPDATE_APPLY in an open window, not in its last 300 ns, takes the first due record, of any mode and from any sender, on
time or late: the record leaves the log, and the window stays open. It is rejected, and nothing is written, when one of
its lines reads poisoned, or but for OVERWRITE its row (POISON), or when a new value or the new OPT word of mode 3 is not
finite (NONFINITE); else it commits: the requantised row with its OPT word is written, and the window counts it. Outside an
open window and with no due record, only time passes. -/
def Obligations.UpdateApplyCompletes : Prop :=
  ∀ (s : State) (p : Fin 16) (at' : Nat),
    let u := s.at at'
    let x := s.parcel p
    let open' := x.inWindow = true ∧ u.lc.ctr + 300 ≤ x.winStart + x.cfg.updWin * 1000
    (∀ ecc, (¬ open' ∨ x.due = []) → exec (.updateApply p at' ecc) s = .next u) ∧
    (∀ (r : UpdRec) (tb : TableDesc), open' → x.firstDue = some r → x.table r.tid = some tb →
      let gone (y : Parcel) : Prop := y.log = x.log.filter (fun e => decide (e.lines ≠ r.lines)) ∧ y.inWindow = true
      let mode := field r.bytes 2 1
      let a := tb.base + r.row * tb.rstride
      let row := s.stackRead p 0 0 a tb.rstride
      let bad := (∃ j ∈ r.lines, (s.stackRead p 0 0 (x.lineAddr j) 64).2 = true) ∨ (mode ≠ 0 ∧ row.2 = true)
      let new := updValues tb r.bytes row.1
      let infinite := (∃ v ∈ new.1, nonFinite v = true) ∨ (mode = 3 ∧ nonFinite (BitVec.ofNat 32 new.2) = true)
      (∀ ecc, ∃ t, exec (.updateApply p at' ecc) s = .next t ∧ gone (t.parcel p)) ∧
      (bad ∨ infinite → ∃ t, exec (.updateApply p at' .clean) s = .next t ∧ gone (t.parcel p) ∧
        t.stk.mem = s.stk.mem ∧ (t.parcel p).windowDone = x.windowDone ∧ (t.parcel p).upReject = satAdd32 x.upReject 1) ∧
      (¬ bad → ¬ infinite → ∃ t, exec (.updateApply p at' .clean) s = .next t ∧ gone (t.parcel p) ∧
        t.stk.mem = (s.stackWrite p 0 0 a
          (quantRow tb new.1 new.2 (decide (field r.bytes 4 1 % 2 = 1)) r.uid r.row).1).stk.mem ∧
        (t.parcel p).windowDone = x.windowDone + 1 ∧ (t.parcel p).upReject = x.upReject))

/-- R122: a queue is UNBOUND, LAUNCHED, PERSISTENT or UNBINDING; it starts UNBOUND, at reset and in a parcel that has just been
built; and a request to a queue that is not LAUNCHED or PERSISTENT completes at once with STATE_CHANGED and DETAIL NOT_BOUND,
without a stamp and without windows. -/
def Obligations.UnboundQueueRefuses : Prop :=
  (∀ p q, (State.reset.queue p q).state = .unbound) ∧
  (∀ (s : State) (p q : Nat), (s.parcel p).queues = [] → (s.queue p q).state = .unbound) ∧
  (∀ (s : State) (p q : Nat), (s.queue p q).state = .unbound ∨ (s.queue p q).state = .launched ∨
    (s.queue p q).state = .persistent ∨ (s.queue p q).state = .unbinding) ∧
  (∀ (s : State) (p q : Nat) (r : Request), s.dev ≠ .retired → (s.parcel p).serves = true →
    (s.queue p q).state ≠ .launched → (s.queue p q).state ≠ .persistent →
    s.arrive p q r = s.complete p q { r with stamp := 0, windows := [] } 6 4 0 false false [] 0 0)

/-- Whether a doorbell of function f, which is not in D3hot, reaches queue q of its parcel p (R128, R354). -/
def Sys2Proof.Safety.Bell (s : State) (f : Fin 8) (g : Fin 256) (p q : Nat) : Prop :=
  s.gqueue g = some (p, q) ∧ (s.parcel p).ownedBy f = true ∧ (s.ord (1 + f)).d3 = false

/-- The records that `n` new descriptors of a doorbell from index `i` leave when each ends at once with the code and detail. -/
def Sys2Proof.Safety.bellRecords (x : Parcel) (f : Fin 8) (i : W32) (n stamp now : Nat) (code detail : Byte) : List Record :=
  (List.range n).map (fun k =>
    let r := bellRequest x f (i + BitVec.ofNat 32 k)
    { r with stamp := stamp }.record now code detail 0 false false 0)

/-- SQ_TAIL, CQ_HEAD, LAUNCH_DESCRIPTOR_READ, COMPLETION_RECORD_WRITE, MSIX_MESSAGE and MSIX_VECTOR_UNMASK. A doorbell of the
function that owns the parcel of the queue raises SQ_TAIL, and each new descriptor is a request: stamped and waiting; or
ended at once, unstamped where its parcel or queue takes none, with TICK_FULL where the queue is full. A foreign,
malformed or wide doorbell is only logged, and one of a function in D3hot does nothing. The oldest unread descriptor is
read through the Welt with its patch: its request takes its tag, flags, windows and parameter block, or ends with the code
that the read gives it. A record is written to the CQ once the Welt holds its line in E or M and the parcel's stores are
performed, and calls for its message; before that RdOwn asks for the line. Messages called for issue one by one. -/
def Obligations.DoorbellsAndRecordsComplete : Prop :=
  ∀ (s : State) (f : Fin 8) (g : Fin 256) (v : W32) (p : Fin 16) (q : Fin 32),
    let x := s.parcel p
    let y := s.queue p q
    (Bell s f g p q → spWf Queue.zero x.queues = true → ∀ c, x.qcfg q = some c →
      let n := (v - y.sqTail).toNat
      let moved : Queue := { y with sqTail := v, sqUsed := y.sqUsed + n }
      let asked (k : Nat) : Request := { bellRequest x f (y.sqTail + BitVec.ofNat 32 k) with stamp := s.datum }
      y.sqUsed + n ≤ y.sqSize →
      (s.arrivalCode p q = none → y.waiting.length + n ≤ c.depth → ∃ t, exec (.sqTail f g v false) s = .next t ∧
        t.queue p q = { moved with waiting := y.waiting ++ (List.range n).map asked } ∧
        ∀ k, k ≠ p.val → t.parcel k = s.parcel k) ∧
      (s.arrivalCode p q = none → c.depth ≤ y.waiting.length → s.cyc.reqs = [] →
        ∃ t, exec (.sqTail f g v false) s = .next t ∧
          t.queue p q = { moved with records := y.records ++ bellRecords x f y.sqTail n s.datum s.datum 1 0 } ∧
          ∀ k, k ≠ p.val → t.parcel k = s.parcel k) ∧
      (∀ code detail, s.arrivalCode p q = some (code, detail) → ∃ t, exec (.sqTail f g v false) s = .next t ∧
        t.queue p q = { moved with records := y.records ++ bellRecords x f y.sqTail n 0 s.datum code detail } ∧
        ∀ k, k ≠ p.val → t.parcel k = s.parcel k)) ∧
    (Bell s f g p q → (v - y.cqHead).toNat ≤ (y.cqTail - y.cqHead).toNat →
      exec (.cqHead f g v false) s = .next (s.modQueue p q (fun y => { y with cqHead := v }))) ∧
    (Bell s f g p q → (∀ w, w = true ∨ y.sqSize < y.sqUsed + (v - y.sqTail).toNat →
        exec (.sqTail f g v w) s = .next (s.bellRefused f (some (p.val, q.val)) 2)) ∧
      (∀ w, w = true ∨ (y.cqTail - y.cqHead).toNat < (v - y.cqHead).toNat →
        exec (.cqHead f g v w) s = .next (s.bellRefused f (some (p.val, q.val)) 2))) ∧
    ((s.ord (1 + f)).d3 = false → ∀ w,
      (s.gqueue g = some (p.val, q.val) → x.ownedBy f = false →
        exec (.sqTail f g v w) s = .next (s.bellRefused f (some (p.val, q.val)) 1) ∧
        exec (.cqHead f g v w) s = .next (s.bellRefused f (some (p.val, q.val)) 1)) ∧
      (s.gqueue g = none → exec (.sqTail f g v w) s = .next (s.bellRefused f none 1) ∧
        exec (.cqHead f g v w) s = .next (s.bellRefused f none 1))) ∧
    ((s.ord (1 + f)).d3 = true → ∀ w, exec (.sqTail f g v w) s = .next s ∧ exec (.cqHead f g v w) s = .next s) ∧
    (∀ (i : W32) (r : Request) desc patch poison took, s.host.disabled = false → s.host.flushing = false → x.waits = [] →
      s.net.ctlOrder = [] → s.oldestUnread p q = some (i, false) → s.bellReq p q i = some r → s.instOf p q r.src = none →
      spWf Queue.zero x.queues = true → x.state ≠ .absent →
      let u := s.noteTook p took
      let d := u.weltRead p (y.descAddr i) 64 desc poison
      let w := match (if d.1.2 then none else (u.parcel p).patchAt r.segs d.1.1) with
        | some (a, n) => d.2.weltRead p a n patch poison
        | none => ((patch, false), d.2)
      let r' : Request := { r with
        tag := BitVec.ofNat 64 (field d.1.1 0 8), noirq := decide (field d.1.1 0x0D 1 % 2 = 1), ready := true
        ctx := field d.1.1 0x0C 1 % 16 }
      let ended (t : State) (code detail : Byte) : Prop :=
        (t.queue p q).waiting = y.waiting.filter (fun e => decide (e.src ≠ r.src)) ∧
        (t.queue p q).ready = y.ready.filter (fun e => decide (e.src ≠ r.src)) ∧
        (t.queue p q).records = y.records ++ [r'.record s.datum code detail 0 false false 0]
      (∃ k j, r.src = .bell k j) →
      ∃ t, exec (.launchDescriptorRead p q desc patch ⟨poison, took⟩) s = .next t ∧
        match x.fetch r' (x.gslot y.slot) d.1.1 w.1.1 (d.1.2 || w.1.2) with
        | .ok ws pb =>
          let read (e : Request) : Request := if e.src = r.src then { r' with windows := ws, pb := pb, segs := [] } else e
          (t.queue p q).waiting = y.waiting.map read ∧ (t.queue p q).ready = y.ready.map read ∧
          (t.queue p q).records = y.records
        | .bad code detail => ended t code detail
        | .fault _ ctx seg _ => ended t 3 (BitVec.ofNat 8 (ctx % 16 * 16 + seg % 16))) ∧
    (∀ desc patch poison took, s.host.disabled = true ∨ s.host.flushing = true ∨ s.oldestUnread p q = none →
      exec (.launchDescriptorRead p q desc patch ⟨poison, took⟩) s = .next s) ∧
    (∀ (r : Record) (i : W32) (ring : Rings), y.records.find? (fun r => !r.unread) = some r → r.src = .bell f i →
      y.rings = some ring → x.state ≠ .absent →
      let a := ring.cqBase + 32 * (y.cqTail.toNat % y.cqSize)
      let run : Instr := .completionRecordWrite p q
      let room := (y.cqTail - y.cqHead).toNat < y.cqSize
      s.host.disabled = false → s.host.flushing = false → s.host.dead = false → a < 2 ^ 52 →
      (room → (∀ e ∈ s.host.stores, e.parcel ≠ p.val) → s.lineOwned a = true →
        (∀ e ∈ s.host.stores, e.addr / 64 ≠ a / 64) →
        ∃ t, exec run s = .next t ∧ (t.queue p q).records = y.records.erase r ∧
          (t.queue p q).cqTail = y.cqTail + 1 ∧ (t.queue p q).sqUsed = y.sqUsed - 1 ∧
          t.out.head? = some (.cqWrite f a (r.bytes q (decide (y.cqTail.toNat / y.cqSize % 2 = 0)))) ∧
          (t.line (a / 64)).map (·.st) = some .m ∧
          (r.noirq = false → ∀ vec, ring.vector = some vec → spGet 0 (t.ord (1 + f)).msixDue vec ≠ 0)) ∧
      (room → (∀ e ∈ s.host.stores, e.parcel ≠ p.val) → s.lineOwned a = false → y.recAsked = false →
        ∃ t, exec run s = .next t ∧ t.out = .weltReq 1 (a / 64 * 64) :: s.out ∧ (t.queue p q).recAsked = true ∧
          (t.queue p q).records = y.records) ∧
      (¬ room → exec run s = .next s)) ∧
    (∀ k, let o := s.ord (1 + f)
      k < s.vectors → o.d3 = false → (spGet 0 o.msixDue k ≠ 0 → o.masked k = false →
          ∃ t, exec (.msixMessage f k) s = .next t ∧ t.out = .msix f k :: s.out) ∧
        (spGet 0 o.msixDue k ≠ 0 → o.masked k = true →
          ∃ t, exec (.msixMessage f k) s = .next t ∧ spGet false (t.ord (1 + f)).msixPending k = true ∧ t.out = s.out) ∧
        (spGet 0 o.msixDue k = 0 → exec (.msixMessage f k) s = .next s) ∧
        (spWf 0 o.msix = true → spWf OrdSt.zero s.ords = true → ∃ t, exec (.msixVectorUnmask f k) s = .next t ∧
          t.out = (if spGet false o.msixPending k then [.msix f k] else []) ++ s.out ∧ (t.ord (1 + f)).masked k = false))

/-! Orders (R115 to R125, R136, R142 to R145, R330 to R342, R511 to R513). -/

/-- R118, R143: an order of function f that the front end takes at once: the device runs, the order window is free, f owns
parcel p, the parcel takes the order in its state, the order is well formed, and no CONTROL request of a session waits to be
taken. -/
structure Sys2Proof.Safety.Takes (s : State) (h : OrdHdr) (f : Fin 8) (p : Fin 16) (o : Order) : Prop where
  fromFunction : h = { src := .fn f, id := h.id, resv := false, same := false }
  runs : s.dev = .running
  windowFree : (s.ord (1 + f)).busy = false
  owns : s.orderParcel (.fn f) = some p
  notBuilding : (s.parcel p).state ≠ .building
  notResetting : (s.parcel p).resetting = []
  notDraining : (s.parcel p).state = .draining → o.whileDraining = true
  wellFormed : o.wellFormed = true
  accepted : o.accepted (s.parcel p) s.vectors = true
  noneWaits : s.net.ctlOrder = []

/-- The command gives a next state in which the order of function f has ended with the code and detail, no other parcel has
changed, and `q` holds. -/
def Sys2Proof.Safety.Ends (i : Instr) (s : State) (h : OrdHdr) (f : Fin 8) (p : Fin 16) (code detail : Byte)
    (q : State → Prop) : Prop :=
  ∃ t, exec i s = .next t ∧ (t.ord (1 + f)).done = true ∧ (t.ord (1 + f)).busy = false ∧
    (t.ord (1 + f)).result = (h.id, code, detail) ∧ (∀ k, k ≠ p.val → t.parcel k = s.parcel k) ∧ q t

/-- The command gives a next state in which the order of function f is in progress, no other parcel has changed, and `q`
holds. -/
def Sys2Proof.Safety.Begins (i : Instr) (s : State) (f : Fin 8) (p : Fin 16) (q : State → Prop) : Prop :=
  ∃ t, exec i s = .next t ∧ (t.ord (1 + f)).busy = true ∧ (∀ k, k ≠ p.val → t.parcel k = s.parcel k) ∧ q t

/-- The parcel's numbered collections are in canonical form. -/
def Sys2Proof.Safety.ParcelWf (x : Parcel) : Prop :=
  spWf Queue.zero x.queues = true ∧ spWf GraphSlot.zero x.slots = true ∧ spWf none x.segs = true ∧ spWf none x.tables = true

/-- QUEUE_BIND, QUEUE_TIMEOUT, QUEUE_RINGS, QUEUE_UNBIND and its end: what a binding, a timeout and rings make of a queue.
The tasks of a persistent binding take their instances at once where the share has room for them. QUEUE_RESET ends every
waiting and ready request of a queue with ABORTED and DETAIL 1, and CANCEL those with its TAG with ABORTED and DETAIL 0,
where nothing runs; their windows end, and the records stand in order, ready before waiting. A CANCEL stays in progress
while a descriptor of the queue is unread, and ends with NOT_FOUND when it has met no request (R142). -/
def Obligations.QueueOrdersComplete : Prop :=
  (∀ (s : State) (h : OrdHdr) (f : Fin 8) (p : Fin 16) (q : Byte) (c : QueueCfg), ParcelWf (s.parcel p) →
    (s.parcel p).qcfg q.toNat = some c →
    let x := s.parcel p
    let y := s.queue p q.toNat
    (∀ (slot mode : Byte) (count : W16), Takes s h f p (.queueBind q.toNat slot.toNat mode.toNat count.toNat) →
      y.state = .unbound → (x.gslot slot.toNat).state = .loaded → x.slotHeld slot.toNat = false →
      (let n : BoundQ := ⟨c, decide (mode.toNat = 1), count.toNat, (x.gslot slot.toNat).hdr⟩
       bindCheck s.img.cfg x.cfg (insertBound n x.boundQueues) n = none) →
      Ends (.queueBind h q slot mode count) s h f p 0 0 (fun t =>
        let z := t.queue p q.toNat
        z.state = (if mode.toNat = 1 then .persistent else .launched) ∧ z.slot = slot.toNat ∧ z.count = 0 ∧
        z.tasks = count.toNat ∧
        ((∀ e ∈ x.queues, e.2.unseated = []) → s.shareHeld p + count.toNat ≤ x.cfg.instShare →
          z.unseated = [] ∧ t.nextInst = s.nextInst + count.toNat))) ∧
    (∀ ns : W64, Takes s h f p (.queueTimeout q.toNat ns.toNat) →
      Ends (.queueTimeout h q ns) s h f p 0 0 (fun t => t.queue p q.toNat = { y with timeout := ns.toNat })) ∧
    (∀ (ctx seg : Byte) (count : W16) (sq cq vec : W64) (w1 w2 : Window),
      Takes s h f p (.queueRings q.toNat ctx.toNat seg.toNat count.toNat sq.toNat cq.toNat vec.toNat) → y.state = .unbound →
      x.orderWindow ctx.toNat seg.toNat sq.toNat (64 * 2 ^ (count.toNat % 16)) true false [1] = .ok w1 →
      x.orderWindow ctx.toNat seg.toNat cq.toNat (32 * 2 ^ bits count.toNat 4 4) false true [1] = .ok w2 →
      Ends (.queueRings h q ctx seg count sq cq vec) s h f p 0 0 (fun t =>
        let z := t.queue p q.toNat
        z.sqTail = 0 ∧ z.cqHead = 0 ∧ z.cqTail = 0 ∧ z.sqUsed = 0 ∧ (z.rings.map (·.sqBase)) = some w1.base ∧
        (z.rings.map (·.cqBase)) = some w2.base ∧ z.rings.map (·.sqLog) = some (count.toNat % 16) ∧
        z.rings.map (·.cqLog) = some (bits count.toNat 4 4))) ∧
    (Takes s h f p (.queueUnbind q.toNat) → y.state = .launched →
      Begins (.queueUnbind h q) s f p (fun t => (t.queue p q.toNat).state = .unbinding ∧
        (t.queue p q.toNat).unbind = some ⟨.fn f, h.id, 0⟩)) ∧
    (∀ k : Fin 32, q.toNat = k.val → y.state = .unbinding → (∀ e ∈ s.instsOf p, e.2.q ≠ q.toNat) → y.ready = [] →
      (∀ r ∈ y.records, r.holdsShare = false) → y.unbind = some ⟨.fn f, h.id, 0⟩ → s.net.ctlOrder = [] →
      Ends (.queueUnbindComplete p k) s h f p 0 0 (fun t => (t.queue p q.toNat).state = .unbound ∧
        (t.queue p q.toNat).slot = 0))) ∧
  (∀ (s : State) (h : OrdHdr) (f : Fin 8) (p : Fin 16) (q : Byte) (c : QueueCfg),
    (s.parcel p).qcfg q.toNat = some c → s.insts = [] →
    let y := s.queue p q.toNat
    let reqs := y.ready ++ y.waiting
    let ends (code detail : Byte) (l : List Request) : List Record :=
      l.map (fun r => { r with windows := [] }.record s.datum code detail 0 false false 0)
    (∀ r ∈ reqs, ∃ k, r.src = .bell f k) →
    (Takes s h f p (.queueReset q.toNat) → y.state = .launched ∨ y.state = .persistent →
      Ends (.queueReset h q) s h f p 0 0 (fun t => (t.queue p q.toNat).waiting = [] ∧ (t.queue p q.toNat).ready = [] ∧
        (t.queue p q.toNat).records = y.records ++ ends 0x0B 1 reqs)) ∧
    (∀ tag : W64, Takes s h f p (.cancel q.toNat tag) →
      let hit (r : Request) : Bool := r.ready && decide (r.tag = tag)
      let done (t : State) : Prop :=
        (t.queue p q.toNat).waiting = y.waiting.filter (fun r => !hit r) ∧
        (t.queue p q.toNat).ready = y.ready.filter (fun r => !hit r) ∧
        (t.queue p q.toNat).records = y.records ++ ends 0x0B 0 (reqs.filter hit)
      ((∃ r ∈ reqs, hit r = true) → (∀ r ∈ reqs, r.ready = true) → Ends (.cancel h q tag) s h f p 0 0 done) ∧
      ((∃ r ∈ reqs, hit r = true) → (∃ r ∈ reqs, r.ready = false) → Begins (.cancel h q tag) s f p (fun t => done t ∧
        (t.parcel p).waits.length = (s.parcel p).waits.length + 1)) ∧
      ((∀ r ∈ reqs, r.ready = true ∧ r.tag ≠ tag) → Ends (.cancel h q tag) s h f p 6 3 (fun _ => True))))

/-- GRAPH_LOAD puts an EMPTY slot into LOADING over its window; its end, when every check of R151 passes, places the graph,
with zeroed tiles and accumulator on its cells (R221); a host image is read through the Welt, which delivers it.
GRAPH_UNLOAD puts a LOADED slot that no queue holds into UNLOADING, and its end leaves it EMPTY and its cells without a
graph. -/
def Obligations.GraphOrdersComplete : Prop :=
  ∀ (s : State) (h : OrdHdr) (f : Fin 8) (p : Fin 16) (slot : Byte), ParcelWf (s.parcel p) →
    let x := s.parcel p
    let g := x.gslot slot.toNat
    (∀ (ctx seg : Byte) (off len : W64) (w : Window),
      Takes s h f p (.graphLoad slot.toNat ctx.toNat seg.toNat off.toNat len.toNat) → g.state = .empty →
      x.orderWindow ctx.toNat seg.toNat off.toNat len.toNat true false [1, 2, 3] = .ok w → 280 ≤ len.toNat →
      len.toNat ≤ 16777216 → len.toNat % 8 = 0 →
      Begins (.graphLoad h slot ctx seg off len) s f p (fun t =>
        (t.parcel p).gslot slot.toNat = { g with state := .loading, window := some w, order := some ⟨.fn f, h.id, 0⟩ })) ∧
    (∀ (k : Fin 64) (w : Window) (img : HostImage), k.val = slot.toNat → g.state = .loading → g.window = some w →
      g.order = some ⟨.fn f, h.id, 0⟩ → s.cellsTested p = false → x.state ≠ .absent → s.net.ctlOrder = [] →
      (w.target = 1 → s.host.disabled = false ∧ s.host.flushing = false) →
      let host := if w.target = 1 then (s.noteTook p img.took).weltRead p w.base w.len img.bytes false else (([], false), s)
      let b := host.2.imageBytes p w img host.1
      let i := Instr.graphLoadComplete p k img
      let empty (t : State) : Prop := ((t.parcel p).gslot slot.toNat).state = .empty ∧ t.cells = s.cells
      match loadChecks s.img.cfg { x with cfg := { x.cfg with cells := x.cfg.cells &&& ~~~s.we.fences } }
         (fun k => spGet {} s.mg.slots k) b.1 w.len b.2.1 b.2.2 with
      | .loaded cells => Ends i s h f p 0 0 (fun t =>
        ((t.parcel p).gslot slot.toNat).state = .loaded ∧ ((t.parcel p).gslot slot.toNat).cells = cells ∧
        ((t.parcel p).gslot slot.toNat).window = none ∧
        ∀ n ∈ cells, (t.cell n).graph.map (·.slot) = some slot.toNat ∧ (t.cell n).parcel = some p ∧
          (t.cell n).tiles = [] ∧ (t.cell n).acc = [])
      | .refused reason _ => Ends i s h f p 4 (BitVec.ofNat 8 reason) empty
      | .poison dev => Ends i s h f p 7 (if dev then 2 else 1) empty) ∧
    (Takes s h f p (.graphUnload slot.toNat) → g.state = .loaded → x.slotHeld slot.toNat = false →
      Begins (.graphUnload h slot) s f p (fun t =>
        (t.parcel p).gslot slot.toNat = { g with state := .unloading, order := some ⟨.fn f, h.id, 0⟩ })) ∧
    (∀ k : Fin 64, k.val = slot.toNat → g.state = .unloading → g.order = some ⟨.fn f, h.id, 0⟩ →
      s.cellsTested p = false → spWf Cell.zero s.cells = true → x.state ≠ .absent → s.net.ctlOrder = [] →
      Ends (.graphUnloadComplete p k) s h f p 0 0 (fun t => ((t.parcel p).gslot slot.toNat).state = .empty ∧
        ∀ n ∈ g.cells, (t.cell n).graph = none))

/-- QUIESCE, RESUME, PARCEL_QUIET, SEG_SET, SEG_CLEAR, CTX_CLEAR, SEG_FENCE and its end, PARCEL_RESET and its end. A segment
order takes effect at once; where a request stamped before it is still unread, its result waits (R332). -/
def Obligations.ParcelOrdersComplete : Prop :=
  ∀ (s : State) (h : OrdHdr) (f : Fin 8) (p : Fin 16), ParcelWf (s.parcel p) →
    let x := s.parcel p
    let idle := s.net.ctlOrder = []
    let takes (i : Instr) (q : State → Prop) : Prop :=
      if s.unreadAll p = [] then Ends i s h f p 0 0 q else Begins i s f p q
    (Takes s h f p .quiesce → x.state = .active →
      Ends (.quiesce h) s h f p 0 0 (fun t => t.parcel p = { x with state := .draining, drained := false })) ∧
    (Takes s h f p .resume → x.state = .quiet →
      Ends (.resume h) s h f p 0 0 (fun t => t.parcel p = { x with state := .active })) ∧
    (s.isQuiet p = true → s.cellsTested p = false →
      exec (.parcelQuiet p) s = .next (s.modParcel p (fun x => { x with state := .quiet, drained := false }))) ∧
    (∀ (ctx seg mode : Byte) (count : W16) (vb tb lim : W64),
      let d := segDescOf mode.toNat count.toNat vb.toNat tb.toNat lim.toNat
      Takes s h f p (.segSet ctx.toNat seg.toNat mode.toNat count.toNat vb.toNat tb.toNat lim.toNat) →
      x.targetOk d = true → x.placementOk d (ctx.toNat * 16 + seg.toNat) = true →
      takes (.segSet h ctx seg mode count vb tb lim) (fun t =>
        (t.parcel p).seg ctx.toNat seg.toNat = some d ∧
        ∀ k j, k * 16 + j ≠ ctx.toNat * 16 + seg.toNat → (t.parcel p).seg k j = x.seg k j)) ∧
    (∀ ctx seg : Byte, Takes s h f p (.segClear ctx.toNat seg.toNat) →
      takes (.segClear h ctx seg) (fun t => (t.parcel p).seg ctx.toNat seg.toNat = none ∧
        ∀ k j, k * 16 + j ≠ ctx.toNat * 16 + seg.toNat → (t.parcel p).seg k j = x.seg k j)) ∧
    (∀ ctx : Byte, Takes s h f p (.ctxClear ctx.toNat) →
      takes (.ctxClear h ctx) (fun t => (∀ j, (t.parcel p).seg ctx.toNat j = none) ∧
        ∀ k j, k ≠ ctx.toNat → (t.parcel p).seg k j = x.seg k j)) ∧
    (∀ (mode : Byte) (base len : W64), Takes s h f p (.segFence mode.toNat base.toNat len.toNat) → mode.toNat < 4 →
      x.fenceConflict (mode.toNat % 4) base.toNat len.toNat = false →
      Begins (.segFence h mode base len) s f p (fun t => t.parcel p = { x with fences := x.fences ++
        [{ ref := ⟨.fn f, h.id, 0⟩, target := mode.toNat % 4, base := base.toNat, len := len.toNat }] })) ∧
    (∀ (e : Fence) (rest : List Fence), x.fences = e :: rest → e.ref = ⟨.fn f, h.id, 0⟩ → idle → x.state ≠ .absent →
      (∀ w ∈ s.windowsOf p, w.meets e.target e.base e.len = false) →
      Ends (.segFenceComplete p) s h f p 0 0 (fun t => (t.parcel p).fences = rest)) ∧
    (∀ mode : Byte, Takes s h f p (.parcelReset mode.toNat) → mode.toNat = 0 → s.instsOf p = [] →
      (∀ q ∈ x.queues, q.2.waiting = [] ∧ q.2.ready = []) → (∀ g ∈ x.slots, g.2.state ≠ .loading) →
      Begins (.parcelReset h mode) s f p (fun t => (t.parcel p).resetting = [some ⟨.fn f, h.id, 0⟩] ∧
        (t.parcel p).inCompute = false ∧ (t.parcel p).inWindow = false)) ∧
    (x.resetting = [some ⟨.fn f, h.id, 0⟩] → x.state = .active → s.cellsTested p = false → idle → x.slots = [] →
      x.queues = [] → Ends (.parcelResetComplete p) s h f p 0 0 (fun t => (t.parcel p).resetting = [] ∧
        (t.parcel p).state = .active ∧ (t.parcel p).segs = defaultSegs x.cfg))

/-! Sessions (R398 to R426). -/

/-- The session of parcel p with its entry, open, on a sub-port that receives; no CONTROL request waits or is in progress on
its ingress. -/
structure Sys2Proof.Safety.SessionOpen (s : State) (n : Fin 256) (p : Fin 16) (c : SessCfg) : Prop where
  listed : s.sessCfg n = some (p.val, c)
  receives : s.subReceives c.subport = true
  isOpen : (s.vg n).isOpen = true
  ingressFree : s.ingressBusy n = false
  ownFree : (s.vg n).ctl = []
  noneWaits : s.net.ctlOrder = []

/-- R403, R410, R411: a reliable message that is taken at once: its header and protection stand, it carries the next
sequence number within CLIMIT, and it acknowledges what the E40 has sent, nothing of which is outstanding. -/
structure Sys2Proof.Safety.NextMessage (s : State) (h : VHdr) (p : Fin 16) (c : SessCfg) : Prop extends
    SessionOpen s h.sid p c where
  headerOk : vgHeaderOk c h = true
  inOrder : h.seq = BitVec.ofNat 32 (s.vg h.sid).rxNext
  room : 0 < s.vgRoom h.sid
  nothingOut : (s.vg h.sid).unacked = []
  ackIs : h.ack = BitVec.ofNat 32 (s.vg h.sid).txNext
  nothingHeld : (s.vg h.sid).held = []

/-- The next reliable message of a session in a running device, by its kind: RANK and GATHER queue their request with the
windows and parameter block that its segments give; UPDATE takes its record into the log; ORDER gives its order (stated
of QUIESCE) to the front end, STAGE writes its bytes. Each raises the next expected sequence number by one. -/
def Sys2Proof.Safety.MessagesAreTaken : Prop :=
  ∀ (s : State) (h : VHdr) (p : Fin 16) (c : SessCfg), NextMessage s h p c → s.dev = .running →
    let x := s.parcel p
    let v := s.vg h.sid
    let req (b : WorkBody) (gather : Bool) (ws : List Window) (pb : List Byte) : Request :=
      { src := .sess h.sid v.inc gather (BitVec.ofNat 32 v.rxNext), tag := b.tag, stamp := s.datum, ctx := b.ctx.toNat
        noirq := false, ready := true, pb := pb, windows := ws, carried := 0, timeout := 0, segs := [], unbound := false }
    (∀ (b : WorkBody) (q : QueueCfg) ws pb, x.qcfg b.qindex.toNat = some q → s.arrivalCode p b.qindex.toNat = none →
      (s.queue p b.qindex.toNat).waiting.length < q.depth →
      x.translate (x.gslot (s.queue p b.qindex.toNat).slot) b.ctx.toNat b.pbOff.toNat b.pbLen.toNat none b.patch = .ok ws pb →
      (x.workBad b false = false → ∃ t, exec (.rank h b) s = .next t ∧ (t.vg h.sid).rxNext = v.rxNext + 1 ∧
        (t.queue p b.qindex.toNat).waiting = (s.queue p b.qindex.toNat).waiting ++ [req b false ws pb]) ∧
      (x.workBad b true = false → ∃ t, exec (.gather h b) s = .next t ∧ (t.vg h.sid).rxNext = v.rxNext + 1 ∧
        (t.queue p b.qindex.toNat).waiting = (s.queue p b.qindex.toNat).waiting ++ [req b true ws pb])) ∧
    (∀ body : List Byte, x.serves = true → updLen body = body.length → 64 ≤ body.length → x.updCode v.credit body = 0 →
      ∃ t, exec (.update h body) s = .next t ∧ (t.vg h.sid).rxNext = v.rxNext + 1 ∧
        (t.parcel p).log.map (·.bytes) = x.log.map (·.bytes) ++ [body]) ∧
    (∀ desc : List Byte, desc.length = 64 → decodeOrder desc = some (.quiesce, true) → x.ownerSess = some h.sid.val →
      x.resetting = [] → x.state = .active → ∃ t, exec (.order h desc) s = .next t ∧ (t.vg h.sid).rxNext = v.rxNext + 1 ∧
        (t.parcel p).state = .draining) ∧
    (∀ (w : WinBody) (data : List Byte) (win : Window), x.ownerSess = some h.sid.val → x.resetting = [] →
      x.state = .active → w.resv = false → data ≠ [] → data.length ≤ 8936 →
      x.orderWindow w.ctx.toNat w.seg.toNat w.off.toNat data.length false true [2] = .ok win →
      ∃ t, exec (.stage h w data) s = .next t ∧ (t.vg h.sid).rxNext = v.rxNext + 1 ∧
        t.stk.mem = (s.stackWrite p win.stks win.gran win.base data).stk.mem)

/-- OPEN on a sub-port that receives, under an installed key and with a MAC that verifies: a nonce not seen before starts an
incarnation, in place of the present one too, with the traffic keys of R408; the nonce of the present one is answered
again while nothing has been delivered (R406, R407). CLOSE ends an incarnation; ACK frees the message it acknowledges. -/
def Sys2Proof.Safety.SessionsOpenAndClose : Prop :=
  ∀ (s : State) (h : VHdr) (n : Fin 256) (p : Fin 16) (c : SessCfg), h.sid = n → spWf VgSess.zero s.net.sess = true →
    let v := s.vg n
    (∀ key nonce isn, s.sessCfg n = some (p.val, c) → s.subReceives c.subport = true → s.vgKey c.key = some key →
      h.bad = false → h.enc = false → h.auth = true → (s.parcel p).state ≠ .building →
      ((v.isOpen = true → v.nonce ≠ nonce) → nonce ∉ v.recent →
        ∃ t, exec (.sessOpen h nonce isn false) s = .next t ∧
          let w := t.vg n
          w.isOpen = true ∧ w.nonce = nonce ∧ w.rxNext = isn.toNat ∧ w.inc = v.inc + 1 ∧
          w.recent = (nonce :: v.recent).take 16 ∧ w.keyRx = trafficKey key nonce w.nonceE 1 ∧
          w.keyTx = trafficKey key nonce w.nonceE 2) ∧
      (v.isOpen = true → v.nonce = nonce → v.delivered = false → ∃ t, exec (.sessOpen h nonce isn false) s = .next t ∧
        t.vg n = { v with lastRx := s.datum, lastTx := s.datum })) ∧
    (SessionOpen s n p c → vgHeaderOk c h = true → (c.enc = true → v.unrelNew h.seq = true) →
      (∀ code, ∃ t, exec (.sessClose h code false) s = .next t ∧ (t.vg n).isOpen = false) ∧
      (∀ m : VgTx, v.unacked = [m] → m.seq < v.txNext → h.ack = BitVec.ofNat 32 v.txNext →
        ∃ t, exec (.sessAck h [] false) s = .next t ∧ (t.vg n).unacked = [] ∧ (t.vg n).isOpen = true))

/-- The four timers at a datum instant: RETRANSMIT_TIMEOUT sends the message whose deadline has come again, with twice its
RTO up to 20 ms, and after eight times closes the session; ACK_DELAY_EXPIRY acknowledges what the partner has not been
told; KEEPALIVE after 100 ms without a message sends one; IDLE_TIMEOUT after 2 s without one received closes (R418 to
R420). Before its time each only lets time pass. -/
def Sys2Proof.Safety.SessionTimers : Prop :=
  ∀ (s : State) (n : Fin 256) (at' : Nat), spWf VgSess.zero s.net.sess = true →
    let v := s.vg n
    let u := s.at at'
    (v.isOpen = true →
      (∀ m : VgTx, v.unacked = [m] →
        let run : Instr := .retransmitTimeout n (BitVec.ofNat 32 m.seq) at'
        (m.deadline ≤ u.datum → m.resent < 8 → ∃ t, exec run s = .next t ∧
          (t.vg n).unacked = [{ m with resent := m.resent + 1, rto := min 20000000 (2 * m.rto)
                                       deadline := u.datum + min 20000000 (2 * m.rto) }]) ∧
        (m.deadline ≤ u.datum → 8 ≤ m.resent → ∃ t, exec run s = .next t ∧ (t.vg n).isOpen = false) ∧
        (u.datum < m.deadline → exec run s = .next u)) ∧
      (v.ackDue = true → ∃ t, exec (.ackDelayExpiry n at') s = .next t ∧ (t.vg n).ackDue = false ∧
        (t.vg n).lastTx = u.datum) ∧
      (v.lastTx + 100000000 ≤ u.datum → ∃ t, exec (.keepalive n at') s = .next t ∧ (t.vg n).lastTx = u.datum ∧
        (t.vg n).txUnrel = v.txUnrel + 1) ∧
      (v.lastRx + 2000000000 ≤ u.datum → ∃ t, exec (.idleTimeout n at') s = .next t ∧ (t.vg n).isOpen = false)) ∧
    (v.isOpen = false ∨ v.ackDue = false → exec (.ackDelayExpiry n at') s = .next u) ∧
    (v.isOpen = false ∨ u.datum < v.lastTx + 100000000 → exec (.keepalive n at') s = .next u) ∧
    (v.isOpen = false ∨ u.datum < v.lastRx + 2000000000 → exec (.idleTimeout n at') s = .next u)

/-- RANK and GATHER queue their request; UPDATE takes its record into the log; ORDER is given to the front end, STAGE writes its
bytes; each raises the next expected sequence number by one. OPEN under an installed key, with a MAC that verifies and a
nonce not seen before, starts an incarnation; CLOSE ends it; ACK frees the message it acknowledges; the four timers resend,
acknowledge, or close the session (R406, R418 to R420, R425). -/
def Obligations.SessionsComplete : Prop := MessagesAreTaken ∧ SessionsOpenAndClose ∧ SessionTimers

/-! How an instruction meets its cell (R180, R194, R197, R216). -/

/-- R194: every word spells an instruction of the cell that fetches it, with the guard of its bits 31 to 28, of 8 bytes where
LEN is 1 and 4 where it is 0. R194, R197, R216: an instruction on a cell that issues nothing has no effect, but that on a
cell whose instance another cell's fault ended in the same hub-die cycle its own fault is still recorded. On a cell that
issues, PC at or past the end of its code faults with PC_RANGE, a 64-bit instruction off a multiple of 8 with MISALIGNED, a
reserved field, guard or form with ILLEGAL, in that order and whatever the guard is; and an instruction whose guard is
false only advances PC. -/
def Obligations.InstructionMeetsItsCell : Prop :=
  (∀ (cell : Fin 128) (w w2 : Nat), ∃ h, cellHdr (decodeCell cell w w2) = some (h, if w % 2 = 1 then 8 else 4) ∧
    h.cell = cell ∧ h.pn = decide (w / 2 ^ 31 % 2 = 1) ∧ h.pg = Fin.ofNat 8 (w / 2 ^ 28 % 8)) ∧
  ∀ (i : Instr) (h : Hdr) (len : Nat) (s : State), cellHdr i = some (h, len) →
    let c := s.cell h.cell
    let reserved := h.resv = true ∨ (h.pn = true ∧ h.pg = 0) ∨ reservedForm c i = true
    (s.issuing h.cell = false →
      ((∀ e ∈ s.cyc.faulted, e.1 ≠ h.cell.val) → exec i s = .next s) ∧
      ((∃ e ∈ s.cyc.faulted, e.1 = h.cell.val) → c.codeSize ≤ c.pc →
        let s' : State := { s with
          cyc := { s.cyc with faulted := s.cyc.faulted.filter (fun e => decide (e.1 ≠ h.cell.val)) } }
        exec i s = .next (s'.noteFault h.cell c.pc 3))) ∧
    (s.issuing h.cell = true →
      (c.codeSize ≤ c.pc → exec i s = .next (s.cellFault h.cell c.pc 3)) ∧
      (c.pc < c.codeSize →
        (len = 8 ∧ c.pc % 8 ≠ 0 → exec i s = .next (s.cellFault h.cell c.pc 2)) ∧
        ((len = 8 → c.pc % 8 = 0) →
          (reserved → exec i s = .next (s.cellFault h.cell c.pc 1)) ∧
          (¬ reserved → c.preg h.pg = h.pn → Retires i h len s c))))

/-- R216: a fault writes CAUSE and PC to cs.fault of its cell, queues one error log entry that carries both, and ends the
request of a launched instance with ABORTED and DETAIL 2; the instance is gone, and the records of every other queue are as
they were. -/
def Obligations.FaultEndsTheRequest : Prop :=
  ∀ (s : State) (cell : Fin 128) (pc cause i : Nat) (x : Inst) (r : Request) (f : Fin 8) (k : W32),
    (s.cell cell).inst = some i → s.inst i = some x → x.task = none → x.req = some r → r.src = .bell f k →
    x.running = true → x.overrun = false → s.insts = [(i, some x)] → (∀ n ∈ x.cells, (s.cell n).sbuf = [] ∧ (s.cell n).gather = []) →
    s.er.lost = false → s.er.queue = [] → spWf Cell.zero s.cells = true → pc < 65536 → cause < 256 →
    let t := s.cellFault cell pc cause
    (t.cell cell).faultPc.toNat = pc ∧ (t.cell cell).faultCause.toNat = cause ∧
    t.er.queue = [{ logEntry s 0x0206 with
      parcel := BitVec.ofNat 8 (s.cell cell).par, unit := BitVec.ofNat 16 cell, aux := BitVec.ofNat 8 cause
      arg := BitVec.ofNat 64 pc }] ∧
    t.inst i = none ∧ (∀ n ∈ x.cells, (t.cell n).inst = none) ∧
    (t.queue x.parcel x.q).records = (s.queue x.parcel x.q).records ++ [r.record s.datum 0x0B 2 0 false true (x.cells.headD 0)] ∧
    ∀ p q, (p, q) ≠ (x.parcel.val, x.q) → (t.queue p q).records = (s.queue p q).records

/-! The Awl (R278 to R302). -/

/-- R285: what an instruction that takes a 64-byte descriptor at `a` finds: the address is aligned and in the own store, no
load is outstanding, no buffered store overlaps `n` bytes there, and no word of them is poisoned. -/
structure Sys2Proof.Safety.DescAt (c : Cell) (cell : Nat) (a : W64) (n : Nat) : Prop where
  aligned : a.toNat % 64 = 0
  inStore : OwnRange c a n
  noLoad : c.loadOut = false
  noStore : NoOverlap c cell none a.toNat n
  clean : c.storeBad a.toNat n = false

/-- AGATH issues a gather into an idle slot with the descriptor's fields; AWAIT passes when the slots it names are idle and
leaves the state as it is otherwise; ATAB writes or clears a directory entry, or returns its code; AUPD appends its record
to the update log, or returns its code and counts it. -/
def Obligations.AwlInstructionsComplete : Prop :=
  ∀ (s : State) (h : Hdr) (rd rs1 : Fin 32),
    let n := h.cell.val
    let c := s.cell n
    let a := c.greg rs1
    let b := c.loadOwn a.toNat 64
    let x := s.parcel c.par
    let limit := match c.graph with | some g => g.storeBytes | none => 0
    (∀ k : Fin 2, Ready h 4 [rs1] s → DescAt c n a 64 → (c.slot k).phase = .idle → s.gatherLegal n b limit = true →
      let d := gatherDescOf b
      d.aligned = true →
      (∀ e ∈ [(d.idx, d.listBytes.1), (d.offs, d.listBytes.2.1), (d.wgt, d.listBytes.2.2)], e.2 ≠ 0 →
        s.winKind n e.1 ≠ .undefined ∧ s.reachable n e.1 e.2 true false = true) →
      Retires (.agath h rs1 (BitVec.ofNat 8 k)) h 4 s
        (c.setSlot k { GatherSlot.none with phase := .issued, desc := d, pc := c.pc })) ∧
    (∀ arg : Byte, Ready h 4 [] s → arg.toNat < 4 →
      let waits := ∃ k : Fin 2, arg.getLsbD k = true ∧ (c.slot k).phase ≠ .idle
      (¬ waits → Retires (.await h arg) h 4 s c) ∧ (waits → exec (.await h arg) s = .next s)) ∧
    (Ready h 4 [rd, rs1] s → DescAt c n a 64 → spWf Cell.zero s.cells = true → spWf none x.tables = true →
      spWf Parcel.zero s.parcels = true →
      (x.tableCode b ≠ 0 → Retires (.atab h rd rs1) h 4 s (c.setG rd (BitVec.ofNat 64 (x.tableCode b)))) ∧
      (x.tableCode b = 0 → ∃ t, exec (.atab h rd rs1) s = .next t ∧ t.cell n = past c 4 (c.setG rd 0) ∧
        (t.parcel c.par).table (field b 0 2) = (if field b 2 1 % 2 = 1 then some (tableDescOf b) else none) ∧
        ∀ tid, tid ≠ field b 0 2 → (t.parcel c.par).table tid = x.table tid)) ∧
    (∀ len, len = max 64 (updLen b) → Ready h 4 [rd, rs1] s → DescAt c n a len → spWf Cell.zero s.cells = true →
      let rec' := c.loadOwn a.toNat len
      let code := x.updCode (s.updFree c.par) rec'
      ∃ t, exec (.aupd h rd rs1) s = .next t ∧ t.cell n = past c 4 (c.setG rd (BitVec.ofNat 64 code)) ∧
        (t.parcel c.par).log.map (·.bytes) = x.log.map (·.bytes) ++ (if code = 0 then [rec'.take (updLen rec')] else []) ∧
        (t.parcel c.par).upReject = if code = 0 then x.upReject else satAdd32 x.upReject 1)

/-- GATHER_ACCEPT takes an issued gather whose table entry is valid and whose list lies in the own store: the indices below
ROWS are read, the others are bad; without the entry it ends at once with code 1. AWL_SECTOR_DATA brings one sector of a
row under the descriptor that the gather was accepted with (R280), where no aborted gather has reads out. GATHER_COMMIT, when every row has come, writes
the output rows and the status record and leaves the slot idle. -/
def Obligations.GathersComplete : Prop :=
  ∀ (s : State) (cell : Fin 128) (k : Fin 2), spWf Cell.zero s.cells = true →
    let c := s.cell cell
    let g := c.slot k
    let d := g.desc
    spWf GatherSlot.none c.gather = true → spWf 0 c.store = true →
    (∀ host, g.phase = .issued → (s.parcel c.par).table d.tid = none →
      ∃ t, exec (.gatherAccept cell k host) s = .next t ∧ ((t.cell cell).slot k).phase = .idle ∧
        (t.cell cell).loadOwn d.status 32 = statusRecord 1 0 0 0 0 0 0 s.datum) ∧
    (∀ host tb, g.phase = .issued → (s.parcel c.par).table d.tid = some tb → tb.dim * ofmtBytes d.ofmt ≤ d.ostride →
      d.nbag * tb.dim * ofmtBytes d.ofmt ≤ 16384 → d.iform = 0 → d.offs = 0 → d.pool ≠ 3 → d.wgt = 0 →
      d.idx.toNat < 2 ^ 52 →
      c.storeBad d.idx.toNat (4 * d.nidx) = false →
      let idx := (List.range d.nidx).map (fun j => leNat (c.loadOwn (d.idx.toNat + 4 * j) 4))
      let good := (List.range d.nidx).filter (fun j => decide (idx.getD j 0 < tb.rows))
      ∃ t, exec (.gatherAccept cell k host) s = .next t ∧
        let y := (t.cell cell).slot k
        y.phase = .reading ∧ y.table = tb ∧ y.idx = idx ∧
        y.rows.map (fun r => (r.pos, r.index, r.got, r.poison)) = good.map (fun j => (j, idx.getD j 0, [], none)) ∧
        y.badIdx = d.nidx - good.length ∧ ∀ a, (t.cell cell).storeByte a = c.storeByte a) ∧
    (∀ (pos sec : Nat) (r : GatherRow), g.phase = .reading → g.rows.find? (fun r => decide (r.pos = pos)) = some r →
      sec < g.table.rstride / 32 → (∀ e ∈ r.got, e.1 ≠ sec) → c.goneGather = [] →
      let a := g.table.base + r.index * g.table.rstride + 32 * sec
      let data := s.tableRead c.par g.table a
      ∃ t, exec (.awlSectorData cell k pos sec .clean) s = .next t ∧
        (((t.cell cell).slot k).rows.find? (fun r => decide (r.pos = pos))).map (·.got) = some ((sec, data.1) :: r.got) ∧
        (∀ j, j ≠ pos → ((t.cell cell).slot k).rows.find? (fun r => decide (r.pos = j)) =
          g.rows.find? (fun r => decide (r.pos = j))) ∧
        (t.cell cell).store = c.store) ∧
    (g.phase = .reading → (∀ r ∈ g.rows, r.got.length = g.table.rstride / 32) →
      g.table.dim * ofmtBytes d.ofmt ≤ d.ostride → (d.out + d.nbag * d.ostride ≤ d.status ∨ d.status + 32 ≤ d.out) →
      ∃ t, exec (.gatherCommit cell k) s = .next t ∧ ((t.cell cell).slot k).phase = .idle ∧
        (∀ j, j < d.nbag → (t.cell cell).loadOwn (d.out + j * d.ostride) (g.table.dim * ofmtBytes d.ofmt) =
          (g.outRow j).flatMap (fun e => leBytes (ofmtBytes d.ofmt) e.1)) ∧
        (t.cell cell).storeByte d.status = 0 ∧
        leNat ((t.cell cell).loadOwn (d.status + 4) 4) = g.rows.length % 2 ^ 32 ∧
        leNat ((t.cell cell).loadOwn (d.status + 24) 8) = s.datum % 2 ^ 64 ∧
        ∀ a, (∀ j, j < d.nbag → a < d.out + j * d.ostride ∨ d.out + j * d.ostride + g.table.dim * ofmtBytes d.ofmt ≤ a) →
          a < d.status ∨ d.status + 32 ≤ a → (t.cell cell).storeByte a = c.storeByte a)

/-! The Last image (R47 to R84). -/

/-- R74: a refused image changes nothing: whoever pushes it and over whichever path, the structure in force, every parcel,
cell and instance, every session and every byte of memory stay as they were; so do they when an accessor's push is refused.
A push to a mailbox that is busy is only logged (R358). -/
def Obligations.RefusedImageChangesNothing : Prop :=
  ∀ (s : State) (w : Pusher) (b : List Byte),
    let same (t : State) : Prop := t.img = s.img ∧ t.tk = s.tk ∧ t.parcels = s.parcels ∧ t.cells = s.cells ∧
      t.insts = s.insts ∧ t.net = s.net ∧ t.stk = s.stk ∧ t.host = s.host ∧ t.dev = s.dev
    ((s.pushImage w b).1 ≠ 0 → same (s.pushImage w b).2) ∧
    (∀ who : Accessor, (s.ord (accIndex who)).mbBusy = true →
      exec (.lastImagePush who b) s = .next (s.log { logEntry s 0x0602 with unit := accUnit who })) ∧
    (∀ who : Accessor, (s.ord (accIndex who)).mbBusy = false → (s.pushImage (pusherOf who) b).1 ≠ 0 →
      ∃ t, exec (.lastImagePush who b) s = .next t ∧ same t ∧ (t.ord (accIndex who)).pushDone = true ∧
        (t.ord (accIndex who)).pushCode = BitVec.ofNat 8 (s.pushImage (pusherOf who) b).1)

/-- LAST_IMAGE_PUSH, into a mailbox that is not busy, and PUSH judge an image: one that passes every check comes into force, a
parcel-local image rebuilding its parcel and a whole-device image every parcel, and a refused one changes nothing.
PARCEL_BUILD_END and DEVICE_BUILD_END end the builds, the second starting the tick machine with every parcel ACTIVE; with
ALIGN its first boundary is the first aligned one (R80). -/
def Obligations.ImagesComplete : Prop :=
  ∀ (s : State), spWf Parcel.zero s.parcels = true →
    (∀ (who : Accessor) (b : List Byte), (s.ord (accIndex who)).mbBusy = false → let code := (s.pushImage (pusherOf who) b).1
      ∃ t, exec (.lastImagePush who b) s = .next t ∧ (t.ord (accIndex who)).pushDone = true ∧
        (t.ord (accIndex who)).pushCode = BitVec.ofNat 8 code ∧
        (code = 0 → field b 0xE 1 = 1 → let k := field b 0xF 1
          (t.parcel k).state = .building ∧ (t.parcel k).cfg = parcelOf b (Fin.ofNat 16 k) ∧ (t.parcel k).queues = [] ∧
          (t.parcel k).slots = [] ∧ (t.parcel k).serial = BitVec.ofNat 64 (field b 0x10 8)) ∧
        (code = 0 → field b 0xE 1 ≠ 1 → t.img.cfg = devOf b ∧ t.img.on = true ∧ t.img.building = true ∧
          t.img.serial = BitVec.ofNat 64 (field b 0x10 8) ∧ t.tk = {} ∧
          ∀ p, p < 16 → if p < (devOf b).nparcel then (t.parcel p).state = .building ∧ (t.parcel p).cfg = parcelOf b p
            else (t.parcel p).state = .absent)) ∧
    (∀ (h : VHdr) (p : Fin 16) (c : SessCfg) (w : WinBody) (len : W32) (win : Window) (b : List Byte),
      NextMessage s h p c → s.dev = .running → s.ctlGate p h.sid w.resv = none →
      (s.parcel p).orderWindow w.ctx.toNat w.seg.toNat w.off.toNat len.toNat true false [2] = .ok win →
      s.stackRead p win.stks win.gran win.base (min len.toNat 1048577) = (b, false) →
      s.misplaced p win.stks win.gran win.base (min len.toNat 1048577) = false →
      ∃ t, exec (.push h w len) s = .next t ∧
        if (s.pushImage (.sess h.sid) b).1 = 0 then (t.parcel (field b 0xF 1)).state = .building ∧
          (t.parcel (field b 0xF 1)).cfg = parcelOf b (Fin.ofNat 16 (field b 0xF 1))
        else t.img = s.img ∧ t.cells = s.cells) ∧
    (∀ p : Fin 16, (s.parcel p).state = .building → s.img.building = false → s.cellsTested p = false →
      exec (.parcelBuildEnd p) s = .next (s.modParcel p (fun x => { x with buildDone := true })).freeMail) ∧
    (∀ at', s.img.building = true → (∀ n, n < 128 → s.testing n = false) → s.dev = .running ∨ s.dev = .unlasted →
      ∃ t, exec (.deviceBuildEnd at') s = .next t ∧ t.dev = .running ∧ t.datum = max s.datum at' ∧
        t.img.building = false ∧ t.tk = { run := true } ∧ t.lc.edge = t.lc.ctr ∧
        (let T := max 1 s.img.cfg.tickNs
         s.img.cfg.align = true → t.lc.len = T - t.datum % T) ∧
        ∀ p, (t.parcel p).state = if (s.parcel p).state = .building then .active else (s.parcel p).state)

/-! Survey and wear (R476 to R506). -/

/-- SURVEY_SLICE_START, once in a tick within the slice, puts the Welt's region and the due bank of a free cell under test;
SURVEY_TEST_END, up to 1 µs before the slice's end, without a failing word counts the test and takes the agent to its next
region, with one it writes a result record; SURVEY_ABANDON, from 1 µs before the slice's end on, leaves the agent at its
region. Outside these times, only time passes (R90, R485, R487). OSCILLATOR_MEASURE keeps the drifts it brings;
WEAR_HOURLY counts an hour and commits it; WEAR_COMMIT commits the running values; MARGIN_RUN starts a margining pass in
UNLASTED alone. -/
def Obligations.SurveyAndWearComplete : Prop :=
  (∀ (s : State) (at' : Nat) (a : Agent) (find : TestFind), spWf SvAgent.zero s.sv.agents = true →
    let u := s.at at'
    let late := u.lc.ctr - s.lc.edge
    let start := s.img.cfg.computeEnd
    let stop := start + s.img.cfg.survey * 1000
    let k := agentIndex a
    let g := s.agent k
    let opens := s.tk.run = true ∧ s.tk.started = true ∧ s.lc.surveyed = false ∧ start ≤ late ∧ late < stop
    (¬ opens → exec (.surveySliceStart at') s = .next u) ∧
    (opens → (∀ e ∈ s.sv.agents, e.2.testing = none) →
      ∃ t, exec (.surveySliceStart at') s = .next t ∧ t.datum = u.datum ∧ t.lc.surveyed = true ∧
        (s.svOn 3 = true → 12 ≤ s.img.cfg.survey → (t.agent 384).testing = some (s.agent 384).due) ∧
        (s.svOn 3 = false → t.agent 384 = s.agent 384) ∧
        (s.svOn 0 = true → ∀ n, n < 128 → s.we.fences.getLsbD n = false → (s.agent n).region < 256 →
          (s.cell n).inst = none → s.heldBack n = false → s.clockAllows n = true → s.cellFits n (s.agent n).due = true →
          (t.agent n).testing = some (s.agent n).due)) ∧
    (∀ pattern, g.testing = some pattern →
      (start ≤ late → late + 1000 ≤ stop → ∃ t, exec (.surveyTestEnd a find at') s = .next t ∧ t.datum = u.datum ∧
        t.sv.run = satAdd32 s.sv.run 1 ∧
        (find.fails = [] → t.agent k = SvAgent.completed k { g with testing := none } ∧ t.sv.failed = s.sv.failed ∧
          t.sv.head = s.sv.head) ∧
        (find.fails ≠ [] → t.sv.failed = satAdd32 s.sv.failed 1 ∧ t.sv.head = s.sv.head + 1)) ∧
      (late < start ∨ stop < late + 1000 → exec (.surveyTestEnd a find at') s = .next u) ∧
      (start ≤ late → late + 1000 < stop → exec (.surveyAbandon a find at') s = .next u) ∧
      (late < start ∨ stop ≤ late + 1000 →
        ∃ t, exec (.surveyAbandon a find at') s = .next t ∧ t.datum = u.datum ∧ t.sv.abandon = satAdd16 s.sv.abandon 1 ∧
        t.agent k = { g with testing := none } ∧ t.sv.run = s.sv.run ∧
        t.sv.head = if find.fails = [] then s.sv.head else s.sv.head + 1))) ∧
  (∀ (s : State),
    (∀ drifts : List (Fin 536 × W32), s.powered = true → (drifts.map (·.1)).Nodup → spWf 0 s.we.drift = true →
      ∃ t, exec (.oscillatorMeasure drifts) s = .next t ∧ t = { s with we := { s.we with drift := t.we.drift } } ∧
        (∀ e ∈ drifts, spGet 0 t.we.drift e.1 = e.2.toInt) ∧
        ∀ o, (∀ e ∈ drifts, e.1.val ≠ o) → spGet 0 t.we.drift o = spGet 0 s.we.drift o) ∧
    (∀ at', s.powered = true → ∃ t, exec (.wearHourly at') s = .next t ∧ t.datum = max s.datum at' ∧
      t.we.life = s.we.life + 1 ∧ t.we.stLife = t.we.life ∧ t.we.stUnits = t.we.units ∧ t.we.stCyc = s.th.cyc ∧
      (t.we.life < 168 → t.we.eolNow = s.we.eolNow ∧ t.we.eolRated = s.we.eolRated ∧ t.we.limit = s.we.limit)) ∧
    (∀ who, s.ownerAccess who = true →
      (s.live = true → exec (.wearCommit who) s =
        .next { s with we := { s.we with stUnits := s.we.units, stLife := s.we.life, stCyc := s.th.cyc } }) ∧
      (s.dev = .unlasted → exec (.marginRun who) s = .next { s with stk := { s.stk with marginRun := true } }) ∧
      (s.dev ≠ .unlasted → exec (.marginRun who) s = .next s)))

/-! What the management owner writes (R65, R383 to R386, R404, R472, R507 to R520, R529, R536 to R549, R562, R564). -/

/-- MG_ORDER of the management owner with the device RUNNING or UNLASTED: COLD starts start-up over with the datum at 0 and
nothing in the cells, parcels and stacks; WARM keeps the stacks and the datum; RETIRE retires. Another endpoint's order
ends with NOT_AUTHORISED, a function's has no effect, and during start-up an order of the owner ends with BUSY. -/
def Obligations.DeviceOrdersComplete : Prop :=
  ∀ (s : State) (who : Accessor),
    (s.ownerAccess who = true → s.hasOwner = true → s.dev = .running ∨ s.dev = .unlasted →
      (∃ t, exec (.mgOrderCold who) s = .next t ∧ t.dev = .starting 0 ∧ t.datum = 0 ∧ t.cells = [] ∧ t.parcels = [] ∧
        t.insts = [] ∧ t.stk.mem = [] ∧ t.tk = {} ∧ t.mg.resetCause = 2 ∧ t.mg.slots = s.mg.slots ∧
        t.img.floor = s.img.floor ∧ t.img.slotA = s.img.slotA ∧ t.img.slotB = s.img.slotB ∧ t.pending = s.pending) ∧
      (s.insts = [] → (∀ k, k < 385 → s.testing k = false) →
        ∃ t, exec (.mgOrderWarm who) s = .next t ∧ t.dev = .starting 3 ∧ t.datum = s.datum ∧ t.parcels = [] ∧
          t.stk.mem = s.stk.mem ∧ t.tk = {} ∧ t.mg.resetCause = 3 ∧ t.mg.slots = s.mg.slots ∧ t.ob.cycle = s.ob.cycle ∧
          t.pending = s.pending) ∧
      (∃ t, exec (.mgOrderRetire who) s = .next t ∧ t.dev = .retired ∧ t.mg.retire = 4 ∧ t.tk.run = false ∧
        t.mg.orderDone = true ∧ t.mg.orderCode = 0)) ∧
    (∀ i ∈ [Instr.mgOrderCold who, .mgOrderWarm who, .mgOrderRetire who],
      (∀ f, who = .fn f → exec i s = .next s) ∧
      (∀ eid k, who = .mgmt eid k → s.hasOwner = true →
        (s.ownerAccess who = false →
          exec i s = .next { s with mg := { s.mg with orderDone := true, orderCode := 3 } }) ∧
        (s.ownerAccess who = true → ∀ n, s.dev = .starting n →
          exec i s = .next { s with mg := { s.mg with orderDone := true, orderCode := 4 } })))

/-- KEY_SLOT_PROGRAM writes an empty slot with a valid key and refuses one that is programmed; KEY_SLOT_REVOKE sets the
revoke bit of a programmed slot; SERIAL_FLOOR_WRITE raises the floor, up to the serial in force, and never lowers it; a sender
that is not the management owner changes nothing. SA_INSTALL, SA_DELETE and SA_ACTIVATE on a sub-port of a port with MACSEC,
and SESSION_KEY_INSTALL and _DELETE: what a record that passes its checks makes of the associations and of the keys; the
session keys' deletion closes the open sessions that use them. -/
def Obligations.KeyRecordsComplete : Prop :=
  (∀ (s : State) (who : Accessor) (slot : Byte) (qx qy : BitVec 384) (v : W64),
    let done (code : Byte) : Mg := { s.mg with keyDone := true, keyCode := code }
    let k := s.keySlot slot.toNat
    let key : KeySlot := { prog := true, revoked := false, qx := qx, qy := qy }
    (s.ownerAccess who = true → slot.toNat < 4 →
      (k.prog = false → exec (.keySlotProgram who slot qx qy false) s = .next (
        if Config.keyValid qx qy = true then { s with mg := { done 0 with
          slots := spPut KeySlot.zero key slot.toNat s.mg.slots, fusing := some (slot.toNat, s.datum) } }
        else { s with mg := done 4 })) ∧
      (k.prog = true → exec (.keySlotProgram who slot qx qy false) s = .next { s with mg := done 2 } ∧
        exec (.keySlotRevoke who slot 0 0 false) s = .next { s with mg := { done 0 with
          slots := spPut KeySlot.zero { k with revoked := true } slot.toNat s.mg.slots } }) ∧
      (k.prog = false → exec (.keySlotRevoke who slot 0 0 false) s = .next { s with mg := done 3 })) ∧
    (s.ownerAccess who = true → s.live = true →
      (s.img.floor < v → v ≤ s.img.serial → exec (.serialFloorWrite who v) s =
        .next { s with img := { s.img with floor := v, floorOld := some (s.img.floor, s.datum) } }) ∧
      (v ≤ s.img.floor ∨ s.img.serial < v → exec (.serialFloorWrite who v) s = .next s)) ∧
    (s.ownerAccess who = false → ∀ r, exec (.keySlotProgram who slot qx qy r) s = .next s ∧
      exec (.keySlotRevoke who slot qx qy r) s = .next s ∧ exec (.serialFloorWrite who v) s = .next s)) ∧
  (∀ (s : State) (who : Accessor) (r : SaRec) (index : W16) (key : BitVec 256), s.ownerAccess who = true →
    spWf SubPort.zero s.net.subs = true → spWf none s.net.keys = true →
    let i := r.subport.toNat
    let u := s.sub i
    let a := r.an.toNat
    let sa : Sa := { pn := r.pn.toNat, ssci := r.ssci, salt := r.salt, sak := r.sak }
    let ends (c : Instr) (q : State → Prop) : Prop := ∃ t, exec c s = .next t ∧ t.net.msecDone = true ∧ t.net.msecCode = 0 ∧
      (∀ j, j ≠ i → t.sub j = s.sub j) ∧ q t
    (s.saCode 1 r = 0 →
      (r.dir = 0 → ends (.saInstall who r) (fun t => (t.sub i).txSa = spPut none (some sa) a u.txSa ∧
        (t.sub i).cur = some (u.cur.getD a))) ∧
      (r.dir ≠ 0 → ends (.saInstall who r) (fun t =>
        spGet none (t.sub i).rxSa (r.rsc.toNat * 4 + a) = some sa ∧ spGet none (t.sub i).rxSci r.rsc.toNat = some r.sci))) ∧
    (s.saCode 2 r = 0 → spWf none u.txSa = true → spWf none u.rxSa = true → ends (.saDelete who r) (fun t =>
      (r.dir = 0 → spGet none (t.sub i).txSa a = none) ∧
      (r.dir ≠ 0 → spGet none (t.sub i).rxSa (r.rsc.toNat * 4 + a) = none))) ∧
    (s.saCode 3 r = 0 → ends (.saActivate who r) (fun t => (t.sub i).cur = some a ∧ (t.sub i).txSa = u.txSa)) ∧
    (s.live = true → index.toNat < 256 →
      exec (.sessionKeyInstall who index key false) s = .next { s with net := { s.net with
        keys := spPut none (some key) index.toNat s.net.keys, keyDone := true, keyCode := 0 } } ∧
      ((s.vgKey index.toNat).isSome = true → s.net.ctlOrder = [] →
        ∃ t, exec (.sessionKeyDelete who index false) s = .next t ∧ t.vgKey index.toNat = none ∧ t.net.keyCode = 0 ∧
          ∀ n p c, n < 256 → s.sessCfg n = some (p, c) → c.key = index.toNat → (t.vg n).isOpen = false)))


/-- POWER_LIMIT_WRITE, ERROR_LOG_CLEAR, ERROR_LOG_ENTRY_WRITE, TRACE_START, _STOP, _RECONFIGURE, TRACE_RECORD_WRITE,
COUNTER_SELECT, SNAPSHOT_LATCH and PPS_OUT: what each leaves in its registers and stores. -/
def Obligations.LogsAndCountersComplete : Prop :=
  ∀ (s : State) (who : Accessor),
    (s.ownerAccess who = true →
      (∀ v : W32, s.live = true → v.toNat < 65536 →
        (600 ≤ v.toNat → v.toNat ≤ 1150 → exec (.powerLimitWrite who v) s = .next { s with th := { s.th with limit := v } }) ∧
        (v.toNat < 600 ∨ 1150 < v.toNat → ∃ t, exec (.powerLimitWrite who v) s = .next t ∧ t = { s with er := t.er } ∧
          (s.er.lost = false → s.er.queue = [] → t.er.queue = [{ logEntry s 0x0A06 with arg := v.setWidth 64 }]))) ∧
      (s.er.lost = false → exec (.errorLogClear who) s = .next { s with er := { s.er with slots := [], count := 0 } }) ∧
      (∀ v : W64, let kept := v &&& 0xCF000000FFFF8FFE
        (s.ob.ctrl.getLsbD 63 = false → v.getLsbD 63 = true → ∃ t, exec (.traceStart who v) s = .next t ∧
          t.ob.run = true ∧ t.ob.full = false ∧ t.ob.wptr = 0 ∧ t.ob.drop = 0 ∧ t.ob.cause = 0 ∧ t.ob.ctrl = kept ∧
          t.ob.queue.map (fun r => (r.cls, r.event, r.arg)) = [(15, 1, kept)] ∧ t = { s with ob := t.ob }) ∧
        (s.ob.ctrl.getLsbD 63 = true → v.getLsbD 63 = false → ∃ t, exec (.traceStop who v) s = .next t ∧
          t.ob.run = false ∧ t.ob.full = false ∧ t.ob.ctrl = kept ∧ t.ob.cause = (if s.ob.run then 1 else s.ob.cause) ∧
          t = { s with ob := t.ob }) ∧
        (s.ob.ctrl.getLsbD 63 = v.getLsbD 63 →
          exec (.traceReconfigure who v) s = .next { s with ob := { s.ob with ctrl := kept } })) ∧
      (∀ (i : Fin 1024) (v : W32), ∃ t, exec (.counterSelect who i v) s = .next t ∧ t = { s with ob := t.ob } ∧
        (spWf 0 s.ob.cnt = true → spGet 0 t.ob.cnt i = 0) ∧ (spWf 0 s.ob.csel = true → spGet 0 t.ob.csel i = v &&& 0x83FFFFFF) ∧
        ∀ j, j ≠ i.val → spGet 0 t.ob.cnt j = spGet 0 s.ob.cnt j ∧ spGet 0 t.ob.csel j = spGet 0 s.ob.csel j)) ∧
    (∀ (e : LogEntry) (rest : List LogEntry), s.er.queue = e :: rest →
      (e.cont = none → ∃ t, exec (.errorLogEntryWrite false) s = .next t ∧ t.er.queue = rest ∧ t.er.count = s.er.count + 1 ∧
        spGet none t.er.slots (logSlot s.er.count) = some ⟨e.bytes s.er.count s.epoch32, false⟩ ∧
        t = { s with er := t.er, ob := t.ob }) ∧
      (s.er.lost = false → s.net.ctlOrder = [] → ∃ t, exec (.errorLogEntryWrite true) s = .next t ∧
        t.er.lost = true ∧ t.er.lostFirst = e.code ∧ t.er.queue = [] ∧ t.er.alertCause.getLsbD 0 = true)) ∧
    (∀ (x : TrRec) (rest : List TrRec), s.ob.queue = x :: rest → spWf 0 s.stk.mem = true →
      let cap := s.img.cfg.traceCap
      let n := s.ob.wptr.toNat
      cap ≠ 0 → (s.ob.ctrl.getLsbD 62 = true → n < cap) →
      s.stk.lost.getLsbD (s.img.cfg.tracePlace (32 * (n % cap)) / 2 ^ 36) = false →
      ∃ t, exec .traceRecordWrite s = .next t ∧ t.ob.queue = rest ∧ t.ob.wptr = s.ob.wptr + 1 ∧ t.ob.loss = false ∧
        t.getRecord (n % cap) = x.bytes n s.ob.loss ∧
        (s.ob.ctrl.getLsbD 62 = true → n + 1 = cap → t.ob.full = true ∧ t.ob.run = false ∧ t.ob.cause = 2)) ∧
    (∀ (f : Fin 8) (n : Snap), s.ob.snap = some n → ∃ t, exec (.snapshotLatch (.fn f)) s = .next t ∧
      t = { s with ords := t.ords } ∧ (t.ord (1 + f)).snapDone = true ∧
      (t.ord (1 + f)).snap = (s.ord (1 + f)).bank n ∧ (t.ord (1 + f)).snapDatum = some n.datum ∧
      (t.ord (1 + f)).wraps = [] ∧ (t.ord (1 + f)).resel = []) ∧
    (∀ at', (max s.datum at') % 1000000000 = 0 → 2 ≤ s.net.ptp.state → ∃ t, exec (.ppsOut at') s = .next t ∧
      t.datum = max s.datum at' ∧ t.out = .pps (max s.datum at' / 1000000000) :: s.out)

/-! Registers (R19 to R23, R534, R554 to R571). -/

/-- R23: a BAR0 access whose width is not 4 or 8 bytes, that is not aligned, or that is wider than its register returns zero
for a read and has no effect for a write; each gives the error log one entry, for which its input queue has room. -/
def Obligations.BadAccessReadsZero : Prop :=
  ∀ (s : State) (off width : Nat), s.net.ctlOrder = [] →
    ((width ≠ 4 ∧ width ≠ 8) ∨ off % width ≠ 0 ∨
      ∃ row i b, findReg (regView off).1.map (regView off).2 = some (row, i, b) ∧ row.widthOk b width = false) →
    let entry (who : Accessor) : LogEntry := { logEntry s 0x0201 with unit := accUnit who, arg := BitVec.ofNat 64 off }
    let logged (who : Accessor) : State := s.log (entry who)
    (∀ who, s.er.lost = false → s.er.queue.foldl (fun n e => n + if e.cont.isSome then 2 else 1) 0 < 64 →
      logged who = { s with er := { s.er with queue := s.er.queue ++ [entry who] } }) ∧
    (∀ (who : Accessor) (v : W64), s.reaches who = true → exec (.registerWrite who off width v) s = .next (logged who)) ∧
    (∀ (f : Fin 8) (b : Bool), s.reaches (.fn f) = true → exec (.bar0Read f off width b) s =
      .next { logged (.fn f) with out := .bar0 (1 + f) 0 :: s.out })

/-- Registers that a 32-bit write by the management owner changes, by offset, with what the value makes of the state. -/
def Sys2Proof.Safety.writeRows : List (Nat × (State → W32 → State)) :=
  [ (0xA0000, fun s v => { s with sv := { s.sv with ctrl := v &&& 0x00FFFF0F } }),
    (0x10020, fun s v => { s with tk := { s.tk with overrun := s.tk.overrun &&& ~~~v } }),
    (0x9001C, fun s v => { s with th := { s.th with emergs := s.th.emergs &&& ~~~v } }),
    (0x50000, fun s v => { s with net := { s.net with ptp := { s.net.ptp with domain := BitVec.ofNat 8 (v.toNat % 128) } } }),
    (0x00010, fun s v => { s with mg := { s.mg with orderDone := s.mg.orderDone && !v.getLsbD 8 } }) ]

/-- Registers of 32 bits that read a value of the state, by offset. -/
def Sys2Proof.Safety.readRows : List (Nat × (State → Nat)) :=
  [ (0x00008, fun s => s.mg.step * 256 + s.dev.code), (0x00014, fun s => s.mg.resetCause.toNat),
    (0x10008, fun s => if s.tk.run then s.tk.count.toNat else 0), (0x10020, fun s => if s.tk.run then s.tk.overrun.toNat else 0),
    (0xA0000, fun s => s.sv.ctrl.toNat), (0xC0010, fun s => s.er.dropped.toNat) ]

/-- REGISTER_WRITE by the management owner changes what the register holds, and by a function changes no register that the
management plane alone writes; LOWER_HALF_READ and BAR0_READ answer values of the state; the upper half of a 64-bit register
reads as it stood when its lower half was read; a function in D3hot is not answered; MAILBOX_GO pushes the mailbox's bytes,
and on a busy mailbox is only logged. -/
def Obligations.RegisterAccessesComplete : Prop :=
  ∀ (s : State) (who : Accessor) (f : Fin 8), s.net.ctlOrder = [] → s.live = true →
    spWf OrdSt.zero s.ords = true →
    (s.ownerAccess who = true → ∀ e ∈ writeRows, ∀ v : W32,
      exec (.registerWrite who e.1 4 (v.setWidth 64)) s = .next (e.2 s v)) ∧
    (f.val < s.img.cfg.nfunc → ∀ e ∈ writeRows, ∀ v : W64, exec (.registerWrite (.fn f) e.1 4 v) s = .next s) ∧
    (s.reaches who = true → ∀ e ∈ readRows, e.2 s < 2 ^ 32 → exec (.lowerHalfRead who e.1 false) s =
      .next (s.emit (.bar0 (accIndex who) (BitVec.ofNat 64 (e.2 s))))) ∧
    (s.reaches who = true → ∃ t, exec (.lowerHalfRead who 0x50018 false) s = .next t ∧
      t.out = .bar0 (accIndex who) (BitVec.ofNat 64 (s.datum % 2 ^ 32)) :: s.out ∧
      ∀ later, ∃ u, exec (.lowerHalfRead who 0x5001C false) { t with datum := later } = .next u ∧
        u.out = .bar0 (accIndex who) (BitVec.ofNat 64 (s.datum / 2 ^ 32 % 2 ^ 32)) :: t.out) ∧
    (s.reaches (.fn f) = true → exec (.bar0Read f 0x100020 8 false) s = .next (s.emit (.bar0 (1 + f) s.ob.cycle))) ∧
    ((s.ord (1 + f)).d3 = true → ∀ off width b, exec (.bar0Read f off width b) s = .next s) ∧
    (s.reaches who = true → ∀ (k : Fin 16) (v : W32), ∃ t, exec (.registerWrite who (0x800000 + 4 * k) 4 (v.setWidth 64)) s = .next t ∧
      t = { s with ords := t.ords } ∧ ((s.ord (accIndex who)).window.length = 64 →
        field (t.ord (accIndex who)).window (4 * k) 4 = v.toNat)) ∧
    (s.reaches who = true → ∀ v : W32,
      let o := s.ord (accIndex who)
      let r := s.pushImage (pusherOf who) ((List.range (v.toNat % 2 ^ 21)).map o.mailByte)
      (v.getLsbD 31 = false → exec (.mailboxGo who v) s = .next s) ∧
      (v.getLsbD 31 = true → o.mbBusy = true →
        exec (.mailboxGo who v) s = .next (s.log { logEntry s 0x0602 with unit := accUnit who })) ∧
      (v.getLsbD 31 = true → o.mbBusy = false → ∃ t, exec (.mailboxGo who v) s = .next t ∧
        (t.ord (accIndex who)).pushDone = true ∧ (t.ord (accIndex who)).pushCode = BitVec.ofNat 8 r.1 ∧ t.parcels = r.2.parcels))

/-! The network (R372 to R399, R583). -/

/-- MODULE_INSERT, MODULE_READY, MODULE_REMOVAL, SUBPORT_UP, SUBPORT_DOWN, and the next hops of a sub-port that receives:
NEIGHBOR_SOLICITATION and ARP_REQUEST for an own address are answered, NEIGHBOR_RESOLVED keeps an address,
NEIGHBOR_REFRESH solicits again and gives up after three. -/
def Obligations.PortsComplete : Prop :=
  ∀ (s : State) (p : Fin 4) (i : Fin 16), spWf SubPort.zero s.net.subs = true → spWf 0 s.net.mods = true →
    let m := spGet 0 s.net.mods p
    let mode := (s.port p).mode
    let u := s.sub i
    let modIs (t : State) (v : Nat) : Prop := spGet 0 t.net.mods p = v ∧ ∀ k, k ≠ p.val → spGet 0 t.net.mods k = spGet 0 s.net.mods k
    (∀ h : BitVec 2, ∃ t, exec (.moduleInsert p h) s = .next t ∧ modIs t (1 + 4 * h.toNat)) ∧
    (m % 4 = 1 → mode ≠ 0 → s.powered = true → ∃ t, exec (.moduleReady p) s = .next t ∧
      modIs t (m / 4 * 4 + if m / 4 = mode then 2 else 3)) ∧
    (∃ t, exec (.moduleRemoval p) s = .next t ∧ modIs t 0 ∧ ∀ k, k < 4 → (t.sub (4 * p + k)).up = false) ∧
    (s.portsTrain = true → s.subExists i = true → spGet 0 s.net.mods (i / 4) % 4 = 2 →
      ∃ t, exec (.subportUp i) s = .next t ∧ t.sub i = { u with up := true }) ∧
    (u.up = true → ∃ t, exec (.subportDown i) s = .next t ∧ (t.sub i).up = false ∧ (t.sub i).flaps = satAdd16 u.flaps 1) ∧
    (s.subReceives i = true →
      (∀ src mac, s.ownAddr i false ≠ 0 → ∃ t, exec (.neighborSolicitation i (s.ownAddr i false) src mac) s = .next t ∧
        (t.sub i).txq.map (fun f => (f.dst, f.etype)) = u.txq.map (fun f => (f.dst, f.etype)) ++ [(mac, 0x86DD)]) ∧
      (∀ target src mac, v4Mapped target = s.ownAddr i true → v4Mapped target ≠ 0 →
        ∃ t, exec (.arpRequest i target src mac) s = .next t ∧
          (t.sub i).txq.map (fun f => (f.dst, f.etype)) = u.txq.map (fun f => (f.dst, f.etype)) ++ [(mac, 0x0806)]) ∧
      (∀ e mac, u.neigh = [e] → ∃ t, exec (.neighborResolved i e.addr mac) s = .next t ∧
        (t.sub i).neigh = [{ e with mac := some mac, asked := 0 }])) ∧
    (∀ e, u.neigh = [e] → ∃ t, exec (.neighborRefresh i e.addr) s = .next t ∧
      (t.sub i).neigh = [if 3 ≤ e.asked then { e with mac := none } else { e with asked := e.asked + 1 }] ∧
      (t.sub i).txq = u.txq ++ [solicitation e.addr])

/-- FRAME_RECEIVE drops a frame with a bad check sequence and counts it, and gives what a good one carries of Vangir to its
session; with MACSEC a frame under an association is verified first. FRAME_TRANSMIT sends the oldest frame, under MACSEC
with the packet number that it spends. -/
def Obligations.FramesComplete : Prop :=
  ∀ (s : State) (i : Fin 16) (fr : Frame), s.subExists i = true → (s.sub i).up = true → s.net.ctlOrder = [] →
    spWf 0 (s.sub i).ctr = true →
    let u := s.sub i
    let msec := (s.port (i / 4)).macsec
    (fr.fcsOk = false → exec (.frameReceive i fr) s = .next (s.bump i 2)) ∧
    (fr.fcsOk = true → 64 ≤ fr.size → fr.size ≤ 9216 → s.addrOk i fr.dst = true →
      (fr.tag = none → msec = false → etypeOk fr.etype = true → fr.payload = .other →
        exec (.frameReceive i fr) s = .next (s.bump i 0)) ∧
      (fr.tag = none → msec = true → etypeOk fr.etype = true →
        exec (.frameReceive i fr) s = .next ((s.bump i 0).bump i 14)) ∧
      (∀ v6 src sport hdr msg p c, fr.tag = none → msec = false → etypeOk fr.etype = true → s.sessCfg hdr.sid = some (p, c) →
        c.subport = i.val → c.peerAddr = src → c.peerPort = sport.toNat → s.ownAddr i (!v6) ≠ 0 →
        fr.etype = (if v6 then 0x86DD else 0x0800) →
        fr.payload = .vangir v6 true true (s.ownAddr i (!v6)) src sport s.img.cfg.vgPort hdr msg →
        exec (.frameReceive i fr) s = .next ((s.bump i 0).vgReceive hdr msg).pump) ∧
      (∀ tag, fr.tag = some tag → msec = true → u.rxSci = [] →
        exec (.frameReceive i fr) s = .next ((s.bump i 0).bump i 12))) ∧
    (∀ (f : TxFrame) (rest : List TxFrame), u.txq = f :: rest → (∀ x ∈ u.txq, x.ptp = false) →
      (msec = false → ∃ t, exec (.frameTransmit i) s = .next t ∧ (t.sub i).txq = rest ∧ t.out = .frame i none f :: s.out ∧
        spGet 0 (t.sub i).ctr 1 = spGet 0 u.ctr 1 + 1) ∧
      (∀ a x, msec = true → u.usable = some (a, x) → ∃ t, exec (.frameTransmit i) s = .next t ∧ (t.sub i).txq = rest ∧
        t.out = .frame i (some (a, x.pn)) f :: s.out ∧ spGet none (t.sub i).txSa a = some { x with pn := x.pn + 1 } ∧
        (t.sub i).cur = some a))

/-- On a port that receives, PTP_SYNC and PTP_DELAY_RESP keep what they measure, and a measurement of the source filters the
offset; PTP_ANNOUNCE qualifies a time transmitter at its third Announce after the first, and the only qualified one is the
source. At ANNOUNCE_TIMEOUT of the only source the datum enters HOLDOVER. The filter is a free value (log entry 21). -/
def Obligations.PtpCompletes : Prop :=
  ∀ (s : State) (p : Fin 4), s.net.ctlOrder = [] →
    let on := s.ptpReceives p = true
    let x := s.ptpPort p
    let t := s.net.ptp
    (on → ∀ origin corr rx,
      (t.src ≠ some p.val → ∃ u, exec (.ptpSync p origin corr rx) s = .next u ∧
        u.ptpPort p = { x with sync := some (origin + corr, (rx : Int)) } ∧ u.datum = s.datum) ∧
      (∀ d : Int, t.src = some p.val → x.delay = some d → ∃ u, exec (.ptpSync p origin corr rx) s = .next u ∧
        u.net.ptp.offset = Config.filterOffset t.offset (rx - (origin + corr) - d - x.asym.toInt))) ∧
    (on → ∀ (t1 t2 : Int) (t3 t4 : Nat) (corr : Int), x.sync = some (t1, t2) → x.delay.isSome = true →
      ∃ u, exec (.ptpDelayResp p t3 t4 corr) s = .next u ∧
        u.ptpPort p = { x with delay := some ((t2 - t1 + (t4 - t3 - corr)) / 2) }) ∧
    (on → ∀ d, x.qualified = false →
      (x.announces < 3 → ∃ u, exec (.ptpAnnounce p d) s = .next u ∧
        u.ptpPort p = { x with data := some d, announces := x.announces + 1 } ∧ u.net.ptp.src = t.src) ∧
      (3 ≤ x.announces → t.src = none → (∀ q, q < 4 → (s.ptpPort q).qualified = false) →
        ∃ u, exec (.ptpAnnounce p d) s = .next u ∧ u.net.ptp.src = some p.val ∧ u.net.ptp.state = 1 ∧
          (u.ptpPort p).qualified = true)) ∧
    (s.ptpReceives p = false → ∀ origin corr rx t3 t4 d, exec (.ptpSync p origin corr rx) s = .next s ∧
      exec (.ptpDelayResp p t3 t4 corr) s = .next s ∧ exec (.ptpAnnounce p d) s = .next s) ∧
    (t.src = some p.val → t.state ≠ 2 → (∀ q, q < 4 → q ≠ p.val → (s.ptpPort q).qualified = false) →
      spWf PtpPort.zero t.ports = true →
      ∃ u, exec (.announceTimeout p) s = .next u ∧ u.net.ptp.src = none ∧ u.net.ptp.state = 3 ∧ u.net.ptp.holdFrom = s.datum ∧
        (u.ptpPort p).qualified = false ∧ (u.ptpPort p).asym = x.asym)

/-! The host link and the Welt (R347 to R370, R507, R510, R521). -/

/-- LINK_UP, LINK_DOWN, PERST_ASSERT, PERST_DEASSERT, FUNCTION_LEVEL_RESET, POWER_STATE_CHANGE and the write-back and disable
controls, while no access or store waits for the host: what each leaves of the link, the functions and the lines; the
controls do nothing while the host reaches no function 0. The mailbox that a function-level reset leaves undefined is a
free value. -/
def Obligations.HostLinkCompletes : Prop :=
  ∀ (s : State) (f : Fin 8), (∀ n, n < 128 → (s.cell n).ext = [] ∧ (s.cell n).gone = []) → s.host.stores = [] →
    s.net.ctlOrder = [] → spWf OrdSt.zero s.ords = true → spWf none s.host.lines = true → spWf Cell.zero s.cells = true →
    let h := s.host
    let dirty := (h.lines.filter (fun e => match e.2 with | some l => decide (l.st = .m) | none => false)).length
    let gone : HostPort := { h with
      up := false, flit := false, cache := false, degraded := false, speed := 0, width := 0, flushing := false
      disabled := false, invalid := false, dead := true, lines := [], lostLines := satAdd32 h.lostLines dirty }
    (∀ width speed flit cache, s.mayTrain = true → h.up = false → 1 ≤ width → width ≤ 16 → 1 ≤ speed → speed ≤ 6 →
      ∃ t, exec (.linkUp width speed flit cache) s = .next t ∧
        t.host = { h with
          up := true, flit := flit, cache := cache, degraded := decide (width < 16) || decide (speed < 6), speed := speed
          width := width, dead := false } ∧
        (t.ord (f + 1)).event = 0 ∧ (t.ord (f + 1)).msix = [] ∧ (t.ord (f + 1)).d3 = false) ∧
    (h.up = true → (s.dev ≠ .running ∨ ∀ p, p < 16 → (s.parcel p).state = .absent ∨ (s.parcel p).cfg.ownerSess = true) →
      exec .linkDown s = .next { s with host := gone }) ∧
    (s.sled = false →
      (s.dev = .running → s.img.on = true → s.img.cfg.card = true → s.insts = [] → (∀ k, k < 385 → s.testing k = false) →
        ∃ t, exec .perstAssert s = .next t ∧ t.dev = .starting 3 ∧ t.mg.resetCause = 4 ∧ t.host.perst = true ∧
          t.datum = s.datum ∧ t.tk = {} ∧ t.stk.mem = s.stk.mem) ∧
      (s.dev = .running → s.img.on = false →
        exec .perstAssert s = .next ({ s with host := { h with perst := true } }.log (logEntry s 0x1002))) ∧
      (s.dev = .retired → ∃ t, exec .perstAssert s = .next t ∧ t.dev = .retired ∧ t.host.up = false ∧ t.host.lines = [] ∧
        (t.ord (f + 1)).event = 0) ∧
      exec .perstDeassert s = .next { s with host := { h with perst := false } }) ∧
    (s.sled = true → exec .perstAssert s = .next s ∧ exec .perstDeassert s = .next s) ∧
    (f.val < s.img.cfg.nfunc →
      ((∀ p, p < 16 → (s.parcel p).ownedBy f = false) → ∃ t, exec (.functionLevelReset f) s = .next t ∧
        t = { s with ords := t.ords, fresh := s.fresh + 1 } ∧
        t.ord (f + 1) = { s.ord (f + 1) with
          event := 0, msix := [], msixPending := [], msixDue := [], d3 := false, mboxFree := [(0, 0x100000, s.fresh)] }) ∧
      (∀ d3, ∃ t, exec (.powerStateChange f d3) s = .next t ∧ t = { s with ords := t.ords } ∧
        t.ord (f + 1) = { s.ord (f + 1) with d3 := d3 } ∧ ∀ a, a ≠ f.val + 1 → t.ord a = s.ord a)) ∧
    (s.hasFn0 = true → exec .cacheWritebackInvalidate s = .next { s with host := { h with flushing := true } } ∧
      ∀ b, exec (.cacheDisable b) s = .next { s with host := { h with disabled := b } }) ∧
    (s.hasFn0 = false → exec .cacheWritebackInvalidate s = .next s ∧ ∀ b, exec (.cacheDisable b) s = .next s) ∧
    (h.flushing = true → ∃ t, exec .cacheWritebackComplete s = .next t ∧ t.host.flushing = false ∧ t.host.invalid = true ∧
      t.host.lines = [] ∧ t.out = .weltReq 4 0 :: t.out.tail ∧
      ∀ k l, s.line k = some l → l.st = .m → Output.hostWrite (64 * k) l.bytes l.poison ∈ t.out)

/-- HOST_SNOOP: SnpData leaves the line shared, SnpInv takes it, SnpCur changes nothing, and an M line's bytes travel.
HOST_RESPONSE fills the line and serves the load that waits for it, and the line stays where a way of its parcel is not
masked (that it leaves again where all are is the model's choice, log entry 87); with nothing waiting it changes nothing.
That a poisoned M line leaves the Welt at SnpData is the model's reading (log entry 52). -/
def Obligations.SnoopsAndResponsesComplete : Prop :=
  ∀ (s : State) (addr : Nat),
    let k := addr / 64
    (s.line k = none → ∀ kind, exec (.hostSnoop kind addr) s = .next (s.emit (.snoopRsp (64 * k) false none none false))) ∧
    (∀ kind l, spWf none s.host.lines = true → s.line k = some l →
      let after : Option LineSt := match kind with
        | .inv => none
        | .data => if l.poison = true ∧ l.st = .m then none else some .s
        | .cur => some l.st
      ∃ t, exec (.hostSnoop kind addr) s = .next t ∧
        t.out = .snoopRsp (64 * k) true after (if l.st = .m then some l.bytes else none) l.poison :: s.out ∧
        t.line k = after.map (fun st => { l with st := st }) ∧ ∀ j, j ≠ k → t.line j = s.line j) ∧
    (∀ a took, (∀ n, n < 128 → s.waitingOn n k = [] ∧ s.goneOn n k = []) → s.storesOn k = [] → s.recordsOn k = [] →
      exec (.hostResponse addr a took) s = .next s) ∧
    (∀ (n : Nat) (e : ExtAcc) (rd : Fin 32) (size : Nat) (signed : Bool) (b : List Byte) (took : Nat),
      n < 128 → (s.cell n).ext = [e] → e.kind = .load rd size signed → e.target = .host → e.done = false → e.addr / 64 = k →
      k < 2 ^ 46 → e.addr % 64 + size ≤ 64 → b.length = 64 → (∀ m, m < 128 → m ≠ n → (s.cell m).ext = []) →
      (∀ m, m < 128 → (s.cell m).sweep = none ∧ (s.cell m).gone = []) → s.host.stores = [] → s.recordsOn k = [] →
      s.host.dead = false → s.host.disabled = false → s.host.flushing = false →
      s.line k = none → spWf none s.host.lines = true → spWf Cell.zero s.cells = true →
      let base := s.wayBase (s.cell n).par
      let ways := (s.parcel (s.cell n).par).cfg.weltWays
      ∃ t, exec (.hostResponse addr (.line b) took) s = .next t ∧
        t.cell n = ({ s.cell n with ext := [] } : Cell).setG rd (extend ((b.drop (e.addr % 64)).take size) signed) ∧
        (base + ways ≤ 16 → (∃ w, w < ways ∧ spGet false s.host.masked (k % 65536 * 16 + (base + w)) = false) →
          ∃ l, t.line k = some l ∧ l.st = .s ∧ l.bytes = b ∧ l.poison = false) ∧
        ((∀ w, w < ways → spGet false s.host.masked (k % 65536 * 16 + (base + w)) = true) → t.line k = none))

/-! Temperature and power (R458 to R474, R577 to R583). -/

/-- The throttle, cap and limiter commands, while the clocks run: CELL_THROTTLE_STEP lowers the hottest candidate, one step
per 2 µs, CELL_CLOCK_RISE raises every cell that may rise, STACK_CAP_STEP, one step per 100 µs, and STACK_CAP_RELEASE move
the caps, POWER_LIMITER_STEP lowers and holds every cell above its floor, and POWER_EMERGENCY enters the emergency. That a
step before its interval does nothing is the model's reading (log entry 107). -/
def Obligations.ThrottlesComplete : Prop :=
  ∀ (s : State) (at' : Nat), s.powered = true →
    let now := max s.datum at'
    let u : State := s.at at'
    (argMax s.cellTemp (s.ungated.filter s.throttles) = none → exec (.cellThrottleStep at') s = .next u) ∧
    (since now s.th.lastCell 2000 = false → exec (.cellThrottleStep at') s = .next u) ∧
    (∀ n, argMax s.cellTemp (s.ungated.filter s.throttles) = some n → since now s.th.lastCell 2000 = true →
      ∃ t, exec (.cellThrottleStep at') s = .next t ∧ t.th.lastCell = some now ∧
      t.datum = now ∧ t.cell n = { s.cell n with clk := (s.cell n).clk - 1 } ∧ (∀ m, m ≠ n → t.cell m = s.cell m) ∧
      (s.floorOf n < (s.cell n).clk → (t.thCell n).low = some now ∧ t.th.emergs = s.th.emergs) ∧
      ((s.cell n).clk ≤ s.floorOf n → (t.thCell n).emerg = true ∧
        t.th.emergs = if (s.thCell n).emerg then s.th.emergs else satAdd32 s.th.emergs 1)) ∧
    (∃ t, exec (.cellClockRise at') s = .next t ∧ t.datum = now ∧ ∀ n, n < 128 → t.cell n =
      if (s.cell n).graph.isSome = true ∧ u.rises n = true then { s.cell n with clk := (s.cell n).clk + 1 } else s.cell n) ∧
    (since now s.th.lastCap 100000 = false → exec (.stackCapStep at') s = .next u) ∧
    (∀ k, argMax s.stackTemp ((List.range 8).filter s.canTighten) = some k → since now s.th.lastCap 100000 = true →
      ∃ t, exec (.stackCapStep at') s = .next t ∧ t.th.lastCap = some now ∧
      (t.thStack k).cap = (s.thStack k).cap + 1 ∧
      (t.thStack k).emerg = ((s.thStack k).emerg || decide (s.capFree k ≤ (s.thStack k).cap)) ∧
      ∀ j, j ≠ k → t.thStack j = s.thStack j) ∧
    (∃ t, exec (.stackCapRelease at') s = .next t ∧ t.datum = now ∧ ∀ k, k < 8 →
      let x := s.thStack k
      (t.thStack k).cap = if 0 < x.cap ∧ since now x.release 1000000 = true ∧ s.stackTemp k < (if x.emerg then 776 else 696)
        then x.cap - 1 else x.cap) ∧
    (s.powerAvg ≤ s.effLimit → exec (.powerLimiterStep at') s = .next u) ∧
    (s.effLimit < s.powerAvg → since now s.th.lastStep 50000 = true → s.th.pemerg = false →
      ∃ t, exec (.powerLimiterStep at') s = .next t ∧ t.th.lastStep = some now ∧ ∀ n, n < 128 →
        ((s.cell n).graph.isSome = true → s.floorOf n < (s.cell n).clk →
          t.cell n = { s.cell n with clk := (s.cell n).clk - 1 } ∧ (t.thCell n).held = true) ∧
        ((s.cell n).graph = none ∨ (s.cell n).clk ≤ s.floorOf n → t.cell n = s.cell n)) ∧
    (∀ a, s.th.overAt = some a → s.th.pemerg = false → a + 2000000 ≤ now → ∃ t, exec (.powerEmergency at') s = .next t ∧
      t.th.pemerg = true ∧ t.th.emergs = satAdd32 s.th.emergs 1)

/-- SENSOR_SAMPLE keeps the last four samples of a sensor, and shuts the device down at a unit's limit; RAIL_FAULT,
MAIN_INPUT_LOSS, PWR_EN_LOW, CBL_PRES_DEASSERT and STANDBY_SUPPLY_LOSS: what each leaves. A hard shutdown latches the unit and
its reading in TH_HOTSTOP and loses cells, parcels and stacks; the fuses and the serial floor outlive every loss of power. -/
def Obligations.SuppliesAndShutdownComplete : Prop :=
  ∀ (s : State),
    (∀ (at' : Nat) (n : Fin 128) (v : W16), s.powered = true → spWf ThCell.zero s.th.cells = true →
      let temps := (v.toInt :: (s.thCell n).temps).take 4
      let smp : Sample := { cells := [(n, v)], stks := [], hub := [], vr := [], cool := none, power := none, filtered := [] }
      let now := max s.datum at'
      (meanOf temps < 880 → (∀ m, m < 128 → m ≠ n.val → s.cellTemp m < 880) → (∀ k, k < 8 → s.stackTemp k < 840) →
        s.hubTemp < 880 → (∀ k, k < 8 → s.vrTemp k < 1000) → ∃ t, exec (.sensorSample at' smp) s = .next t ∧ t.dev = s.dev ∧
          t.datum = now ∧ (t.thCell n).temps = temps ∧ ∀ m, m ≠ n.val → (t.thCell m).temps = (s.thCell m).temps) ∧
      (880 ≤ meanOf temps → (∀ m, m < n.val → s.cellTemp m < 880) → ∃ t, exec (.sensorSample at' smp) s = .next t ∧
        t.dev = .halted ∧ t.cells = [] ∧ t.parcels = [] ∧ t.stk.mem = [] ∧ t.tk = {} ∧ t.th.hotstopPin = true ∧
        t.th.hotstop = BitVec.ofNat 32 (2 ^ 31 + 2 ^ 24 + n.val * 2 ^ 16 + temp16 (meanOf temps)) ∧
        t.th.hotstopDatum = BitVec.ofNat 64 now)) ∧
    (∀ stage : Fin 11, s.dev ≠ .off → s.dev ≠ .halted →
      (stage.val ≠ 0 → ∃ t, exec (.railFault stage) s = .next t ∧ t.dev = .halted ∧ t.cells = [] ∧ t.parcels = [] ∧
        t.th.hotstop = BitVec.ofNat 32 (2 ^ 31 + 4 * 2 ^ 24 + (0x80 + stage.val) * 2 ^ 16 + temp16 s.vrHottest) ∧
        t.mg.slots = s.mg.slots) ∧
      (stage.val = 0 → exec (.railFault stage) s = .next s)) ∧
    (s.dev ≠ .off → s.dev ≠ .halted → ∃ t, exec .mainInputLoss s = .next t ∧ t.dev = .off ∧ t.cells = [] ∧ t.parcels = [] ∧
      t.stk.mem = [] ∧ t.tk = {} ∧ t.er = s.er ∧ t.mg.slots = s.mg.slots ∧ t.img.floor = s.img.floor) ∧
    (s.dev = .halted → exec .mainInputLoss s = .next { s with mg := { s.mg with rails := false } }) ∧
    (s.sled = true → exec .pwrEnLow s = exec .mainInputLoss s) ∧ (s.sled = false → exec .pwrEnLow s = .next s) ∧
    (∀ a b, s.powered = true → s.th.capacity = some (a, b) →
      exec (.cblPresDeassert 0) s = .next { s with th := { s.th with capacity := some (0, b) } } ∧
      exec (.cblPresDeassert 1) s = .next { s with th := { s.th with capacity := some (a, 0) } }) ∧
    (∃ t, exec .standbySupplyLoss s = .next t ∧ t.dev = .off ∧ t.er = {} ∧ t.cells = [] ∧ t.mg.standby = false ∧
      t.stk.pprUsed = s.stk.pprUsed ∧ (s.mg.fusing = none → t.mg.slots = s.mg.slots) ∧
      (s.img.floorOld = none → t.img.floor = s.img.floor))

/-! Start-up (R479 to R481, R514, R515). -/

/-- The steps of start-up: POWER_ON, STACK_TRAINING, POWER_ON_SELF_TEST (every stack and cell is zero after it),
POST_PACKAGE_REPAIR, IMAGE_FETCH (the valid slot with the higher SERIAL, slot A winning a tie; none: UNLASTED),
STARTUP_BUILD and READY. -/
def Obligations.StartUpCompletes : Prop :=
  ∀ (s : State), spWf Parcel.zero s.parcels = true →
    (∀ sense, s.dev = .off → s.sled = false → s.mg.standby = false →
      let w (i : Nat) : Nat := senseWatts (sense.getD i (false, false, false))
      ∃ t, exec (.powerOn sense) s = .next t ∧ t.dev = .starting 0 ∧ t.datum = 0 ∧ t.mg.standby = true ∧ t.mg.resetCause = 1 ∧
        t.th.capacity = some (w 0, w 1) ∧ t.mg.rails = decide (600 ≤ 66 + w 0 + w 1)) ∧
    (s.dev = .starting 0 → s.mg.rails = true → ∃ t, exec (.stackTraining []) s = .next t ∧ t.dev = .starting 2 ∧
      t.stk.trained = 0xFF ∧ t.mg.step = 3) ∧
    (∀ find, s.dev = .starting 2 → ∃ t, exec (.powerOnSelfTest find) s = .next t ∧
      (find.channels = [] → find.hub = false → t.dev = .starting 3 ∧ t.stk.mem = [] ∧ t.stk.poison = [] ∧
        t.stk.unsettled = [] ∧ t.cells = []) ∧
      (find.logic = [] → find.cells = [] → find.welt = [] → find.ranges = [] → find.channels = [] → find.hub = false →
        t.we.fences = 0 ∧ t.er = s.er)) ∧
    (s.dev = .starting 3 → ∃ t, exec .postPackageRepair s = .next t ∧ t.dev = .starting 4 ∧ t.stk.mem = s.stk.mem ∧
      ∀ k, k < 8 → spGet [] s.stk.remap k = [] → spGet [] t.stk.remap k = []) ∧
    (s.dev = .starting 4 →
      let ra := s.slotReason s.img.slotA s.img.badA false
      let rb := s.slotReason s.img.slotB s.img.badB false
      let serial (b : List Byte) : Nat := field b 0x10 8
      ∃ t, exec (.imageFetch false false) s = .next t ∧ t.img.reasonA = BitVec.ofNat 8 ra ∧ t.img.reasonB = BitVec.ofNat 8 rb ∧
        if ra = 0 ∧ (rb ≠ 0 ∨ serial s.img.slotB ≤ serial s.img.slotA) then t.dev = .starting 5 ∧ t.img.on = true ∧
          t.img.sel = 1 ∧ t.img.serial = BitVec.ofNat 64 (serial s.img.slotA)
        else if rb = 0 then t.dev = .starting 5 ∧ t.img.on = true ∧ t.img.sel = 2 ∧
          t.img.serial = BitVec.ofNat 64 (serial s.img.slotB)
        else t.dev = .unlasted ∧ t.img.sel = 0) ∧
    (s.dev = .starting 5 → ∃ t, exec .startupBuild s = .next t ∧ t.dev = .starting 6 ∧ t.tk = {} ∧ t.img.on = true ∧
      t.img.before = [] ∧ t.img.building = true) ∧
    (∀ at', s.dev = .starting 6 → ∃ t, exec (.ready at') s = .next t ∧ t.dev = .running ∧ t.datum = max s.datum at' ∧
      t.tk = { run := true } ∧ t.lc.len = s.img.cfg.firstTick (max s.datum at') ∧
      ∀ p, (s.parcel p).state = .building → (t.parcel p).state = .active)

/-! Stacked memory and hub errors (R443 to R454, R522, R525). -/

/-- REFRESH changes counters alone; SCRUB_READ changes no stored byte and counts its sector; REMAP_COPY_END ends the oldest
copy, but not that of a row in a range under test; STACK_LOST records the loss once and retires the device; HUB_UNCORRECTABLE_ERROR counts and retires;
MARGIN_PASS_END keeps its results. -/
def Obligations.StackedMemoryCompletes : Prop :=
  ∀ (s : State) (k : Fin 8),
    (∀ pch bank, ∃ t, exec (.refresh k pch bank) s = .next t ∧ t = { s with ob := t.ob }) ∧
    (∀ sector ecc, s.powered = true → sector < 3 * 2 ^ 29 → ∃ t, exec (.scrubRead k sector ecc) s = .next t ∧
      t.stk.mem = s.stk.mem ∧
      (s.stk.scrubCount + 1 < 8 * (3 * 2 ^ 29) → t.stk.scrubCount = s.stk.scrubCount + 1 ∧ t.stk.scrubPasses = s.stk.scrubPasses) ∧
      (s.stk.scrubCount + 1 = 8 * (3 * 2 ^ 29) → t.stk.scrubCount = 0 ∧ t.stk.scrubPasses = satAdd32 s.stk.scrubPasses 1)) ∧
    (((spGet [] s.stk.copying k).take 1).any (s.rowTested k) = true → exec (.remapCopyEnd k) s = .next s) ∧
    (((spGet [] s.stk.copying k).take 1).any (s.rowTested k) = false → ∃ t, exec (.remapCopyEnd k) s = .next t ∧ t = { s with stk := { s.stk with copying := t.stk.copying } } ∧
      (spWf [] s.stk.copying = true → spGet [] t.stk.copying k = (spGet [] s.stk.copying k).drop 1)) ∧
    (∀ (chan : Fin 16) (cause : Byte), s.powered = true → s.stk.lost.getLsbD k = false → cause ≠ 0 → cause.toNat ≤ 6 →
      s.parcels = [] → s.host.lines = [] → s.net.ctlOrder = [] →
      ∃ t, exec (.stackLost k chan cause) s = .next t ∧ t.dev = .retired ∧ t.tk.run = (s.tk.run && decide (s.dev = .retired)) ∧
        t.stk.lost.getLsbD k = true ∧ (s.dev ≠ .retired → t.mg.retire = 1) ∧
        (s.stk.loss.getLsbD 15 = true → t.stk.loss = s.stk.loss) ∧
        (s.stk.loss.getLsbD 15 = false → t.stk.lossDatum = BitVec.ofNat 64 s.datum ∧
          t.stk.loss = BitVec.ofNat 32 (2 ^ 15 + cause.toNat * 256 + chan.val * 16 + k.val))) ∧
    (∀ unit addr, s.powered = true → s.dev ≠ .retired → s.parcels = [] → s.host.lines = [] → s.net.ctlOrder = [] →
      ∃ t, exec (.hubUncorrectableError unit addr) s = .next t ∧ t.dev = .retired ∧ t.mg.retire = 2 ∧ t.tk = {} ∧
        t.er.sramUe = satAdd32 s.er.sramUe 1) ∧
    (∀ results, s.stk.marginRun = true → exec (.marginPassEnd results) s =
      .next { s with stk := { s.stk with margin := results.take 1024, marginRun := false } })

/-! The management bus (R584 to R598). -/

/-- The addresses, PLDM base, sensors, PDRs, events and register accesses of the management bus, with the standby supply
present: the answer that each message gets, and what it leaves. Command, completion and response codes are those of the
published standards (log entry 40). -/
def Obligations.ManagementBusCompletes : Prop :=
  ∀ (s : State), s.mg.standby = true →
    let answers (i : Instr) (type : Nat) (bytes : List Byte) : Prop := exec i s = .next (s.emit (.mctp type 0 bytes))
    (∀ a : BitVec 7, (s.mg.addr = none → exec (.i3cEntdaa a) s = .next { s with mg := { s.mg with addr := some a } } ∧
        exec (.i3cSetdasa 0x4A a) s = .next { s with mg := { s.mg with addr := some a } }) ∧
      (s.mg.addr ≠ none → exec (.i3cEntdaa a) s = .next s ∧ exec (.i3cSetdasa 0x4A a) s = .next s) ∧
      ∀ b, b ≠ 0x4A → exec (.i3cSetdasa b a) s = .next s) ∧
    (∀ e : Byte, (e ≠ 0 → e ≠ 0xFF →
        exec (.setEndpointId e) s = .next ({ s with mg := { s.mg with eid := e } }.emit (.mctp 0 0 [1, 0, e])) ∧
        exec (.setTid e) s = .next ({ s with mg := { s.mg with tid := e } }.emit (.mctp 1 0 [1, 0]))) ∧
      (e = 0 ∨ e = 0xFF → answers (.setEndpointId e) 0 [1, 2, s.mg.eid] ∧ answers (.setTid e) 1 [1, 2]) ∧
      exec (.setEventReceiver e true) s = .next ({ s with mg := { s.mg with receiver := some e } }.emit (.mctp 1 0 [4, 0])) ∧
      answers (.setEventReceiver e false) 1 [4, 2]) ∧
    answers .getEndpointId 0 [2, 0, s.mg.eid] ∧ answers .getEndpointUuid 0 ([3, 0] ++ Config.endpointUuid) ∧
    (∀ e ∈ [(0xFF : Byte), 0, 1, 5, 6, 0x7E], answers (.getMctpVersionSupport e) 0 ([4, 0] ++ Config.versions e.toNat)) ∧
    answers (.getMctpVersionSupport 2) 0 [4, 0x80] ∧ answers .getMessageTypeSupport 0 [5, 0, 5, 0, 1, 5, 6, 0x7E] ∧
    answers (.getVendorDefinedMessageSupport 0) 0 [6, 0, 0xFF, 0x00, 0x1F, 0x6B] ∧
    (∀ e, e ≠ 0 → answers (.getVendorDefinedMessageSupport e) 0 [6, 2]) ∧ answers .getTid 1 [2, 0, s.mg.tid] ∧
    (∀ e ∈ [(0 : Byte), 2, 5], answers (.getPldmVersion e) 1 ([3, 0] ++ Config.versions (256 + e.toNat))) ∧
    answers (.getPldmVersion 1) 1 [3, 0x83] ∧ answers .getPldmTypes 1 [4, 0, 0x25, 0, 0, 0, 0, 0, 0, 0] ∧
    answers (.getPldmCommands 0) 1 ([5, 0, 0x3E] ++ List.replicate 31 0) ∧ answers (.getPldmCommands 1) 1 [5, 0x83] ∧
    (∀ n, n < 128 → let v := s.cellTemp n
      answers (.getSensorReading (BitVec.ofNat 16 (0x100 + n))) 1
        ([0x11, 0, 0, if 880 ≤ v then 10 else if 800 ≤ v then 9 else if 760 ≤ v then 8 else 1] ++
          leBytes 4 (BitVec.ofInt 32 v).toNat)) ∧
    (s.we.eolNow = 0xFFFFFFFF → answers (.getSensorReading 0x400) 1 [0x11, 0, 2, 0]) ∧
    answers (.getSensorReading 0x500) 1 [0x11, 0x80] ∧ answers (.getSensorReading 2) 1 [0x11, 0x80] ∧
    answers (.getStateSensorReadings 0x500) 1 [0x21, 0, 0, BitVec.ofNat 8 s.dev.code] ∧
    answers (.getStateSensorReadings 0x100) 1 [0x21, 0x80] ∧ answers .getPdrRepositoryInfo 1 [0x50, 0, 0, 156, 0, 0, 0] ∧
    (∀ k, k < 156 → ∃ kind rest, answers (.getPdr (BitVec.ofNat 32 (k + 1))) 1 ([0x51, 0] ++
      leBytes 4 (if k = 155 then 0 else k + 2) ++ [kind] ++ leBytes 2 (sensorIds.getD k 0) ++ rest)) ∧
    (∀ h : W32, 156 < h.toNat → answers (.getPdr h) 1 [0x51, 0x82]) ∧
    (∀ id, let kept : State := { s with mg := { s.mg with events := s.mg.events.filter (fun e => decide (e.id ≠ id)) } }
      exec (.platformEventAck id) s = .next kept ∧
      exec (.pollForPlatformEventMessage (some id)) s = exec (.pollForPlatformEventMessage none) kept) ∧
    (s.mg.events = [] → answers (.pollForPlatformEventMessage none) 1 [0x0B, 0, 0, 0]) ∧
    (∀ e rest, s.mg.events = e :: rest →
      answers (.pollForPlatformEventMessage none) 1 ([0x0B, 0] ++ leBytes 2 e.id.toNat ++ [e.cls] ++ e.data)) ∧
    (∀ at', let now := max s.datum at'
      (s.mg.receiver = none → exec (.pldmEventResend at') s = .next (s.at at')) ∧
      (∀ r e, s.mg.receiver = some r → s.mg.events = [e] → ∃ t, exec (.pldmEventResend at') s = .next t ∧ t.datum = now ∧
        (e.sent + 1000000000 ≤ now → t.mg.events = [{ e with sent := now }] ∧
          t.out = .mctp 1 r (leBytes 2 e.id.toNat ++ [e.cls] ++ e.data) :: s.out) ∧
        (now < e.sent + 1000000000 → t.mg.events = [e] ∧ t.out = s.out)))

/-- REG_ACCESS_READ and REG_ACCESS_WRITE: the management owner reads and writes registers in its session; a request whose
fields lie outside the table gets status 1, and anyone else's status 2, and neither changes a register. -/
def Obligations.RegisterMessagesComplete : Prop :=
  ∀ (s : State) (who : Requester) (tag width count : Byte) (off : W32) (data : List Byte), s.mg.standby = true →
    s.net.ctlOrder = [] →
    let u := s.touch who
    let resp (op : Byte) (status : Byte) (count : Byte) (off : W32) (bytes : List Byte) : Output :=
      .mctp 0x7E who.eid ([op + 0x80, tag, status, count] ++ leBytes 4 off.toNat ++ bytes)
    (s.ownerAccess (asAccessor who) = false → ∀ bad lf,
      exec (.regAccessRead who tag width count off bad lf) s = .next (u.emit (resp 1 2 count off [])) ∧
      exec (.regAccessWrite who tag width count off data bad) s = .next (u.emit (resp 2 2 count off []))) ∧
    (s.ownerAccess (asAccessor who) = true → ∀ bad lf,
      bad = true ∨ (width ≠ 4 ∧ width ≠ 8) ∨ count = 0 ∨ 16 < count.toNat ∨ 0x2000000 ≤ off.toNat ∨ off.toNat % width.toNat ≠ 0 →
        exec (.regAccessRead who tag width count off bad lf) s = .next (u.emit (resp 1 1 count off [])) ∧
        exec (.regAccessWrite who tag width count off data bad) s = .next (u.emit (resp 2 1 count off []))) ∧
    (s.ownerAccess (asAccessor who) = true → s.live = true →
      (∀ e ∈ readRows, e.2 s < 2 ^ 32 → ∃ t, exec (.regAccessRead who tag 4 1 (BitVec.ofNat 32 e.1) false false) s = .next t ∧
        t.out = resp 1 0 1 (BitVec.ofNat 32 e.1) (leBytes 4 (e.2 s)) :: s.out) ∧
      (∀ e ∈ writeRows, ∀ v : W32,
        exec (.regAccessWrite who tag 4 1 (BitVec.ofNat 32 e.1) (leBytes 4 v.toNat) false) s =
          .next ((e.2 u v).emit (resp 2 0 1 (BitVec.ofNat 32 e.1) []))))

/-- The commands of a firmware update by the management owner: an update is requested once, a component's slot is erased and
filled by the blocks that the E40 asks for, a complete slot is verified, one whose write failed stays invalid, and the
update ends by its activation or its cancelling. Every command of another endpoint gets an error, and an update's commands outside one NOT_IN_UPDATE_MODE. -/
def Obligations.FirmwareUpdateCompletes : Prop :=
  ∀ (s : State) (who : Requester), s.mg.standby = true → (∀ x, s.mg.fw = some x → s.isMgmtOwner x.eid = true) →
    let b := s.touch who
    let answers (i : Instr) (bytes : List Byte) : Prop := exec i s = .next (b.emit (.mctp 1 who.eid bytes))
    (s.ownerAccess (asAccessor who) = false →
      (∀ e ∈ [(Instr.queryDeviceIdentifiers who, 0x01), (.getFirmwareParameters who, 0x02), (.passComponentTable who 1, 0x13),
        (.updateComponent who 1 1, 0x14), (.firmwareDataReceive who ⟨[], false⟩, 0x15), (.activateFirmware who false, 0x1A),
        (.getStatus who, 0x1B), (.cancelUpdate who, 0x1D)], answers e.1 [BitVec.ofNat 8 e.2, 1]) ∧
      answers (.requestUpdate who) [0x10, 0x8A]) ∧
    (s.ownerAccess (asAccessor who) = true →
      answers (.queryDeviceIdentifiers who) [1, 0, 0x6B, 0x1F, 0x40, 0xE0, 0x6B, 0x1F, s.mg.assembly, 0] ∧
      answers (.getFirmwareParameters who) ([2, 0, 0xFF, 0xFF, 1, 0] ++ leBytes 4 (b.stamp 1) ++ [0xFF, 0xFF, 2, 0] ++ leBytes 4 (b.stamp 2)) ∧
      answers (.getStatus who) [0x1B, 0, BitVec.ofNat 8 (fwState s.mg.fw)] ∧
      (s.takesUpdate = false → answers (.requestUpdate who) [0x10, 0x8A]) ∧
      (s.takesUpdate = true → s.mg.fw ≠ none → answers (.requestUpdate who) [0x10, 0x81]) ∧
      (s.takesUpdate = true → s.mg.fw = none → ∃ t, exec (.requestUpdate who) s = .next t ∧
        t.mg.fw = some { eid := who.eid, table := false, comp := 0, size := 0, got := 0, verify := none } ∧
        t.out = .mctp 1 who.eid [0x10, 0] :: s.out ∧ t.img = s.img) ∧
      (s.mg.fw = none → ∀ e ∈ [(Instr.passComponentTable who 1, 0x13), (.updateComponent who 1 1, 0x14),
        (.firmwareDataReceive who ⟨[], false⟩, 0x15), (.activateFirmware who false, 0x1A), (.cancelUpdate who, 0x1D)],
        answers e.1 [BitVec.ofNat 8 e.2, 0x80]) ∧
      (∀ x, s.mg.fw = some x →
        (∀ comp : W16, comp = 1 ∨ comp = 2 → exec (.passComponentTable who comp) s =
          .next ((b.setFw (some { x with table := true })).emit (.mctp 1 who.eid [0x13, 0]))) ∧
        (∀ (comp : W16) (size : W32), x.busy = false → comp = 1 ∨ comp = 2 → size ≠ 0 → size.toNat ≤ 1048576 →
          ∃ t, exec (.updateComponent who comp size) s = .next t ∧
            t.mg.fw = some { x with comp := comp.toNat, size := size.toNat, got := 0, verify := none, failed := false } ∧
            t.slotImage comp.toNat = [] ∧ (comp = 1 → t.img.badA = true) ∧ (comp = 2 → t.img.badB = true) ∧
            t.out = .mctp 1 x.eid ([0x15, 0, 0, 0, 0, 0] ++ leBytes 4 (min 1024 size.toNat)) :: .mctp 1 who.eid [0x14, 0] :: s.out) ∧
        (∀ (data : List Byte) (fail : Bool), x.busy = true → data.length = min 1024 (x.size - x.got) → ∃ t,
          exec (.firmwareDataReceive who ⟨data, fail⟩) s = .next t ∧ t.slotImage x.comp = s.slotImage x.comp ++ data ∧
          (x.got + data.length < x.size →
            t.mg.fw = some { x with got := x.got + data.length, failed := x.failed || fail } ∧ t.out = .mctp 1 x.eid ([0x15, 0] ++ leBytes 4 (x.got + data.length) ++
              leBytes 4 (min 1024 (x.size - (x.got + data.length)))) :: s.out) ∧
          (x.got + data.length = x.size →
            ∃ r, t.mg.fw = some { x with got := x.size, failed := x.failed || fail, verify := some r } ∧
              (x.failed = true ∨ fail = true → (x.comp = 1 → t.img.badA = true) ∧ (x.comp = 2 → t.img.badB = true)))) ∧
        (x.verify = some 0 → ∃ t, exec (.activateFirmware who false) s = .next t ∧ t.mg.fw = none ∧ t.img = s.img ∧
          t.out = .mctp 1 who.eid [0x1A, 0, 0, 0] :: s.out) ∧
        (x.verify ≠ some 0 → answers (.activateFirmware who false) [0x1A, 0x85]) ∧
        answers (.activateFirmware who true) [0x1A, 0x8C] ∧
        (∃ t, exec (.cancelUpdate who) s = .next t ∧ t.mg.fw = none ∧ t.out = .mctp 1 who.eid [0x1D, 0] :: s.out ∧
          (x.comp = 1 → t.img.badA = true) ∧ (x.comp = 2 → t.img.badB = true))))

/-- The SPDM requests: what each answers outside and inside a session, how a session is begun, authenticated, completed and
ended, and who becomes the owner in UNLASTED. Nonces and signatures are free values; the codes are DSP0274's (log entry 40). -/
def Obligations.SpdmCompletes : Prop :=
  ∀ (s : State) (who : Requester), s.mg.standby = true → spWf none s.mg.spdm = true →
    let mtype := if who.sess.isSome then 6 else 5
    let b := s.touch who
    let answers (i : Instr) (bytes : List Byte) : Prop := exec i s = .next (b.emit (.mctp mtype who.eid bytes))
    let chain := (leBytes 48 (Config.sha384 Config.certChain).toNat).reverse
    (s.inSession who = false → ∀ i ∈ [Instr.getVersion who, .getCapabilities who, .negotiateAlgorithms who true true true true,
      .getDigests who, .getCertificate who 0 0 0, .challenge who 0 0, .getMeasurements who 0 true 0, .endSession who],
      exec i s = .next (s.emit (.mctp mtype who.eid [0x7F, 2]))) ∧
    (s.inSession who = true →
      answers (.getVersion who) [0x04, 0, 2, 0x00, 0x12, 0x00, 0x13] ∧ answers (.getCapabilities who) [0x61, 0, 16, 0xD6, 0x73, 0, 0] ∧
      (∀ p h d a, answers (.negotiateAlgorithms who p h d a)
        [0x63, 0, BitVec.ofNat 8 p.toNat, BitVec.ofNat 8 h.toNat, BitVec.ofNat 8 d.toNat, BitVec.ofNat 8 a.toNat]) ∧
      answers (.getDigests who) ([0x01, 0, 1] ++ chain) ∧
      (∀ off len : W16, let part := (Config.certChain.drop off.toNat).take len.toNat
        answers (.getCertificate who 0 off len) ([0x02, 0] ++ leBytes 2 part.length ++
          leBytes 2 (Config.certChain.length - off.toNat - part.length) ++ part)) ∧
      (∀ nonce, exec (.challenge who 0 nonce) s = .next { b.emit (.mctp mtype who.eid
        ([0x03, 0] ++ (chain ++ freshBytes s.fresh 128))) with fresh := s.fresh + 1 }) ∧
      (∀ (i : Byte) nonce, (1 ≤ i.toNat → i.toNat ≤ 6 → exec (.getMeasurements who i true nonce) s = .next { b.emit (.mctp mtype
          who.eid ([0x60, 0, 1, i] ++ ((leBytes 48 (b.measurement i.toNat).toNat).reverse ++ freshBytes s.fresh 128))) with
          fresh := s.fresh + 1 }) ∧
        answers (.getMeasurements who i false nonce) [0x7F, 7] ∧
        (6 < i.toNat → i ≠ 0xFF → answers (.getMeasurements who i true nonce) [0x7F, 1])) ∧
      (∀ k x, s.spdm (k : Fin 4).val = some x → x.eid = who.eid → x.open_ = false → who.sess = none → ∀ root verified,
        ∃ t, exec (.encapsulatedRequest who k root verified) s = .next t ∧ t.out = .mctp 5 who.eid [0x6B, 0] :: s.out ∧
          t.spdm k = some { x with auth := verified && s.usableKey root, last := s.datum }) ∧
      (∀ at', let now := max s.datum at'
        (who.sess = none → (s.spdm 0 = none → ∃ t, exec (.keyExchange who 0 at') s = .next t ∧ t.datum = now ∧
          t.spdm 0 = some { eid := who.eid, open_ := false, auth := false, last := now } ∧ t.fresh = s.fresh + 1) ∧
          ((∀ k, k < 4 → s.spdm k ≠ none) → exec (.keyExchange who 0 at') s =
            .next ((s.at at').emit (.mctp 5 who.eid [0x7F, 10]))) ∧
          (exec (.heartbeat who at') s = .next ((s.at at').emit (.mctp 5 who.eid [0x7F, 4]))) ∧
          (exec (.keyUpdate who at') s = .next ((s.at at').emit (.mctp 5 who.eid [0x7F, 4]))) ∧
          answers (.endSession who) [0x7F, 4] ∧
          ∀ k x, s.spdm (k : Fin 4).val = some x → x.eid = who.eid → x.open_ = false →
            (∃ t, exec (.finish who k false at') s = .next t ∧ t.spdm k = none ∧
              t.out = .mctp 5 who.eid [0x7F, 6] :: s.out) ∧
            (∃ t, exec (.finish who k true at') s = .next t ∧ t.out = .mctp 5 who.eid [0x65, 0] :: s.out ∧
              t.spdm k = some { x with open_ := true, auth := s.enough x, last := now } ∧
              (s.enough x = true → s.dev = .unlasted → s.img.on = false → s.mg.owner = none → t.mg.owner = some who.eid) ∧
              (s.dev ≠ .unlasted ∨ s.mg.owner ≠ none → t.mg.owner = s.mg.owner))) ∧
        (∀ k x, who.sess = some k → s.spdm k.val = some x →
          (∃ t, exec (.heartbeat who at') s = .next t ∧ t.spdm k = some { x with last := now } ∧
            t.out = .mctp 6 who.eid [0x68, 0] :: s.out) ∧
          (∃ t, exec (.keyUpdate who at') s = .next t ∧ t.spdm k = some { x with last := now } ∧
            t.out = .mctp 6 who.eid [0x69, 0] :: s.out) ∧
          (∃ t, exec (.endSession who) s = .next t ∧ t.spdm k = none ∧ t.out = .mctp 6 who.eid [0x6C, 0] :: s.out)))) ∧
    (∀ (k : Fin 4) x at', s.spdm k = some x → ∃ t, exec (.spdmSessionExpiry k at') s = .next t ∧
      t.datum = max s.datum at' ∧ t.spdm k = if x.last + 180000000000 ≤ max s.datum at' then none else some x)

/-! Reset, and what every step keeps (R65, R514, R520, R562). -/

/-- The machine right after reset: no command waits, no power is on, and the registers whose reset values the spec gives hold
them. That it stands before power-on, and the values that the spec does not give, are the model's (log entries 1 and 3). -/
def Obligations.ResetState : Prop :=
  let s := State.reset
  s.pending = [] ∧ s.dev = .off ∧ s.datum = 0 ∧ s.tk.run = false ∧ s.tk.count = 0 ∧ s.cells = [] ∧ s.parcels = [] ∧
    s.insts = [] ∧ s.stk.mem = [] ∧ s.stk.loss = 0 ∧ s.er.count = 0 ∧ s.er.dropped = 0 ∧ s.er.alertCause = 0 ∧
    s.th.limit = 1150 ∧ s.th.hotstop = 0 ∧ s.sv.ctrl = 0xF ∧ s.we.eolNow = 0xFFFFFFFF ∧ s.we.eolRated = 0xFFFFFFFF ∧
    s.we.fenceH = 0xFFFFFFFF ∧ s.ob.ctrl = 0x0F000000FFFF0000 ∧ s.ob.run = false ∧ (s.sub 0).rpw = 64 ∧ s.host.up = false ∧
    s.img.on = false ∧ s.img.floor = 0 ∧ s.mg.slots = [] ∧ s.mg.retire = 0 ∧ s.mg.standby = false ∧ slotsLegal s = true

/-- No step takes back a key or a revoke bit: a programmed key slot stays programmed with the same key, and a revoked one stays
revoked, whatever the command, a reset or a loss of power among them. -/
def Obligations.KeySlotsAreWrittenOnce : Prop :=
  ∀ (s t : State), slotsLegal s = true → step s = .next t → ∀ k,
    ((s.keySlot k).prog = true → (t.keySlot k).prog = true ∧ (t.keySlot k).qx = (s.keySlot k).qx ∧
      (t.keySlot k).qy = (s.keySlot k).qy) ∧
    ((s.keySlot k).revoked = true → (t.keySlot k).revoked = true)

/-- Every step keeps the key slots legal: only slots 0 to 3 hold anything, in canonical form, and a revoked slot reads as
programmed. -/
def Obligations.KeySlotsStayLegal : Prop :=
  ∀ (s t : State), slotsLegal s = true → step s = .next t → slotsLegal t = true

/-- RETIRED is left only by a cold reset, a hard shutdown or a loss of power: a step from it leads to RETIRED, to the start of
start-up, to HALTED, or to off. -/
def Obligations.RetiredIsLeftOnlyByReset : Prop :=
  ∀ (s t : State), s.dev = .retired → step s = .next t →
    t.dev = .retired ∨ t.dev = .starting 0 ∨ t.dev = .halted ∨ t.dev = .off
end

