-- ==== Sys2Proof/Laws/Kept.lean ====
section
/-! SUPPORT. What almost every operation leaves alone: the command queue, the device's run state, the key slots and a burning
key slot. A lemma kept_f says so for each operation f; the operations without one (power, resets, supplies, retirement,
the key slots' own) are those that change one of the four. -/

namespace Sys2Proof.Machine

set_option maxRecDepth 20000

/-- The command queue, the run state, the key slots and the key slot that is burning. -/
def State.kept (s : State) : List Instr × DevState × Sparse KeySlot × Option (Nat × Nat) :=
  (s.pending, s.dev, s.mg.slots, s.mg.fusing)

/-- A command's next state keeps the four. -/
def Keeps (s : State) (o : Out) : Prop := match o with | .next t => t.kept = s.kept | _ => True

@[simp] theorem keeps_next (s t : State) : Keeps s (.next t) ↔ t.kept = s.kept := Iff.rfl

/-- Both arms of a choice keep the four. -/
theorem keeps_if {s : State} {p : Prop} [Decidable p] {a b : Out} (ha : Keeps s a) (hb : Keeps s b) :
    Keeps s (if p then a else b) := by split <;> assumption

@[simp] theorem kept_fold (s : State) : (s.pending, s.dev, s.mg.slots, s.mg.fusing) = s.kept := rfl

/-- A state written field by field keeps what its fields say. -/
@[simp] theorem kept_mk pending dev datum tk lc cells parcels insts nextInst stk er cyc ords img net host th sv we ob mg
    fresh out :
    (State.mk pending dev datum tk lc cells parcels insts nextInst stk er cyc ords img net host th sv we ob mg fresh
      out).kept = (pending, dev, mg.slots, mg.fusing) := rfl

/-- A fold of steps that keep the four keeps them. -/
theorem kept_foldl {α : Type} (l : List α) (g : State → α → State) (h : ∀ s x, (g s x).kept = s.kept) (s : State) :
    (l.foldl g s).kept = s.kept := by
  induction l generalizing s with
  | nil => rfl
  | cons a l ih => simp [List.foldl, ih, h]

/-! Env. -/

@[simp] theorem kept_setCell (s : State) (n : Nat) (c : Cell) :
    (State.setCell s n c).kept = s.kept := by
  rfl
@[simp] theorem kept_modCell (s : State) (n : Nat) (f : Cell → Cell) :
    (State.modCell s n f).kept = s.kept := by
  rfl
@[simp] theorem kept_setParcel (s : State) (p : Nat) (x : Parcel) :
    (State.setParcel s p x).kept = s.kept := by
  rfl
@[simp] theorem kept_modParcel (s : State) (p : Nat) (f : Parcel → Parcel) :
    (State.modParcel s p f).kept = s.kept := by
  rfl
@[simp] theorem kept_modQueue (s : State) (p : Nat) (q : Nat) (f : Queue → Queue) :
    (State.modQueue s p q f).kept = s.kept := by
  rfl
@[simp] theorem kept_setInst (s : State) (i : Nat) (v : Option Inst) :
    (State.setInst s i v).kept = s.kept := by
  rfl
@[simp] theorem kept_modInst (s : State) (i : Nat) (f : Inst → Inst) :
    (State.modInst s i f).kept = s.kept := by
  rfl
@[simp] theorem kept_modOrd (s : State) (a : Nat) (f : OrdSt → OrdSt) :
    (State.modOrd s a f).kept = s.kept := by
  rfl
@[simp] theorem kept_emit (s : State) (o : Output) :
    (State.emit s o).kept = s.kept := by
  rfl
@[simp] theorem kept_useFresh (s : State) :
    (State.useFresh s).kept = s.kept := by
  rfl
@[simp] theorem kept_at (s : State) (t : Nat) :
    (State.at s t).kept = s.kept := by
  rfl
@[simp] theorem kept_modAgent (s : State) (k : Nat) (f : SvAgent → SvAgent) :
    (State.modAgent s k f).kept = s.kept := by
  rfl
@[simp] theorem kept_raiseDie (s : State) (n : Nat) (code : Nat) :
    (State.raiseDie s n code).kept = s.kept := by
  unfold State.raiseDie; (try dsimp only); (repeat' split) <;> simp [kept_foldl]
@[simp] theorem kept_fallDie (s : State) (d : Nat) :
    (State.fallDie s d).kept = s.kept := by
  unfold State.fallDie; (try dsimp only); (repeat' split) <;> simp [kept_foldl]
@[simp] theorem kept_log (s : State) (e : LogEntry) :
    (State.log s e).kept = s.kept := by
  unfold State.log; (try dsimp only); (repeat' split) <;> simp
@[simp] theorem kept_logP (s : State) (code : Nat) (p : Nat) (f : LogEntry → LogEntry) :
    (State.logP s code p f).kept = s.kept := by
  simp [State.logP]
@[simp] theorem kept_modSub (s : State) (i : Nat) (f : SubPort → SubPort) :
    (State.modSub s i f).kept = s.kept := by
  rfl
@[simp] theorem kept_modVg (s : State) (n : Nat) (f : VgSess → VgSess) :
    (State.modVg s n f).kept = s.kept := by
  rfl
@[simp] theorem kept_modHost (s : State) (f : HostPort → HostPort) :
    (State.modHost s f).kept = s.kept := by
  rfl
@[simp] theorem kept_trace (s : State) (cls : Nat) (event : Nat) (parcel : Option Nat) (q : Option Nat) (unit : Nat) (aux : Nat) (arg : W64) :
    (State.trace s cls event parcel q unit aux arg).kept = s.kept := by
  unfold State.trace; (try dsimp only); (repeat' split) <;> simp
@[simp] theorem kept_countEvent (s : State) (ev : Nat) (unit : Nat) (parcel : Option Nat) (k : Nat) :
    (State.countEvent s ev unit parcel k).kept = s.kept := by
  unfold State.countEvent; (try dsimp only); refine (kept_foldl _ _ ?_ _).trans ?_ <;> intros <;> (repeat' split) <;> simp
@[simp] theorem kept_placeAnew (s : State) (p : Nat) (lo : Nat) (hi : Nat) (stks : Nat) (gran : Nat) :
    (State.placeAnew s p lo hi stks gran).kept = s.kept := by
  unfold State.placeAnew; (try dsimp only); (repeat' split) <;> simp [kept_foldl]
@[simp] theorem kept_placeSegs (s : State) (p : Nat) (lo : Nat) (hi : Nat) :
    (State.placeSegs s p lo hi).kept = s.kept := by
  unfold State.placeSegs; refine kept_foldl _ _ ?_ _; intros; (repeat' split) <;> simp
@[simp] theorem kept_placeFault (s : State) (p : Nat) (a : Nat) :
    (State.placeFault s p a).kept = s.kept := by
  unfold State.placeFault; (try dsimp only); (repeat' split) <;> simp
@[simp] theorem kept_countPlace (s : State) (p : Nat) (stks : Nat) (gran : Nat) (a : Nat) (n : Nat) :
    (State.countPlace s p stks gran a n).kept = s.kept := by
  unfold State.countPlace; (repeat' split) <;> simp
@[simp] theorem kept_stackWrite (s : State) (p : Nat) (stks : Nat) (gran : Nat) (a : Nat) (bs : List Byte) :
    (State.stackWrite s p stks gran a bs).kept = s.kept := by
  rfl
@[simp] theorem kept_segFault (s : State) (p : Nat) (win : Nat) (entry : Nat) (ctx : Nat) (seg : Nat) (cause : SgCause) :
    (State.segFault s p win entry ctx seg cause).kept = s.kept := by
  rfl

/-! Link. -/

@[simp] theorem kept_grantCredit (s : State) (p : Nat) :
    (State.grantCredit s p).kept = s.kept := by
  unfold State.grantCredit; (try dsimp only); refine (kept_foldl _ _ ?_ _).trans ?_ <;> intros <;> (repeat' split) <;> simp
@[simp] theorem kept_queueFrame (s : State) (i : Nat) (f : TxFrame) :
    (State.queueFrame s i f).kept = s.kept := by
  rfl
@[simp] theorem kept_startResolve (s : State) (i : Nat) (addr : BitVec 128) :
    (State.startResolve s i addr).kept = s.kept := by
  unfold State.startResolve; (repeat' split) <;> simp
@[simp] theorem kept_vgTransmit (s : State) (n : Nat) (bytes : List Byte) :
    (State.vgTransmit s n bytes).kept = s.kept := by
  unfold State.vgTransmit; (repeat' split) <;> simp
@[simp] theorem kept_vgReliable (s : State) (n : Nat) (kind : Nat) (op : Nat) (rseq : W32) (body : List Byte) (answer : Bool) :
    (State.vgReliable s n kind op rseq body answer).kept = s.kept := by
  unfold State.vgReliable; (try dsimp only); (repeat' split) <;> simp
@[simp] theorem kept_vgUnreliable (s : State) (n : Nat) (op : Nat) (body : List Byte) :
    (State.vgUnreliable s n op body).kept = s.kept := by
  simp [State.vgUnreliable]
@[simp] theorem kept_vgAnswer (s : State) (n : Nat) (inc : Nat) (kind : Nat) (op : Nat) (rseq : W32) (body : List Byte) :
    (State.vgAnswer s n inc kind op rseq body).kept = s.kept := by
  unfold State.vgAnswer; (try dsimp only); (repeat' split) <;> simp
@[simp] theorem kept_vgAck (s : State) (n : Nat) :
    (State.vgAck s n).kept = s.kept := by
  simp [State.vgAck]
@[simp] theorem kept_callMsix (s : State) (a : Nat) (v : Nat) :
    (State.callMsix s a v).kept = s.kept := by
  rfl
@[simp] theorem kept_fnEvent (s : State) (a : Nat) (bit : Nat) :
    (State.fnEvent s a bit).kept = s.kept := by
  unfold State.fnEvent; (repeat' split) <;> simp
@[simp] theorem kept_allFnEvent (s : State) (bit : Nat) :
    (State.allFnEvent s bit).kept = s.kept := by
  refine kept_foldl _ _ ?_ _; intros; simp
@[simp] theorem kept_pldmEvent (s : State) (cls : Byte) (data : List Byte) :
    (State.pldmEvent s cls data).kept = s.kept := by
  unfold State.pldmEvent; (try dsimp only); (repeat' split) <;> simp
@[simp] theorem kept_vgAlertAll (s : State) (source : Nat) :
    (State.vgAlertAll s source).kept = s.kept := by
  unfold State.vgAlertAll; (try dsimp only); refine (kept_foldl _ _ ?_ _).trans ?_ <;> intros <;> (repeat' split) <;> simp
@[simp] theorem kept_alert (s : State) (bit : Nat) (code : W16) :
    (State.alert s bit code).kept = s.kept := by
  unfold State.alert; (repeat' split) <;> simp
@[simp] theorem kept_setLine (s : State) (k : Nat) (l : Option WLine) :
    (State.setLine s k l).kept = s.kept := by
  rfl
@[simp] theorem kept_evict (s : State) (k : Nat) :
    (State.evict s k).kept = s.kept := by
  unfold State.evict; (repeat' split) <;> simp
@[simp] theorem kept_allocWay (s : State) (p : Nat) (k : Nat) :
    (State.allocWay s p k).2.kept = s.kept := by
  unfold State.allocWay; (try dsimp only); (repeat' split) <;> simp
@[simp] theorem kept_fill (s : State) (p : Nat) (k : Nat) (st : LineSt) (bytes : List Byte) (poison : Bool) :
    (State.fill s p k st bytes poison).kept = s.kept := by
  have h := kept_allocWay (s.countEvent 0x50 p (some p) 1) p k
  unfold State.fill
  dsimp only
  split
  · split <;> simp
  · split <;> rename_i e <;> rw [e] at h <;> simpa using h
@[simp] theorem kept_weltTouch (s : State) (addr : Nat) :
    (State.weltTouch s addr).kept = s.kept := by
  unfold State.weltTouch; (repeat' split) <;> simp
@[simp] theorem kept_weltAsk (s : State) (addr : Nat) (kind : Nat) :
    (State.weltAsk s addr kind).kept = s.kept := by
  unfold State.weltAsk; (repeat' split) <;> simp
@[simp] theorem kept_dropSpare (s : State) (k : Nat) :
    (State.dropSpare s k).kept = s.kept := by
  unfold State.dropSpare; (try dsimp only); (repeat' split) <;> simp [kept_foldl]
@[simp] theorem kept_notePoison (s : State) (p : Nat) (addr : Nat) :
    (State.notePoison s p addr).kept = s.kept := by
  simp [State.notePoison]
@[simp] theorem kept_storeLine (s : State) (p : Nat) (addr : Nat) (bs : List Byte) :
    (State.storeLine s p addr bs).kept = s.kept := by
  unfold State.storeLine; (try dsimp only); (repeat' split) <;> simp [kept_foldl]
@[simp] theorem kept_hostQueue (s : State) (p : Nat) (addr : Nat) (bs : List Byte) :
    (State.hostQueue s p addr bs).kept = s.kept := by
  unfold State.hostQueue; (try dsimp only); (repeat' split) <;> simp [kept_foldl]
@[simp] theorem kept_hostStore (s : State) (p : Nat) (addr : Nat) (bs : List Byte) :
    (State.hostStore s p addr bs).kept = s.kept := by
  unfold State.hostStore; (try dsimp only); (repeat' split) <;> simp
@[simp] theorem kept_flushStores (x0 : List HostStore) (x1 : List Nat) (s : State) :
    (State.flushStores x0 x1 s).kept = s.kept := by
  induction x0 generalizing x1 s with
  | nil => rfl
  | cons e t ih => unfold State.flushStores; dsimp only; (repeat' split) <;> simp [ih]
@[simp] theorem kept_runStores (s : State) (k : Option Nat) :
    (State.runStores s k).kept = s.kept := by
  simp [State.runStores]
@[simp] theorem kept_weltReadLine (s : State) (p : Nat) (addr : Nat) (n : Nat) (bs : List Byte) (poison : Bool) :
    (State.weltReadLine s p addr n bs poison).2.kept = s.kept := by
  unfold State.weltReadLine; (try dsimp only); (repeat' split) <;> simp [kept_foldl]
@[simp] theorem kept_weltReadGo (s : State) (p : Nat) (poison : Bool) (x0 : Nat) (x1 : Nat) (x2 : Nat) (x3 : List Byte) :
    (State.weltReadGo s p poison x0 x1 x2 x3).2.kept = s.kept := by
  induction x0 generalizing s x1 x2 x3 with
  | zero => rfl
  | succ k ih => unfold State.weltReadGo; dsimp only; split <;> simp [ih]
@[simp] theorem kept_weltRead (s : State) (p : Nat) (addr : Nat) (n : Nat) (bs : List Byte) (poison : Bool) :
    (State.weltRead s p addr n bs poison).2.kept = s.kept := by
  unfold State.weltRead; (try dsimp only); (repeat' split) <;> simp [kept_foldl]
@[simp] theorem kept_noteTook (s : State) (p : Nat) (took : Nat) :
    (State.noteTook s p took).kept = s.kept := by
  unfold State.noteTook; (try dsimp only); (repeat' split) <;> simp [kept_foldl]
@[simp] theorem kept_remapRow (s : State) (st : Nat) (row : Nat) :
    (State.remapRow s st row).kept = s.kept := by
  unfold State.remapRow; (try dsimp only); (repeat' split) <;> simp
@[simp] theorem kept_stackUE (s : State) (parcel : Option Nat) (phys : Nat) (dev : Nat) :
    (State.stackUE s parcel phys dev).kept = s.kept := by
  unfold State.stackUE; (repeat' split) <;> simp
@[simp] theorem kept_stackCE (s : State) (phys : Nat) :
    (State.stackCE s phys).kept = s.kept := by
  unfold State.stackCE; (try dsimp only); (repeat' split) <;> simp
@[simp] theorem kept_countSector (s : State) (ev : Nat) (phys : Nat) (parcel : Option Nat) :
    (State.countSector s ev phys parcel).kept = s.kept := by
  simp [State.countSector]
@[simp] theorem kept_stackEcc (s : State) (p : Nat) (phys : Nat) (dev : Nat) (e : Ecc) :
    (State.stackEcc s p phys dev e).kept = s.kept := by
  unfold State.stackEcc; (repeat' split) <;> simp
@[simp] theorem kept_countWrites (s : State) (p : Nat) (stks : Nat) (gran : Nat) (a : Nat) (n : Nat) :
    (State.countWrites s p stks gran a n).kept = s.kept := by
  refine kept_foldl _ _ ?_ _; intros; simp

/-! Requests. -/

@[simp] theorem kept_traceRecord (s : State) (p : Nat) (q : Nat) (r : Record) :
    (State.traceRecord s p q r).kept = s.kept := by
  simp [State.traceRecord]
@[simp] theorem kept_complete (s : State) (p : Nat) (q : Nat) (r : Request) (code : Byte) (detail : Byte) (ret : W32) (overrun : Bool) (share : Bool) (payload : List Byte) (pstat : Nat) (cell : Nat) :
    (State.complete s p q r code detail ret overrun share payload pstat cell).kept = s.kept := by
  unfold State.complete; (repeat' split) <;> simp
@[simp] theorem kept_refuse (s : State) (p : Nat) (q : Nat) (r : Request) (code : Byte) (detail : Byte) :
    (State.refuse s p q r code detail).kept = s.kept := by
  simp [State.refuse]
@[simp] theorem kept_endRequest (s : State) (x : Inst) (r : Request) (code : Byte) (detail : Byte) :
    (State.endRequest s x r code detail).kept = s.kept := by
  simp [State.endRequest]
@[simp] theorem kept_performStore (s : State) (n : Nat) (e : SbEntry) :
    (State.performStore s n e).kept = s.kept := by
  unfold State.performStore; (repeat' split) <;> simp
@[simp] theorem kept_countServed (s : State) (n : Nat) (t : ExtTarget) : (State.countServed s n t).kept = s.kept := by
  unfold State.countServed; (repeat' split) <;> simp
@[simp] theorem kept_performLate (s : State) (n : Nat) (e : SbEntry) :
    (State.performLate s n e).kept = s.kept := by
  unfold State.performLate; (try dsimp only); (repeat' split) <;> simp [kept_foldl]
@[simp] theorem kept_drainAll (s : State) (n : Nat) :
    (State.drainAll s n).kept = s.kept := by
  refine kept_foldl _ _ ?_ _; intros; simp
@[simp] theorem kept_logBadIndex (s : State) (p : Nat) (g : GatherSlot) (first : Option Nat) :
    (State.logBadIndex s p g first).kept = s.kept := by
  unfold State.logBadIndex; (repeat' split) <;> simp
@[simp] theorem kept_abortCell (s : State) (n : Nat) :
    (State.abortCell s n).kept = s.kept := by
  simp [State.abortCell]
@[simp] theorem kept_enterCells (s : State) (i : Nat) (cells : List Nat) :
    (State.enterCells s i cells).kept = s.kept := by
  refine kept_foldl _ _ ?_ _; intros; simp
@[simp] theorem kept_placePb (s : State) (i : Inst) (pb : List Byte) :
    (State.placePb s i pb).kept = s.kept := by
  unfold State.placePb; (repeat' split) <;> simp
@[simp] theorem kept_reportOverrun (s : State) (i : Inst) (cause : Nat) :
    (State.reportOverrun s i cause).kept = s.kept := by
  simp [State.reportOverrun]
@[simp] theorem kept_tryStart (s : State) (i : Nat) :
    (State.tryStart s i).kept = s.kept := by
  unfold State.tryStart; (try dsimp only); (repeat' split) <;> simp
@[simp] theorem kept_startReady (s : State) (p : Nat) :
    (State.startReady s p).kept = s.kept := by
  refine kept_foldl _ _ ?_ _; intros; simp
@[simp] theorem kept_restartTask (s : State) (i : Nat) (x : Inst) :
    (State.restartTask s i x).kept = s.kept := by
  rfl
@[simp] theorem kept_removeTask (s : State) (i : Nat) (x : Inst) :
    (State.removeTask s i x).kept = s.kept := by
  refine kept_foldl _ _ ?_ _; intros; simp
@[simp] theorem kept_abortInst (s : State) (i : Nat) (code : Byte) (detail : Byte) :
    (State.abortInst s i code detail).kept = s.kept := by
  unfold State.abortInst; (repeat' split) <;> simp [kept_foldl]
@[simp] theorem kept_finish (s : State) (x : Inst) :
    (State.finish s x).kept = s.kept := by
  unfold State.finish; (repeat' split) <;> simp
@[simp] theorem kept_endInst (s : State) (i : Nat) (x : Inst) :
    (State.endInst s i x).kept = s.kept := by
  unfold State.endInst; simp [kept_foldl]
@[simp] theorem kept_resumeTask (s : State) (i : Nat) (x : Inst) (r : Request) :
    (State.resumeTask s i x r).kept = s.kept := by
  unfold State.resumeTask; (try dsimp only); refine (kept_foldl _ _ ?_ _).trans ?_ <;> intros <;> (repeat' split) <;> simp
@[simp] theorem kept_takeReady (s : State) (i : Nat) :
    (State.takeReady s i).kept = s.kept := by
  unfold State.takeReady; (repeat' split) <;> simp
@[simp] theorem kept_tryResume (s : State) (i : Nat) :
    (State.tryResume s i).kept = s.kept := by
  unfold State.tryResume; (repeat' split) <;> simp
@[simp] theorem kept_atWaitq (s : State) (i : Nat) (x : Inst) :
    (State.atWaitq s i x).kept = s.kept := by
  unfold State.atWaitq; (try dsimp only)
  repeat' (first | rfl | (simp; done) | (refine (kept_foldl _ _ ?_ _).trans ?_ <;> intros) | split | simp)
@[simp] theorem kept_enterTask (s : State) (i : Nat) :
    (State.enterTask s i).kept = s.kept := by
  unfold State.enterTask; (repeat' split) <;> simp
@[simp] theorem kept_declExcess (s : State) (i : Nat) (x : Inst) :
    (State.declExcess s i x).kept = s.kept := by
  unfold State.declExcess; (repeat' split) <;> simp
@[simp] theorem kept_countLines (s : State) (i : Nat) (n : Nat) :
    (State.countLines s i n).kept = s.kept := by
  unfold State.countLines; (try dsimp only); (repeat' split) <;> simp
@[simp] theorem kept_countSectors (s : State) (i : Nat) (stack : Nat) (n : Nat) :
    (State.countSectors s i stack n).kept = s.kept := by
  unfold State.countSectors; (try dsimp only); (repeat' split) <;> simp

/-! Issue. -/

@[simp] theorem kept_abortOn (s : State) (n : Nat) (code : Byte) (detail : Byte) :
    (State.abortOn s n code detail).kept = s.kept := by
  unfold State.abortOn; (repeat' split) <;> simp
@[simp] theorem kept_noteFault (s : State) (n : Nat) (pc : Nat) (cause : Nat) :
    (State.noteFault s n pc cause).kept = s.kept := by
  unfold State.noteFault; (try dsimp only); (repeat' split) <;> simp [kept_foldl]
@[simp] theorem kept_markFaulted (s : State) (n : Nat) :
    (State.markFaulted s n).kept = s.kept := by
  unfold State.markFaulted; (try dsimp only); (repeat' split) <;> simp [kept_foldl]
@[simp] theorem kept_cellFault (s : State) (n : Nat) (pc : Nat) (cause : Nat) :
    (State.cellFault s n pc cause).kept = s.kept := by
  simp [State.cellFault]
@[simp] theorem kept_outOfWindow (s : State) (n : Nat) (pc : Nat) (addr : W64) :
    (State.outOfWindow s n pc addr).kept = s.kept := by
  unfold State.outOfWindow; (try dsimp only)
  repeat' (first | rfl | (simp; done) | (refine (kept_foldl _ _ ?_ _).trans ?_ <;> intros) | split | simp)
@[simp] theorem kept_devicePoison (s : State) (n : Nat) :
    (State.devicePoison s n).kept = s.kept := by
  simp [State.devicePoison]
@[simp] theorem kept_hostUse (s : State) (n : Nat) (addr : Nat) :
    (State.hostUse s n addr).kept = s.kept := by
  unfold State.hostUse; (repeat' split) <;> simp
@[simp] theorem kept_hostSend (s : State) (n : Nat) (t : ExtTarget) (addr : Nat) (kind : Nat) :
    (State.hostSend s n t addr kind).kept = s.kept := by
  unfold State.hostSend; (repeat' split) <;> simp
@[simp] theorem kept_hostPoisoned (s : State) (n : Nat) (addr : Nat) :
    (State.hostPoisoned s n addr).kept = s.kept := by
  simp [State.hostPoisoned]
@[simp] theorem kept_noteLatency (s : State) (n : Nat) (addr : Nat) (took : Nat) :
    (State.noteLatency s n addr took).kept = s.kept := by
  unfold State.noteLatency; (try dsimp only); (repeat' split) <;> simp
@[simp] theorem kept_countStack (s : State) (n : Nat) (stack : Nat) :
    (State.countStack s n stack).kept = s.kept := by
  unfold State.countStack; (repeat' split) <;> simp
@[simp] theorem kept_lateFault (s : State) (h : Hdr) (len : Nat) (ill : Bool) (uses : List (Fin 32)) (late : Cell → State → Option Nat) :
    (State.lateFault s h len ill uses late).kept = s.kept := by
  unfold State.lateFault; (try dsimp only); (repeat' split) <;> simp [kept_foldl]
theorem kept_issueLate (h : Hdr) (len : Nat) (ill : Bool) (uses : List (Fin 32)) (late : Cell → State → Option Nat)
    (act : Cell → State → State) (s : State) (ha : (act (s.cell h.cell) s).kept = s.kept) :
    Keeps s (issueLate h len ill uses late act s) := by
  unfold issueLate
  try dsimp only
  repeat' (split <;> try simp)
  all_goals exact ha
theorem kept_issue (h : Hdr) (len : Nat) (ill : Bool) (uses : List (Fin 32)) (act : Cell → State → State) (s : State)
    (ha : (act (s.cell h.cell) s).kept = s.kept) : Keeps s (issue h len ill uses act s) := kept_issueLate _ _ _ _ _ _ _ ha
@[simp] theorem kept_cellOp (h : Hdr) (len : Nat) (ill : Bool) (uses : List (Fin 32)) (f : Cell → Cell) (s : State) :
    Keeps s (cellOp h len ill uses f s) := by
  unfold cellOp; refine kept_issue _ _ _ _ _ _ ?_; (repeat' split) <;> simp
def Act.Keeps (s : State) : Act → Prop
  | .go t => t.kept = s.kept
  | _ => True
@[simp] theorem keeps_go (s t : State) : Act.Keeps s (.go t) ↔ t.kept = s.kept := Iff.rfl
@[simp] theorem keeps_fault (s : State) (n : Nat) : Act.Keeps s (.fault n) := trivial
@[simp] theorem keeps_outside (s : State) (a : W64) : Act.Keeps s (.outside a) := trivial
@[simp] theorem keeps_poison (s : State) : Act.Keeps s .poison := trivial
@[simp] theorem keeps_wait (s : State) : Act.Keeps s .wait := trivial
theorem keeps_ite (s : State) (p : Prop) [Decidable p] {a b : Act} (ha : Act.Keeps s a) (hb : Act.Keeps s b) :
    Act.Keeps s (if p then a else b) := by
  split
  · exact ha
  · exact hb
theorem kept_run (a : Act) (h : Hdr) (c : Cell) (s : State) (ha : Act.Keeps s a) : (a.run h c s).kept = s.kept := by
  cases a <;> first | exact ha | simp [Act.run]
theorem kept_checkedOp (h : Hdr) (len : Nat) (ill : Bool) (uses : List (Fin 32)) (f : Cell → State → Act) (s : State)
    (hf : Act.Keeps s (f (s.cell h.cell) s)) : Keeps s (checkedOp h len ill uses f s) :=
  kept_issueLate _ _ _ _ _ _ _ (kept_run _ _ _ _ hf)

/-! Memory. -/

@[simp] theorem keeps_withDesc (s : State) (h : Hdr) (c : Cell) (addr : W64) (k : List Byte → Act) (hk : ∀ b, Act.Keeps s (k b)) :
    Act.Keeps s (withDesc h c addr k) := by
  unfold withDesc
  (repeat' split) <;> simp [hk]
theorem keeps_branchTo (h : Hdr) (c : Cell) (link : Option (Fin 32)) (target : Int) (s : State) :
    Act.Keeps s (branchTo h c link target s) := by
  unfold branchTo
  try dsimp only
  (repeat' split) <;> simp
theorem keeps_enqueue (n : Nat) (u : UnitId) (len : Nat) (cmd : UnitCmd) (c : Cell) (s : State) :
    Act.Keeps s (enqueue n u len cmd c s) := by
  unfold enqueue
  try dsimp only
  (repeat' split) <;> simp
@[simp] theorem kept_loadOp (size : Nat) (signed : Bool) (h : Hdr) (rd : Fin 32) (rs1 : Fin 32) (imm : Byte) (s : State) :
    Keeps s (loadOp size signed h rd rs1 imm s) := by
  unfold loadOp; refine kept_checkedOp _ _ _ _ _ _ ?_; dsimp only; (repeat' split) <;> simp
@[simp] theorem kept_execLb (h : Hdr) (rd : Fin 32) (rs1 : Fin 32) (imm : Byte) (s : State) :
    Keeps s (execLb h rd rs1 imm s) := by
  simp [execLb]
@[simp] theorem kept_execLbu (h : Hdr) (rd : Fin 32) (rs1 : Fin 32) (imm : Byte) (s : State) :
    Keeps s (execLbu h rd rs1 imm s) := by
  simp [execLbu]
@[simp] theorem kept_execLh (h : Hdr) (rd : Fin 32) (rs1 : Fin 32) (imm : Byte) (s : State) :
    Keeps s (execLh h rd rs1 imm s) := by
  simp [execLh]
@[simp] theorem kept_execLhu (h : Hdr) (rd : Fin 32) (rs1 : Fin 32) (imm : Byte) (s : State) :
    Keeps s (execLhu h rd rs1 imm s) := by
  simp [execLhu]
@[simp] theorem kept_execLw (h : Hdr) (rd : Fin 32) (rs1 : Fin 32) (imm : Byte) (s : State) :
    Keeps s (execLw h rd rs1 imm s) := by
  simp [execLw]
@[simp] theorem kept_execLwu (h : Hdr) (rd : Fin 32) (rs1 : Fin 32) (imm : Byte) (s : State) :
    Keeps s (execLwu h rd rs1 imm s) := by
  simp [execLwu]
@[simp] theorem kept_execLd (h : Hdr) (rd : Fin 32) (rs1 : Fin 32) (imm : Byte) (s : State) :
    Keeps s (execLd h rd rs1 imm s) := by
  simp [execLd]
@[simp] theorem kept_storeOp (size : Nat) (h : Hdr) (rs2 : Fin 32) (rs1 : Fin 32) (imm : Byte) (s : State) :
    Keeps s (storeOp size h rs2 rs1 imm s) := by
  unfold storeOp; refine kept_checkedOp _ _ _ _ _ _ ?_; dsimp only; (repeat' split) <;> simp
@[simp] theorem kept_execSb (h : Hdr) (rs2 : Fin 32) (rs1 : Fin 32) (imm : Byte) (s : State) :
    Keeps s (execSb h rs2 rs1 imm s) := by
  simp [execSb]
@[simp] theorem kept_execSh (h : Hdr) (rs2 : Fin 32) (rs1 : Fin 32) (imm : Byte) (s : State) :
    Keeps s (execSh h rs2 rs1 imm s) := by
  simp [execSh]
@[simp] theorem kept_execSw (h : Hdr) (rs2 : Fin 32) (rs1 : Fin 32) (imm : Byte) (s : State) :
    Keeps s (execSw h rs2 rs1 imm s) := by
  simp [execSw]
@[simp] theorem kept_execSd (h : Hdr) (rs2 : Fin 32) (rs1 : Fin 32) (imm : Byte) (s : State) :
    Keeps s (execSd h rs2 rs1 imm s) := by
  simp [execSd]
@[simp] theorem kept_execStoreBufferDrain (cell : Fin 128) (s : State) :
    Keeps s (execStoreBufferDrain cell s) := by
  unfold execStoreBufferDrain; (try dsimp only); (repeat' split) <;> simp
@[simp] theorem kept_atomicOp (op : AmoOp) (h : Hdr) (d : Bool) (rd : Fin 32) (rs1 : Fin 32) (rs2 : Fin 32) (s : State) :
    Keeps s (atomicOp op h d rd rs1 rs2 s) := by
  unfold atomicOp; refine kept_checkedOp _ _ _ _ _ _ ?_; dsimp only; (repeat' split) <;> simp
@[simp] theorem kept_execAmoswap (h : Hdr) (d : Bool) (rd : Fin 32) (rs1 : Fin 32) (rs2 : Fin 32) (s : State) :
    Keeps s (execAmoswap h d rd rs1 rs2 s) := by
  simp [execAmoswap]
@[simp] theorem kept_execAmoadd (h : Hdr) (d : Bool) (rd : Fin 32) (rs1 : Fin 32) (rs2 : Fin 32) (s : State) :
    Keeps s (execAmoadd h d rd rs1 rs2 s) := by
  simp [execAmoadd]
@[simp] theorem kept_execAmoand (h : Hdr) (d : Bool) (rd : Fin 32) (rs1 : Fin 32) (rs2 : Fin 32) (s : State) :
    Keeps s (execAmoand h d rd rs1 rs2 s) := by
  simp [execAmoand]
@[simp] theorem kept_execAmoor (h : Hdr) (d : Bool) (rd : Fin 32) (rs1 : Fin 32) (rs2 : Fin 32) (s : State) :
    Keeps s (execAmoor h d rd rs1 rs2 s) := by
  simp [execAmoor]
@[simp] theorem kept_execAmoxor (h : Hdr) (d : Bool) (rd : Fin 32) (rs1 : Fin 32) (rs2 : Fin 32) (s : State) :
    Keeps s (execAmoxor h d rd rs1 rs2 s) := by
  simp [execAmoxor]
@[simp] theorem kept_execAmomin (h : Hdr) (d : Bool) (rd : Fin 32) (rs1 : Fin 32) (rs2 : Fin 32) (s : State) :
    Keeps s (execAmomin h d rd rs1 rs2 s) := by
  simp [execAmomin]
@[simp] theorem kept_execAmomax (h : Hdr) (d : Bool) (rd : Fin 32) (rs1 : Fin 32) (rs2 : Fin 32) (s : State) :
    Keeps s (execAmomax h d rd rs1 rs2 s) := by
  simp [execAmomax]
@[simp] theorem kept_execAmominu (h : Hdr) (d : Bool) (rd : Fin 32) (rs1 : Fin 32) (rs2 : Fin 32) (s : State) :
    Keeps s (execAmominu h d rd rs1 rs2 s) := by
  simp [execAmominu]
@[simp] theorem kept_execAmomaxu (h : Hdr) (d : Bool) (rd : Fin 32) (rs1 : Fin 32) (rs2 : Fin 32) (s : State) :
    Keeps s (execAmomaxu h d rd rs1 rs2 s) := by
  simp [execAmomaxu]
@[simp] theorem kept_execCas (h : Hdr) (d : Bool) (rd : Fin 32) (rs1 : Fin 32) (rs2 : Fin 32) (s : State) :
    Keeps s (execCas h d rd rs1 rs2 s) := by
  simp [execCas]
@[simp] theorem kept_readSector (s : State) (n : Nat) (e : ExtAcc) (ecc : Ecc) :
    (State.readSector s n e ecc).kept = s.kept := by
  unfold State.readSector; (try dsimp only); (repeat' split) <;> simp [kept_foldl]
@[simp] theorem kept_finishGone (s : State) (n : Nat) (e : ExtAcc) (ecc : Ecc) :
    (State.finishGone s n e ecc).kept = s.kept := by
  unfold State.finishGone; (try dsimp only); (repeat' split) <;> simp [kept_foldl]
@[simp] theorem kept_execExternalAccessComplete (cell : Fin 128) (ecc : Ecc) (s : State) :
    Keeps s (execExternalAccessComplete cell ecc s) := by
  unfold execExternalAccessComplete; (try dsimp only); (repeat' split) <;> simp

/-! Control. -/

@[simp] theorem kept_execBr (h : Hdr) (off : BitVec 21) (s : State) :
    Keeps s (execBr h off s) := by
  unfold execBr; refine kept_checkedOp _ _ _ _ _ _ ?_; (repeat' split) <;> simp [keeps_branchTo]
@[simp] theorem kept_execCall (h : Hdr) (off : BitVec 21) (s : State) :
    Keeps s (execCall h off s) := by
  unfold execCall; refine kept_checkedOp _ _ _ _ _ _ ?_; (repeat' split) <;> simp [keeps_branchTo]
@[simp] theorem kept_execJalr (h : Hdr) (rd : Fin 32) (rs1 : Fin 32) (imm : BitVec 11) (s : State) :
    Keeps s (execJalr h rd rs1 imm s) := by
  unfold execJalr; refine kept_checkedOp _ _ _ _ _ _ ?_; (repeat' split) <;> simp [keeps_branchTo]
@[simp] theorem kept_execFenceSl (h : Hdr) (s : State) :
    Keeps s (execFenceSl h s) := by
  unfold execFenceSl; refine kept_checkedOp _ _ _ _ _ _ ?_; (repeat' split) <;> simp
@[simp] theorem kept_execUwait (h : Hdr) (mask : Byte) (s : State) :
    Keeps s (execUwait h mask s) := by
  unfold execUwait; refine kept_checkedOp _ _ _ _ _ _ ?_; (repeat' split) <;> simp
@[simp] theorem kept_execWaitq (h : Hdr) (rd : Fin 32) (s : State) :
    Keeps s (execWaitq h rd s) := by
  unfold execWaitq; refine kept_checkedOp _ _ _ _ _ _ ?_; dsimp only; (repeat' split) <;> simp
@[simp] theorem kept_execEndI (h : Hdr) (s : State) :
    Keeps s (execEndI h s) := by
  unfold execEndI; refine kept_checkedOp _ _ _ _ _ _ ?_; dsimp only; (repeat' split) <;> simp
@[simp] theorem kept_csOp (h : Hdr) (rd : Fin 32) (rs1 : Fin 32) (cs : BitVec 9) (ill : Bool) (f : Cell → W64 → W64 → Cell) (s : State) :
    Keeps s (csOp h rd rs1 cs ill f s) := by
  unfold csOp; refine kept_issue _ _ _ _ _ _ ?_; (repeat' split) <;> simp
@[simp] theorem kept_execCsrr (h : Hdr) (rd : Fin 32) (rs1 : Fin 32) (cs : BitVec 9) (s : State) :
    Keeps s (execCsrr h rd rs1 cs s) := by
  simp [execCsrr]
@[simp] theorem kept_execCsrw (h : Hdr) (rd : Fin 32) (rs1 : Fin 32) (cs : BitVec 9) (s : State) :
    Keeps s (execCsrw h rd rs1 cs s) := by
  simp [execCsrw]
@[simp] theorem kept_execCsrs (h : Hdr) (rd : Fin 32) (rs1 : Fin 32) (cs : BitVec 9) (s : State) :
    Keeps s (execCsrs h rd rs1 cs s) := by
  simp [execCsrs]
@[simp] theorem kept_execCsrc (h : Hdr) (rd : Fin 32) (rs1 : Fin 32) (cs : BitVec 9) (s : State) :
    Keeps s (execCsrc h rd rs1 cs s) := by
  simp [execCsrc]
@[simp] theorem kept_execVcopy (h : Hdr) (rd : Fin 32) (rs1 : Fin 32) (rs2 : Fin 32) (s : State) :
    Keeps s (execVcopy h rd rs1 rs2 s) := by
  unfold execVcopy; refine kept_checkedOp _ _ _ _ _ _ ?_; dsimp only; (repeat' split) <;> simp
@[simp] theorem kept_sweepPump (s : State) (n : Nat) (x2 : Nat) :
    (State.sweepPump s n x2).kept = s.kept := by
  induction x2 generalizing s with
  | zero => rfl
  | succ m ih =>
    unfold State.sweepPump
    dsimp only
    split
    · rfl
    · split
      · split
        · split <;> (first | rw [ih] | skip) <;> simp <;> (try split) <;> simp
        · rfl
      · rfl
@[simp] theorem kept_sweepOp (write : Bool) (h : Hdr) (rd : Fin 32) (rs1 : Fin 32) (rs2 : Fin 32) (s : State) :
    Keeps s (sweepOp write h rd rs1 rs2 s) := by
  unfold sweepOp
  refine kept_checkedOp _ _ _ _ _ _ ?_
  dsimp only
  iterate 5 refine keeps_ite _ _ trivial ?_
  exact keeps_ite _ _ (by simp) (by simp)
@[simp] theorem kept_execHsweepR (h : Hdr) (rd : Fin 32) (rs1 : Fin 32) (rs2 : Fin 32) (s : State) :
    Keeps s (execHsweepR h rd rs1 rs2 s) := by
  simp [execHsweepR]
@[simp] theorem kept_execHsweepW (h : Hdr) (rd : Fin 32) (rs1 : Fin 32) (rs2 : Fin 32) (s : State) :
    Keeps s (execHsweepW h rd rs1 rs2 s) := by
  simp [execHsweepW]

/-! Vector. -/

@[simp] theorem kept_laneOp (h : Hdr) (sc : Bool) (rd : Fin 32) (rs1 : Fin 32) (rs2 : Fin 32) (f : W32 → W32 → W32 → LaneRes) (s : State) :
    Keeps s (laneOp h sc rd rs1 rs2 f s) := by
  simp [laneOp]
@[simp] theorem kept_lanePlain (h : Hdr) (sc : Bool) (rd : Fin 32) (rs1 : Fin 32) (rs2 : Fin 32) (f : W32 → W32 → W32) (s : State) :
    Keeps s (lanePlain h sc rd rs1 rs2 f s) := by
  simp [lanePlain]
@[simp] theorem kept_laneF32 (h : Hdr) (sc : Bool) (rd : Fin 32) (rs1 : Fin 32) (rs2 : Fin 32) (f : W32 → W32 → F32Res) (s : State) :
    Keeps s (laneF32 h sc rd rs1 rs2 f s) := by
  simp [laneF32]
@[simp] theorem kept_execVadd (h : Hdr) (sc : Bool) (rd : Fin 32) (rs1 : Fin 32) (rs2 : Fin 32) (s : State) :
    Keeps s (execVadd h sc rd rs1 rs2 s) := by
  simp [execVadd]
@[simp] theorem kept_execVsub (h : Hdr) (sc : Bool) (rd : Fin 32) (rs1 : Fin 32) (rs2 : Fin 32) (s : State) :
    Keeps s (execVsub h sc rd rs1 rs2 s) := by
  simp [execVsub]
@[simp] theorem kept_execVmul (h : Hdr) (sc : Bool) (rd : Fin 32) (rs1 : Fin 32) (rs2 : Fin 32) (s : State) :
    Keeps s (execVmul h sc rd rs1 rs2 s) := by
  simp [execVmul]
@[simp] theorem kept_execVmulh (h : Hdr) (sc : Bool) (rd : Fin 32) (rs1 : Fin 32) (rs2 : Fin 32) (s : State) :
    Keeps s (execVmulh h sc rd rs1 rs2 s) := by
  simp [execVmulh]
@[simp] theorem kept_execVand (h : Hdr) (sc : Bool) (rd : Fin 32) (rs1 : Fin 32) (rs2 : Fin 32) (s : State) :
    Keeps s (execVand h sc rd rs1 rs2 s) := by
  simp [execVand]
@[simp] theorem kept_execVor (h : Hdr) (sc : Bool) (rd : Fin 32) (rs1 : Fin 32) (rs2 : Fin 32) (s : State) :
    Keeps s (execVor h sc rd rs1 rs2 s) := by
  simp [execVor]
@[simp] theorem kept_execVxor (h : Hdr) (sc : Bool) (rd : Fin 32) (rs1 : Fin 32) (rs2 : Fin 32) (s : State) :
    Keeps s (execVxor h sc rd rs1 rs2 s) := by
  simp [execVxor]
@[simp] theorem kept_execVsll (h : Hdr) (sc : Bool) (rd : Fin 32) (rs1 : Fin 32) (rs2 : Fin 32) (s : State) :
    Keeps s (execVsll h sc rd rs1 rs2 s) := by
  simp [execVsll]
@[simp] theorem kept_execVsrl (h : Hdr) (sc : Bool) (rd : Fin 32) (rs1 : Fin 32) (rs2 : Fin 32) (s : State) :
    Keeps s (execVsrl h sc rd rs1 rs2 s) := by
  simp [execVsrl]
@[simp] theorem kept_execVsra (h : Hdr) (sc : Bool) (rd : Fin 32) (rs1 : Fin 32) (rs2 : Fin 32) (s : State) :
    Keeps s (execVsra h sc rd rs1 rs2 s) := by
  simp [execVsra]
@[simp] theorem kept_execVneg (h : Hdr) (rd : Fin 32) (rs1 : Fin 32) (s : State) :
    Keeps s (execVneg h rd rs1 s) := by
  simp [execVneg]
@[simp] theorem kept_execVabs (h : Hdr) (rd : Fin 32) (rs1 : Fin 32) (s : State) :
    Keeps s (execVabs h rd rs1 s) := by
  simp [execVabs]
@[simp] theorem kept_execVmin (h : Hdr) (sc : Bool) (rd : Fin 32) (rs1 : Fin 32) (rs2 : Fin 32) (s : State) :
    Keeps s (execVmin h sc rd rs1 rs2 s) := by
  simp [execVmin]
@[simp] theorem kept_execVmax (h : Hdr) (sc : Bool) (rd : Fin 32) (rs1 : Fin 32) (rs2 : Fin 32) (s : State) :
    Keeps s (execVmax h sc rd rs1 rs2 s) := by
  simp [execVmax]
@[simp] theorem kept_execVminu (h : Hdr) (sc : Bool) (rd : Fin 32) (rs1 : Fin 32) (rs2 : Fin 32) (s : State) :
    Keeps s (execVminu h sc rd rs1 rs2 s) := by
  simp [execVminu]
@[simp] theorem kept_execVmaxu (h : Hdr) (sc : Bool) (rd : Fin 32) (rs1 : Fin 32) (rs2 : Fin 32) (s : State) :
    Keeps s (execVmaxu h sc rd rs1 rs2 s) := by
  simp [execVmaxu]
@[simp] theorem kept_execVadds (h : Hdr) (sc : Bool) (rd : Fin 32) (rs1 : Fin 32) (rs2 : Fin 32) (s : State) :
    Keeps s (execVadds h sc rd rs1 rs2 s) := by
  simp [execVadds]
@[simp] theorem kept_execVsubs (h : Hdr) (sc : Bool) (rd : Fin 32) (rs1 : Fin 32) (rs2 : Fin 32) (s : State) :
    Keeps s (execVsubs h sc rd rs1 rs2 s) := by
  simp [execVsubs]
@[simp] theorem kept_execVmuls (h : Hdr) (sc : Bool) (rd : Fin 32) (rs1 : Fin 32) (rs2 : Fin 32) (s : State) :
    Keeps s (execVmuls h sc rd rs1 rs2 s) := by
  simp [execVmuls]
@[simp] theorem kept_execVceq (h : Hdr) (sc : Bool) (rd : Fin 32) (rs1 : Fin 32) (rs2 : Fin 32) (s : State) :
    Keeps s (execVceq h sc rd rs1 rs2 s) := by
  simp [execVceq]
@[simp] theorem kept_execVclt (h : Hdr) (sc : Bool) (rd : Fin 32) (rs1 : Fin 32) (rs2 : Fin 32) (s : State) :
    Keeps s (execVclt h sc rd rs1 rs2 s) := by
  simp [execVclt]
@[simp] theorem kept_execVcltu (h : Hdr) (sc : Bool) (rd : Fin 32) (rs1 : Fin 32) (rs2 : Fin 32) (s : State) :
    Keeps s (execVcltu h sc rd rs1 rs2 s) := by
  simp [execVcltu]
@[simp] theorem kept_execVsel (h : Hdr) (sc : Bool) (rd : Fin 32) (rs1 : Fin 32) (rs2 : Fin 32) (s : State) :
    Keeps s (execVsel h sc rd rs1 rs2 s) := by
  simp [execVsel]
@[simp] theorem kept_execVfadd (h : Hdr) (sc : Bool) (rd : Fin 32) (rs1 : Fin 32) (rs2 : Fin 32) (s : State) :
    Keeps s (execVfadd h sc rd rs1 rs2 s) := by
  simp [execVfadd]
@[simp] theorem kept_execVfsub (h : Hdr) (sc : Bool) (rd : Fin 32) (rs1 : Fin 32) (rs2 : Fin 32) (s : State) :
    Keeps s (execVfsub h sc rd rs1 rs2 s) := by
  simp [execVfsub]
@[simp] theorem kept_execVfmul (h : Hdr) (sc : Bool) (rd : Fin 32) (rs1 : Fin 32) (rs2 : Fin 32) (s : State) :
    Keeps s (execVfmul h sc rd rs1 rs2 s) := by
  simp [execVfmul]
@[simp] theorem kept_execVfma (h : Hdr) (sc : Bool) (rd : Fin 32) (rs1 : Fin 32) (rs2 : Fin 32) (s : State) :
    Keeps s (execVfma h sc rd rs1 rs2 s) := by
  simp [execVfma]
@[simp] theorem kept_execVfmin (h : Hdr) (sc : Bool) (rd : Fin 32) (rs1 : Fin 32) (rs2 : Fin 32) (s : State) :
    Keeps s (execVfmin h sc rd rs1 rs2 s) := by
  simp [execVfmin]
@[simp] theorem kept_execVfmax (h : Hdr) (sc : Bool) (rd : Fin 32) (rs1 : Fin 32) (rs2 : Fin 32) (s : State) :
    Keeps s (execVfmax h sc rd rs1 rs2 s) := by
  simp [execVfmax]
@[simp] theorem kept_execVfneg (h : Hdr) (rd : Fin 32) (rs1 : Fin 32) (s : State) :
    Keeps s (execVfneg h rd rs1 s) := by
  simp [execVfneg]
@[simp] theorem kept_execVfabs (h : Hdr) (rd : Fin 32) (rs1 : Fin 32) (s : State) :
    Keeps s (execVfabs h rd rs1 s) := by
  simp [execVfabs]
@[simp] theorem kept_execVfceq (h : Hdr) (sc : Bool) (rd : Fin 32) (rs1 : Fin 32) (rs2 : Fin 32) (s : State) :
    Keeps s (execVfceq h sc rd rs1 rs2 s) := by
  simp [execVfceq]
@[simp] theorem kept_execVfclt (h : Hdr) (sc : Bool) (rd : Fin 32) (rs1 : Fin 32) (rs2 : Fin 32) (s : State) :
    Keeps s (execVfclt h sc rd rs1 rs2 s) := by
  simp [execVfclt]
@[simp] theorem kept_execVfcle (h : Hdr) (sc : Bool) (rd : Fin 32) (rs1 : Fin 32) (rs2 : Fin 32) (s : State) :
    Keeps s (execVfcle h sc rd rs1 rs2 s) := by
  simp [execVfcle]
@[simp] theorem kept_execVcvt (h : Hdr) (vd : Fin 32) (vs : Fin 32) (sfmt : BitVec 4) (dfmt : BitVec 4) (rnd : BitVec 2) (part : BitVec 3) (s : State) :
    Keeps s (execVcvt h vd vs sfmt dfmt rnd part s) := by
  unfold execVcvt; refine kept_checkedOp _ _ _ _ _ _ ?_; (repeat' split) <;> simp
@[simp] theorem kept_execVld (h : Hdr) (vd : Fin 32) (rs1 : Fin 32) (imm : Byte) (s : State) :
    Keeps s (execVld h vd rs1 imm s) := by
  unfold execVld; refine kept_checkedOp _ _ _ _ _ _ ?_; dsimp only; (repeat' split) <;> simp
@[simp] theorem kept_execVst (h : Hdr) (vs : Fin 32) (rs1 : Fin 32) (imm : Byte) (s : State) :
    Keeps s (execVst h vs rs1 imm s) := by
  unfold execVst; refine kept_checkedOp _ _ _ _ _ _ ?_; dsimp only; (repeat' split) <;> simp
@[simp] theorem kept_execVbcast (h : Hdr) (vd : Fin 32) (rs1 : Fin 32) (s : State) :
    Keeps s (execVbcast h vd rs1 s) := by
  simp [execVbcast]
@[simp] theorem kept_execVmvg (h : Hdr) (rd : Fin 32) (vs : Fin 32) (lane : Fin 64) (s : State) :
    Keeps s (execVmvg h rd vs lane s) := by
  simp [execVmvg]
@[simp] theorem kept_execVins (h : Hdr) (vd : Fin 32) (rs1 : Fin 32) (lane : Fin 64) (s : State) :
    Keeps s (execVins h vd rs1 lane s) := by
  simp [execVins]
@[simp] theorem kept_execVrsum (h : Hdr) (rd : Fin 32) (vs : Fin 32) (s : State) :
    Keeps s (execVrsum h rd vs s) := by
  simp [execVrsum]
@[simp] theorem kept_execVrfsum (h : Hdr) (rd : Fin 32) (vs : Fin 32) (s : State) :
    Keeps s (execVrfsum h rd vs s) := by
  simp [execVrfsum]
@[simp] theorem kept_execVrmax (h : Hdr) (rd : Fin 32) (vs : Fin 32) (s : State) :
    Keeps s (execVrmax h rd vs s) := by
  simp [execVrmax]
@[simp] theorem kept_execVrfmax (h : Hdr) (rd : Fin 32) (vs : Fin 32) (s : State) :
    Keeps s (execVrfmax h rd vs s) := by
  simp [execVrfmax]
@[simp] theorem kept_execVtr (h : Hdr) (v : Fin 32) (t : Fin 16) (row : Fin 64) (s : State) :
    Keeps s (execVtr h v t row s) := by
  unfold execVtr; refine kept_checkedOp _ _ _ _ _ _ ?_; (repeat' split) <;> simp
@[simp] theorem kept_execVtw (h : Hdr) (v : Fin 32) (t : Fin 16) (row : Fin 64) (s : State) :
    Keeps s (execVtw h v t row s) := by
  unfold execVtw; refine kept_checkedOp _ _ _ _ _ _ ?_; (repeat' split) <;> simp

/-! Tiles. -/

@[simp] theorem kept_tileMove (mk : Nat → Nat → Nat → Nat → UnitCmd) (h : Hdr) (t : Fin 16) (rs1 : Fin 32) (rs2 : Fin 32) (shape : Option Shape) (s : State) :
    Keeps s (tileMove mk h t rs1 rs2 shape s) := by
  unfold tileMove; refine kept_checkedOp _ _ _ _ _ _ ?_; dsimp only; (repeat' split) <;> simp [keeps_enqueue]
@[simp] theorem kept_execTld (h : Hdr) (t : Fin 16) (rs1 : Fin 32) (rs2 : Fin 32) (shape : Option Shape) (s : State) :
    Keeps s (execTld h t rs1 rs2 shape s) := by
  simp [execTld]
@[simp] theorem kept_execTst (h : Hdr) (t : Fin 16) (rs1 : Fin 32) (rs2 : Fin 32) (shape : Option Shape) (s : State) :
    Keeps s (execTst h t rs1 rs2 shape s) := by
  simp [execTst]
@[simp] theorem kept_execTzero (h : Hdr) (t : Fin 16) (s : State) :
    Keeps s (execTzero h t s) := by
  unfold execTzero; refine kept_checkedOp _ _ _ _ _ _ ?_; (repeat' split) <;> simp [keeps_enqueue]
@[simp] theorem kept_execTfree (h : Hdr) (mask : BitVec 17) (s : State) :
    Keeps s (execTfree h mask s) := by
  unfold execTfree; refine kept_checkedOp _ _ _ _ _ _ ?_; dsimp only; (repeat' split) <;> simp
@[simp] theorem kept_execTcopy (h : Hdr) (td : Fin 16) (ts : Fin 16) (s : State) :
    Keeps s (execTcopy h td ts s) := by
  unfold execTcopy; refine kept_checkedOp _ _ _ _ _ _ ?_; (repeat' split) <;> simp [keeps_enqueue]
@[simp] theorem kept_execAccz (h : Hdr) (s : State) :
    Keeps s (execAccz h s) := by
  unfold execAccz; refine kept_checkedOp _ _ _ _ _ _ ?_; (repeat' split) <;> simp [keeps_enqueue]
@[simp] theorem kept_execMma (h : Hdr) (ta : Fin 16) (tw : Fin 16) (afmt : BitVec 4) (wfmt : BitVec 4) (acol : BitVec 2) (acc : Bool) (shape : Option Shape) (s : State) :
    Keeps s (execMma h ta tw afmt wfmt acol acc shape s) := by
  unfold execMma; refine kept_checkedOp _ _ _ _ _ _ ?_; (repeat' split) <;> simp [keeps_enqueue]
@[simp] theorem kept_execAccmv (h : Hdr) (td : Fin 16) (fmt : BitVec 4) (rnd : BitVec 2) (rs : Fin 32) (nrows : BitVec 6) (s : State) :
    Keeps s (execAccmv h td fmt rnd rs nrows s) := by
  unfold execAccmv; refine kept_checkedOp _ _ _ _ _ _ ?_; (repeat' split) <;> simp [keeps_enqueue]
@[simp] theorem kept_execArr (h : Hdr) (a : BitVec 2) (s : State) :
    Keeps s (execArr h a s) := by
  unfold execArr; refine kept_checkedOp _ _ _ _ _ _ ?_; (repeat' split) <;> simp [keeps_enqueue]
@[simp] theorem kept_execCagset (h : Hdr) (rs1 : Fin 32) (s : State) :
    Keeps s (execCagset h rs1 s) := by
  unfold execCagset; refine kept_checkedOp _ _ _ _ _ _ ?_; dsimp only; (repeat' split) <;> simp [keeps_enqueue]
@[simp] theorem kept_execConv (h : Hdr) (tw : Fin 16) (rs1 : Fin 32) (rs2 : Fin 32) (acol : BitVec 2) (acc : Bool) (s : State) :
    Keeps s (execConv h tw rs1 rs2 acol acc s) := by
  unfold execConv; refine kept_checkedOp _ _ _ _ _ _ ?_; dsimp only; (repeat' split) <;> simp [keeps_enqueue]
@[simp] theorem kept_execMvm (h : Hdr) (td : Fin 16) (rs1 : Fin 32) (rs2 : Fin 32) (batch : Bool) (xfmt : Bool) (wfmt : Bool) (kq : Byte) (nblk : BitVec 7) (s : State) :
    Keeps s (execMvm h td rs1 rs2 batch xfmt wfmt kq nblk s) := by
  unfold execMvm; refine kept_checkedOp _ _ _ _ _ _ ?_; dsimp only; (repeat' split) <;> simp [keeps_enqueue]
@[simp] theorem kept_vcopyStep (s : State) (n : Nat) (rd : Fin 32) (rs1 : Fin 32) (rs2 : Fin 32) (count : W64) (src : W64) (dst : W64) (pc : Nat) (seq : Nat) :
    (State.vcopyStep s n rd rs1 rs2 count src dst pc seq).kept = s.kept := by
  unfold State.vcopyStep; (try dsimp only); (repeat' split) <;> simp
@[simp] theorem kept_countStreamed (s : State) (n : Nat) (u : UnitCmd) : (State.countStreamed s n u).kept = s.kept := by
  unfold State.countStreamed; (repeat' split) <;> simp
@[simp] theorem kept_execUnitCommandCommit (cell : Fin 128) (u : UnitId) (s : State) :
    Keeps s (execUnitCommandCommit cell u s) := by
  unfold execUnitCommandCommit; (try dsimp only); (repeat' split) <;> simp

/-! Awl. -/

@[simp] theorem kept_execAgath (h : Hdr) (rs1 : Fin 32) (arg : Byte) (s : State) :
    Keeps s (execAgath h rs1 arg s) := by
  unfold execAgath
  refine kept_checkedOp _ _ _ _ _ _ ?_
  generalize (if arg.getLsbD 0 then (1 : Fin 2) else 0) = k
  dsimp only
  split
  · simp
  · refine keeps_withDesc _ _ _ _ _ ?_
    intro b
    (repeat' split) <;> simp
@[simp] theorem kept_execAwait (h : Hdr) (arg : Byte) (s : State) :
    Keeps s (execAwait h arg s) := by
  unfold execAwait; refine kept_checkedOp _ _ _ _ _ _ ?_; (repeat' split) <;> simp
@[simp] theorem kept_atab (s : State) (p : Nat) (b : List Byte) :
    (State.atab s p b).2.kept = s.kept := by
  unfold State.atab; (try dsimp only); (repeat' split) <;> simp
@[simp] theorem kept_execAtab (h : Hdr) (rd : Fin 32) (rs1 : Fin 32) (s : State) :
    Keeps s (execAtab h rd rs1 s) := by
  unfold execAtab; refine kept_checkedOp _ _ _ _ _ _ ?_; (repeat' split) <;> simp
@[simp] theorem kept_gatherRefused (s : State) (n : Nat) (k : Fin 2) (g : GatherSlot) (code : Nat) (rowsRead : Nat) :
    (State.gatherRefused s n k g code rowsRead).kept = s.kept := by
  simp [State.gatherRefused]
@[simp] theorem kept_readList (s : State) (n : Nat) (addr : W64) (len : Nat) (host : List Byte) (poison : Bool) :
    (State.readList s n addr len host poison).2.kept = s.kept := by
  unfold State.readList; (try dsimp only); (repeat' split) <;> simp [kept_foldl]
theorem kept_withList {s0 s : State} (h0 : s.kept = s0.kept) (n : Nat) (addr : W64) (len : Nat) (host : List Byte)
    (poison : Bool) {k : List Byte → State → Out} (hk : ∀ b t, t.kept = s0.kept → Keeps s0 (k b t)) :
    Keeps s0 (State.withList s n addr len host poison k) := by
  have h := (kept_readList s n addr len host poison).trans h0
  unfold State.withList
  split <;> rename_i e <;> rw [e] at h
  · exact hk _ _ h
  all_goals simpa using h
@[simp] theorem kept_sendRows (s : State) (p : Nat) (i : Nat) (t : TableDesc) (x0 : List GatherRow) :
    (State.sendRows s p i t x0).2.kept = s.kept := by
  induction x0 generalizing s with
  | nil => rfl
  | cons r t ih => unfold State.sendRows; dsimp only; rw [ih]; simp
@[simp] theorem kept_execGatherAccept (cell : Fin 128) (slot : Fin 2) (host : HostLists) (s : State) :
    Keeps s (execGatherAccept cell slot host s) := by
  unfold execGatherAccept; dsimp only
  repeat' (first | (simp; done) | split)
  all_goals
    refine kept_withList (by simp) _ _ _ _ _ (fun _ _ h1 => ?_)
    refine kept_withList h1 _ _ _ _ _ (fun _ _ h2 => ?_)
    refine kept_withList h2 _ _ _ _ _ (fun _ _ h3 => ?_)
    (repeat' split) <;> simpa using h3
@[simp] theorem kept_rowComplete (s : State) (n : Nat) (slot : Fin 2) (g : GatherSlot) (pos : Nat) (poison : Option Nat) :
    (State.rowComplete s n slot g pos poison).kept = s.kept := by
  cases poison <;> simp [State.rowComplete]
@[simp] theorem kept_awlRead (s : State) (p : Nat) (t : TableDesc) (a : Nat) (ecc : Ecc) :
    (State.awlRead s p t a ecc).kept = s.kept := by
  unfold State.awlRead; (try dsimp only); (repeat' split) <;> simp [kept_foldl]
@[simp] theorem kept_takeSector (s : State) (n : Nat) (slot : Fin 2) (g : GatherSlot) (r : GatherRow) (sec : Nat) (a : Nat) :
    (State.takeSector s n slot g r sec a).kept = s.kept := by
  rw [State.takeSector, apply_ite State.kept]
  simp
@[simp] theorem kept_goneSector (s : State) (n : Nat) (e : Fin 2 × GatherSlot) (r : GatherRow) (sec : Nat) (ecc : Ecc) :
    (State.goneSector s n e r sec ecc).kept = s.kept := by
  unfold State.goneSector; (try dsimp only); (repeat' split) <;> simp [kept_foldl]
@[simp] theorem kept_execAwlSectorData (cell : Fin 128) (slot : Fin 2) (pos : Nat) (sec : Nat) (ecc : Ecc) (s : State) :
    Keeps s (execAwlSectorData cell slot pos sec ecc s) := by
  unfold execAwlSectorData
  dsimp only
  (repeat' split) <;> simp
@[simp] theorem kept_execGatherCommit (cell : Fin 128) (slot : Fin 2) (s : State) :
    Keeps s (execGatherCommit cell slot s) := by
  unfold execGatherCommit; (try dsimp only); (repeat' split) <;> simp

/-! Updates. -/

@[simp] theorem kept_writeLines (s : State) (p : Nat) (x2 : List Nat) (x3 : List Byte) :
    (State.writeLines s p x2 x3).kept = s.kept := by
  induction x2 generalizing s x3 with
  | nil => rfl
  | cons a l ih => simp [State.writeLines, ih]
@[simp] theorem kept_acceptUpd (s : State) (p : Nat) (free : Nat) (sess : Option (Fin 256 × Nat × W32 × Nat)) (b : List Byte) :
    (State.acceptUpd s p free sess b).2.kept = s.kept := by
  unfold State.acceptUpd; (try dsimp only); (repeat' split) <;> simp
@[simp] theorem kept_execAupd (h : Hdr) (rd : Fin 32) (rs1 : Fin 32) (s : State) :
    Keeps s (execAupd h rd rs1 s) := by
  unfold execAupd
  refine kept_checkedOp _ _ _ _ _ _ ?_
  refine keeps_withDesc _ _ _ _ _ ?_
  intro b
  dsimp only
  (repeat' split) <;> first | exact trivial | simp
@[simp] theorem kept_grantFor (s : State) (n : Nat) :
    (State.grantFor s n).kept = s.kept := by
  unfold State.grantFor; (repeat' split) <;> simp
@[simp] theorem kept_settleUpd (s : State) (sess : Fin 256 × Nat × W32 × Nat) (rep : Option (List Byte)) :
    (State.settleUpd s sess rep).kept = s.kept := by
  unfold State.settleUpd; (try dsimp only); (repeat' split) <;> simp
@[simp] theorem kept_retireUpd (s : State) (p : Nat) (r : UpdRec) :
    (State.retireUpd s p r).kept = s.kept := by
  simp [State.retireUpd]
@[simp] theorem kept_windowMeets (s : State) (p : Nat) (r : UpdRec) :
    (State.windowMeets s p r).kept = s.kept := by
  rfl
@[simp] theorem kept_windowBad (s : State) (p : Nat) (r : UpdRec) :
    (State.windowBad s p r).kept = s.kept := by
  rfl
@[simp] theorem kept_rejectUpd (s : State) (p : Nat) (r : UpdRec) (cause : Nat) :
    (State.rejectUpd s p r cause).kept = s.kept := by
  unfold State.rejectUpd; (try dsimp only); (repeat' split) <;> simp
@[simp] theorem kept_commitUpd (s : State) (p : Nat) (r : UpdRec) (t : TableDesc) (row : List Byte) (clamped : Nat) :
    (State.commitUpd s p r t row clamped).kept = s.kept := by
  unfold State.commitUpd; (try dsimp only); (repeat' split) <;> simp
@[simp] theorem kept_poisonUpd (s : State) (p : Nat) (r : UpdRec) (dev : Nat) :
    (State.poisonUpd s p r dev).kept = s.kept := by
  simp [State.poisonUpd]
@[simp] theorem kept_applyUpd (s : State) (p : Nat) (r : UpdRec) (t : TableDesc) (ecc : Ecc) :
    (State.applyUpd s p r t ecc).kept = s.kept := by
  unfold State.applyUpd; (try dsimp only); (repeat' split) <;> simp
@[simp] theorem kept_execUpdateWindowStart (p : Fin 16) (t : Nat) (s : State) :
    Keeps s (execUpdateWindowStart p t s) := by
  unfold execUpdateWindowStart; (try dsimp only); (repeat' split) <;> simp
@[simp] theorem kept_execUpdateApply (p : Fin 16) (t : Nat) (ecc : Ecc) (s : State) :
    Keeps s (execUpdateApply p t ecc s) := by
  unfold execUpdateApply; (try dsimp only); (repeat' split) <;> simp
@[simp] theorem kept_endWindow (s : State) (p : Nat) :
    (State.endWindow s p).kept = s.kept := by
  unfold State.endWindow; (try dsimp only); (repeat' split) <;> simp
@[simp] theorem kept_execUpdateWindowEnd (p : Fin 16) (t : Nat) (s : State) :
    Keeps s (execUpdateWindowEnd p t s) := by
  unfold execUpdateWindowEnd; (try dsimp only)
  repeat' (first | rfl | (simp; done) | (refine (kept_foldl _ _ ?_ _).trans ?_ <;> intros) | split | simp)

/-! Frontend. -/

@[simp] theorem kept_presentRequest (s : State) (g : Nat) :
    (State.presentRequest s g).kept = s.kept := by
  unfold State.presentRequest; (try dsimp only); (repeat' split) <;> simp [kept_foldl]
@[simp] theorem kept_seat (s : State) (p : Nat) (q : Nat) (g : Nat) (depth : Nat) (r : Request) :
    (State.seat s p q g depth r).kept = s.kept := by
  unfold State.seat; (try dsimp only); (repeat' split) <;> simp [kept_foldl]
@[simp] theorem kept_arrive (s : State) (p : Nat) (q : Nat) (r : Request) :
    (State.arrive s p q r).kept = s.kept := by
  unfold State.arrive; (repeat' split) <;> simp
@[simp] theorem kept_bellRefused (s : State) (f : Fin 8) (at' : Option (Nat × Nat)) (aux : Nat) :
    (State.bellRefused s f at' aux).kept = s.kept := by
  unfold State.bellRefused; (repeat' split) <;> simp
@[simp] theorem kept_execSqTail (f : Fin 8) (g : Fin 256) (v : W32) (wide : Bool) (s : State) :
    Keeps s (execSqTail f g v wide s) := by
  unfold execSqTail; dsimp only; (repeat' split) <;> simp [kept_foldl]
@[simp] theorem kept_execCqHead (f : Fin 8) (g : Fin 256) (v : W32) (wide : Bool) (s : State) :
    Keeps s (execCqHead f g v wide s) := by
  unfold execCqHead; (try dsimp only); (repeat' split) <;> simp
@[simp] theorem kept_orderResult (s : State) (p : Nat) (r : OrdRef) (code : Byte) (detail : Byte) :
    (State.orderResult s p r code detail).kept = s.kept := by
  unfold State.orderResult; (try dsimp only); (repeat' split) <;> simp
@[simp] theorem kept_endWait (s : State) (p : Nat) (w : ReadWait) :
    (State.endWait s p w).kept = s.kept := by
  unfold State.endWait; (try dsimp only); (repeat' split) <;> simp [kept_foldl]
@[simp] theorem kept_awaitReads (s : State) (p : Nat) (w : ReadWait) :
    (State.awaitReads s p w).kept = s.kept := by
  unfold State.awaitReads; (try dsimp only); (repeat' split) <;> simp [kept_foldl]
@[simp] theorem kept_readDone (s : State) (p : Nat) (q : Nat) (i : W32) (tag : Option W64) :
    (State.readDone s p q i tag).kept = s.kept := by
  unfold State.readDone; (try dsimp only); (repeat' split) <;> simp [kept_foldl]
@[simp] theorem kept_dropRequest (s : State) (p : Nat) (q : Nat) (src : ReqSrc) :
    (State.dropRequest s p q src).kept = s.kept := by
  unfold State.dropRequest; (try dsimp only); (repeat' split) <;> simp
@[simp] theorem kept_fetched (s : State) (p : Nat) (q : Nat) (i : W32) (r : Request) (d : List Byte) (patch : List Byte) (poison : Bool) :
    (State.fetched s p q i r d patch poison).kept = s.kept := by
  unfold State.fetched; (try dsimp only)
  repeat' (first | rfl | (simp; done) | (refine (kept_foldl _ _ ?_ _).trans ?_ <;> intros) | split | simp)
@[simp] theorem kept_readDescriptor (s : State) (p : Nat) (q : Nat) (desc : List Byte) (patch : List Byte) (poison : Bool) :
    (State.readDescriptor s p q desc patch poison).kept = s.kept := by
  unfold State.readDescriptor; (try dsimp only)
  repeat' (first | rfl | (simp; done) | (refine (kept_foldl _ _ ?_ _).trans ?_ <;> intros) | split | simp)
@[simp] theorem kept_writeRecord (s : State) (p : Nat) (q : Nat) :
    (State.writeRecord s p q).kept = s.kept := by
  unfold State.writeRecord; (try dsimp only); (repeat' split) <;> simp
@[simp] theorem kept_tryRecord (s : State) (p : Nat) (q : Nat) :
    (State.tryRecord s p q).kept = s.kept := by
  unfold State.tryRecord; (try dsimp only); (repeat' split) <;> simp [kept_foldl]
@[simp] theorem kept_execCompletionRecordWrite (p : Fin 16) (q : Fin 32) (s : State) :
    Keeps s (execCompletionRecordWrite p q s) := by
  unfold execCompletionRecordWrite; (repeat' split) <;> simp
@[simp] theorem kept_execMsixMessage (f : Fin 8) (v : Nat) (s : State) :
    Keeps s (execMsixMessage f v s) := by
  unfold execMsixMessage; (try dsimp only); (repeat' split) <;> simp
@[simp] theorem kept_unmaskVector (s : State) (f : Fin 8) (v : Nat) :
    (State.unmaskVector s f v).kept = s.kept := by
  unfold State.unmaskVector; (try dsimp only); (repeat' split) <;> simp
@[simp] theorem kept_execMsixVectorUnmask (f : Fin 8) (v : Nat) (s : State) :
    Keeps s (execMsixVectorUnmask f v s) := by
  unfold execMsixVectorUnmask; (repeat' split) <;> simp

/-! Tick. -/

@[simp] theorem kept_snapshot (s : State) (b : Nat) (e : W64) :
    (State.snapshot s b e).kept = s.kept := by
  rw [State.snapshot, kept_mk, kept_fold, kept_foldl _ _ (fun s x => kept_modOrd s x _)]
@[simp] theorem kept_abortLate (s : State) (p : Nat) :
    (State.abortLate s p).kept = s.kept := by
  unfold State.abortLate
  dsimp only
  rw [kept_foldl]
  · refine kept_foldl _ _ ?_ _
    intro s x
    (try dsimp only)
    (repeat' split) <;> simp
  · intro s x
    rw [kept_foldl _ _ (by intros; simp)]
    simp
@[simp] theorem kept_addInst (s : State) (x : Inst) :
    (State.addInst s x).kept = s.kept := by
  rfl
@[simp] theorem kept_seatTasks (s : State) (p : Fin 16) :
    (State.seatTasks s p).kept = s.kept := by
  unfold State.seatTasks; refine kept_foldl _ _ ?_ _; intros; refine kept_foldl _ _ ?_ _; intros; split <;> simp
@[simp] theorem kept_admitOne (s : State) (p : Fin 16) (q : Nat) (r : Request) :
    (State.admitOne s p q r).kept = s.kept := by
  unfold State.admitOne; (try dsimp only); (repeat' split) <;> simp [kept_foldl]
@[simp] theorem kept_admitQueue (s : State) (p : Fin 16) (c : QueueCfg) (x3 : List Request) (x4 : Nat) :
    (State.admitQueue s p c x3 x4).kept = s.kept := by
  induction x3 generalizing s x4 with
  | nil => rfl
  | cons r t ih => unfold State.admitQueue; (try dsimp only); (repeat' split) <;> simp [ih]
@[simp] theorem kept_admitParcel (s : State) (p : Fin 16) :
    (State.admitParcel s p).kept = s.kept := by
  refine kept_foldl _ _ ?_ _; intros; simp
@[simp] theorem kept_drainParcel (s : State) (p : Fin 16) :
    (State.drainParcel s p).kept = s.kept := by
  unfold State.drainParcel; (try dsimp only)
  repeat' (first | rfl | (simp; done) | (refine (kept_foldl _ _ ?_ _).trans ?_ <;> intros) | split | simp)
@[simp] theorem kept_handOut (s : State) (p : Nat) :
    (State.handOut s p).kept = s.kept := by
  unfold State.handOut; (try dsimp only); (repeat' split) <;> simp [kept_foldl]
@[simp] theorem kept_boundaryParcel (s : State) (p : Fin 16) :
    (State.boundaryParcel s p).kept = s.kept := by
  unfold State.boundaryParcel; (try dsimp only); (repeat' split) <;> simp
@[simp] theorem kept_endCompute (s : State) (p : Nat) :
    (State.endCompute s p).kept = s.kept := by
  unfold State.endCompute; simp [kept_foldl, apply_ite State.kept]
@[simp] theorem kept_execTickBoundary (t : Nat) (s : State) :
    Keeps s (execTickBoundary t s) := by
  unfold execTickBoundary
  extract_lets s0 due
  refine keeps_if (by simp [s0]) ?_
  rename_i b T e epoch all s1 s2 s3 src1 src2 s4 s5 before s6 n s7
  have h0 : s0.kept = s.kept := rfl
  have h1 : s1.kept = s.kept := (kept_foldl _ _ (by intros; simp) _).trans h0
  have h2 : s2.kept = s.kept := (kept_snapshot _ _ _).trans h1
  clear_value s2
  have h3 : s3.kept = s.kept := (kept_foldl _ _ (by intros; simp) _).trans h2
  clear_value s3
  have h4 : s4.kept = s.kept := h3
  have h5 : s5.kept = s.kept := (kept_foldl _ _ (by intros; simp) _).trans h4
  clear_value s5
  have h6 : s6.kept = s.kept := (kept_foldl _ _ (by intros; simp) _).trans h5
  clear_value s6
  have h7 : s7.kept = s.kept := (kept_foldl _ _ (by intros; simp) _).trans h6
  clear_value s7
  simp [h7]
@[simp] theorem kept_execComputePhaseStart (p : Fin 16) (t : Nat) (s : State) :
    Keeps s (execComputePhaseStart p t s) := by
  unfold execComputePhaseStart; (try dsimp only)
  repeat' (first | rfl | (simp; done) | (refine (kept_foldl _ _ ?_ _).trans ?_ <;> intros) | split | simp)
@[simp] theorem kept_execComputePhaseEnd (p : Fin 16) (t : Nat) (s : State) :
    Keeps s (execComputePhaseEnd p t s) := by
  unfold execComputePhaseEnd; (try dsimp only)
  repeat' (first | rfl | (simp; done) | (refine (kept_foldl _ _ ?_ _).trans ?_ <;> intros) | split | simp)
@[simp] theorem kept_execQueueTimeoutExpiry (p : Fin 16) (inst : Nat) (t : Nat) (s : State) :
    Keeps s (execQueueTimeoutExpiry p inst t s) := by
  unfold execQueueTimeoutExpiry; (try dsimp only)
  repeat' (first | rfl | (simp; done) | (refine (kept_foldl _ _ ?_ _).trans ?_ <;> intros) | split | simp)

/-! Orders. -/

@[simp] theorem kept_loadRefused (s : State) (p : Nat) (slot : Nat) (reason : Nat) (need : Nat) (bind : Option Nat) (label : List Byte) :
    (State.loadRefused s p slot reason need bind label).kept = s.kept := by
  simp [State.loadRefused]
@[simp] theorem kept_modSlot (s : State) (p : Nat) (g : Nat) (f : GraphSlot → GraphSlot) :
    (State.modSlot s p g f).kept = s.kept := by
  rfl
@[simp] theorem kept_orderLoad (s : State) (p : Nat) (r : OrdRef) (slot : Nat) (ctx : Nat) (seg : Nat) (off : Nat) (len : Nat) :
    (State.orderLoad s p r slot ctx seg off len).kept = s.kept := by
  unfold State.orderLoad; (try dsimp only); (repeat' split) <;> simp
@[simp] theorem kept_placeGraph (s : State) (p : Nat) (slot : Nat) (b : List Byte) (cells : List Nat) :
    (State.placeGraph s p slot b cells).kept = s.kept := by
  refine kept_foldl _ _ ?_ _; intros; simp
@[simp] theorem kept_emptySlot (s : State) (p : Nat) (slot : Nat) :
    (State.emptySlot s p slot).kept = s.kept := by
  rfl
@[simp] theorem kept_loadComplete (s : State) (p : Nat) (slot : Nat) (img : HostImage) :
    (State.loadComplete s p slot img).kept = s.kept := by
  unfold State.loadComplete; (try dsimp only); (repeat' split) <;> simp
@[simp] theorem kept_freeCells (s : State) (p : Nat) (slot : Nat) :
    (State.freeCells s p slot).kept = s.kept := by
  refine kept_foldl _ _ ?_ _; intros; simp
@[simp] theorem kept_unsettleStores (s : State) (p : Nat) (slot : Nat) :
    (State.unsettleStores s p slot).kept = s.kept := by
  unfold State.unsettleStores; simp [kept_foldl, apply_ite State.kept]
@[simp] theorem kept_orderUnload (s : State) (p : Nat) (r : OrdRef) (slot : Nat) :
    (State.orderUnload s p r slot).kept = s.kept := by
  unfold State.orderUnload; (try dsimp only); (repeat' split) <;> simp
@[simp] theorem kept_unloadComplete (s : State) (p : Nat) (slot : Nat) :
    (State.unloadComplete s p slot).kept = s.kept := by
  unfold State.unloadComplete; (try dsimp only); (repeat' split) <;> simp
@[simp] theorem kept_orderBind (s : State) (p : Fin 16) (r : OrdRef) (q : Nat) (slot : Nat) (mode : Nat) (count : Nat) :
    (State.orderBind s p r q slot mode count).kept = s.kept := by
  unfold State.orderBind; dsimp only; (repeat' split) <;> simp [kept_foldl]
@[simp] theorem kept_orderUnbind (s : State) (p : Nat) (r : OrdRef) (q : Nat) :
    (State.orderUnbind s p r q).kept = s.kept := by
  unfold State.orderUnbind; dsimp only; (repeat' split) <;> simp [kept_foldl, apply_ite State.kept]
@[simp] theorem kept_rebound (s : State) (p : Nat) :
    (State.rebound s p).kept = s.kept := by
  refine kept_foldl _ _ ?_ _; intros; simp
@[simp] theorem kept_unbindComplete (s : State) (p : Nat) (q : Nat) :
    (State.unbindComplete s p q).kept = s.kept := by
  unfold State.unbindComplete; (try dsimp only); (repeat' split) <;> simp
@[simp] theorem kept_orderRings (s : State) (p : Nat) (r : OrdRef) (q : Nat) (ctx : Nat) (seg : Nat) (count : Nat) (sq : Nat) (cq : Nat) (vec : Nat) :
    (State.orderRings s p r q ctx seg count sq cq vec).kept = s.kept := by
  unfold State.orderRings; (try dsimp only); (repeat' split) <;> simp
@[simp] theorem kept_flushQueue (s : State) (p : Nat) (q : Nat) (code : Byte) (detail : Byte) :
    (State.flushQueue s p q code detail).kept = s.kept := by
  refine kept_foldl _ _ ?_ _; intros; simp
@[simp] theorem kept_abortQueue (s : State) (p : Nat) (q : Nat) (code : Byte) (detail : Byte) :
    (State.abortQueue s p q code detail).kept = s.kept := by
  refine kept_foldl _ _ ?_ _; intros; simp
@[simp] theorem kept_orderReset (s : State) (p : Nat) (r : OrdRef) (q : Nat) :
    (State.orderReset s p r q).kept = s.kept := by
  unfold State.orderReset; (repeat' split) <;> simp
@[simp] theorem kept_orderCancel (s : State) (p : Nat) (r : OrdRef) (q : Nat) (tag : W64) :
    (State.orderCancel s p r q tag).kept = s.kept := by
  unfold State.orderCancel; (repeat' split) <;> simp [kept_foldl, apply_ite State.kept]
@[simp] theorem kept_orderQuiesce (s : State) (p : Nat) (r : OrdRef) :
    (State.orderQuiesce s p r).kept = s.kept := by
  simp [State.orderQuiesce]
@[simp] theorem kept_orderResume (s : State) (p : Nat) (r : OrdRef) :
    (State.orderResume s p r).kept = s.kept := by
  unfold State.orderResume; (try dsimp only)
  repeat' (first | rfl | (simp; done) | (refine (kept_foldl _ _ ?_ _).trans ?_ <;> intros) | split | simp)
@[simp] theorem kept_segDone (s : State) (p : Nat) (r : OrdRef) :
    (State.segDone s p r).kept = s.kept := by
  unfold State.segDone; (try dsimp only); (repeat' split) <;> simp [kept_foldl]
@[simp] theorem kept_orderSegSet (s : State) (p : Nat) (r : OrdRef) (ctx : Nat) (seg : Nat) (d : SegDesc) :
    (State.orderSegSet s p r ctx seg d).kept = s.kept := by
  unfold State.orderSegSet; (try dsimp only); (repeat' split) <;> simp
@[simp] theorem kept_orderSegClear (s : State) (p : Nat) (r : OrdRef) (gone : Nat → Bool) :
    (State.orderSegClear s p r gone).kept = s.kept := by
  simp [State.orderSegClear]
@[simp] theorem kept_orderFence (s : State) (p : Nat) (r : OrdRef) (mode : Nat) (base : Nat) (len : Nat) :
    (State.orderFence s p r mode base len).kept = s.kept := by
  unfold State.orderFence
  dsimp only
  split
  · simp
  · simp only [kept_modParcel]
    split
    · rfl
    · rw [kept_foldl _ _ (by intros; (try dsimp only); (repeat' split) <;> simp)]
      refine kept_foldl _ _ ?_ _
      intro s x
      rw [kept_foldl _ _ (by intros; simp)]
      simp
@[simp] theorem kept_fenceComplete (s : State) (p : Nat) :
    (State.fenceComplete s p).kept = s.kept := by
  unfold State.fenceComplete; (try dsimp only); (repeat' split) <;> simp
@[simp] theorem kept_abortParcel (s : State) (p : Nat) (code : Byte) (detail : Byte) :
    (State.abortParcel s p code detail).kept = s.kept := by
  unfold State.abortParcel; simp [kept_foldl]
@[simp] theorem kept_endLoads (s : State) (p : Nat) :
    (State.endLoads s p).kept = s.kept := by
  refine kept_foldl _ _ ?_ _; intros; (repeat' split) <;> simp
@[simp] theorem kept_discardLog (s : State) (p : Nat) :
    (State.discardLog s p).kept = s.kept := by
  unfold State.discardLog
  dsimp only
  simp only [kept_grantCredit]
  rw [kept_foldl _ _ (by intros; (try dsimp only); (repeat' split) <;> simp)]
  simp
@[simp] theorem kept_parcelReset (s : State) (p : Nat) (r : Option OrdRef) (mode : Nat) :
    (State.parcelReset s p r mode).kept = s.kept := by
  unfold State.parcelReset; (repeat' split) <;> simp
@[simp] theorem kept_endWaits (s : State) (p : Nat) :
    (State.endWaits s p).kept = s.kept := by
  unfold State.endWaits; (try dsimp only); (repeat' split) <;> simp [kept_foldl]
@[simp] theorem kept_dropRings (s : State) (p : Nat) (q : Nat) :
    (State.dropRings s p q).kept = s.kept := by
  refine kept_foldl _ _ ?_ _; intros; simp
@[simp] theorem kept_clearParcel (s : State) (p : Nat) :
    (State.clearParcel s p).kept = s.kept := by
  unfold State.clearParcel; dsimp only; simp only [kept_placeSegs, kept_modParcel, kept_endWaits]
  rw [kept_foldl _ _ (by intros; (try dsimp only); (repeat' split) <;> simp)]
  exact kept_foldl _ _ (by intros; (try dsimp only); (repeat' split) <;> simp) _
@[simp] theorem kept_resetComplete (s : State) (p : Nat) :
    (State.resetComplete s p).kept = s.kept := by
  unfold State.resetComplete; (repeat' split) <;> simp [kept_foldl, apply_ite State.kept]
@[simp] theorem kept_giveOrder (s : State) (p : Fin 16) (r : OrdRef) (o : Order) :
    (State.giveOrder s p r o).kept = s.kept := by
  unfold State.giveOrder; (repeat' split) <;> simp
@[simp] theorem kept_takeOrder (s : State) (src : Source) (id : W64) (inc : Nat) (o : Option (Order × Bool)) (same : Bool) :
    (State.takeOrder s src id inc o same).kept = s.kept := by
  unfold State.takeOrder
  extract_lets r mgmt g cyc s1
  have h1 : s1.kept = s.kept := rfl
  clear_value s1
  cases o <;> (repeat' (first | (simp [h1]; done) | split | dsimp only))

/-! Images. -/

@[simp] theorem kept_closeSession (s : State) (n : Nat) (code : Nat) :
    (State.closeSession s n code).kept = s.kept := by
  unfold State.closeSession; simp [kept_foldl, apply_ite State.kept]
@[simp] theorem kept_configureCells (s : State) (p : Fin 16) :
    (State.configureCells s p).kept = s.kept := by
  refine kept_foldl _ _ ?_ _; intros; (repeat' split) <;> simp
@[simp] theorem kept_emptyParcel (s : State) (p : Fin 16) :
    (State.emptyParcel s p).kept = s.kept := by
  unfold State.emptyParcel; simp [kept_foldl]
@[simp] theorem kept_applyLocal (s : State) (p : Fin 16) (b : List Byte) :
    (State.applyLocal s p b).kept = s.kept := by
  unfold State.applyLocal; simp [kept_foldl, apply_ite State.kept]
@[simp] theorem kept_zeroFill (s : State) (old : ParcelSet) (new : ParcelSet) :
    (State.zeroFill s old new).kept = s.kept := by
  refine kept_foldl _ _ ?_ _; intros; (repeat' split) <;> simp
@[simp] theorem kept_flushWays (s : State) (old : ParcelSet) (new : ParcelSet) :
    (State.flushWays s old new).kept = s.kept := by
  refine kept_foldl _ _ ?_ _; intros; (repeat' split) <;> simp
@[simp] theorem kept_stopTrace (s : State) :
    (State.stopTrace s).kept = s.kept := by
  unfold State.stopTrace; (repeat' split) <;> simp
@[simp] theorem kept_rewriteLog (s : State) (p : Nat) :
    (State.rewriteLog s p).kept = s.kept := by
  unfold State.rewriteLog; (try dsimp only); (repeat' split) <;> simp [kept_foldl]
@[simp] theorem kept_applyDevice (s : State) (b : List Byte) (sel : Nat) :
    (State.applyDevice s b sel).kept = s.kept := by
  unfold State.applyDevice
  extract_lets d oldDev old new serial s1 s2 s3 s4 s5 keeps s6 s7 s8 ports rh s9 net s10 s11
  have h1 : s1.kept = s.kept := kept_foldl _ _ (by intros; simp) _
  have h2 : s2.kept = s.kept := (kept_foldl _ _ (by intros; simp) _).trans h1
  have h3 : s3.kept = s.kept := by simp [s3, h2]
  have h4 : s4.kept = s.kept := by simp only [s4]; split <;> simp [h3]
  have h5 : s5.kept = s.kept := h4
  have h6 : s6.kept = s.kept := (kept_foldl _ _ (by intros; (try dsimp only); (repeat' split) <;> simp) _).trans h5
  have h7 : s7.kept = s.kept := (kept_foldl _ _ (by intros; simp) _).trans h6
  have h8 : s8.kept = s.kept := (kept_foldl _ _ (by intros; simp) _).trans h7
  have h9 : s9.kept = s.kept := (kept_foldl _ _ (by intros; (try dsimp only); (repeat' split) <;> simp) _).trans h8
  have h10 : s10.kept = s.kept := h9
  have h11 : s11.kept = s.kept := by simp only [s11]; split <;> simp [h10]
  exact h11
@[simp] theorem kept_logImage (s : State) (w : Pusher) (code : Nat) (b : List Byte) :
    (State.logImage s w code b).kept = s.kept := by
  simp [State.logImage]
@[simp] theorem kept_pushImage (s : State) (w : Pusher) (b : List Byte) :
    (State.pushImage s w b).2.kept = s.kept := by
  unfold State.pushImage; (try dsimp only); (repeat' split) <;> simp
@[simp] theorem kept_pushResult (s : State) (a : Nat) (code : Nat) :
    (State.pushResult s a code).kept = s.kept := by
  simp [State.pushResult]
@[simp] theorem kept_freeMail (s : State) :
    (State.freeMail s).kept = s.kept := by
  unfold State.freeMail; refine kept_foldl _ _ ?_ _; intros; split <;> simp
@[simp] theorem kept_execLastImagePush (who : Accessor) (bytes : List Byte) (s : State) :
    Keeps s (execLastImagePush who bytes s) := by
  unfold execLastImagePush; (try dsimp only)
  repeat' (first | rfl | (simp; done) | (refine (kept_foldl _ _ ?_ _).trans ?_ <;> intros) | split | simp)
@[simp] theorem kept_execParcelBuildEnd (p : Fin 16) (s : State) :
    Keeps s (execParcelBuildEnd p s) := by
  unfold execParcelBuildEnd; (repeat' split) <;> simp
@[simp] theorem kept_endBuild (s : State) :
    (State.endBuild s).kept = s.kept := by
  unfold State.endBuild
  extract_lets s1
  have h1 : s1.kept = s.kept := kept_foldl _ _ (by intros; split <;> simp) _
  clear_value s1
  rw [kept_mk, ← h1, ← kept_freeMail s1]
  exact kept_fold _

/-! Vangir. -/

@[simp] theorem kept_vgDrop (s : State) (n : Nat) :
    (State.vgDrop s n).kept = s.kept := by
  rfl
@[simp] theorem kept_vgResend (s : State) (n : Nat) (t : VgTx) (rto : Nat) (fast : Bool) :
    (State.vgResend s n t rto fast).kept = s.kept := by
  simp [State.vgResend]
@[simp] theorem kept_vgFast (s : State) (n : Nat) :
    (State.vgFast s n).kept = s.kept := by
  refine kept_foldl _ _ ?_ _; intros; simp
@[simp] theorem kept_vgAcked (s : State) (n : Nat) (ack : W32) (blocks : List (W32 × W32)) :
    (State.vgAcked s n ack blocks).kept = s.kept := by
  unfold State.vgAcked; (try dsimp only); (repeat' split) <;> simp
@[simp] theorem kept_answerNoQueue (s : State) (p : Nat) (n : Nat) (r : Request) (q : Nat) (gather : Bool) (rseq : W32) (inc : Nat) (code : Byte) (detail : Byte) :
    (State.answerNoQueue s p n r q gather rseq inc code detail).kept = s.kept := by
  simp [State.answerNoQueue]
@[simp] theorem kept_arriveWork (s : State) (p : Nat) (q : Nat) (r : Request) (b : WorkBody) :
    (State.arriveWork s p q r b).kept = s.kept := by
  unfold State.arriveWork; (try dsimp only); (repeat' split) <;> simp
@[simp] theorem kept_deliverWork (s : State) (p : Nat) (n : Fin 256) (rseq : W32) (gather : Bool) (b : WorkBody) :
    (State.deliverWork s p n rseq gather b).kept = s.kept := by
  unfold State.deliverWork; (try dsimp only); (repeat' split) <;> simp
@[simp] theorem kept_takeRecord (s : State) (p : Nat) (e : Fin 256 × Nat × W32 × Nat) (b : List Byte) :
    (State.takeRecord s p e b).kept = s.kept := by
  unfold State.takeRecord; (try dsimp only); (repeat' split) <;> simp
@[simp] theorem kept_deliverUpdate (s : State) (p : Nat) (n : Fin 256) (rseq : W32) (body : List Byte) :
    (State.deliverUpdate s p n rseq body).kept = s.kept := by
  unfold State.deliverUpdate; (repeat' split) <;> simp [kept_foldl]
@[simp] theorem kept_ctlReply (s : State) (n : Nat) (inc : Nat) (op : Nat) (rseq : W32) (body : List Byte) :
    (State.ctlReply s n inc op rseq body).kept = s.kept := by
  unfold State.ctlReply; (try dsimp only); (repeat' split) <;> simp
@[simp] theorem kept_stageData (s : State) (p : Nat) (n : Nat) (w : WinBody) (data : List Byte) :
    (State.stageData s p n w data).2.kept = s.kept := by
  unfold State.stageData; (try dsimp only); (repeat' split) <;> simp
@[simp] theorem kept_pushWindow (s : State) (p : Nat) (n : Fin 256) (w : WinBody) (len : Nat) :
    (State.pushWindow s p n w len).2.kept = s.kept := by
  unfold State.pushWindow; (try dsimp only); (repeat' split) <;> simp
@[simp] theorem kept_takeCtl (s : State) (n : Fin 256) :
    (State.takeCtl s n).kept = s.kept := by
  unfold State.takeCtl; (try dsimp only)
  repeat' (first | rfl | (simp; done) | (refine (kept_foldl _ _ ?_ _).trans ?_ <;> intros) | split | simp)
@[simp] theorem kept_holdCtl (s : State) (n : Nat) :
    (State.holdCtl s n).kept = s.kept := by
  unfold State.holdCtl; (try dsimp only); (repeat' split) <;> simp [kept_foldl]
@[simp] theorem kept_pump (s : State) :
    (State.pump s).kept = s.kept := by
  unfold State.pump; (try dsimp only)
  repeat' (first | rfl | (simp; done) | (refine (kept_foldl _ _ ?_ _).trans ?_ <;> intros) | split | simp)
@[simp] theorem kept_deliver (s : State) (n : Fin 256) (b : VBody) :
    (State.deliver s n b).kept = s.kept := by
  unfold State.deliver; (repeat' split) <;> simp
@[simp] theorem kept_deliverHeld (s : State) (n : Fin 256) (x2 : Nat) :
    (State.deliverHeld s n x2).kept = s.kept := by
  induction x2 generalizing s with
  | zero => rfl
  | succ m ih => unfold State.deliverHeld; (try dsimp only); (repeat' split) <;> simp [ih]
@[simp] theorem kept_vgReliableIn (s : State) (n : Fin 256) (h : VHdr) (b : VBody) :
    (State.vgReliableIn s n h b).kept = s.kept := by
  unfold State.vgReliableIn; (try dsimp only); (repeat' split) <;> simp
@[simp] theorem kept_closeBare (s : State) (n : Nat) (code : Nat) :
    (State.closeBare s n code).kept = s.kept := by
  simp [State.closeBare]
@[simp] theorem kept_openSession (s : State) (p : Nat) (n : Nat) (key : BitVec 256) (nonce : BitVec 56) (isn : W32) :
    (State.openSession s p n key nonce isn).kept = s.kept := by
  simp [State.openSession]
@[simp] theorem kept_vgOpen (s : State) (n : Fin 256) (h : VHdr) (nonce : BitVec 56) (isn : W32) (resv : Bool) :
    (State.vgOpen s n h nonce isn resv).kept = s.kept := by
  unfold State.vgOpen; (try dsimp only); (repeat' split) <;> simp
@[simp] theorem kept_vgReceive (s : State) (h : VHdr) (m : VMsg) :
    (State.vgReceive s h m).kept = s.kept := by
  unfold State.vgReceive; (try dsimp only); (repeat' split) <;> simp
@[simp] theorem kept_vgRow (s : State) (h : VHdr) (m : VMsg) :
    (State.vgRow s h m).kept = s.kept := by
  unfold State.vgRow; (try dsimp only); (repeat' split) <;> simp [kept_foldl]
@[simp] theorem kept_execSessOpen (h : VHdr) (nonce : BitVec 56) (isn : W32) (resv : Bool) (s : State) :
    Keeps s (execSessOpen h nonce isn resv s) := by
  simp [execSessOpen]
@[simp] theorem kept_execSessClose (h : VHdr) (code : Byte) (resv : Bool) (s : State) :
    Keeps s (execSessClose h code resv s) := by
  simp [execSessClose]
@[simp] theorem kept_execSessAck (h : VHdr) (blocks : List (W32 × W32)) (resv : Bool) (s : State) :
    Keeps s (execSessAck h blocks resv s) := by
  simp [execSessAck]
@[simp] theorem kept_execRank (h : VHdr) (b : WorkBody) (s : State) :
    Keeps s (execRank h b s) := by
  simp [execRank]
@[simp] theorem kept_execGather (h : VHdr) (b : WorkBody) (s : State) :
    Keeps s (execGather h b s) := by
  simp [execGather]
@[simp] theorem kept_execUpdate (h : VHdr) (body : List Byte) (s : State) :
    Keeps s (execUpdate h body s) := by
  simp [execUpdate]
@[simp] theorem kept_execOrder (h : VHdr) (desc : List Byte) (s : State) :
    Keeps s (execOrder h desc s) := by
  simp [execOrder]
@[simp] theorem kept_execStage (h : VHdr) (w : WinBody) (data : List Byte) (s : State) :
    Keeps s (execStage h w data s) := by
  simp [execStage]
@[simp] theorem kept_execPush (h : VHdr) (w : WinBody) (len : W32) (s : State) :
    Keeps s (execPush h w len s) := by
  simp [execPush]
@[simp] theorem kept_execRetransmitTimeout (sid : Fin 256) (seq : W32) (t : Nat) (s : State) :
    Keeps s (execRetransmitTimeout sid seq t s) := by
  unfold execRetransmitTimeout; (try dsimp only)
  repeat' (first | rfl | (simp; done) | (refine (kept_foldl _ _ ?_ _).trans ?_ <;> intros) | split | simp)
@[simp] theorem kept_execAckDelayExpiry (sid : Fin 256) (t : Nat) (s : State) :
    Keeps s (execAckDelayExpiry sid t s) := by
  unfold execAckDelayExpiry; (try dsimp only)
  repeat' (first | rfl | (simp; done) | (refine (kept_foldl _ _ ?_ _).trans ?_ <;> intros) | split | simp)
@[simp] theorem kept_execKeepalive (sid : Fin 256) (t : Nat) (s : State) :
    Keeps s (execKeepalive sid t s) := by
  unfold execKeepalive; (try dsimp only)
  repeat' (first | rfl | (simp; done) | (refine (kept_foldl _ _ ?_ _).trans ?_ <;> intros) | split | simp)
@[simp] theorem kept_execIdleTimeout (sid : Fin 256) (t : Nat) (s : State) :
    Keeps s (execIdleTimeout sid t s) := by
  unfold execIdleTimeout; (try dsimp only)
  repeat' (first | rfl | (simp; done) | (refine (kept_foldl _ _ ?_ _).trans ?_ <;> intros) | split | simp)

/-! OrderRows. -/

@[simp] theorem kept_windowOrder (s : State) (a : Nat) (src : Source) (id : W64) (o : Option (Order × Bool)) (same : Bool) :
    (State.windowOrder s a src id o same).kept = s.kept := by
  unfold State.windowOrder; (try dsimp only)
  repeat' (first | rfl | (simp; done) | (refine (kept_foldl _ _ ?_ _).trans ?_ <;> intros) | split | simp)
@[simp] theorem kept_rowOrder (s : State) (h : OrdHdr) (o : Order) :
    (State.rowOrder s h o).kept = s.kept := by
  unfold State.rowOrder; (try dsimp only)
  repeat' (first | rfl | (simp; done) | (refine (kept_foldl _ _ ?_ _).trans ?_ <;> intros) | split | simp)
@[simp] theorem kept_execLaunchDescriptorRead (p : Fin 16) (q : Fin 32) (desc : List Byte) (patch : List Byte) (host : HostRead) (s : State) :
    Keeps s (execLaunchDescriptorRead p q desc patch host s) := by
  unfold execLaunchDescriptorRead; (try dsimp only)
  repeat' (first | rfl | (simp; done) | (refine (kept_foldl _ _ ?_ _).trans ?_ <;> intros) | split | simp)
@[simp] theorem kept_execGraphLoad (o : OrdHdr) (slot : Byte) (ctx : Byte) (seg : Byte) (off : W64) (len : W64) (s : State) :
    Keeps s (execGraphLoad o slot ctx seg off len s) := by
  simp [execGraphLoad]
@[simp] theorem kept_execGraphLoadComplete (p : Fin 16) (slot : Fin 64) (img : HostImage) (s : State) :
    Keeps s (execGraphLoadComplete p slot img s) := by
  unfold execGraphLoadComplete
  extract_lets host
  exact keeps_if (by simp) (by simp)
@[simp] theorem kept_execGraphUnload (o : OrdHdr) (slot : Byte) (s : State) :
    Keeps s (execGraphUnload o slot s) := by
  simp [execGraphUnload]
@[simp] theorem kept_execGraphUnloadComplete (p : Fin 16) (slot : Fin 64) (s : State) :
    Keeps s (execGraphUnloadComplete p slot s) := by
  unfold execGraphUnloadComplete; (repeat' split) <;> simp
@[simp] theorem kept_execQueueBind (o : OrdHdr) (q : Byte) (slot : Byte) (mode : Byte) (count : W16) (s : State) :
    Keeps s (execQueueBind o q slot mode count s) := by
  simp [execQueueBind]
@[simp] theorem kept_execQueueUnbind (o : OrdHdr) (q : Byte) (s : State) :
    Keeps s (execQueueUnbind o q s) := by
  simp [execQueueUnbind]
@[simp] theorem kept_execQueueUnbindComplete (p : Fin 16) (q : Fin 32) (s : State) :
    Keeps s (execQueueUnbindComplete p q s) := by
  simp [execQueueUnbindComplete]
@[simp] theorem kept_execQueueTimeout (o : OrdHdr) (q : Byte) (ns : W64) (s : State) :
    Keeps s (execQueueTimeout o q ns s) := by
  simp [execQueueTimeout]
@[simp] theorem kept_execQueueRings (o : OrdHdr) (q : Byte) (ctx : Byte) (seg : Byte) (count : W16) (sq : W64) (cq : W64) (vec : W64) (s : State) :
    Keeps s (execQueueRings o q ctx seg count sq cq vec s) := by
  simp [execQueueRings]
@[simp] theorem kept_execQueueReset (o : OrdHdr) (q : Byte) (s : State) :
    Keeps s (execQueueReset o q s) := by
  simp [execQueueReset]
@[simp] theorem kept_execCancel (o : OrdHdr) (q : Byte) (tag : W64) (s : State) :
    Keeps s (execCancel o q tag s) := by
  simp [execCancel]
@[simp] theorem kept_execQuiesce (o : OrdHdr) (s : State) :
    Keeps s (execQuiesce o s) := by
  simp [execQuiesce]
@[simp] theorem kept_execResume (o : OrdHdr) (s : State) :
    Keeps s (execResume o s) := by
  simp [execResume]
@[simp] theorem kept_execParcelQuiet (p : Fin 16) (s : State) :
    Keeps s (execParcelQuiet p s) := by
  unfold execParcelQuiet; (repeat' split) <;> simp
@[simp] theorem kept_execSegSet (o : OrdHdr) (ctx : Byte) (seg : Byte) (mode : Byte) (count : W16) (vbase : W64) (tbase : W64) (limit : W64) (s : State) :
    Keeps s (execSegSet o ctx seg mode count vbase tbase limit s) := by
  simp [execSegSet]
@[simp] theorem kept_execSegClear (o : OrdHdr) (ctx : Byte) (seg : Byte) (s : State) :
    Keeps s (execSegClear o ctx seg s) := by
  simp [execSegClear]
@[simp] theorem kept_execCtxClear (o : OrdHdr) (ctx : Byte) (s : State) :
    Keeps s (execCtxClear o ctx s) := by
  simp [execCtxClear]
@[simp] theorem kept_execSegFence (o : OrdHdr) (mode : Byte) (base : W64) (len : W64) (s : State) :
    Keeps s (execSegFence o mode base len s) := by
  simp [execSegFence]
@[simp] theorem kept_execSegFenceComplete (p : Fin 16) (s : State) :
    Keeps s (execSegFenceComplete p s) := by
  simp [execSegFenceComplete]
@[simp] theorem kept_execParcelReset (o : OrdHdr) (mode : Byte) (s : State) :
    Keeps s (execParcelReset o mode s) := by
  simp [execParcelReset]
@[simp] theorem kept_execParcelResetComplete (p : Fin 16) (s : State) :
    Keeps s (execParcelResetComplete p s) := by
  unfold execParcelResetComplete; (repeat' split) <;> simp

/-! Power. -/

@[simp] theorem kept_modStack (s : State) (k : Nat) (f : ThStack → ThStack) :
    (State.modStack s k f).kept = s.kept := by
  rfl
@[simp] theorem kept_modThCell (s : State) (n : Nat) (f : ThCell → ThCell) :
    (State.modThCell s n f).kept = s.kept := by
  rfl
@[simp] theorem kept_enterEmergency (s : State) (kind : Nat) (unit : Nat) (reading : Nat) :
    (State.enterEmergency s kind unit reading).kept = s.kept := by
  simp [State.enterEmergency]
@[simp] theorem kept_setClock (s : State) (n : Nat) (code : Nat) (reason : Nat) :
    (State.setClock s n code reason).kept = s.kept := by
  simp [State.setClock]
@[simp] theorem kept_markThermal (s : State) (n : Nat) :
    (State.markThermal s n).kept = s.kept := by
  unfold State.markThermal; (repeat' split) <;> simp
@[simp] theorem kept_fallBelow (s : State) (n : Nat) :
    (State.fallBelow s n).kept = s.kept := by
  simp [State.fallBelow]
@[simp] theorem kept_execCellThrottleStep (t : Nat) (s : State) :
    Keeps s (execCellThrottleStep t s) := by
  unfold execCellThrottleStep; (try dsimp only)
  repeat' (first | rfl | (simp; done) | (refine (kept_foldl _ _ ?_ _).trans ?_ <;> intros) | split | simp)
@[simp] theorem kept_leaveEmergency (s : State) (n : Nat) :
    (State.leaveEmergency s n).kept = s.kept := by
  unfold State.leaveEmergency; (repeat' split) <;> simp
@[simp] theorem kept_execCellClockRise (t : Nat) (s : State) :
    Keeps s (execCellClockRise t s) := by
  unfold execCellClockRise; (try dsimp only)
  repeat' (first | rfl | (simp; done) | (refine (kept_foldl _ _ ?_ _).trans ?_ <;> intros) | split | simp)
@[simp] theorem kept_execStackCapStep (t : Nat) (s : State) :
    Keeps s (execStackCapStep t s) := by
  unfold execStackCapStep; (try dsimp only)
  repeat' (first | rfl | (simp; done) | (refine (kept_foldl _ _ ?_ _).trans ?_ <;> intros) | split | simp)
@[simp] theorem kept_execStackCapRelease (t : Nat) (s : State) :
    Keeps s (execStackCapRelease t s) := by
  unfold execStackCapRelease; (try dsimp only)
  repeat' (first | rfl | (simp; done) | (refine (kept_foldl _ _ ?_ _).trans ?_ <;> intros) | split | simp)
@[simp] theorem kept_limiterStep (s : State) :
    (State.limiterStep s).kept = s.kept := by
  unfold State.limiterStep; simp [kept_foldl, apply_ite State.kept]
@[simp] theorem kept_execPowerLimiterStep (t : Nat) (s : State) :
    Keeps s (execPowerLimiterStep t s) := by
  unfold execPowerLimiterStep; (try dsimp only)
  repeat' (first | rfl | (simp; done) | (refine (kept_foldl _ _ ?_ _).trans ?_ <;> intros) | split | simp)
@[simp] theorem kept_execPowerEmergency (t : Nat) (s : State) :
    Keeps s (execPowerEmergency t s) := by
  unfold execPowerEmergency; (try dsimp only)
  repeat' (first | rfl | (simp; done) | (refine (kept_foldl _ _ ?_ _).trans ?_ <;> intros) | split | simp)
@[simp] theorem kept_timePower (s : State) :
    (State.timePower s).kept = s.kept := by
  unfold State.timePower; simp [kept_foldl, apply_ite State.kept]
@[simp] theorem kept_dropMain (s : State) :
    (State.dropMain s).kept = s.kept := by
  rfl
@[simp] theorem kept_execCblPresDeassert (c : Fin 2) (s : State) :
    Keeps s (execCblPresDeassert c s) := by
  unfold execCblPresDeassert; (repeat' split) <;> simp
@[simp] theorem kept_takeSamples (s : State) (m : Sample) :
    (State.takeSamples s m).kept = s.kept := by
  unfold State.takeSamples; simp [kept_foldl]
@[simp] theorem kept_refreshRate (s : State) :
    (State.refreshRate s).kept = s.kept := by
  rfl
@[simp] theorem kept_derate (s : State) :
    (State.derate s).kept = s.kept := by
  rfl
@[simp] theorem kept_coolAlerts (s : State) :
    (State.coolAlerts s).kept = s.kept := by
  unfold State.coolAlerts; (try dsimp only); (repeat' split) <;> simp
@[simp] theorem kept_countCycles (s : State) (l : List (Fin 137 × Int)) :
    (State.countCycles s l).kept = s.kept := by
  refine kept_foldl _ _ ?_ _; intros; simp
@[simp] theorem kept_addWear (s : State) :
    (State.addWear s).kept = s.kept := by
  simp [State.addWear]

/-! Upkeep. -/

@[simp] theorem kept_retireParcel (s : State) (p : Nat) :
    (State.retireParcel s p).kept = s.kept := by
  unfold State.retireParcel
  dsimp only
  rw [kept_foldl _ _ (by intros; (try dsimp only); (repeat' split) <;> simp)]
  simp only [kept_modParcel]
  rw [kept_foldl _ _ (by intros; (try dsimp only); (repeat' split) <;> simp)]
  simp only [kept_modParcel]
  rw [kept_foldl _ _ (by intros; simp)]
  simp only [kept_modParcel]
  rw [kept_foldl _ _ (by intros; simp)]
  simp only [kept_modParcel]
  rw [kept_foldl _ _ (by intros; (try dsimp only); (repeat' split) <;> simp)]
  rw [kept_foldl _ _ (by intros; (try dsimp only); (repeat' split) <;> simp)]
  rw [kept_foldl _ _ (by intros; simp)]
  rw [kept_foldl _ _ (by intros; simp)]
  simp
@[simp] theorem kept_evictAll (s : State) :
    (State.evictAll s).kept = s.kept := by
  refine kept_foldl _ _ ?_ _; intros; simp
@[simp] theorem kept_execRefresh (stack : Fin 8) (pch : Fin 32) (_bank : Fin 16) (s : State) :
    Keeps s (execRefresh stack pch _bank s) := by
  unfold execRefresh; (repeat' split) <;> simp
@[simp] theorem kept_execScrubRead (stack : Fin 8) (sector : Nat) (ecc : Ecc) (s : State) :
    Keeps s (execScrubRead stack sector ecc s) := by
  unfold execScrubRead; (try dsimp only); (repeat' split) <;> simp
@[simp] theorem kept_execRemapCopyEnd (stack : Fin 8) (s : State) :
    Keeps s (execRemapCopyEnd stack s) := by
  unfold execRemapCopyEnd; (try dsimp only)
  repeat' (first | rfl | (simp; done) | (refine (kept_foldl _ _ ?_ _).trans ?_ <;> intros) | split | simp)
@[simp] theorem kept_execMarginPassEnd (results : List Byte) (s : State) :
    Keeps s (execMarginPassEnd results s) := by
  unfold execMarginPassEnd; (try dsimp only); (repeat' split) <;> simp

/-! Survey. -/

@[simp] theorem kept_passOver (s : State) (n : Nat) :
    (State.passOver s n).kept = s.kept := by
  unfold State.passOver; (try dsimp only); (repeat' split) <;> simp
@[simp] theorem kept_cellSlice (s : State) (n : Nat) :
    (State.cellSlice s n).kept = s.kept := by
  unfold State.cellSlice; (try dsimp only); (repeat' split) <;> simp
@[simp] theorem kept_stackSlice (s : State) (k : Nat) (c : Nat) :
    (State.stackSlice s k c).kept = s.kept := by
  unfold State.stackSlice; (try dsimp only); (repeat' split) <;> simp
@[simp] theorem kept_weltSlice (s : State) :
    (State.weltSlice s).kept = s.kept := by
  unfold State.weltSlice; (repeat' split) <;> simp
@[simp] theorem kept_execSurveySliceStart (t : Nat) (s : State) :
    Keeps s (execSurveySliceStart t s) := by
  unfold execSurveySliceStart
  extract_lets s0 c
  refine keeps_if (by simp [s0]) ?_
  have h0 : s0.kept = s.kept := rfl
  rename_i s1 s2 s3 s4
  have h1 : s1.kept = s.kept := h0
  have h2 : s2.kept = s.kept := (kept_foldl _ _ (by intros; simp) _).trans h1
  clear_value s2
  have h3 : s3.kept = s.kept := (kept_foldl _ _ (by intros; simp) _).trans h2
  clear_value s3
  have h4 : s4.kept = s.kept := (kept_foldl _ _ (by intros; simp) _).trans h3
  clear_value s4
  simp [h4]
@[simp] theorem kept_mendCell (s : State) (n : Nat) (region : Nat) (f : TestFind) :
    (State.mendCell s n region f).1.kept = s.kept := by
  unfold State.mendCell; (try dsimp only); (repeat' split) <;> simp
@[simp] theorem kept_fenceCell (s : State) (n : Nat) :
    (State.fenceCell s n).kept = s.kept := by
  unfold State.fenceCell; (try dsimp only); (repeat' split) <;> simp
@[simp] theorem kept_mendWelt (s : State) (j : Nat) (f : TestFind) :
    (State.mendWelt s j f).1.kept = s.kept := by
  refine kept_foldl _ _ ?_ _; intros; (repeat' split) <;> simp
@[simp] theorem kept_mendRange (s : State) (k : Nat) (c : Nat) (i : Nat) (f : TestFind) :
    (State.mendRange s k c i f).1.kept = s.kept := by
  refine kept_foldl _ _ ?_ _; intros; simp
@[simp] theorem kept_svRecord (s : State) (bytes : List Byte) :
    (State.svRecord s bytes).kept = s.kept := by
  rfl
@[simp] theorem kept_surveyFail (s : State) (k : Nat) (region : Nat) (outcome : Nat) (pattern : Bool) (f : TestFind) :
    (State.surveyFail s k region outcome pattern f).kept = s.kept := by
  unfold State.surveyFail; (repeat' split) <;> simp
@[simp] theorem kept_endTest (s : State) (k : Nat) :
    (State.endTest s k).kept = s.kept := by
  unfold State.endTest; (try dsimp only); (repeat' split) <;> simp
@[simp] theorem kept_execSurveyTestEnd (a : Agent) (find : TestFind) (t : Nat) (s : State) :
    Keeps s (execSurveyTestEnd a find t s) := by
  unfold execSurveyTestEnd; (try dsimp only)
  repeat' (first | rfl | (simp; done) | (refine (kept_foldl _ _ ?_ _).trans ?_ <;> intros) | split | simp)
@[simp] theorem kept_execSurveyAbandon (a : Agent) (find : TestFind) (t : Nat) (s : State) :
    Keeps s (execSurveyAbandon a find t s) := by
  unfold execSurveyAbandon; (try dsimp only)
  repeat' (first | rfl | (simp; done) | (refine (kept_foldl _ _ ?_ _).trans ?_ <;> intros) | split | simp)

/-! Wear. -/

@[simp] theorem kept_execOscillatorMeasure (drifts : List (Fin 536 × W32)) (s : State) :
    Keeps s (execOscillatorMeasure drifts s) := by
  unfold execOscillatorMeasure; (repeat' split) <;> simp
@[simp] theorem kept_predict (s : State) :
    (State.predict s).kept = s.kept := by
  unfold State.predict; (repeat' split) <;> simp
@[simp] theorem kept_commitWear (s : State) :
    (State.commitWear s).kept = s.kept := by
  rfl
@[simp] theorem kept_foldCycles (s : State) (cyc : Sparse W32) :
    (State.foldCycles s cyc).kept = s.kept := by
  rfl
@[simp] theorem kept_execWearHourly (t : Nat) (s : State) :
    Keeps s (execWearHourly t s) := by
  unfold execWearHourly; (try dsimp only)
  repeat' (first | rfl | (simp; done) | (refine (kept_foldl _ _ ?_ _).trans ?_ <;> intros) | split | simp)

/-! Resets. -/

@[simp] theorem kept_logReset (s : State) (level : Nat) :
    (State.logReset s level).kept = s.kept := by
  simp [State.logReset]
@[simp] theorem kept_startRails (s : State) :
    (State.startRails s).kept = s.kept := by
  unfold State.startRails; (repeat' split) <;> simp
@[simp] theorem kept_dropUpdate (s : State) :
    (State.dropUpdate s).kept = s.kept := by
  unfold State.dropUpdate; (repeat' split) <;> simp
@[simp] theorem kept_ptpUnlock (s : State) :
    (State.ptpUnlock s).kept = s.kept := by
  simp [State.ptpUnlock]
@[simp] theorem kept_ptpWarm (s : State) (old : PtpSt) :
    (State.ptpWarm s old).kept = s.kept := by
  unfold State.ptpWarm; (repeat' split) <;> simp
@[simp] theorem kept_orderCode (s : State) (c : Nat) :
    (State.orderCode s c).kept = s.kept := by
  rfl
@[simp] theorem kept_postCell (s : State) (n : Nat) (region : Nat) (f : TestFind) :
    (State.postCell s n region f).kept = s.kept := by
  unfold State.postCell; (try dsimp only); (repeat' split) <;> simp
@[simp] theorem kept_postLogic (s : State) (n : Nat) :
    (State.postLogic s n).kept = s.kept := by
  simp [State.postLogic]
theorem kept_postRegion (s : State) (k : Nat) (region : Nat) (pattern : Bool) (f : TestFind) (r : State × Nat)
    (hr : r.1.kept = s.kept) : (State.postRegion s k region pattern f r).kept = s.kept := by
  unfold State.postRegion
  split <;> simp [hr]
@[simp] theorem kept_postRegs (s : State) (parts : List Nat) :
    (State.postRegs s parts).kept = s.kept := by
  rfl
@[simp] theorem kept_recall (s : State) :
    (State.recall s).kept = s.kept := by
  refine kept_foldl _ _ ?_ _; intros; simp

/-! Logs. -/

@[simp] theorem kept_traceLog (s : State) (e : LogEntry) (unit : W16) (code : W16) :
    (State.traceLog s e unit code).kept = s.kept := by
  simp [State.traceLog]
@[simp] theorem kept_loseLog (s : State) (first : W16) (n : Nat) :
    (State.loseLog s first n).kept = s.kept := by
  unfold State.loseLog; (repeat' split) <;> simp
@[simp] theorem kept_execErrorLogEntryWrite (fail : Bool) (s : State) :
    Keeps s (execErrorLogEntryWrite fail s) := by
  unfold execErrorLogEntryWrite; (repeat' split) <;> simp
@[simp] theorem kept_clearLog (s : State) :
    (State.clearLog s).kept = s.kept := by
  unfold State.clearLog; (repeat' split) <;> simp
@[simp] theorem kept_execErrorLogClear (who : Accessor) (s : State) :
    Keeps s (execErrorLogClear who s) := by
  unfold execErrorLogClear; (repeat' split) <;> simp
@[simp] theorem kept_writeTrace (s : State) (v : W64) :
    (State.writeTrace s v).kept = s.kept := by
  unfold State.writeTrace; (try dsimp only); (repeat' split) <;> simp
@[simp] theorem kept_traceRow (s : State) (who : Accessor) (v : W64) (want : Bool → Bool → Bool) :
    (State.traceRow s who v want).kept = s.kept := by
  unfold State.traceRow; (repeat' split) <;> simp
@[simp] theorem kept_execTraceStart (who : Accessor) (v : W64) (s : State) :
    Keeps s (execTraceStart who v s) := by
  simp [execTraceStart]
@[simp] theorem kept_execTraceStop (who : Accessor) (v : W64) (s : State) :
    Keeps s (execTraceStop who v s) := by
  simp [execTraceStop]
@[simp] theorem kept_execTraceReconfigure (who : Accessor) (v : W64) (s : State) :
    Keeps s (execTraceReconfigure who v s) := by
  simp [execTraceReconfigure]
@[simp] theorem kept_putRecord (s : State) (i : Nat) (bytes : List Byte) :
    (State.putRecord s i bytes).kept = s.kept := by
  unfold State.putRecord; (try dsimp only); (repeat' split) <;> simp
@[simp] theorem kept_writeRec (s : State) (t : TrRec) :
    (State.writeRec s t).kept = s.kept := by
  rw [State.writeRec, apply_ite State.kept, kept_mk, kept_mk, kept_fold, kept_fold, kept_putRecord, ite_self]
@[simp] theorem kept_execTraceRecordWrite (s : State) :
    Keeps s (execTraceRecordWrite s) := by
  unfold execTraceRecordWrite; (repeat' split) <;> simp
@[simp] theorem kept_selectCounter (s : State) (i : Nat) (v : W32) :
    (State.selectCounter s i v).kept = s.kept := by
  rfl
@[simp] theorem kept_execCounterSelect (who : Accessor) (i : Fin 1024) (v : W32) (s : State) :
    Keeps s (execCounterSelect who i v s) := by
  unfold execCounterSelect; (repeat' split) <;> simp
@[simp] theorem kept_latch (s : State) (a : Nat) :
    (State.latch s a).kept = s.kept := by
  unfold State.latch; (repeat' split) <;> simp
@[simp] theorem kept_execSnapshotLatch (who : Accessor) (s : State) :
    Keeps s (execSnapshotLatch who s) := by
  unfold execSnapshotLatch; (repeat' split) <;> simp

/-! HostRows. -/

@[simp] theorem kept_serveExt (s : State) (n : Nat) (e : ExtAcc) (bs : List Byte) (poison : Bool) :
    (State.serveExt s n e bs poison).kept = s.kept := by
  unfold State.serveExt; (try dsimp only); (repeat' split) <;> simp
@[simp] theorem kept_serveGone (s : State) (n : Nat) (e : ExtAcc) (bs : List Byte) (poison : Bool) :
    (State.serveGone s n e bs poison).kept = s.kept := by
  unfold State.serveGone; (try dsimp only); (repeat' split) <;> simp [kept_foldl]
@[simp] theorem kept_serveLeft (s : State) (n : Nat) (k : Nat) :
    (State.serveLeft s n k).kept = s.kept := by
  unfold State.serveLeft; (try dsimp only)
  repeat' (first | rfl | (simp; done) | (refine (kept_foldl _ _ ?_ _).trans ?_ <;> intros) | split | simp)
@[simp] theorem kept_serveCell (s : State) (n : Nat) (k : Nat) :
    (State.serveCell s n k).kept = s.kept := by
  unfold State.serveCell; (try dsimp only)
  repeat' (first | rfl | (simp; done) | (refine (kept_foldl _ _ ?_ _).trans ?_ <;> intros) | split | simp)
@[simp] theorem kept_serveLine (s : State) (k : Nat) :
    (State.serveLine s k).kept = s.kept := by
  refine kept_foldl _ _ ?_ _; intros; simp
@[simp] theorem kept_askHeld (s : State) (n : Nat) :
    (State.askHeld s n).kept = s.kept := by
  unfold State.askHeld; (try dsimp only); (repeat' split) <;> simp [kept_foldl]
@[simp] theorem kept_serveAll (s : State) :
    (State.serveAll s).kept = s.kept := by
  unfold State.serveAll; simp [kept_foldl]
@[simp] theorem kept_fillAnswer (s : State) (p : Nat) (k : Nat) (a : HostAnswer) (own : Bool) (noData : Bool) :
    (State.fillAnswer s p k a own noData).kept = s.kept := by
  unfold State.fillAnswer; (try dsimp only); (repeat' split) <;> simp [kept_foldl]
@[simp] theorem kept_noteAnswer (s : State) (k : Nat) (took : Nat) :
    (State.noteAnswer s k took).kept = s.kept := by
  unfold State.noteAnswer; (try dsimp only)
  repeat' (first | rfl | (simp; done) | (refine (kept_foldl _ _ ?_ _).trans ?_ <;> intros) | split | simp)
@[simp] theorem kept_execHostResponse (addr : Nat) (a : HostAnswer) (took : Nat) (s : State) :
    Keeps s (execHostResponse addr a took s) := by
  unfold execHostResponse; dsimp only; (repeat' split) <;> simp [kept_foldl]
@[simp] theorem kept_execHostSnoop (kind : Snoop) (addr : Nat) (s : State) :
    Keeps s (execHostSnoop kind addr s) := by
  unfold execHostSnoop; (try dsimp only); (repeat' split) <;> simp
@[simp] theorem kept_execCacheWritebackInvalidate (s : State) :
    Keeps s (execCacheWritebackInvalidate s) := by
  unfold execCacheWritebackInvalidate; (try dsimp only)
  repeat' (first | rfl | (simp; done) | (refine (kept_foldl _ _ ?_ _).trans ?_ <;> intros) | split | simp)
@[simp] theorem kept_execCacheWritebackComplete (s : State) :
    Keeps s (execCacheWritebackComplete s) := by
  unfold execCacheWritebackComplete; (repeat' split) <;> simp
@[simp] theorem kept_execCacheDisable (b : Bool) (s : State) :
    Keeps s (execCacheDisable b s) := by
  unfold execCacheDisable; (repeat' split) <;> simp
@[simp] theorem kept_resetFunction (s : State) (f : Nat) :
    (State.resetFunction s f).kept = s.kept := by
  rfl
@[simp] theorem kept_resetFunctions (s : State) :
    (State.resetFunctions s).kept = s.kept := by
  refine kept_foldl _ _ ?_ _; intros; simp
@[simp] theorem kept_dropNewRecords (s : State) (p : Nat) (had : Nat → Nat) :
    (State.dropNewRecords s p had).kept = s.kept := by
  refine kept_foldl _ _ ?_ _; intros; simp
@[simp] theorem kept_execFunctionLevelReset (f : Fin 8) (s : State) :
    Keeps s (execFunctionLevelReset f s) := by
  unfold execFunctionLevelReset; (try dsimp only); (repeat' split) <;> simp
@[simp] theorem kept_execPowerStateChange (f : Fin 8) (d3 : Bool) (s : State) :
    Keeps s (execPowerStateChange f d3 s) := by
  unfold execPowerStateChange; (repeat' split) <;> simp
@[simp] theorem kept_askAgain (s : State) :
    (State.askAgain s).kept = s.kept := by
  unfold State.askAgain; dsimp only; simp only [kept_serveAll, kept_modHost]
  refine kept_foldl _ _ ?_ _; intros; split <;> simp
@[simp] theorem kept_execLinkUp (width : Nat) (speed : Nat) (flit : Bool) (cache : Bool) (s : State) :
    Keeps s (execLinkUp width speed flit cache s) := by
  unfold execLinkUp; (try dsimp only); (repeat' split) <;> simp
@[simp] theorem kept_loseLink (s : State) :
    (State.loseLink s).kept = s.kept := by
  unfold State.loseLink; dsimp only; simp only [kept_serveAll]
  exact (kept_foldl _ _ (by intros; simp) _).trans rfl
@[simp] theorem kept_resetHostParcels (s : State) :
    (State.resetHostParcels s).kept = s.kept := by
  refine kept_foldl _ _ ?_ _; intros; simp
@[simp] theorem kept_execLinkDown (s : State) :
    Keeps s (execLinkDown s) := by
  unfold execLinkDown; (try dsimp only); (repeat' split) <;> simp
@[simp] theorem kept_execPerstDeassert (s : State) :
    Keeps s (execPerstDeassert s) := by
  unfold execPerstDeassert; (repeat' split) <;> simp

/-! Ports. -/

@[simp] theorem kept_setMod (s : State) (p : Nat) (v : Nat) :
    (State.setMod s p v).kept = s.kept := by
  rfl
@[simp] theorem kept_execModuleInsert (p : Fin 4) (hostIf : BitVec 2) (s : State) :
    Keeps s (execModuleInsert p hostIf s) := by
  rfl
@[simp] theorem kept_execModuleReady (p : Fin 4) (s : State) :
    Keeps s (execModuleReady p s) := by
  unfold execModuleReady; (try dsimp only); (repeat' split) <;> simp
@[simp] theorem kept_execSubportUp (i : Fin 16) (s : State) :
    Keeps s (execSubportUp i s) := by
  unfold execSubportUp; (repeat' split) <;> simp
@[simp] theorem kept_subDown (s : State) (i : Nat) :
    (State.subDown s i).kept = s.kept := by
  unfold State.subDown; (try dsimp only); (repeat' split) <;> simp
@[simp] theorem kept_execSubportDown (i : Fin 16) (s : State) :
    Keeps s (execSubportDown i s) := by
  simp [execSubportDown]
@[simp] theorem kept_execModuleRemoval (p : Fin 4) (s : State) :
    Keeps s (execModuleRemoval p s) := by
  refine kept_foldl _ _ ?_ _; intros; simp
@[simp] theorem kept_bump (s : State) (i : Nat) (c : Nat) :
    (State.bump s i c).kept = s.kept := by
  rfl
@[simp] theorem kept_takeSa (s : State) (op : Nat) (r : SaRec) :
    (State.takeSa s op r).kept = s.kept := by
  unfold State.takeSa; (try dsimp only); (repeat' split) <;> simp
@[simp] theorem kept_saRow (s : State) (who : Accessor) (op : Nat) (r : SaRec) :
    (State.saRow s who op r).kept = s.kept := by
  unfold State.saRow; (repeat' split) <;> simp
@[simp] theorem kept_execSaInstall (who : Accessor) (r : SaRec) (s : State) :
    Keeps s (execSaInstall who r s) := by
  simp [execSaInstall]
@[simp] theorem kept_execSaDelete (who : Accessor) (r : SaRec) (s : State) :
    Keeps s (execSaDelete who r s) := by
  simp [execSaDelete]
@[simp] theorem kept_execSaActivate (who : Accessor) (r : SaRec) (s : State) :
    Keeps s (execSaActivate who r s) := by
  simp [execSaActivate]
@[simp] theorem kept_execFrameTransmit (i : Fin 16) (s : State) :
    Keeps s (execFrameTransmit i s) := by
  unfold execFrameTransmit; (try dsimp only); (repeat' split) <;> simp
@[simp] theorem kept_execNeighborSolicitation (i : Fin 16) (target : BitVec 128) (src : BitVec 128) (mac : BitVec 48) (s : State) :
    Keeps s (execNeighborSolicitation i target src mac s) := by
  unfold execNeighborSolicitation; (try dsimp only); (repeat' split) <;> simp
@[simp] theorem kept_execArpRequest (i : Fin 16) (target : BitVec 32) (src : BitVec 32) (mac : BitVec 48) (s : State) :
    Keeps s (execArpRequest i target src mac s) := by
  unfold execArpRequest; (try dsimp only); (repeat' split) <;> simp
@[simp] theorem kept_execNeighborResolved (i : Fin 16) (addr : BitVec 128) (mac : BitVec 48) (s : State) :
    Keeps s (execNeighborResolved i addr mac s) := by
  unfold execNeighborResolved; (repeat' split) <;> simp
@[simp] theorem kept_execNeighborRefresh (i : Fin 16) (addr : BitVec 128) (s : State) :
    Keeps s (execNeighborRefresh i addr s) := by
  unfold execNeighborRefresh; (repeat' split) <;> simp
@[simp] theorem kept_modPtp (s : State) (f : PtpSt → PtpSt) :
    (State.modPtp s f).kept = s.kept := by
  rfl
@[simp] theorem kept_modPtpPort (s : State) (p : Nat) (f : PtpPort → PtpPort) :
    (State.modPtpPort s p f).kept = s.kept := by
  rfl
@[simp] theorem kept_takeSource (s : State) (p : Nat) :
    (State.takeSource s p).kept = s.kept := by
  rfl
@[simp] theorem kept_compareSource (s : State) (p : Nat) (src : Nat) (d : PtpDataset) :
    (State.compareSource s p src d).kept = s.kept := by
  unfold State.compareSource; (try dsimp only); (repeat' split) <;> simp
@[simp] theorem kept_execPtpAnnounce (p : Fin 4) (d : PtpDataset) (s : State) :
    Keeps s (execPtpAnnounce p d s) := by
  unfold execPtpAnnounce; (try dsimp only); (repeat' split) <;> simp
@[simp] theorem kept_execAnnounceTimeout (p : Fin 4) (s : State) :
    Keeps s (execAnnounceTimeout p s) := by
  unfold execAnnounceTimeout; (try dsimp only); (repeat' split) <;> simp
@[simp] theorem kept_servo (s : State) (o : Int) :
    (State.servo s o).kept = s.kept := by
  unfold State.servo; (repeat' split) <;> simp
@[simp] theorem kept_measure (s : State) (o : Int) :
    (State.measure s o).kept = s.kept := by
  unfold State.measure; (try dsimp only); (repeat' split) <;> simp
@[simp] theorem kept_execPtpSync (p : Fin 4) (origin : Nat) (corr : Int) (rx : Nat) (s : State) :
    Keeps s (execPtpSync p origin corr rx s) := by
  unfold execPtpSync; (try dsimp only); (repeat' split) <;> simp
@[simp] theorem kept_execPtpDelayResp (p : Fin 4) (t3 : Nat) (t4 : Nat) (corr : Int) (s : State) :
    Keeps s (execPtpDelayResp p t3 t4 corr s) := by
  unfold execPtpDelayResp; (try dsimp only); (repeat' split) <;> simp
/-- What an outcome that keeps them leaves where it is taken for its state. -/
theorem kept_outState {s : State} {o : Out} (h : Keeps s o) : (outState s o).kept = s.kept := by
  cases o with
  | next t => exact h
  | _ => rfl
@[simp] theorem kept_takePayload (s : State) (i : Fin 16) (etype : W16) (x : Payload) :
    (State.takePayload s i etype x).kept = s.kept := by
  have key (e : Nat) (o : Out) (h : Keeps s o) : (if etype.toNat = e then outState s o else s).kept = s.kept := by
    split
    · exact kept_outState h
    · rfl
  unfold State.takePayload
  extract_lets port of
  cases x <;> dsimp only [of]
  case vangir => (repeat' split) <;> simp
  all_goals exact key _ _ (by simp)
@[simp] theorem kept_execFrameReceive (i : Fin 16) (fr : Frame) (s : State) :
    Keeps s (execFrameReceive i fr s) := by
  unfold execFrameReceive; (try dsimp only); (repeat' split) <;> simp
@[simp] theorem kept_execPpsOut (t : Nat) (s : State) :
    Keeps s (execPpsOut t s) := by
  unfold execPpsOut; (try dsimp only)
  repeat' (first | rfl | (simp; done) | (refine (kept_foldl _ _ ?_ _).trans ?_ <;> intros) | split | simp)

/-! Manage. -/

@[simp] theorem kept_raiseFloor (s : State) (v : W64) :
    (State.raiseFloor s v).kept = s.kept := by
  unfold State.raiseFloor; (repeat' split) <;> simp
@[simp] theorem kept_execSerialFloorWrite (who : Accessor) (v : W64) (s : State) :
    Keeps s (execSerialFloorWrite who v s) := by
  unfold execSerialFloorWrite; (repeat' split) <;> simp
@[simp] theorem kept_closeKeyed (s : State) (index : Nat) :
    (State.closeKeyed s index).kept = s.kept := by
  refine kept_foldl _ _ ?_ _; intros; (repeat' split) <;> simp
@[simp] theorem kept_takeVgKey (s : State) (op : Nat) (index : Nat) (key : BitVec 256) (resv : Bool) :
    (State.takeVgKey s op index key resv).kept = s.kept := by
  unfold State.takeVgKey; (try dsimp only); (repeat' split) <;> simp
@[simp] theorem kept_execSessionKeyInstall (who : Accessor) (index : W16) (key : BitVec 256) (resv : Bool) (s : State) :
    Keeps s (execSessionKeyInstall who index key resv s) := by
  unfold execSessionKeyInstall; (repeat' split) <;> simp
@[simp] theorem kept_execSessionKeyDelete (who : Accessor) (index : W16) (resv : Bool) (s : State) :
    Keeps s (execSessionKeyDelete who index resv s) := by
  unfold execSessionKeyDelete; (repeat' split) <;> simp
@[simp] theorem kept_writeLimit (s : State) (v : W32) :
    (State.writeLimit s v).kept = s.kept := by
  unfold State.writeLimit; (try dsimp only); (repeat' split) <;> simp
@[simp] theorem kept_execPowerLimitWrite (who : Accessor) (v : W32) (s : State) :
    Keeps s (execPowerLimitWrite who v s) := by
  unfold execPowerLimitWrite; (repeat' split) <;> simp
@[simp] theorem kept_execWearCommit (who : Accessor) (s : State) :
    Keeps s (execWearCommit who s) := by
  unfold execWearCommit; (repeat' split) <;> simp
@[simp] theorem kept_startMargin (s : State) :
    (State.startMargin s).kept = s.kept := by
  unfold State.startMargin; (repeat' split) <;> simp
@[simp] theorem kept_execMarginRun (who : Accessor) (s : State) :
    Keeps s (execMarginRun who s) := by
  unfold execMarginRun; (repeat' split) <;> simp
@[simp] theorem kept_mailGo (s : State) (who : Accessor) (v : W32) :
    (State.mailGo s who v).kept = s.kept := by
  unfold State.mailGo; (try dsimp only); (repeat' split) <;> simp
@[simp] theorem kept_execMailboxGo (who : Accessor) (v : W32) (s : State) :
    Keeps s (execMailboxGo who v s) := by
  unfold execMailboxGo; (repeat' split) <;> simp

/-! RegRead. -/

@[simp] theorem kept_badAccess (s : State) (who : Accessor) (off : Nat) :
    (State.badAccess s who off).kept = s.kept := by
  simp [State.badAccess]
@[simp] theorem kept_logReadFails (s : State) (slot : Nat) :
    (State.logReadFails s slot).kept = s.kept := by
  simp [State.logReadFails]
@[simp] theorem kept_readReg (s : State) (a : Nat) (off : Nat) (v : RegView) (row : RegRow) (i : Nat) (b : Nat) (width : Nat) :
    (State.readReg s a off v row i b width).1.kept = s.kept := by
  unfold State.readReg; (repeat' split) <;> simp
@[simp] theorem kept_bar0Get (s : State) (who : Accessor) (off : Nat) (width : Nat) (logFail : Bool) :
    (State.bar0Get s who off width logFail).1.kept = s.kept := by
  unfold State.bar0Get; (repeat' split) <;> simp
@[simp] theorem kept_execBar0Read (f : Fin 8) (off : Nat) (width : Nat) (logFail : Bool) (s : State) :
    Keeps s (execBar0Read f off width logFail s) := by
  unfold execBar0Read; (repeat' split) <;> simp
@[simp] theorem kept_execLowerHalfRead (who : Accessor) (off : Nat) (logFail : Bool) (s : State) :
    Keeps s (execLowerHalfRead who off logFail s) := by
  unfold execLowerHalfRead; (repeat' split) <;> simp

/-! RegWrite. -/

@[simp] theorem kept_goMsec (s : State) :
    (State.goMsec s).kept = s.kept := by
  simp [State.goMsec]
@[simp] theorem kept_goVgKey (s : State) :
    (State.goVgKey s).kept = s.kept := by
  simp [State.goVgKey]
@[simp] theorem kept_clearAlert (s : State) (v : Nat) :
    (State.clearAlert s v).kept = s.kept := by
  rfl
@[simp] theorem kept_goOrder (s : State) (who : Accessor) :
    (State.goOrder s who).kept = s.kept := by
  unfold State.goOrder; (repeat' split) <;> simp
@[simp] theorem kept_writeWbase (s : State) (v : Nat) :
    (State.writeWbase s v).kept = s.kept := by
  unfold State.writeWbase; (repeat' split) <;> simp
@[simp] theorem kept_writeMsix (s : State) (f : Fin 8) (b : Nat) (bs : List Byte) :
    (State.writeMsix s f b bs).kept = s.kept := by
  unfold State.writeMsix; (try dsimp only); refine (kept_foldl _ _ ?_ _).trans ?_ <;> intros <;> (repeat' split) <;> simp
@[simp] theorem kept_writeNp (s : State) (r : Reg) (i : Nat) (v : Nat) :
    (State.writeNp s r i v).kept = s.kept := by
  unfold State.writeNp; (try dsimp only); (repeat' split) <;> simp
@[simp] theorem kept_writeTh (s : State) (r : Reg) (i : Nat) (v : Nat) :
    (State.writeTh s r i v).kept = s.kept := by
  unfold State.writeTh; (try dsimp only); (repeat' split) <;> simp
@[simp] theorem kept_writeOb (s : State) (r : Reg) (i : Nat) (v : Nat) :
    (State.writeOb s r i v).kept = s.kept := by
  unfold State.writeOb; (repeat' split) <;> simp
@[simp] theorem kept_writeParcel (s : State) (p : Nat) (r : Reg) (v : Nat) :
    (State.writeParcel s p r v).kept = s.kept := by
  rfl
@[simp] theorem kept_writeOwn (s : State) (who : Accessor) (r : Reg) (v : Nat) :
    (State.writeOwn s who r v).kept = s.kept := by
  unfold State.writeOwn; (try dsimp only); (repeat' split) <;> simp
@[simp] theorem kept_setWin (s : State) (who : Accessor) (r : Reg) (i : Nat) (b : Nat) (bs : List Byte) :
    (State.setWin s who r i b bs).kept = s.kept := by
  unfold State.setWin; (try dsimp only); (repeat' split) <;> simp

/-! Bus. -/

@[simp] theorem kept_answer (s : State) (type : Nat) (eid : Byte) (cmd : Nat) (code : Nat) (data : List Byte) :
    (State.answer s type eid cmd code data).kept = s.kept := by
  unfold State.answer; (repeat' split) <;> simp
@[simp] theorem kept_setSpdm (s : State) (k : Nat) (x : Option SpdmSess) :
    (State.setSpdm s k x).kept = s.kept := by
  rfl
@[simp] theorem kept_touch (s : State) (who : Requester) :
    (State.touch s who).kept = s.kept := by
  unfold State.touch; (repeat' split) <;> simp
@[simp] theorem kept_takeAddr (s : State) (a : BitVec 7) :
    (State.takeAddr s a).kept = s.kept := by
  unfold State.takeAddr; (repeat' split) <;> simp
@[simp] theorem kept_execI3cEntdaa (addr : BitVec 7) (s : State) :
    Keeps s (execI3cEntdaa addr s) := by
  simp [execI3cEntdaa]
@[simp] theorem kept_execI3cSetdasa (static : BitVec 7) (dyn : BitVec 7) (s : State) :
    Keeps s (execI3cSetdasa static dyn s) := by
  unfold execI3cSetdasa; (repeat' split) <;> simp
@[simp] theorem kept_execSetEndpointId (eid : Byte) (s : State) :
    Keeps s (execSetEndpointId eid s) := by
  unfold execSetEndpointId; (repeat' split) <;> simp
@[simp] theorem kept_execGetEndpointId (s : State) :
    Keeps s (execGetEndpointId s) := by
  simp [execGetEndpointId]
@[simp] theorem kept_execGetEndpointUuid (s : State) :
    Keeps s (execGetEndpointUuid s) := by
  simp [execGetEndpointUuid]
@[simp] theorem kept_execGetMctpVersionSupport (type : Byte) (s : State) :
    Keeps s (execGetMctpVersionSupport type s) := by
  unfold execGetMctpVersionSupport; (repeat' split) <;> simp
@[simp] theorem kept_execGetMessageTypeSupport (s : State) :
    Keeps s (execGetMessageTypeSupport s) := by
  simp [execGetMessageTypeSupport]
@[simp] theorem kept_execGetVendorDefinedMessageSupport (sel : Byte) (s : State) :
    Keeps s (execGetVendorDefinedMessageSupport sel s) := by
  unfold execGetVendorDefinedMessageSupport; (repeat' split) <;> simp
@[simp] theorem kept_regResponse (s : State) (eid : Byte) (op : Nat) (tag : Byte) (status : Nat) (count : Byte) (off : W32) (data : List Byte) :
    (State.regResponse s eid op tag status count off data).kept = s.kept := by
  unfold State.regResponse; (repeat' split) <;> simp
@[simp] theorem kept_readMany (s : State) (who : Accessor) (width : Nat) (logFail : Bool) (x4 : Nat) (x5 : Nat) (x6 : List Byte) :
    (State.readMany s who width logFail x4 x5 x6).1.kept = s.kept := by
  induction x4 generalizing s x5 x6 with
  | zero => rfl
  | succ m ih => unfold State.readMany; simp [ih]
@[simp] theorem kept_execRegAccessRead (who : Requester) (tag : Byte) (width : Byte) (count : Byte) (off : W32) (bad : Bool) (logFail : Bool) (s : State) :
    Keeps s (execRegAccessRead who tag width count off bad logFail s) := by
  unfold execRegAccessRead; (try dsimp only); (repeat' split) <;> simp
@[simp] theorem kept_execGetTid (s : State) :
    Keeps s (execGetTid s) := by
  simp [execGetTid]
@[simp] theorem kept_execSetTid (tid : Byte) (s : State) :
    Keeps s (execSetTid tid s) := by
  unfold execSetTid; (repeat' split) <;> simp
@[simp] theorem kept_execGetPldmVersion (type : Byte) (s : State) :
    Keeps s (execGetPldmVersion type s) := by
  unfold execGetPldmVersion; (repeat' split) <;> simp
@[simp] theorem kept_execGetPldmTypes (s : State) :
    Keeps s (execGetPldmTypes s) := by
  simp [execGetPldmTypes]
@[simp] theorem kept_execGetPldmCommands (type : Byte) (s : State) :
    Keeps s (execGetPldmCommands type s) := by
  unfold execGetPldmCommands; (repeat' split) <;> simp
@[simp] theorem kept_execGetSensorReading (id : W16) (s : State) :
    Keeps s (execGetSensorReading id s) := by
  unfold execGetSensorReading; (repeat' split) <;> simp
@[simp] theorem kept_execGetStateSensorReadings (id : W16) (s : State) :
    Keeps s (execGetStateSensorReadings id s) := by
  unfold execGetStateSensorReadings; (repeat' split) <;> simp
@[simp] theorem kept_execGetPdrRepositoryInfo (s : State) :
    Keeps s (execGetPdrRepositoryInfo s) := by
  simp [execGetPdrRepositoryInfo]
@[simp] theorem kept_execGetPdr (handle : W32) (s : State) :
    Keeps s (execGetPdr handle s) := by
  unfold execGetPdr; (try dsimp only); (repeat' split) <;> simp
@[simp] theorem kept_execSetEventReceiver (eid : Byte) (mctp : Bool) (s : State) :
    Keeps s (execSetEventReceiver eid mctp s) := by
  unfold execSetEventReceiver; (repeat' split) <;> simp
@[simp] theorem kept_ackEvent (s : State) (id : W16) :
    (State.ackEvent s id).kept = s.kept := by
  rfl
@[simp] theorem kept_execPlatformEventAck (id : W16) (s : State) :
    Keeps s (execPlatformEventAck id s) := by
  rfl
@[simp] theorem kept_execPollForPlatformEventMessage (ack : Option W16) (s : State) :
    Keeps s (execPollForPlatformEventMessage ack s) := by
  unfold execPollForPlatformEventMessage; (try dsimp only); (repeat' split) <;> simp
@[simp] theorem kept_execPldmEventResend (t : Nat) (s : State) :
    Keeps s (execPldmEventResend t s) := by
  unfold execPldmEventResend; dsimp only; (repeat' split) <;> simp [kept_foldl]
@[simp] theorem kept_spdmAnswer (s : State) (who : Requester) (code : Nat) (data : List Byte) :
    (State.spdmAnswer s who code data).kept = s.kept := by
  simp [State.spdmAnswer]
@[simp] theorem kept_spdmError (s : State) (who : Requester) (e : Nat) :
    (State.spdmError s who e).kept = s.kept := by
  simp [State.spdmError]
theorem kept_spdmTake (s : State) (who : Requester) (f : State → State) (hf : ∀ u, (f u).kept = u.kept) :
    Keeps s (s.spdmTake who f) := by
  unfold State.spdmTake
  (repeat' split) <;> simp [hf]
@[simp] theorem kept_execGetVersion (who : Requester) (s : State) :
    Keeps s (execGetVersion who s) := by
  refine kept_spdmTake _ _ _ ?_; intros; (try dsimp only); (repeat' split) <;> simp
@[simp] theorem kept_execGetCapabilities (who : Requester) (s : State) :
    Keeps s (execGetCapabilities who s) := by
  refine kept_spdmTake _ _ _ ?_; intros; (try dsimp only); (repeat' split) <;> simp
@[simp] theorem kept_execNegotiateAlgorithms (who : Requester) (p384 : Bool) (sha384 : Bool) (dhe : Bool) (aead : Bool) (s : State) :
    Keeps s (execNegotiateAlgorithms who p384 sha384 dhe aead s) := by
  refine kept_spdmTake _ _ _ ?_; intros; (try dsimp only); (repeat' split) <;> simp
@[simp] theorem kept_execGetDigests (who : Requester) (s : State) :
    Keeps s (execGetDigests who s) := by
  refine kept_spdmTake _ _ _ ?_; intros; (try dsimp only); (repeat' split) <;> simp
@[simp] theorem kept_execGetCertificate (who : Requester) (slot : Byte) (off : W16) (len : W16) (s : State) :
    Keeps s (execGetCertificate who slot off len s) := by
  refine kept_spdmTake _ _ _ ?_; intros; (try dsimp only); (repeat' split) <;> simp
@[simp] theorem kept_execChallenge (who : Requester) (slot : Byte) (_nonce : BitVec 256) (s : State) :
    Keeps s (execChallenge who slot _nonce s) := by
  refine kept_spdmTake _ _ _ ?_; intros; (try dsimp only); (repeat' split) <;> simp
@[simp] theorem kept_execGetMeasurements (who : Requester) (index : Byte) (sig : Bool) (_nonce : BitVec 256) (s : State) :
    Keeps s (execGetMeasurements who index sig _nonce s) := by
  refine kept_spdmTake _ _ _ ?_; intros; (try dsimp only); (repeat' split) <;> simp
@[simp] theorem kept_execKeyExchange (who : Requester) (slot : Byte) (t : Nat) (s : State) :
    Keeps s (execKeyExchange who slot t s) := by
  refine kept_spdmTake _ _ _ ?_; intros; (try dsimp only); (repeat' split) <;> simp
@[simp] theorem kept_execEncapsulatedRequest (who : Requester) (sess : Fin 4) (rootKey : BitVec 384 × BitVec 384) (verified : Bool) (s : State) :
    Keeps s (execEncapsulatedRequest who sess rootKey verified s) := by
  refine kept_spdmTake _ _ _ ?_; intros; (try dsimp only); (repeat' split) <;> simp
@[simp] theorem kept_claimOwner (s : State) (eid : Byte) (good : Bool) :
    (State.claimOwner s eid good).kept = s.kept := by
  unfold State.claimOwner; (repeat' split) <;> simp
@[simp] theorem kept_execFinish (who : Requester) (sess : Fin 4) (ok : Bool) (t : Nat) (s : State) :
    Keeps s (execFinish who sess ok t s) := by
  refine kept_spdmTake _ _ _ ?_; intros; (try dsimp only); (repeat' split) <;> simp
theorem kept_spdmInside (s : State) (who : Requester) (f : Fin 4 → State → State) (hf : ∀ k u, (f k u).kept = u.kept) :
    Keeps s (s.spdmInside who f) := by
  refine kept_spdmTake _ _ _ ?_
  intro u
  try dsimp only
  split <;> simp [hf]
@[simp] theorem kept_execHeartbeat (who : Requester) (t : Nat) (s : State) :
    Keeps s (execHeartbeat who t s) := by
  refine kept_spdmInside _ _ _ ?_; intros; (try dsimp only); (repeat' split) <;> simp
@[simp] theorem kept_execKeyUpdate (who : Requester) (t : Nat) (s : State) :
    Keeps s (execKeyUpdate who t s) := by
  refine kept_spdmInside _ _ _ ?_; intros; (try dsimp only); (repeat' split) <;> simp
@[simp] theorem kept_execEndSession (who : Requester) (s : State) :
    Keeps s (execEndSession who s) := by
  refine kept_spdmInside _ _ _ ?_; intros; (try dsimp only); (repeat' split) <;> simp
@[simp] theorem kept_execSpdmSessionExpiry (sess : Fin 4) (t : Nat) (s : State) :
    Keeps s (execSpdmSessionExpiry sess t s) := by
  unfold execSpdmSessionExpiry; (try dsimp only); (repeat' split) <;> simp

/-! Firmware. -/

@[simp] theorem kept_fwAnswer (s : State) (who : Requester) (cmd : Nat) (code : Nat) (data : List Byte) :
    (State.fwAnswer s who cmd code data).kept = s.kept := by
  simp [State.fwAnswer]
@[simp] theorem kept_fwTake (s : State) (who : Requester) :
    (State.fwTake s who).kept = s.kept := by
  unfold State.fwTake; (try dsimp only); (repeat' split) <;> simp
theorem kept_fwOwner (s : State) (who : Requester) (cmd : Nat) (f : State → State) (hf : ∀ u, (f u).kept = u.kept) :
    Keeps s (s.fwOwner who cmd f) := by
  unfold State.fwOwner
  try dsimp only
  split <;> simp [hf]
theorem kept_fwIn (s : State) (who : Requester) (cmd : Nat) (f : FwUpd → State → State) (hf : ∀ x u, (f x u).kept = u.kept) :
    Keeps s (s.fwIn who cmd f) := by
  refine kept_fwOwner _ _ _ _ ?_
  intro u
  try dsimp only
  split <;> simp [hf]
@[simp] theorem kept_setFw (s : State) (u : Option FwUpd) :
    (State.setFw s u).kept = s.kept := by
  rfl
@[simp] theorem kept_execQueryDeviceIdentifiers (who : Requester) (s : State) :
    Keeps s (execQueryDeviceIdentifiers who s) := by
  refine kept_fwOwner _ _ _ _ ?_; intros; (try dsimp only); (repeat' split) <;> simp
@[simp] theorem kept_execGetFirmwareParameters (who : Requester) (s : State) :
    Keeps s (execGetFirmwareParameters who s) := by
  refine kept_fwOwner _ _ _ _ ?_; intros; (try dsimp only); (repeat' split) <;> simp
@[simp] theorem kept_execRequestUpdate (who : Requester) (s : State) :
    Keeps s (execRequestUpdate who s) := by
  unfold execRequestUpdate; (try dsimp only); (repeat' split) <;> simp
@[simp] theorem kept_execPassComponentTable (who : Requester) (comp : W16) (s : State) :
    Keeps s (execPassComponentTable who comp s) := by
  refine kept_fwIn _ _ _ _ ?_; intros; (try dsimp only); (repeat' split) <;> simp
@[simp] theorem kept_setSlotImage (s : State) (comp : Nat) (b : List Byte) (bad : Bool) :
    (State.setSlotImage s comp b bad).kept = s.kept := by
  unfold State.setSlotImage; (repeat' split) <;> simp
@[simp] theorem kept_askBlock (s : State) (u : FwUpd) :
    (State.askBlock s u).kept = s.kept := by
  simp [State.askBlock]
@[simp] theorem kept_execUpdateComponent (who : Requester) (comp : W16) (size : W32) (s : State) :
    Keeps s (execUpdateComponent who comp size s) := by
  refine kept_fwIn _ _ _ _ ?_; intros; (try dsimp only); (repeat' split) <;> simp
@[simp] theorem kept_fwVerify (s : State) (u : FwUpd) :
    (State.fwVerify s u).kept = s.kept := by
  unfold State.fwVerify; (try dsimp only); (repeat' split) <;> simp
@[simp] theorem kept_execFirmwareDataReceive (who : Requester) (block : FwBlock) (s : State) :
    Keeps s (execFirmwareDataReceive who block s) := by
  refine kept_fwIn _ _ _ _ ?_; intros; (try dsimp only); (repeat' split) <;> simp
@[simp] theorem kept_execActivateFirmware (who : Requester) (selfContained : Bool) (s : State) :
    Keeps s (execActivateFirmware who selfContained s) := by
  refine kept_fwIn _ _ _ _ ?_; intros; (try dsimp only); (repeat' split) <;> simp
@[simp] theorem kept_execGetStatus (who : Requester) (s : State) :
    Keeps s (execGetStatus who s) := by
  refine kept_fwOwner _ _ _ _ ?_; intros; (try dsimp only); (repeat' split) <;> simp
@[simp] theorem kept_execCancelUpdate (who : Requester) (s : State) :
    Keeps s (execCancelUpdate who s) := by
  refine kept_fwIn _ _ _ _ ?_; intros; (try dsimp only); (repeat' split) <;> simp

/-! Scalar. -/

@[simp] theorem kept_aluOp (h : Hdr) (rd : Fin 32) (rs1 : Fin 32) (rs2 : Fin 32) (f : W64 → W64 → AluRes) (s : State) :
    Keeps s (aluOp h rd rs1 rs2 f s) := by
  simp [aluOp]
@[simp] theorem kept_plainOp (h : Hdr) (rd : Fin 32) (rs1 : Fin 32) (rs2 : Fin 32) (f : W64 → W64 → W64) (s : State) :
    Keeps s (plainOp h rd rs1 rs2 f s) := by
  simp [plainOp]
@[simp] theorem kept_execAdd (h : Hdr) (w : Bool) (rd : Fin 32) (rs1 : Fin 32) (rs2 : Fin 32) (s : State) :
    Keeps s (execAdd h w rd rs1 rs2 s) := by
  simp [execAdd]
@[simp] theorem kept_execSub (h : Hdr) (w : Bool) (rd : Fin 32) (rs1 : Fin 32) (rs2 : Fin 32) (s : State) :
    Keeps s (execSub h w rd rs1 rs2 s) := by
  simp [execSub]
@[simp] theorem kept_execAndR (h : Hdr) (rd : Fin 32) (rs1 : Fin 32) (rs2 : Fin 32) (s : State) :
    Keeps s (execAndR h rd rs1 rs2 s) := by
  simp [execAndR]
@[simp] theorem kept_execOrR (h : Hdr) (rd : Fin 32) (rs1 : Fin 32) (rs2 : Fin 32) (s : State) :
    Keeps s (execOrR h rd rs1 rs2 s) := by
  simp [execOrR]
@[simp] theorem kept_execXorR (h : Hdr) (rd : Fin 32) (rs1 : Fin 32) (rs2 : Fin 32) (s : State) :
    Keeps s (execXorR h rd rs1 rs2 s) := by
  simp [execXorR]
@[simp] theorem kept_execAndn (h : Hdr) (rd : Fin 32) (rs1 : Fin 32) (rs2 : Fin 32) (s : State) :
    Keeps s (execAndn h rd rs1 rs2 s) := by
  simp [execAndn]
@[simp] theorem kept_execSll (h : Hdr) (w : Bool) (rd : Fin 32) (rs1 : Fin 32) (rs2 : Fin 32) (s : State) :
    Keeps s (execSll h w rd rs1 rs2 s) := by
  simp [execSll]
@[simp] theorem kept_execSrl (h : Hdr) (w : Bool) (rd : Fin 32) (rs1 : Fin 32) (rs2 : Fin 32) (s : State) :
    Keeps s (execSrl h w rd rs1 rs2 s) := by
  simp [execSrl]
@[simp] theorem kept_execSra (h : Hdr) (w : Bool) (rd : Fin 32) (rs1 : Fin 32) (rs2 : Fin 32) (s : State) :
    Keeps s (execSra h w rd rs1 rs2 s) := by
  simp [execSra]
@[simp] theorem kept_execNeg (h : Hdr) (w : Bool) (rd : Fin 32) (rs1 : Fin 32) (s : State) :
    Keeps s (execNeg h w rd rs1 s) := by
  simp [execNeg]
@[simp] theorem kept_execAbs (h : Hdr) (w : Bool) (rd : Fin 32) (rs1 : Fin 32) (s : State) :
    Keeps s (execAbs h w rd rs1 s) := by
  simp [execAbs]
@[simp] theorem kept_execMinR (h : Hdr) (rd : Fin 32) (rs1 : Fin 32) (rs2 : Fin 32) (s : State) :
    Keeps s (execMinR h rd rs1 rs2 s) := by
  simp [execMinR]
@[simp] theorem kept_execMaxR (h : Hdr) (rd : Fin 32) (rs1 : Fin 32) (rs2 : Fin 32) (s : State) :
    Keeps s (execMaxR h rd rs1 rs2 s) := by
  simp [execMaxR]
@[simp] theorem kept_execMinu (h : Hdr) (rd : Fin 32) (rs1 : Fin 32) (rs2 : Fin 32) (s : State) :
    Keeps s (execMinu h rd rs1 rs2 s) := by
  simp [execMinu]
@[simp] theorem kept_execMaxu (h : Hdr) (rd : Fin 32) (rs1 : Fin 32) (rs2 : Fin 32) (s : State) :
    Keeps s (execMaxu h rd rs1 rs2 s) := by
  simp [execMaxu]
@[simp] theorem kept_execClz (h : Hdr) (rd : Fin 32) (rs1 : Fin 32) (s : State) :
    Keeps s (execClz h rd rs1 s) := by
  simp [execClz]
@[simp] theorem kept_execPopc (h : Hdr) (rd : Fin 32) (rs1 : Fin 32) (s : State) :
    Keeps s (execPopc h rd rs1 s) := by
  simp [execPopc]
@[simp] theorem kept_execMul (h : Hdr) (w : Bool) (rd : Fin 32) (rs1 : Fin 32) (rs2 : Fin 32) (s : State) :
    Keeps s (execMul h w rd rs1 rs2 s) := by
  simp [execMul]
@[simp] theorem kept_execMulh (h : Hdr) (rd : Fin 32) (rs1 : Fin 32) (rs2 : Fin 32) (s : State) :
    Keeps s (execMulh h rd rs1 rs2 s) := by
  simp [execMulh]
@[simp] theorem kept_execMulhu (h : Hdr) (rd : Fin 32) (rs1 : Fin 32) (rs2 : Fin 32) (s : State) :
    Keeps s (execMulhu h rd rs1 rs2 s) := by
  simp [execMulhu]
@[simp] theorem kept_execDiv (h : Hdr) (w : Bool) (rd : Fin 32) (rs1 : Fin 32) (rs2 : Fin 32) (s : State) :
    Keeps s (execDiv h w rd rs1 rs2 s) := by
  simp [execDiv]
@[simp] theorem kept_execDivu (h : Hdr) (w : Bool) (rd : Fin 32) (rs1 : Fin 32) (rs2 : Fin 32) (s : State) :
    Keeps s (execDivu h w rd rs1 rs2 s) := by
  simp [execDivu]
@[simp] theorem kept_execRem (h : Hdr) (w : Bool) (rd : Fin 32) (rs1 : Fin 32) (rs2 : Fin 32) (s : State) :
    Keeps s (execRem h w rd rs1 rs2 s) := by
  simp [execRem]
@[simp] theorem kept_execRemu (h : Hdr) (w : Bool) (rd : Fin 32) (rs1 : Fin 32) (rs2 : Fin 32) (s : State) :
    Keeps s (execRemu h w rd rs1 rs2 s) := by
  simp [execRemu]
@[simp] theorem kept_execAddi (h : Hdr) (rd : Fin 32) (rs1 : Fin 32) (imm : BitVec 11) (s : State) :
    Keeps s (execAddi h rd rs1 imm s) := by
  simp [execAddi]
@[simp] theorem kept_execAndi (h : Hdr) (rd : Fin 32) (rs1 : Fin 32) (imm : BitVec 11) (s : State) :
    Keeps s (execAndi h rd rs1 imm s) := by
  simp [execAndi]
@[simp] theorem kept_execOri (h : Hdr) (rd : Fin 32) (rs1 : Fin 32) (imm : BitVec 11) (s : State) :
    Keeps s (execOri h rd rs1 imm s) := by
  simp [execOri]
@[simp] theorem kept_execXori (h : Hdr) (rd : Fin 32) (rs1 : Fin 32) (imm : BitVec 11) (s : State) :
    Keeps s (execXori h rd rs1 imm s) := by
  simp [execXori]
@[simp] theorem kept_execShi (h : Hdr) (rd : Fin 32) (rs1 : Fin 32) (imm : BitVec 11) (s : State) :
    Keeps s (execShi h rd rs1 imm s) := by
  simp [execShi]
@[simp] theorem kept_execLui (h : Hdr) (rd : Fin 32) (imm : W16) (s : State) :
    Keeps s (execLui h rd imm s) := by
  simp [execLui]
@[simp] theorem kept_execLi (h : Hdr) (rd : Fin 32) (imm : W32) (s : State) :
    Keeps s (execLi h rd imm s) := by
  simp [execLi]
@[simp] theorem kept_execLih (h : Hdr) (rd : Fin 32) (imm : W32) (s : State) :
    Keeps s (execLih h rd imm s) := by
  simp [execLih]
@[simp] theorem kept_execCmp (h : Hdr) (pd : Fin 8) (cond : BitVec 3) (rs1 : Fin 32) (rs2 : Fin 32) (s : State) :
    Keeps s (execCmp h pd cond rs1 rs2 s) := by
  simp [execCmp]
@[simp] theorem kept_execCmpi (h : Hdr) (pd : Fin 8) (cond : BitVec 3) (rs1 : Fin 32) (imm : BitVec 10) (s : State) :
    Keeps s (execCmpi h pd cond rs1 imm s) := by
  simp [execCmpi]
@[simp] theorem kept_predOp (h : Hdr) (pd : Fin 8) (pa : Fin 8) (pb : Fin 8) (f : Bool → Bool → Bool) (s : State) :
    Keeps s (predOp h pd pa pb f s) := by
  simp [predOp]
@[simp] theorem kept_execPredAnd (h : Hdr) (pd : Fin 8) (pa : Fin 8) (pb : Fin 8) (s : State) :
    Keeps s (execPredAnd h pd pa pb s) := by
  simp [execPredAnd]
@[simp] theorem kept_execPredOr (h : Hdr) (pd : Fin 8) (pa : Fin 8) (pb : Fin 8) (s : State) :
    Keeps s (execPredOr h pd pa pb s) := by
  simp [execPredOr]
@[simp] theorem kept_execPredXor (h : Hdr) (pd : Fin 8) (pa : Fin 8) (pb : Fin 8) (s : State) :
    Keeps s (execPredXor h pd pa pb s) := by
  simp [execPredXor]
@[simp] theorem kept_execPredAndn (h : Hdr) (pd : Fin 8) (pa : Fin 8) (pb : Fin 8) (s : State) :
    Keeps s (execPredAndn h pd pa pb s) := by
  simp [execPredAndn]
@[simp] theorem kept_execPredNot (h : Hdr) (pd : Fin 8) (pa : Fin 8) (s : State) :
    Keeps s (execPredNot h pd pa s) := by
  simp [execPredNot]

/-! Clock. -/

@[simp] theorem kept_cellCycle (s : State) (n : Nat) :
    (State.cellCycle s n).kept = s.kept := by
  unfold State.cellCycle; (try dsimp only); (repeat' split) <;> simp
@[simp] theorem kept_datumCycle (s : State) :
    (State.datumCycle s).kept = s.kept := by
  rfl
@[simp] theorem kept_idle (s : State) :
    (State.idle s).kept = s.kept := by
  unfold State.idle; simp [kept_foldl, apply_ite State.kept]

/-! Step. -/

@[simp] theorem kept_withFetchWord (s : State) (nbits : Nat) (w : Nat) :
    (State.withFetchWord s nbits w).kept = s.kept := by
  rfl

end Sys2Proof.Machine
end

