-- ==== Sys2Proof/Laws/Maps.lean ====
section
/-! SUPPORT. The laws of the numbered collections and of the byte memories: what is read after a write, what a write leaves
alone, and that every operation keeps the canonical form. -/

namespace Sys2Proof.Machine

/-! Numbered collections. -/

@[simp] theorem spGet_nil {α : Type} (d : α) (k : Nat) : spGet d [] k = d := rfl

@[simp] theorem spWf_nil {α : Type} [DecidableEq α] (d : α) : spWf d ([] : Sparse α) = true := rfl

/-- A write leaves every other number alone, in any list. -/
theorem spGet_spPut_ne {α : Type} [DecidableEq α] (d v : α) (m : Sparse α) {k j : Nat} (h : j ≠ k) :
    spGet d (spPut d v k m) j = spGet d m j := by
  induction m with
  | nil => unfold spPut; split <;> simp [spGet, Ne.symm h]
  | cons e t ih =>
    obtain ⟨a, x⟩ := e
    unfold spPut
    split
    · simp [spGet, ih]
    · split
      · split <;> rename_i ha _ <;> subst ha <;> simp [spGet, Ne.symm h]
      · split <;> simp [spGet, Ne.symm h]

/-- A written value other than the default is read back, in any list. -/
theorem spGet_spPut_of_ne {α : Type} [DecidableEq α] {d v : α} (m : Sparse α) (k : Nat) (h : v ≠ d) :
    spGet d (spPut d v k m) k = v := by
  induction m with
  | nil => simp [spPut, spGet, h]
  | cons e t ih =>
    obtain ⟨a, x⟩ := e
    unfold spPut
    split
    · simp [spGet, ih, Nat.ne_of_lt ‹_›]
    · split
      · simp [spGet]
      · simp [spGet]

/-- In a canonical list whose first number is above k, k has the default. -/
theorem spGet_of_lt {α : Type} [DecidableEq α] {d x : α} {t : Sparse α} {a k : Nat} (h : spWf d ((a, x) :: t) = true)
    (hk : k ≤ a) : spGet d t k = d := by
  induction t generalizing a x with
  | nil => rfl
  | cons e t ih =>
    obtain ⟨b, y⟩ := e
    simp only [spWf, Bool.and_eq_true, decide_eq_true_eq] at h
    have hb : a < b := h.1.2
    have hw : spWf d ((b, y) :: t) = true := by simpa [spWf] using h.2
    rw [spGet, if_neg (by omega)]
    exact ih hw (by omega)

/-- In canonical form, what is written is read back. -/
theorem spGet_spPut_self {α : Type} [DecidableEq α] {d : α} {m : Sparse α} (h : spWf d m = true) (v : α) (k : Nat) :
    spGet d (spPut d v k m) k = v := by
  by_cases hv : v = d
  · subst hv
    induction m with
    | nil => simp [spPut]
    | cons e t ih =>
      obtain ⟨a, x⟩ := e
      have ht : spWf v t = true := by
        simp only [spWf, Bool.and_eq_true] at h
        exact h.2
      unfold spPut
      split
      · simp [spGet, ih ht, Nat.ne_of_lt ‹_›]
      · split
        · simp only [if_true]
          exact spGet_of_lt h (by omega)
        · simp only [if_true, spGet, if_neg ‹¬a = k›]
          exact spGet_of_lt h (by omega)
  · exact spGet_spPut_of_ne m k hv

/-- The first number of a list, if it has one, is above b. -/
def headAbove {α : Type} (b : Nat) : Sparse α → Prop
  | [] => True
  | e :: _ => b < e.1

/-- The first number of a list after a write is the written one or an old one. -/
theorem headAbove_spPut {α : Type} [DecidableEq α] {d v : α} {k b : Nat} {m : Sparse α} (hk : b < k)
    (hm : headAbove b m) (hw : spWf d m = true) : headAbove b (spPut d v k m) := by
  cases m with
  | nil =>
    simp only [spPut]
    split
    · trivial
    · exact hk
  | cons e t =>
    obtain ⟨a, x⟩ := e
    have ha : b < a := hm
    simp only [spPut]
    split
    · exact ha
    · split
      · split
        · cases t with
          | nil => trivial
          | cons f u =>
            simp only [spWf, Bool.and_eq_true, decide_eq_true_eq] at hw
            exact Nat.lt_trans ha hw.1.2
        · exact hk
      · split
        · exact ha
        · exact hk

/-- Canonical form, in a shape that names the head alone. -/
theorem spWf_cons {α : Type} [DecidableEq α] (d x : α) (a : Nat) (t : Sparse α) :
    spWf d ((a, x) :: t) = true ↔ x ≠ d ∧ headAbove a t ∧ spWf d t = true := by
  cases t with
  | nil => simp [spWf, headAbove]
  | cons e u => simp [spWf, headAbove, and_assoc]

/-- A write keeps the canonical form. -/
theorem spWf_spPut {α : Type} [DecidableEq α] {d : α} {m : Sparse α} (h : spWf d m = true) (v : α) (k : Nat) :
    spWf d (spPut d v k m) = true := by
  induction m with
  | nil => unfold spPut; split <;> simp_all [spWf]
  | cons e t ih =>
    obtain ⟨a, x⟩ := e
    obtain ⟨hx, hh, ht⟩ := (spWf_cons d x a t).1 h
    unfold spPut
    split
    · exact (spWf_cons _ _ _ _).2 ⟨hx, headAbove_spPut ‹_› hh ht, ih ht⟩
    · split
      · rename_i hak
        subst hak
        split
        · exact ht
        · exact (spWf_cons _ _ _ _).2 ⟨‹_›, hh, ht⟩
      · split
        · exact h
        · exact (spWf_cons _ _ _ _).2 ⟨‹_›, by show k < a; omega, h⟩

/-- A change keeps the canonical form. -/
theorem spWf_spMod {α : Type} [DecidableEq α] {d : α} {m : Sparse α} (h : spWf d m = true) (k : Nat) (f : α → α) :
    spWf d (spMod d m k f) = true := spWf_spPut h _ _

/-- A change is read back, in canonical form. -/
theorem spGet_spMod_self {α : Type} [DecidableEq α] {d : α} {m : Sparse α} (h : spWf d m = true) (k : Nat) (f : α → α) :
    spGet d (spMod d m k f) k = f (spGet d m k) := spGet_spPut_self h _ _

/-- A change leaves every other number alone. -/
theorem spGet_spMod_ne {α : Type} [DecidableEq α] (d : α) (m : Sparse α) (f : α → α) {k j : Nat} (h : j ≠ k) :
    spGet d (spMod d m k f) j = spGet d m j := spGet_spPut_ne d _ m h

/-- No entry of a canonical list has the default. -/
theorem ne_of_mem {α : Type} [DecidableEq α] {d : α} {m : Sparse α} (h : spWf d m = true) {e : Nat × α} (he : e ∈ m) :
    e.2 ≠ d := by
  induction m with
  | nil => cases he
  | cons f t ih =>
    obtain ⟨a, x⟩ := f
    obtain ⟨hx, _, ht⟩ := (spWf_cons d x a t).1 h
    cases he with
    | head => exact hx
    | tail _ he => exact ih ht he

/-- An entry of a canonical list is what its number reads. -/
theorem spGet_of_mem {α : Type} [DecidableEq α] {d : α} {m : Sparse α} (h : spWf d m = true) {e : Nat × α} (he : e ∈ m) :
    spGet d m e.1 = e.2 := by
  induction m with
  | nil => cases he
  | cons f t ih =>
    obtain ⟨a, x⟩ := f
    obtain ⟨_, _, ht⟩ := (spWf_cons d x a t).1 h
    cases he with
    | head => simp [spGet]
    | tail _ he =>
      by_cases hk : e.1 ≤ a
      · exact absurd ((ih ht he).symm.trans (spGet_of_lt h hk)) (ne_of_mem ht he)
      · rw [spGet, if_neg (by omega)]
        exact ih ht he

/-! Byte memories. -/

/-- Writing bytes keeps the canonical form. -/
theorem wf_writeBytes {m : Sparse Byte} (h : Memory.wf m = true) (a : Nat) (bs : List Byte) :
    Memory.wf (writeBytes m a bs) = true := by
  induction bs generalizing m a with
  | nil => exact h
  | cons b t ih => exact ih (spWf_spPut h b a) (a + 1)

/-- A byte outside the written range reads as before. -/
theorem spGet_writeBytes_out (m : Sparse Byte) (a : Nat) (bs : List Byte) (k : Nat) (h : k < a ∨ a + bs.length ≤ k) :
    spGet 0 (writeBytes m a bs) k = spGet 0 m k := by
  induction bs generalizing m a with
  | nil => rfl
  | cons b t ih =>
    simp only [List.length_cons] at h
    rw [writeBytes, ih _ _ (by omega)]
    exact spGet_spPut_ne 0 b m (by omega)

/-- A byte of the written range reads as written. -/
theorem spGet_writeBytes_in {m : Sparse Byte} (h : Memory.wf m = true) (a : Nat) (bs : List Byte) (i : Nat)
    (hi : i < bs.length) : spGet 0 (writeBytes m a bs) (a + i) = bs[i] := by
  induction bs generalizing m a i with
  | nil => cases hi
  | cons b t ih =>
    cases i with
    | zero =>
      rw [writeBytes, spGet_writeBytes_out _ _ _ _ (by omega)]
      exact spGet_spPut_self h b a
    | succ i =>
      have hi' : i < t.length := by simpa using hi
      rw [writeBytes, show a + (i + 1) = a + 1 + i by omega, ih (spWf_spPut h b a) (a + 1) i hi']
      simp

/-- Reading bytes is reading each byte. -/
theorem readBytes_eq (m : Sparse Byte) (a n : Nat) : readBytes m a n = (List.range n).map (fun i => spGet 0 m (a + i)) := by
  induction n generalizing a with
  | zero => rfl
  | succ n ih =>
    rw [readBytes, ih, List.range_succ_eq_map]
    simp [Nat.add_assoc, Nat.add_comm 1]

/-! Stacked memory. -/

/-- A fold of writes of single bytes keeps the canonical form. -/
theorem wf_foldl {α : Type} (l : List α) (g : Sparse Byte → α → Sparse Byte)
    (hg : ∀ m x, Memory.wf m = true → Memory.wf (g m x) = true) (m : Sparse Byte) (h : Memory.wf m = true) :
    Memory.wf (l.foldl g m) = true := by
  induction l generalizing m with
  | nil => exact h
  | cons a l ih => exact ih _ (hg _ _ h)

/-- R434: a write to stacked memory keeps its canonical form. -/
theorem wf_stackWrite (s : State) (p stks gran a : Nat) (bs : List Byte) (h : Memory.wf s.stk.mem = true) :
    Memory.wf (s.stackWrite p stks gran a bs).stk.mem = true := by
  refine wf_foldl _ _ ?_ _ h
  intro m x hm
  dsimp only
  split
  · exact spWf_spPut hm _ _
  · exact hm

/-- Counting a sector's event leaves stacked memory alone. -/
theorem stk_countSector (s : State) (k ph : Nat) (o : Option Nat) : (s.countSector k ph o).stk = s.stk := by
  have hf : ∀ (l : List (Nat × W32)) (g : State → Nat × W32 → State) (u : State), (∀ s x, (g s x).stk = s.stk) →
      (l.foldl g u).stk = u.stk := fun l g u hg => by
    induction l generalizing u with
    | nil => rfl
    | cons a l ih => exact (ih _).trans (hg _ _)
  unfold State.countSector State.countEvent
  exact hf _ _ _ (fun s x => by dsimp only; (repeat' split) <;> rfl)

/-- R541: a trace record's write keeps the canonical form. -/
theorem wf_putRecord (s : State) (i : Nat) (b : List Byte) (h : Memory.wf s.stk.mem = true) :
    Memory.wf (s.putRecord i b).stk.mem = true := by
  have key : ∀ (P : Prop) [Decidable P] (u : State), Memory.wf u.stk.mem = true →
      Memory.wf (if P then s else u).stk.mem = true := fun P _ u hu => by split <;> assumption
  refine key _ _ ?_
  rw [stk_countSector]
  exact wf_writeBytes h _ _

/-- Own-store writes keep the store's canonical form. -/
theorem wf_storeOwn (c : Cell) (a : Nat) (bs : List Byte) (h : Memory.wf c.store = true) :
    Memory.wf (c.storeOwn a bs).store = true := wf_writeBytes h a bs

/-- Reset memory lists nothing, and is canonical. -/
theorem wf_reset : Memory.wf State.reset.stk.mem = true := rfl

end Sys2Proof.Machine
end

