-- ==== Sys2Proof/Laws/State.lean ====
section
/-! SUPPORT. One law per field for every basic update of State and of Cell, so that no proof unfolds a record update; and
what is read after one is written. -/

namespace Sys2Proof.Machine

set_option maxRecDepth 20000

/-! A cell is written. -/

@[simp] theorem state_setCell_pending (s : State) (n : Nat) (c : Cell) : (s.setCell n c).pending = s.pending := rfl
@[simp] theorem state_setCell_dev (s : State) (n : Nat) (c : Cell) : (s.setCell n c).dev = s.dev := rfl
@[simp] theorem state_setCell_datum (s : State) (n : Nat) (c : Cell) : (s.setCell n c).datum = s.datum := rfl
@[simp] theorem state_setCell_tk (s : State) (n : Nat) (c : Cell) : (s.setCell n c).tk = s.tk := rfl
@[simp] theorem state_setCell_lc (s : State) (n : Nat) (c : Cell) : (s.setCell n c).lc = s.lc := rfl
@[simp] theorem state_setCell_parcels (s : State) (n : Nat) (c : Cell) : (s.setCell n c).parcels = s.parcels := rfl
@[simp] theorem state_setCell_insts (s : State) (n : Nat) (c : Cell) : (s.setCell n c).insts = s.insts := rfl
@[simp] theorem state_setCell_nextInst (s : State) (n : Nat) (c : Cell) : (s.setCell n c).nextInst = s.nextInst := rfl
@[simp] theorem state_setCell_stk (s : State) (n : Nat) (c : Cell) : (s.setCell n c).stk = s.stk := rfl
@[simp] theorem state_setCell_er (s : State) (n : Nat) (c : Cell) : (s.setCell n c).er = s.er := rfl
@[simp] theorem state_setCell_cyc (s : State) (n : Nat) (c : Cell) : (s.setCell n c).cyc = s.cyc := rfl
@[simp] theorem state_setCell_ords (s : State) (n : Nat) (c : Cell) : (s.setCell n c).ords = s.ords := rfl
@[simp] theorem state_setCell_img (s : State) (n : Nat) (c : Cell) : (s.setCell n c).img = s.img := rfl
@[simp] theorem state_setCell_net (s : State) (n : Nat) (c : Cell) : (s.setCell n c).net = s.net := rfl
@[simp] theorem state_setCell_host (s : State) (n : Nat) (c : Cell) : (s.setCell n c).host = s.host := rfl
@[simp] theorem state_setCell_th (s : State) (n : Nat) (c : Cell) : (s.setCell n c).th = s.th := rfl
@[simp] theorem state_setCell_sv (s : State) (n : Nat) (c : Cell) : (s.setCell n c).sv = s.sv := rfl
@[simp] theorem state_setCell_we (s : State) (n : Nat) (c : Cell) : (s.setCell n c).we = s.we := rfl
@[simp] theorem state_setCell_ob (s : State) (n : Nat) (c : Cell) : (s.setCell n c).ob = s.ob := rfl
@[simp] theorem state_setCell_mg (s : State) (n : Nat) (c : Cell) : (s.setCell n c).mg = s.mg := rfl
@[simp] theorem state_setCell_fresh (s : State) (n : Nat) (c : Cell) : (s.setCell n c).fresh = s.fresh := rfl
@[simp] theorem state_setCell_out (s : State) (n : Nat) (c : Cell) : (s.setCell n c).out = s.out := rfl
@[simp] theorem state_setCell_cells (s : State) (n : Nat) (c : Cell) : (s.setCell n c).cells = spPut Cell.zero c n s.cells := rfl

/-! A cell is changed. -/

@[simp] theorem state_modCell_pending (s : State) (n : Nat) (f : Cell → Cell) : (s.modCell n f).pending = s.pending := rfl
@[simp] theorem state_modCell_dev (s : State) (n : Nat) (f : Cell → Cell) : (s.modCell n f).dev = s.dev := rfl
@[simp] theorem state_modCell_datum (s : State) (n : Nat) (f : Cell → Cell) : (s.modCell n f).datum = s.datum := rfl
@[simp] theorem state_modCell_tk (s : State) (n : Nat) (f : Cell → Cell) : (s.modCell n f).tk = s.tk := rfl
@[simp] theorem state_modCell_lc (s : State) (n : Nat) (f : Cell → Cell) : (s.modCell n f).lc = s.lc := rfl
@[simp] theorem state_modCell_parcels (s : State) (n : Nat) (f : Cell → Cell) : (s.modCell n f).parcels = s.parcels := rfl
@[simp] theorem state_modCell_insts (s : State) (n : Nat) (f : Cell → Cell) : (s.modCell n f).insts = s.insts := rfl
@[simp] theorem state_modCell_nextInst (s : State) (n : Nat) (f : Cell → Cell) : (s.modCell n f).nextInst = s.nextInst := rfl
@[simp] theorem state_modCell_stk (s : State) (n : Nat) (f : Cell → Cell) : (s.modCell n f).stk = s.stk := rfl
@[simp] theorem state_modCell_er (s : State) (n : Nat) (f : Cell → Cell) : (s.modCell n f).er = s.er := rfl
@[simp] theorem state_modCell_cyc (s : State) (n : Nat) (f : Cell → Cell) : (s.modCell n f).cyc = s.cyc := rfl
@[simp] theorem state_modCell_ords (s : State) (n : Nat) (f : Cell → Cell) : (s.modCell n f).ords = s.ords := rfl
@[simp] theorem state_modCell_img (s : State) (n : Nat) (f : Cell → Cell) : (s.modCell n f).img = s.img := rfl
@[simp] theorem state_modCell_net (s : State) (n : Nat) (f : Cell → Cell) : (s.modCell n f).net = s.net := rfl
@[simp] theorem state_modCell_host (s : State) (n : Nat) (f : Cell → Cell) : (s.modCell n f).host = s.host := rfl
@[simp] theorem state_modCell_th (s : State) (n : Nat) (f : Cell → Cell) : (s.modCell n f).th = s.th := rfl
@[simp] theorem state_modCell_sv (s : State) (n : Nat) (f : Cell → Cell) : (s.modCell n f).sv = s.sv := rfl
@[simp] theorem state_modCell_we (s : State) (n : Nat) (f : Cell → Cell) : (s.modCell n f).we = s.we := rfl
@[simp] theorem state_modCell_ob (s : State) (n : Nat) (f : Cell → Cell) : (s.modCell n f).ob = s.ob := rfl
@[simp] theorem state_modCell_mg (s : State) (n : Nat) (f : Cell → Cell) : (s.modCell n f).mg = s.mg := rfl
@[simp] theorem state_modCell_fresh (s : State) (n : Nat) (f : Cell → Cell) : (s.modCell n f).fresh = s.fresh := rfl
@[simp] theorem state_modCell_out (s : State) (n : Nat) (f : Cell → Cell) : (s.modCell n f).out = s.out := rfl
@[simp] theorem state_modCell_cells (s : State) (n : Nat) (f : Cell → Cell) : (s.modCell n f).cells = spPut Cell.zero (f (s.cell n)) n s.cells := rfl

/-! A parcel is written. -/

@[simp] theorem state_setParcel_pending (s : State) (p : Nat) (x : Parcel) : (s.setParcel p x).pending = s.pending := rfl
@[simp] theorem state_setParcel_dev (s : State) (p : Nat) (x : Parcel) : (s.setParcel p x).dev = s.dev := rfl
@[simp] theorem state_setParcel_datum (s : State) (p : Nat) (x : Parcel) : (s.setParcel p x).datum = s.datum := rfl
@[simp] theorem state_setParcel_tk (s : State) (p : Nat) (x : Parcel) : (s.setParcel p x).tk = s.tk := rfl
@[simp] theorem state_setParcel_lc (s : State) (p : Nat) (x : Parcel) : (s.setParcel p x).lc = s.lc := rfl
@[simp] theorem state_setParcel_cells (s : State) (p : Nat) (x : Parcel) : (s.setParcel p x).cells = s.cells := rfl
@[simp] theorem state_setParcel_insts (s : State) (p : Nat) (x : Parcel) : (s.setParcel p x).insts = s.insts := rfl
@[simp] theorem state_setParcel_nextInst (s : State) (p : Nat) (x : Parcel) : (s.setParcel p x).nextInst = s.nextInst := rfl
@[simp] theorem state_setParcel_stk (s : State) (p : Nat) (x : Parcel) : (s.setParcel p x).stk = s.stk := rfl
@[simp] theorem state_setParcel_er (s : State) (p : Nat) (x : Parcel) : (s.setParcel p x).er = s.er := rfl
@[simp] theorem state_setParcel_cyc (s : State) (p : Nat) (x : Parcel) : (s.setParcel p x).cyc = s.cyc := rfl
@[simp] theorem state_setParcel_ords (s : State) (p : Nat) (x : Parcel) : (s.setParcel p x).ords = s.ords := rfl
@[simp] theorem state_setParcel_img (s : State) (p : Nat) (x : Parcel) : (s.setParcel p x).img = s.img := rfl
@[simp] theorem state_setParcel_net (s : State) (p : Nat) (x : Parcel) : (s.setParcel p x).net = s.net := rfl
@[simp] theorem state_setParcel_host (s : State) (p : Nat) (x : Parcel) : (s.setParcel p x).host = s.host := rfl
@[simp] theorem state_setParcel_th (s : State) (p : Nat) (x : Parcel) : (s.setParcel p x).th = s.th := rfl
@[simp] theorem state_setParcel_sv (s : State) (p : Nat) (x : Parcel) : (s.setParcel p x).sv = s.sv := rfl
@[simp] theorem state_setParcel_we (s : State) (p : Nat) (x : Parcel) : (s.setParcel p x).we = s.we := rfl
@[simp] theorem state_setParcel_ob (s : State) (p : Nat) (x : Parcel) : (s.setParcel p x).ob = s.ob := rfl
@[simp] theorem state_setParcel_mg (s : State) (p : Nat) (x : Parcel) : (s.setParcel p x).mg = s.mg := rfl
@[simp] theorem state_setParcel_fresh (s : State) (p : Nat) (x : Parcel) : (s.setParcel p x).fresh = s.fresh := rfl
@[simp] theorem state_setParcel_out (s : State) (p : Nat) (x : Parcel) : (s.setParcel p x).out = s.out := rfl
@[simp] theorem state_setParcel_parcels (s : State) (p : Nat) (x : Parcel) : (s.setParcel p x).parcels = spPut Parcel.zero x p s.parcels := rfl

/-! A parcel is changed. -/

@[simp] theorem state_modParcel_pending (s : State) (p : Nat) (f : Parcel → Parcel) : (s.modParcel p f).pending = s.pending := rfl
@[simp] theorem state_modParcel_dev (s : State) (p : Nat) (f : Parcel → Parcel) : (s.modParcel p f).dev = s.dev := rfl
@[simp] theorem state_modParcel_datum (s : State) (p : Nat) (f : Parcel → Parcel) : (s.modParcel p f).datum = s.datum := rfl
@[simp] theorem state_modParcel_tk (s : State) (p : Nat) (f : Parcel → Parcel) : (s.modParcel p f).tk = s.tk := rfl
@[simp] theorem state_modParcel_lc (s : State) (p : Nat) (f : Parcel → Parcel) : (s.modParcel p f).lc = s.lc := rfl
@[simp] theorem state_modParcel_cells (s : State) (p : Nat) (f : Parcel → Parcel) : (s.modParcel p f).cells = s.cells := rfl
@[simp] theorem state_modParcel_insts (s : State) (p : Nat) (f : Parcel → Parcel) : (s.modParcel p f).insts = s.insts := rfl
@[simp] theorem state_modParcel_nextInst (s : State) (p : Nat) (f : Parcel → Parcel) : (s.modParcel p f).nextInst = s.nextInst := rfl
@[simp] theorem state_modParcel_stk (s : State) (p : Nat) (f : Parcel → Parcel) : (s.modParcel p f).stk = s.stk := rfl
@[simp] theorem state_modParcel_er (s : State) (p : Nat) (f : Parcel → Parcel) : (s.modParcel p f).er = s.er := rfl
@[simp] theorem state_modParcel_cyc (s : State) (p : Nat) (f : Parcel → Parcel) : (s.modParcel p f).cyc = s.cyc := rfl
@[simp] theorem state_modParcel_ords (s : State) (p : Nat) (f : Parcel → Parcel) : (s.modParcel p f).ords = s.ords := rfl
@[simp] theorem state_modParcel_img (s : State) (p : Nat) (f : Parcel → Parcel) : (s.modParcel p f).img = s.img := rfl
@[simp] theorem state_modParcel_net (s : State) (p : Nat) (f : Parcel → Parcel) : (s.modParcel p f).net = s.net := rfl
@[simp] theorem state_modParcel_host (s : State) (p : Nat) (f : Parcel → Parcel) : (s.modParcel p f).host = s.host := rfl
@[simp] theorem state_modParcel_th (s : State) (p : Nat) (f : Parcel → Parcel) : (s.modParcel p f).th = s.th := rfl
@[simp] theorem state_modParcel_sv (s : State) (p : Nat) (f : Parcel → Parcel) : (s.modParcel p f).sv = s.sv := rfl
@[simp] theorem state_modParcel_we (s : State) (p : Nat) (f : Parcel → Parcel) : (s.modParcel p f).we = s.we := rfl
@[simp] theorem state_modParcel_ob (s : State) (p : Nat) (f : Parcel → Parcel) : (s.modParcel p f).ob = s.ob := rfl
@[simp] theorem state_modParcel_mg (s : State) (p : Nat) (f : Parcel → Parcel) : (s.modParcel p f).mg = s.mg := rfl
@[simp] theorem state_modParcel_fresh (s : State) (p : Nat) (f : Parcel → Parcel) : (s.modParcel p f).fresh = s.fresh := rfl
@[simp] theorem state_modParcel_out (s : State) (p : Nat) (f : Parcel → Parcel) : (s.modParcel p f).out = s.out := rfl
@[simp] theorem state_modParcel_parcels (s : State) (p : Nat) (f : Parcel → Parcel) : (s.modParcel p f).parcels = spPut Parcel.zero (f (s.parcel p)) p s.parcels := rfl

/-! A queue is changed. -/

@[simp] theorem state_modQueue_pending (s : State) (p q : Nat) (f : Queue → Queue) : (s.modQueue p q f).pending = s.pending := rfl
@[simp] theorem state_modQueue_dev (s : State) (p q : Nat) (f : Queue → Queue) : (s.modQueue p q f).dev = s.dev := rfl
@[simp] theorem state_modQueue_datum (s : State) (p q : Nat) (f : Queue → Queue) : (s.modQueue p q f).datum = s.datum := rfl
@[simp] theorem state_modQueue_tk (s : State) (p q : Nat) (f : Queue → Queue) : (s.modQueue p q f).tk = s.tk := rfl
@[simp] theorem state_modQueue_lc (s : State) (p q : Nat) (f : Queue → Queue) : (s.modQueue p q f).lc = s.lc := rfl
@[simp] theorem state_modQueue_cells (s : State) (p q : Nat) (f : Queue → Queue) : (s.modQueue p q f).cells = s.cells := rfl
@[simp] theorem state_modQueue_insts (s : State) (p q : Nat) (f : Queue → Queue) : (s.modQueue p q f).insts = s.insts := rfl
@[simp] theorem state_modQueue_nextInst (s : State) (p q : Nat) (f : Queue → Queue) : (s.modQueue p q f).nextInst = s.nextInst := rfl
@[simp] theorem state_modQueue_stk (s : State) (p q : Nat) (f : Queue → Queue) : (s.modQueue p q f).stk = s.stk := rfl
@[simp] theorem state_modQueue_er (s : State) (p q : Nat) (f : Queue → Queue) : (s.modQueue p q f).er = s.er := rfl
@[simp] theorem state_modQueue_cyc (s : State) (p q : Nat) (f : Queue → Queue) : (s.modQueue p q f).cyc = s.cyc := rfl
@[simp] theorem state_modQueue_ords (s : State) (p q : Nat) (f : Queue → Queue) : (s.modQueue p q f).ords = s.ords := rfl
@[simp] theorem state_modQueue_img (s : State) (p q : Nat) (f : Queue → Queue) : (s.modQueue p q f).img = s.img := rfl
@[simp] theorem state_modQueue_net (s : State) (p q : Nat) (f : Queue → Queue) : (s.modQueue p q f).net = s.net := rfl
@[simp] theorem state_modQueue_host (s : State) (p q : Nat) (f : Queue → Queue) : (s.modQueue p q f).host = s.host := rfl
@[simp] theorem state_modQueue_th (s : State) (p q : Nat) (f : Queue → Queue) : (s.modQueue p q f).th = s.th := rfl
@[simp] theorem state_modQueue_sv (s : State) (p q : Nat) (f : Queue → Queue) : (s.modQueue p q f).sv = s.sv := rfl
@[simp] theorem state_modQueue_we (s : State) (p q : Nat) (f : Queue → Queue) : (s.modQueue p q f).we = s.we := rfl
@[simp] theorem state_modQueue_ob (s : State) (p q : Nat) (f : Queue → Queue) : (s.modQueue p q f).ob = s.ob := rfl
@[simp] theorem state_modQueue_mg (s : State) (p q : Nat) (f : Queue → Queue) : (s.modQueue p q f).mg = s.mg := rfl
@[simp] theorem state_modQueue_fresh (s : State) (p q : Nat) (f : Queue → Queue) : (s.modQueue p q f).fresh = s.fresh := rfl
@[simp] theorem state_modQueue_out (s : State) (p q : Nat) (f : Queue → Queue) : (s.modQueue p q f).out = s.out := rfl

/-! An instance is written. -/

@[simp] theorem state_setInst_pending (s : State) (i : Nat) (v : Option Inst) : (s.setInst i v).pending = s.pending := rfl
@[simp] theorem state_setInst_dev (s : State) (i : Nat) (v : Option Inst) : (s.setInst i v).dev = s.dev := rfl
@[simp] theorem state_setInst_datum (s : State) (i : Nat) (v : Option Inst) : (s.setInst i v).datum = s.datum := rfl
@[simp] theorem state_setInst_tk (s : State) (i : Nat) (v : Option Inst) : (s.setInst i v).tk = s.tk := rfl
@[simp] theorem state_setInst_lc (s : State) (i : Nat) (v : Option Inst) : (s.setInst i v).lc = s.lc := rfl
@[simp] theorem state_setInst_cells (s : State) (i : Nat) (v : Option Inst) : (s.setInst i v).cells = s.cells := rfl
@[simp] theorem state_setInst_parcels (s : State) (i : Nat) (v : Option Inst) : (s.setInst i v).parcels = s.parcels := rfl
@[simp] theorem state_setInst_nextInst (s : State) (i : Nat) (v : Option Inst) : (s.setInst i v).nextInst = s.nextInst := rfl
@[simp] theorem state_setInst_stk (s : State) (i : Nat) (v : Option Inst) : (s.setInst i v).stk = s.stk := rfl
@[simp] theorem state_setInst_er (s : State) (i : Nat) (v : Option Inst) : (s.setInst i v).er = s.er := rfl
@[simp] theorem state_setInst_cyc (s : State) (i : Nat) (v : Option Inst) : (s.setInst i v).cyc = s.cyc := rfl
@[simp] theorem state_setInst_ords (s : State) (i : Nat) (v : Option Inst) : (s.setInst i v).ords = s.ords := rfl
@[simp] theorem state_setInst_img (s : State) (i : Nat) (v : Option Inst) : (s.setInst i v).img = s.img := rfl
@[simp] theorem state_setInst_net (s : State) (i : Nat) (v : Option Inst) : (s.setInst i v).net = s.net := rfl
@[simp] theorem state_setInst_host (s : State) (i : Nat) (v : Option Inst) : (s.setInst i v).host = s.host := rfl
@[simp] theorem state_setInst_th (s : State) (i : Nat) (v : Option Inst) : (s.setInst i v).th = s.th := rfl
@[simp] theorem state_setInst_sv (s : State) (i : Nat) (v : Option Inst) : (s.setInst i v).sv = s.sv := rfl
@[simp] theorem state_setInst_we (s : State) (i : Nat) (v : Option Inst) : (s.setInst i v).we = s.we := rfl
@[simp] theorem state_setInst_ob (s : State) (i : Nat) (v : Option Inst) : (s.setInst i v).ob = s.ob := rfl
@[simp] theorem state_setInst_mg (s : State) (i : Nat) (v : Option Inst) : (s.setInst i v).mg = s.mg := rfl
@[simp] theorem state_setInst_fresh (s : State) (i : Nat) (v : Option Inst) : (s.setInst i v).fresh = s.fresh := rfl
@[simp] theorem state_setInst_out (s : State) (i : Nat) (v : Option Inst) : (s.setInst i v).out = s.out := rfl
@[simp] theorem state_setInst_insts (s : State) (i : Nat) (v : Option Inst) : (s.setInst i v).insts = spPut none v i s.insts := rfl

/-! An instance is changed. -/

@[simp] theorem state_modInst_pending (s : State) (i : Nat) (f : Inst → Inst) : (s.modInst i f).pending = s.pending := rfl
@[simp] theorem state_modInst_dev (s : State) (i : Nat) (f : Inst → Inst) : (s.modInst i f).dev = s.dev := rfl
@[simp] theorem state_modInst_datum (s : State) (i : Nat) (f : Inst → Inst) : (s.modInst i f).datum = s.datum := rfl
@[simp] theorem state_modInst_tk (s : State) (i : Nat) (f : Inst → Inst) : (s.modInst i f).tk = s.tk := rfl
@[simp] theorem state_modInst_lc (s : State) (i : Nat) (f : Inst → Inst) : (s.modInst i f).lc = s.lc := rfl
@[simp] theorem state_modInst_cells (s : State) (i : Nat) (f : Inst → Inst) : (s.modInst i f).cells = s.cells := rfl
@[simp] theorem state_modInst_parcels (s : State) (i : Nat) (f : Inst → Inst) : (s.modInst i f).parcels = s.parcels := rfl
@[simp] theorem state_modInst_nextInst (s : State) (i : Nat) (f : Inst → Inst) : (s.modInst i f).nextInst = s.nextInst := rfl
@[simp] theorem state_modInst_stk (s : State) (i : Nat) (f : Inst → Inst) : (s.modInst i f).stk = s.stk := rfl
@[simp] theorem state_modInst_er (s : State) (i : Nat) (f : Inst → Inst) : (s.modInst i f).er = s.er := rfl
@[simp] theorem state_modInst_cyc (s : State) (i : Nat) (f : Inst → Inst) : (s.modInst i f).cyc = s.cyc := rfl
@[simp] theorem state_modInst_ords (s : State) (i : Nat) (f : Inst → Inst) : (s.modInst i f).ords = s.ords := rfl
@[simp] theorem state_modInst_img (s : State) (i : Nat) (f : Inst → Inst) : (s.modInst i f).img = s.img := rfl
@[simp] theorem state_modInst_net (s : State) (i : Nat) (f : Inst → Inst) : (s.modInst i f).net = s.net := rfl
@[simp] theorem state_modInst_host (s : State) (i : Nat) (f : Inst → Inst) : (s.modInst i f).host = s.host := rfl
@[simp] theorem state_modInst_th (s : State) (i : Nat) (f : Inst → Inst) : (s.modInst i f).th = s.th := rfl
@[simp] theorem state_modInst_sv (s : State) (i : Nat) (f : Inst → Inst) : (s.modInst i f).sv = s.sv := rfl
@[simp] theorem state_modInst_we (s : State) (i : Nat) (f : Inst → Inst) : (s.modInst i f).we = s.we := rfl
@[simp] theorem state_modInst_ob (s : State) (i : Nat) (f : Inst → Inst) : (s.modInst i f).ob = s.ob := rfl
@[simp] theorem state_modInst_mg (s : State) (i : Nat) (f : Inst → Inst) : (s.modInst i f).mg = s.mg := rfl
@[simp] theorem state_modInst_fresh (s : State) (i : Nat) (f : Inst → Inst) : (s.modInst i f).fresh = s.fresh := rfl
@[simp] theorem state_modInst_out (s : State) (i : Nat) (f : Inst → Inst) : (s.modInst i f).out = s.out := rfl
@[simp] theorem state_modInst_insts (s : State) (i : Nat) (f : Inst → Inst) : (s.modInst i f).insts = spPut none ((s.inst i).map f) i s.insts := rfl

/-! An accessor's order registers are changed. -/

@[simp] theorem state_modOrd_pending (s : State) (a : Nat) (f : OrdSt → OrdSt) : (s.modOrd a f).pending = s.pending := rfl
@[simp] theorem state_modOrd_dev (s : State) (a : Nat) (f : OrdSt → OrdSt) : (s.modOrd a f).dev = s.dev := rfl
@[simp] theorem state_modOrd_datum (s : State) (a : Nat) (f : OrdSt → OrdSt) : (s.modOrd a f).datum = s.datum := rfl
@[simp] theorem state_modOrd_tk (s : State) (a : Nat) (f : OrdSt → OrdSt) : (s.modOrd a f).tk = s.tk := rfl
@[simp] theorem state_modOrd_lc (s : State) (a : Nat) (f : OrdSt → OrdSt) : (s.modOrd a f).lc = s.lc := rfl
@[simp] theorem state_modOrd_cells (s : State) (a : Nat) (f : OrdSt → OrdSt) : (s.modOrd a f).cells = s.cells := rfl
@[simp] theorem state_modOrd_parcels (s : State) (a : Nat) (f : OrdSt → OrdSt) : (s.modOrd a f).parcels = s.parcels := rfl
@[simp] theorem state_modOrd_insts (s : State) (a : Nat) (f : OrdSt → OrdSt) : (s.modOrd a f).insts = s.insts := rfl
@[simp] theorem state_modOrd_nextInst (s : State) (a : Nat) (f : OrdSt → OrdSt) : (s.modOrd a f).nextInst = s.nextInst := rfl
@[simp] theorem state_modOrd_stk (s : State) (a : Nat) (f : OrdSt → OrdSt) : (s.modOrd a f).stk = s.stk := rfl
@[simp] theorem state_modOrd_er (s : State) (a : Nat) (f : OrdSt → OrdSt) : (s.modOrd a f).er = s.er := rfl
@[simp] theorem state_modOrd_cyc (s : State) (a : Nat) (f : OrdSt → OrdSt) : (s.modOrd a f).cyc = s.cyc := rfl
@[simp] theorem state_modOrd_img (s : State) (a : Nat) (f : OrdSt → OrdSt) : (s.modOrd a f).img = s.img := rfl
@[simp] theorem state_modOrd_net (s : State) (a : Nat) (f : OrdSt → OrdSt) : (s.modOrd a f).net = s.net := rfl
@[simp] theorem state_modOrd_host (s : State) (a : Nat) (f : OrdSt → OrdSt) : (s.modOrd a f).host = s.host := rfl
@[simp] theorem state_modOrd_th (s : State) (a : Nat) (f : OrdSt → OrdSt) : (s.modOrd a f).th = s.th := rfl
@[simp] theorem state_modOrd_sv (s : State) (a : Nat) (f : OrdSt → OrdSt) : (s.modOrd a f).sv = s.sv := rfl
@[simp] theorem state_modOrd_we (s : State) (a : Nat) (f : OrdSt → OrdSt) : (s.modOrd a f).we = s.we := rfl
@[simp] theorem state_modOrd_ob (s : State) (a : Nat) (f : OrdSt → OrdSt) : (s.modOrd a f).ob = s.ob := rfl
@[simp] theorem state_modOrd_mg (s : State) (a : Nat) (f : OrdSt → OrdSt) : (s.modOrd a f).mg = s.mg := rfl
@[simp] theorem state_modOrd_fresh (s : State) (a : Nat) (f : OrdSt → OrdSt) : (s.modOrd a f).fresh = s.fresh := rfl
@[simp] theorem state_modOrd_out (s : State) (a : Nat) (f : OrdSt → OrdSt) : (s.modOrd a f).out = s.out := rfl

/-! Something leaves the device. -/

@[simp] theorem state_emit_pending (s : State) (o : Output) : (s.emit o).pending = s.pending := rfl
@[simp] theorem state_emit_dev (s : State) (o : Output) : (s.emit o).dev = s.dev := rfl
@[simp] theorem state_emit_datum (s : State) (o : Output) : (s.emit o).datum = s.datum := rfl
@[simp] theorem state_emit_tk (s : State) (o : Output) : (s.emit o).tk = s.tk := rfl
@[simp] theorem state_emit_lc (s : State) (o : Output) : (s.emit o).lc = s.lc := rfl
@[simp] theorem state_emit_cells (s : State) (o : Output) : (s.emit o).cells = s.cells := rfl
@[simp] theorem state_emit_parcels (s : State) (o : Output) : (s.emit o).parcels = s.parcels := rfl
@[simp] theorem state_emit_insts (s : State) (o : Output) : (s.emit o).insts = s.insts := rfl
@[simp] theorem state_emit_nextInst (s : State) (o : Output) : (s.emit o).nextInst = s.nextInst := rfl
@[simp] theorem state_emit_stk (s : State) (o : Output) : (s.emit o).stk = s.stk := rfl
@[simp] theorem state_emit_er (s : State) (o : Output) : (s.emit o).er = s.er := rfl
@[simp] theorem state_emit_cyc (s : State) (o : Output) : (s.emit o).cyc = s.cyc := rfl
@[simp] theorem state_emit_ords (s : State) (o : Output) : (s.emit o).ords = s.ords := rfl
@[simp] theorem state_emit_img (s : State) (o : Output) : (s.emit o).img = s.img := rfl
@[simp] theorem state_emit_net (s : State) (o : Output) : (s.emit o).net = s.net := rfl
@[simp] theorem state_emit_host (s : State) (o : Output) : (s.emit o).host = s.host := rfl
@[simp] theorem state_emit_th (s : State) (o : Output) : (s.emit o).th = s.th := rfl
@[simp] theorem state_emit_sv (s : State) (o : Output) : (s.emit o).sv = s.sv := rfl
@[simp] theorem state_emit_we (s : State) (o : Output) : (s.emit o).we = s.we := rfl
@[simp] theorem state_emit_ob (s : State) (o : Output) : (s.emit o).ob = s.ob := rfl
@[simp] theorem state_emit_mg (s : State) (o : Output) : (s.emit o).mg = s.mg := rfl
@[simp] theorem state_emit_fresh (s : State) (o : Output) : (s.emit o).fresh = s.fresh := rfl
@[simp] theorem state_emit_out (s : State) (o : Output) : (s.emit o).out = o :: s.out := rfl

/-! A free value is used. -/

@[simp] theorem state_useFresh_pending (s : State) : (s.useFresh).pending = s.pending := rfl
@[simp] theorem state_useFresh_dev (s : State) : (s.useFresh).dev = s.dev := rfl
@[simp] theorem state_useFresh_datum (s : State) : (s.useFresh).datum = s.datum := rfl
@[simp] theorem state_useFresh_tk (s : State) : (s.useFresh).tk = s.tk := rfl
@[simp] theorem state_useFresh_lc (s : State) : (s.useFresh).lc = s.lc := rfl
@[simp] theorem state_useFresh_cells (s : State) : (s.useFresh).cells = s.cells := rfl
@[simp] theorem state_useFresh_parcels (s : State) : (s.useFresh).parcels = s.parcels := rfl
@[simp] theorem state_useFresh_insts (s : State) : (s.useFresh).insts = s.insts := rfl
@[simp] theorem state_useFresh_nextInst (s : State) : (s.useFresh).nextInst = s.nextInst := rfl
@[simp] theorem state_useFresh_stk (s : State) : (s.useFresh).stk = s.stk := rfl
@[simp] theorem state_useFresh_er (s : State) : (s.useFresh).er = s.er := rfl
@[simp] theorem state_useFresh_cyc (s : State) : (s.useFresh).cyc = s.cyc := rfl
@[simp] theorem state_useFresh_ords (s : State) : (s.useFresh).ords = s.ords := rfl
@[simp] theorem state_useFresh_img (s : State) : (s.useFresh).img = s.img := rfl
@[simp] theorem state_useFresh_net (s : State) : (s.useFresh).net = s.net := rfl
@[simp] theorem state_useFresh_host (s : State) : (s.useFresh).host = s.host := rfl
@[simp] theorem state_useFresh_th (s : State) : (s.useFresh).th = s.th := rfl
@[simp] theorem state_useFresh_sv (s : State) : (s.useFresh).sv = s.sv := rfl
@[simp] theorem state_useFresh_we (s : State) : (s.useFresh).we = s.we := rfl
@[simp] theorem state_useFresh_ob (s : State) : (s.useFresh).ob = s.ob := rfl
@[simp] theorem state_useFresh_mg (s : State) : (s.useFresh).mg = s.mg := rfl
@[simp] theorem state_useFresh_out (s : State) : (s.useFresh).out = s.out := rfl
@[simp] theorem state_useFresh_fresh (s : State) : (s.useFresh).fresh = s.fresh + 1 := rfl

/-! The datum moves on. -/

@[simp] theorem state_at_pending (s : State) (t : Nat) : (s.at t).pending = s.pending := rfl
@[simp] theorem state_at_dev (s : State) (t : Nat) : (s.at t).dev = s.dev := rfl
@[simp] theorem state_at_tk (s : State) (t : Nat) : (s.at t).tk = s.tk := rfl
@[simp] theorem state_at_lc (s : State) (t : Nat) :
    (s.at t).lc = { s.lc with ctr := s.lc.ctr + (t - s.datum) } := rfl
@[simp] theorem state_at_cells (s : State) (t : Nat) : (s.at t).cells = s.cells := rfl
@[simp] theorem state_at_parcels (s : State) (t : Nat) : (s.at t).parcels = s.parcels := rfl
@[simp] theorem state_at_insts (s : State) (t : Nat) : (s.at t).insts = s.insts := rfl
@[simp] theorem state_at_nextInst (s : State) (t : Nat) : (s.at t).nextInst = s.nextInst := rfl
@[simp] theorem state_at_stk (s : State) (t : Nat) : (s.at t).stk = s.stk := rfl
@[simp] theorem state_at_er (s : State) (t : Nat) : (s.at t).er = s.er := rfl
@[simp] theorem state_at_cyc (s : State) (t : Nat) : (s.at t).cyc = if s.datum < t then {} else s.cyc := rfl
@[simp] theorem state_at_ords (s : State) (t : Nat) : (s.at t).ords = s.ords := rfl
@[simp] theorem state_at_img (s : State) (t : Nat) : (s.at t).img = s.img := rfl
@[simp] theorem state_at_net (s : State) (t : Nat) : (s.at t).net = s.net := rfl
@[simp] theorem state_at_host (s : State) (t : Nat) : (s.at t).host = s.host := rfl
@[simp] theorem state_at_th (s : State) (t : Nat) : (s.at t).th = s.th := rfl
@[simp] theorem state_at_sv (s : State) (t : Nat) : (s.at t).sv = s.sv := rfl
@[simp] theorem state_at_we (s : State) (t : Nat) : (s.at t).we = s.we := rfl
@[simp] theorem state_at_ob (s : State) (t : Nat) : (s.at t).ob = s.ob := rfl
@[simp] theorem state_at_mg (s : State) (t : Nat) : (s.at t).mg = s.mg := rfl
@[simp] theorem state_at_fresh (s : State) (t : Nat) : (s.at t).fresh = s.fresh := rfl
@[simp] theorem state_at_out (s : State) (t : Nat) : (s.at t).out = s.out := rfl
@[simp] theorem state_at_datum (s : State) (t : Nat) : (s.at t).datum = max s.datum t := rfl

/-! A supervisor agent is changed. -/

@[simp] theorem state_modAgent_pending (s : State) (k : Nat) (f : SvAgent → SvAgent) : (s.modAgent k f).pending = s.pending := rfl
@[simp] theorem state_modAgent_dev (s : State) (k : Nat) (f : SvAgent → SvAgent) : (s.modAgent k f).dev = s.dev := rfl
@[simp] theorem state_modAgent_datum (s : State) (k : Nat) (f : SvAgent → SvAgent) : (s.modAgent k f).datum = s.datum := rfl
@[simp] theorem state_modAgent_tk (s : State) (k : Nat) (f : SvAgent → SvAgent) : (s.modAgent k f).tk = s.tk := rfl
@[simp] theorem state_modAgent_lc (s : State) (k : Nat) (f : SvAgent → SvAgent) : (s.modAgent k f).lc = s.lc := rfl
@[simp] theorem state_modAgent_cells (s : State) (k : Nat) (f : SvAgent → SvAgent) : (s.modAgent k f).cells = s.cells := rfl
@[simp] theorem state_modAgent_parcels (s : State) (k : Nat) (f : SvAgent → SvAgent) : (s.modAgent k f).parcels = s.parcels := rfl
@[simp] theorem state_modAgent_insts (s : State) (k : Nat) (f : SvAgent → SvAgent) : (s.modAgent k f).insts = s.insts := rfl
@[simp] theorem state_modAgent_nextInst (s : State) (k : Nat) (f : SvAgent → SvAgent) : (s.modAgent k f).nextInst = s.nextInst := rfl
@[simp] theorem state_modAgent_stk (s : State) (k : Nat) (f : SvAgent → SvAgent) : (s.modAgent k f).stk = s.stk := rfl
@[simp] theorem state_modAgent_er (s : State) (k : Nat) (f : SvAgent → SvAgent) : (s.modAgent k f).er = s.er := rfl
@[simp] theorem state_modAgent_cyc (s : State) (k : Nat) (f : SvAgent → SvAgent) : (s.modAgent k f).cyc = s.cyc := rfl
@[simp] theorem state_modAgent_ords (s : State) (k : Nat) (f : SvAgent → SvAgent) : (s.modAgent k f).ords = s.ords := rfl
@[simp] theorem state_modAgent_img (s : State) (k : Nat) (f : SvAgent → SvAgent) : (s.modAgent k f).img = s.img := rfl
@[simp] theorem state_modAgent_net (s : State) (k : Nat) (f : SvAgent → SvAgent) : (s.modAgent k f).net = s.net := rfl
@[simp] theorem state_modAgent_host (s : State) (k : Nat) (f : SvAgent → SvAgent) : (s.modAgent k f).host = s.host := rfl
@[simp] theorem state_modAgent_th (s : State) (k : Nat) (f : SvAgent → SvAgent) : (s.modAgent k f).th = s.th := rfl
@[simp] theorem state_modAgent_we (s : State) (k : Nat) (f : SvAgent → SvAgent) : (s.modAgent k f).we = s.we := rfl
@[simp] theorem state_modAgent_ob (s : State) (k : Nat) (f : SvAgent → SvAgent) : (s.modAgent k f).ob = s.ob := rfl
@[simp] theorem state_modAgent_mg (s : State) (k : Nat) (f : SvAgent → SvAgent) : (s.modAgent k f).mg = s.mg := rfl
@[simp] theorem state_modAgent_fresh (s : State) (k : Nat) (f : SvAgent → SvAgent) : (s.modAgent k f).fresh = s.fresh := rfl
@[simp] theorem state_modAgent_out (s : State) (k : Nat) (f : SvAgent → SvAgent) : (s.modAgent k f).out = s.out := rfl

/-! A sub-port is changed. -/

@[simp] theorem state_modSub_pending (s : State) (i : Nat) (f : SubPort → SubPort) : (s.modSub i f).pending = s.pending := rfl
@[simp] theorem state_modSub_dev (s : State) (i : Nat) (f : SubPort → SubPort) : (s.modSub i f).dev = s.dev := rfl
@[simp] theorem state_modSub_datum (s : State) (i : Nat) (f : SubPort → SubPort) : (s.modSub i f).datum = s.datum := rfl
@[simp] theorem state_modSub_tk (s : State) (i : Nat) (f : SubPort → SubPort) : (s.modSub i f).tk = s.tk := rfl
@[simp] theorem state_modSub_lc (s : State) (i : Nat) (f : SubPort → SubPort) : (s.modSub i f).lc = s.lc := rfl
@[simp] theorem state_modSub_cells (s : State) (i : Nat) (f : SubPort → SubPort) : (s.modSub i f).cells = s.cells := rfl
@[simp] theorem state_modSub_parcels (s : State) (i : Nat) (f : SubPort → SubPort) : (s.modSub i f).parcels = s.parcels := rfl
@[simp] theorem state_modSub_insts (s : State) (i : Nat) (f : SubPort → SubPort) : (s.modSub i f).insts = s.insts := rfl
@[simp] theorem state_modSub_nextInst (s : State) (i : Nat) (f : SubPort → SubPort) : (s.modSub i f).nextInst = s.nextInst := rfl
@[simp] theorem state_modSub_stk (s : State) (i : Nat) (f : SubPort → SubPort) : (s.modSub i f).stk = s.stk := rfl
@[simp] theorem state_modSub_er (s : State) (i : Nat) (f : SubPort → SubPort) : (s.modSub i f).er = s.er := rfl
@[simp] theorem state_modSub_cyc (s : State) (i : Nat) (f : SubPort → SubPort) : (s.modSub i f).cyc = s.cyc := rfl
@[simp] theorem state_modSub_ords (s : State) (i : Nat) (f : SubPort → SubPort) : (s.modSub i f).ords = s.ords := rfl
@[simp] theorem state_modSub_img (s : State) (i : Nat) (f : SubPort → SubPort) : (s.modSub i f).img = s.img := rfl
@[simp] theorem state_modSub_host (s : State) (i : Nat) (f : SubPort → SubPort) : (s.modSub i f).host = s.host := rfl
@[simp] theorem state_modSub_th (s : State) (i : Nat) (f : SubPort → SubPort) : (s.modSub i f).th = s.th := rfl
@[simp] theorem state_modSub_sv (s : State) (i : Nat) (f : SubPort → SubPort) : (s.modSub i f).sv = s.sv := rfl
@[simp] theorem state_modSub_we (s : State) (i : Nat) (f : SubPort → SubPort) : (s.modSub i f).we = s.we := rfl
@[simp] theorem state_modSub_ob (s : State) (i : Nat) (f : SubPort → SubPort) : (s.modSub i f).ob = s.ob := rfl
@[simp] theorem state_modSub_mg (s : State) (i : Nat) (f : SubPort → SubPort) : (s.modSub i f).mg = s.mg := rfl
@[simp] theorem state_modSub_fresh (s : State) (i : Nat) (f : SubPort → SubPort) : (s.modSub i f).fresh = s.fresh := rfl
@[simp] theorem state_modSub_out (s : State) (i : Nat) (f : SubPort → SubPort) : (s.modSub i f).out = s.out := rfl

/-! A session is changed. -/

@[simp] theorem state_modVg_pending (s : State) (n : Nat) (f : VgSess → VgSess) : (s.modVg n f).pending = s.pending := rfl
@[simp] theorem state_modVg_dev (s : State) (n : Nat) (f : VgSess → VgSess) : (s.modVg n f).dev = s.dev := rfl
@[simp] theorem state_modVg_datum (s : State) (n : Nat) (f : VgSess → VgSess) : (s.modVg n f).datum = s.datum := rfl
@[simp] theorem state_modVg_tk (s : State) (n : Nat) (f : VgSess → VgSess) : (s.modVg n f).tk = s.tk := rfl
@[simp] theorem state_modVg_lc (s : State) (n : Nat) (f : VgSess → VgSess) : (s.modVg n f).lc = s.lc := rfl
@[simp] theorem state_modVg_cells (s : State) (n : Nat) (f : VgSess → VgSess) : (s.modVg n f).cells = s.cells := rfl
@[simp] theorem state_modVg_parcels (s : State) (n : Nat) (f : VgSess → VgSess) : (s.modVg n f).parcels = s.parcels := rfl
@[simp] theorem state_modVg_insts (s : State) (n : Nat) (f : VgSess → VgSess) : (s.modVg n f).insts = s.insts := rfl
@[simp] theorem state_modVg_nextInst (s : State) (n : Nat) (f : VgSess → VgSess) : (s.modVg n f).nextInst = s.nextInst := rfl
@[simp] theorem state_modVg_stk (s : State) (n : Nat) (f : VgSess → VgSess) : (s.modVg n f).stk = s.stk := rfl
@[simp] theorem state_modVg_er (s : State) (n : Nat) (f : VgSess → VgSess) : (s.modVg n f).er = s.er := rfl
@[simp] theorem state_modVg_cyc (s : State) (n : Nat) (f : VgSess → VgSess) : (s.modVg n f).cyc = s.cyc := rfl
@[simp] theorem state_modVg_ords (s : State) (n : Nat) (f : VgSess → VgSess) : (s.modVg n f).ords = s.ords := rfl
@[simp] theorem state_modVg_img (s : State) (n : Nat) (f : VgSess → VgSess) : (s.modVg n f).img = s.img := rfl
@[simp] theorem state_modVg_host (s : State) (n : Nat) (f : VgSess → VgSess) : (s.modVg n f).host = s.host := rfl
@[simp] theorem state_modVg_th (s : State) (n : Nat) (f : VgSess → VgSess) : (s.modVg n f).th = s.th := rfl
@[simp] theorem state_modVg_sv (s : State) (n : Nat) (f : VgSess → VgSess) : (s.modVg n f).sv = s.sv := rfl
@[simp] theorem state_modVg_we (s : State) (n : Nat) (f : VgSess → VgSess) : (s.modVg n f).we = s.we := rfl
@[simp] theorem state_modVg_ob (s : State) (n : Nat) (f : VgSess → VgSess) : (s.modVg n f).ob = s.ob := rfl
@[simp] theorem state_modVg_mg (s : State) (n : Nat) (f : VgSess → VgSess) : (s.modVg n f).mg = s.mg := rfl
@[simp] theorem state_modVg_fresh (s : State) (n : Nat) (f : VgSess → VgSess) : (s.modVg n f).fresh = s.fresh := rfl
@[simp] theorem state_modVg_out (s : State) (n : Nat) (f : VgSess → VgSess) : (s.modVg n f).out = s.out := rfl

/-! The host port is changed. -/

@[simp] theorem state_modHost_pending (s : State) (f : HostPort → HostPort) : (s.modHost f).pending = s.pending := rfl
@[simp] theorem state_modHost_dev (s : State) (f : HostPort → HostPort) : (s.modHost f).dev = s.dev := rfl
@[simp] theorem state_modHost_datum (s : State) (f : HostPort → HostPort) : (s.modHost f).datum = s.datum := rfl
@[simp] theorem state_modHost_tk (s : State) (f : HostPort → HostPort) : (s.modHost f).tk = s.tk := rfl
@[simp] theorem state_modHost_lc (s : State) (f : HostPort → HostPort) : (s.modHost f).lc = s.lc := rfl
@[simp] theorem state_modHost_cells (s : State) (f : HostPort → HostPort) : (s.modHost f).cells = s.cells := rfl
@[simp] theorem state_modHost_parcels (s : State) (f : HostPort → HostPort) : (s.modHost f).parcels = s.parcels := rfl
@[simp] theorem state_modHost_insts (s : State) (f : HostPort → HostPort) : (s.modHost f).insts = s.insts := rfl
@[simp] theorem state_modHost_nextInst (s : State) (f : HostPort → HostPort) : (s.modHost f).nextInst = s.nextInst := rfl
@[simp] theorem state_modHost_stk (s : State) (f : HostPort → HostPort) : (s.modHost f).stk = s.stk := rfl
@[simp] theorem state_modHost_er (s : State) (f : HostPort → HostPort) : (s.modHost f).er = s.er := rfl
@[simp] theorem state_modHost_cyc (s : State) (f : HostPort → HostPort) : (s.modHost f).cyc = s.cyc := rfl
@[simp] theorem state_modHost_ords (s : State) (f : HostPort → HostPort) : (s.modHost f).ords = s.ords := rfl
@[simp] theorem state_modHost_img (s : State) (f : HostPort → HostPort) : (s.modHost f).img = s.img := rfl
@[simp] theorem state_modHost_net (s : State) (f : HostPort → HostPort) : (s.modHost f).net = s.net := rfl
@[simp] theorem state_modHost_th (s : State) (f : HostPort → HostPort) : (s.modHost f).th = s.th := rfl
@[simp] theorem state_modHost_sv (s : State) (f : HostPort → HostPort) : (s.modHost f).sv = s.sv := rfl
@[simp] theorem state_modHost_we (s : State) (f : HostPort → HostPort) : (s.modHost f).we = s.we := rfl
@[simp] theorem state_modHost_ob (s : State) (f : HostPort → HostPort) : (s.modHost f).ob = s.ob := rfl
@[simp] theorem state_modHost_mg (s : State) (f : HostPort → HostPort) : (s.modHost f).mg = s.mg := rfl
@[simp] theorem state_modHost_fresh (s : State) (f : HostPort → HostPort) : (s.modHost f).fresh = s.fresh := rfl
@[simp] theorem state_modHost_out (s : State) (f : HostPort → HostPort) : (s.modHost f).out = s.out := rfl
@[simp] theorem state_modHost_host (s : State) (f : HostPort → HostPort) : (s.modHost f).host = f s.host := rfl

/-! An event is logged (R530): only the log changes. -/

@[simp] theorem state_log_pending (s : State) (e : LogEntry) : (s.log e).pending = s.pending := by
  unfold State.log; dsimp only; (repeat' split) <;> rfl
@[simp] theorem state_log_dev (s : State) (e : LogEntry) : (s.log e).dev = s.dev := by
  unfold State.log; dsimp only; (repeat' split) <;> rfl
@[simp] theorem state_log_datum (s : State) (e : LogEntry) : (s.log e).datum = s.datum := by
  unfold State.log; dsimp only; (repeat' split) <;> rfl
@[simp] theorem state_log_tk (s : State) (e : LogEntry) : (s.log e).tk = s.tk := by
  unfold State.log; dsimp only; (repeat' split) <;> rfl
@[simp] theorem state_log_lc (s : State) (e : LogEntry) : (s.log e).lc = s.lc := by
  unfold State.log; dsimp only; (repeat' split) <;> rfl
@[simp] theorem state_log_cells (s : State) (e : LogEntry) : (s.log e).cells = s.cells := by
  unfold State.log; dsimp only; (repeat' split) <;> rfl
@[simp] theorem state_log_parcels (s : State) (e : LogEntry) : (s.log e).parcels = s.parcels := by
  unfold State.log; dsimp only; (repeat' split) <;> rfl
@[simp] theorem state_log_insts (s : State) (e : LogEntry) : (s.log e).insts = s.insts := by
  unfold State.log; dsimp only; (repeat' split) <;> rfl
@[simp] theorem state_log_nextInst (s : State) (e : LogEntry) : (s.log e).nextInst = s.nextInst := by
  unfold State.log; dsimp only; (repeat' split) <;> rfl
@[simp] theorem state_log_stk (s : State) (e : LogEntry) : (s.log e).stk = s.stk := by
  unfold State.log; dsimp only; (repeat' split) <;> rfl
@[simp] theorem state_log_cyc (s : State) (e : LogEntry) : (s.log e).cyc = s.cyc := by
  unfold State.log; dsimp only; (repeat' split) <;> rfl
@[simp] theorem state_log_ords (s : State) (e : LogEntry) : (s.log e).ords = s.ords := by
  unfold State.log; dsimp only; (repeat' split) <;> rfl
@[simp] theorem state_log_img (s : State) (e : LogEntry) : (s.log e).img = s.img := by
  unfold State.log; dsimp only; (repeat' split) <;> rfl
@[simp] theorem state_log_net (s : State) (e : LogEntry) : (s.log e).net = s.net := by
  unfold State.log; dsimp only; (repeat' split) <;> rfl
@[simp] theorem state_log_host (s : State) (e : LogEntry) : (s.log e).host = s.host := by
  unfold State.log; dsimp only; (repeat' split) <;> rfl
@[simp] theorem state_log_th (s : State) (e : LogEntry) : (s.log e).th = s.th := by
  unfold State.log; dsimp only; (repeat' split) <;> rfl
@[simp] theorem state_log_sv (s : State) (e : LogEntry) : (s.log e).sv = s.sv := by
  unfold State.log; dsimp only; (repeat' split) <;> rfl
@[simp] theorem state_log_we (s : State) (e : LogEntry) : (s.log e).we = s.we := by
  unfold State.log; dsimp only; (repeat' split) <;> rfl
@[simp] theorem state_log_ob (s : State) (e : LogEntry) : (s.log e).ob = s.ob := by
  unfold State.log; dsimp only; (repeat' split) <;> rfl
@[simp] theorem state_log_mg (s : State) (e : LogEntry) : (s.log e).mg = s.mg := by
  unfold State.log; dsimp only; (repeat' split) <;> rfl
@[simp] theorem state_log_fresh (s : State) (e : LogEntry) : (s.log e).fresh = s.fresh := by
  unfold State.log; dsimp only; (repeat' split) <;> rfl
@[simp] theorem state_log_out (s : State) (e : LogEntry) : (s.log e).out = s.out := by
  unfold State.log; dsimp only; (repeat' split) <;> rfl

/-! An event is traced (R540): only the trace changes. -/

@[simp] theorem state_trace_pending (s : State) (cls event : Nat) (parcel : Option Nat) (q : Option Nat) (unit aux : Nat) (arg : W64) : (s.trace cls event parcel q unit aux arg).pending = s.pending := by
  unfold State.trace; dsimp only; (repeat' split) <;> rfl
@[simp] theorem state_trace_dev (s : State) (cls event : Nat) (parcel : Option Nat) (q : Option Nat) (unit aux : Nat) (arg : W64) : (s.trace cls event parcel q unit aux arg).dev = s.dev := by
  unfold State.trace; dsimp only; (repeat' split) <;> rfl
@[simp] theorem state_trace_datum (s : State) (cls event : Nat) (parcel : Option Nat) (q : Option Nat) (unit aux : Nat) (arg : W64) : (s.trace cls event parcel q unit aux arg).datum = s.datum := by
  unfold State.trace; dsimp only; (repeat' split) <;> rfl
@[simp] theorem state_trace_tk (s : State) (cls event : Nat) (parcel : Option Nat) (q : Option Nat) (unit aux : Nat) (arg : W64) : (s.trace cls event parcel q unit aux arg).tk = s.tk := by
  unfold State.trace; dsimp only; (repeat' split) <;> rfl
@[simp] theorem state_trace_lc (s : State) (cls event : Nat) (parcel : Option Nat) (q : Option Nat) (unit aux : Nat) (arg : W64) : (s.trace cls event parcel q unit aux arg).lc = s.lc := by
  unfold State.trace; dsimp only; (repeat' split) <;> rfl
@[simp] theorem state_trace_cells (s : State) (cls event : Nat) (parcel : Option Nat) (q : Option Nat) (unit aux : Nat) (arg : W64) : (s.trace cls event parcel q unit aux arg).cells = s.cells := by
  unfold State.trace; dsimp only; (repeat' split) <;> rfl
@[simp] theorem state_trace_parcels (s : State) (cls event : Nat) (parcel : Option Nat) (q : Option Nat) (unit aux : Nat) (arg : W64) : (s.trace cls event parcel q unit aux arg).parcels = s.parcels := by
  unfold State.trace; dsimp only; (repeat' split) <;> rfl
@[simp] theorem state_trace_insts (s : State) (cls event : Nat) (parcel : Option Nat) (q : Option Nat) (unit aux : Nat) (arg : W64) : (s.trace cls event parcel q unit aux arg).insts = s.insts := by
  unfold State.trace; dsimp only; (repeat' split) <;> rfl
@[simp] theorem state_trace_nextInst (s : State) (cls event : Nat) (parcel : Option Nat) (q : Option Nat) (unit aux : Nat) (arg : W64) : (s.trace cls event parcel q unit aux arg).nextInst = s.nextInst := by
  unfold State.trace; dsimp only; (repeat' split) <;> rfl
@[simp] theorem state_trace_stk (s : State) (cls event : Nat) (parcel : Option Nat) (q : Option Nat) (unit aux : Nat) (arg : W64) : (s.trace cls event parcel q unit aux arg).stk = s.stk := by
  unfold State.trace; dsimp only; (repeat' split) <;> rfl
@[simp] theorem state_trace_er (s : State) (cls event : Nat) (parcel : Option Nat) (q : Option Nat) (unit aux : Nat) (arg : W64) : (s.trace cls event parcel q unit aux arg).er = s.er := by
  unfold State.trace; dsimp only; (repeat' split) <;> rfl
@[simp] theorem state_trace_cyc (s : State) (cls event : Nat) (parcel : Option Nat) (q : Option Nat) (unit aux : Nat) (arg : W64) : (s.trace cls event parcel q unit aux arg).cyc = s.cyc := by
  unfold State.trace; dsimp only; (repeat' split) <;> rfl
@[simp] theorem state_trace_ords (s : State) (cls event : Nat) (parcel : Option Nat) (q : Option Nat) (unit aux : Nat) (arg : W64) : (s.trace cls event parcel q unit aux arg).ords = s.ords := by
  unfold State.trace; dsimp only; (repeat' split) <;> rfl
@[simp] theorem state_trace_img (s : State) (cls event : Nat) (parcel : Option Nat) (q : Option Nat) (unit aux : Nat) (arg : W64) : (s.trace cls event parcel q unit aux arg).img = s.img := by
  unfold State.trace; dsimp only; (repeat' split) <;> rfl
@[simp] theorem state_trace_net (s : State) (cls event : Nat) (parcel : Option Nat) (q : Option Nat) (unit aux : Nat) (arg : W64) : (s.trace cls event parcel q unit aux arg).net = s.net := by
  unfold State.trace; dsimp only; (repeat' split) <;> rfl
@[simp] theorem state_trace_host (s : State) (cls event : Nat) (parcel : Option Nat) (q : Option Nat) (unit aux : Nat) (arg : W64) : (s.trace cls event parcel q unit aux arg).host = s.host := by
  unfold State.trace; dsimp only; (repeat' split) <;> rfl
@[simp] theorem state_trace_th (s : State) (cls event : Nat) (parcel : Option Nat) (q : Option Nat) (unit aux : Nat) (arg : W64) : (s.trace cls event parcel q unit aux arg).th = s.th := by
  unfold State.trace; dsimp only; (repeat' split) <;> rfl
@[simp] theorem state_trace_sv (s : State) (cls event : Nat) (parcel : Option Nat) (q : Option Nat) (unit aux : Nat) (arg : W64) : (s.trace cls event parcel q unit aux arg).sv = s.sv := by
  unfold State.trace; dsimp only; (repeat' split) <;> rfl
@[simp] theorem state_trace_we (s : State) (cls event : Nat) (parcel : Option Nat) (q : Option Nat) (unit aux : Nat) (arg : W64) : (s.trace cls event parcel q unit aux arg).we = s.we := by
  unfold State.trace; dsimp only; (repeat' split) <;> rfl
@[simp] theorem state_trace_mg (s : State) (cls event : Nat) (parcel : Option Nat) (q : Option Nat) (unit aux : Nat) (arg : W64) : (s.trace cls event parcel q unit aux arg).mg = s.mg := by
  unfold State.trace; dsimp only; (repeat' split) <;> rfl
@[simp] theorem state_trace_fresh (s : State) (cls event : Nat) (parcel : Option Nat) (q : Option Nat) (unit aux : Nat) (arg : W64) : (s.trace cls event parcel q unit aux arg).fresh = s.fresh := by
  unfold State.trace; dsimp only; (repeat' split) <;> rfl
@[simp] theorem state_trace_out (s : State) (cls event : Nat) (parcel : Option Nat) (q : Option Nat) (unit aux : Nat) (arg : W64) : (s.trace cls event parcel q unit aux arg).out = s.out := by
  unfold State.trace; dsimp only; (repeat' split) <;> rfl

/-! A general register is written. -/

@[simp] theorem cell_setG_p (c : Cell) (r : Fin 32) (v : W64) : (c.setG r v).p = c.p := by
  unfold Cell.setG; split <;> rfl
@[simp] theorem cell_setG_pc (c : Cell) (r : Fin 32) (v : W64) : (c.setG r v).pc = c.pc := by
  unfold Cell.setG; split <;> rfl
@[simp] theorem cell_setG_status (c : Cell) (r : Fin 32) (v : W64) : (c.setG r v).status = c.status := by
  unfold Cell.setG; split <;> rfl
@[simp] theorem cell_setG_qh (c : Cell) (r : Fin 32) (v : W64) : (c.setG r v).qh = c.qh := by
  unfold Cell.setG; split <;> rfl
@[simp] theorem cell_setG_faultPc (c : Cell) (r : Fin 32) (v : W64) : (c.setG r v).faultPc = c.faultPc := by
  unfold Cell.setG; split <;> rfl
@[simp] theorem cell_setG_faultCause (c : Cell) (r : Fin 32) (v : W64) : (c.setG r v).faultCause = c.faultCause := by
  unfold Cell.setG; split <;> rfl
@[simp] theorem cell_setG_rsmpc (c : Cell) (r : Fin 32) (v : W64) : (c.setG r v).rsmpc = c.rsmpc := by
  unfold Cell.setG; split <;> rfl
@[simp] theorem cell_setG_rsmcnt (c : Cell) (r : Fin 32) (v : W64) : (c.setG r v).rsmcnt = c.rsmcnt := by
  unfold Cell.setG; split <;> rfl
@[simp] theorem cell_setG_rsmsrc (c : Cell) (r : Fin 32) (v : W64) : (c.setG r v).rsmsrc = c.rsmsrc := by
  unfold Cell.setG; split <;> rfl
@[simp] theorem cell_setG_rsmdst (c : Cell) (r : Fin 32) (v : W64) : (c.setG r v).rsmdst = c.rsmdst := by
  unfold Cell.setG; split <;> rfl
@[simp] theorem cell_setG_rng (c : Cell) (r : Fin 32) (v : W64) : (c.setG r v).rng = c.rng := by
  unfold Cell.setG; split <;> rfl
@[simp] theorem cell_setG_cycle (c : Cell) (r : Fin 32) (v : W64) : (c.setG r v).cycle = c.cycle := by
  unfold Cell.setG; split <;> rfl
@[simp] theorem cell_setG_cycleFrac (c : Cell) (r : Fin 32) (v : W64) : (c.setG r v).cycleFrac = c.cycleFrac := by
  unfold Cell.setG; split <;> rfl
@[simp] theorem cell_setG_tuse (c : Cell) (r : Fin 32) (v : W64) : (c.setG r v).tuse = c.tuse := by
  unfold Cell.setG; split <;> rfl
@[simp] theorem cell_setG_tsat (c : Cell) (r : Fin 32) (v : W64) : (c.setG r v).tsat = c.tsat := by
  unfold Cell.setG; split <;> rfl
@[simp] theorem cell_setG_acct (c : Cell) (r : Fin 32) (v : W64) : (c.setG r v).acct = c.acct := by
  unfold Cell.setG; split <;> rfl
@[simp] theorem cell_setG_cagv (c : Cell) (r : Fin 32) (v : W64) : (c.setG r v).cagv = c.cagv := by
  unfold Cell.setG; split <;> rfl
@[simp] theorem cell_setG_arr (c : Cell) (r : Fin 32) (v : W64) : (c.setG r v).arr = c.arr := by
  unfold Cell.setG; split <;> rfl
@[simp] theorem cell_setG_parcel (c : Cell) (r : Fin 32) (v : W64) : (c.setG r v).parcel = c.parcel := by
  unfold Cell.setG; split <;> rfl
@[simp] theorem cell_setG_rt (c : Cell) (r : Fin 32) (v : W64) : (c.setG r v).rt = c.rt := by
  unfold Cell.setG; split <;> rfl
@[simp] theorem cell_setG_defarr (c : Cell) (r : Fin 32) (v : W64) : (c.setG r v).defarr = c.defarr := by
  unfold Cell.setG; split <;> rfl
@[simp] theorem cell_setG_fixedMode (c : Cell) (r : Fin 32) (v : W64) : (c.setG r v).fixedMode = c.fixedMode := by
  unfold Cell.setG; split <;> rfl
@[simp] theorem cell_setG_tshape (c : Cell) (r : Fin 32) (v : W64) : (c.setG r v).tshape = c.tshape := by
  unfold Cell.setG; split <;> rfl
@[simp] theorem cell_setG_clk (c : Cell) (r : Fin 32) (v : W64) : (c.setG r v).clk = c.clk := by
  unfold Cell.setG; split <;> rfl
@[simp] theorem cell_setG_v (c : Cell) (r : Fin 32) (v : W64) : (c.setG r v).v = c.v := by
  unfold Cell.setG; split <;> rfl
@[simp] theorem cell_setG_tiles (c : Cell) (r : Fin 32) (v : W64) : (c.setG r v).tiles = c.tiles := by
  unfold Cell.setG; split <;> rfl
@[simp] theorem cell_setG_acc (c : Cell) (r : Fin 32) (v : W64) : (c.setG r v).acc = c.acc := by
  unfold Cell.setG; split <;> rfl
@[simp] theorem cell_setG_store (c : Cell) (r : Fin 32) (v : W64) : (c.setG r v).store = c.store := by
  unfold Cell.setG; split <;> rfl
@[simp] theorem cell_setG_storePoison (c : Cell) (r : Fin 32) (v : W64) : (c.setG r v).storePoison = c.storePoison := by
  unfold Cell.setG; split <;> rfl
@[simp] theorem cell_setG_storeFree (c : Cell) (r : Fin 32) (v : W64) : (c.setG r v).storeFree = c.storeFree := by
  unfold Cell.setG; split <;> rfl
@[simp] theorem cell_setG_tilePoison (c : Cell) (r : Fin 32) (v : W64) : (c.setG r v).tilePoison = c.tilePoison := by
  unfold Cell.setG; split <;> rfl
@[simp] theorem cell_setG_accPoison (c : Cell) (r : Fin 32) (v : W64) : (c.setG r v).accPoison = c.accPoison := by
  unfold Cell.setG; split <;> rfl
@[simp] theorem cell_setG_sbuf (c : Cell) (r : Fin 32) (v : W64) : (c.setG r v).sbuf = c.sbuf := by
  unfold Cell.setG; split <;> rfl
@[simp] theorem cell_setG_queues (c : Cell) (r : Fin 32) (v : W64) : (c.setG r v).queues = c.queues := by
  unfold Cell.setG; split <;> rfl
@[simp] theorem cell_setG_ext (c : Cell) (r : Fin 32) (v : W64) : (c.setG r v).ext = c.ext := by
  unfold Cell.setG; split <;> rfl
@[simp] theorem cell_setG_sweep (c : Cell) (r : Fin 32) (v : W64) : (c.setG r v).sweep = c.sweep := by
  unfold Cell.setG; split <;> rfl
@[simp] theorem cell_setG_gather (c : Cell) (r : Fin 32) (v : W64) : (c.setG r v).gather = c.gather := by
  unfold Cell.setG; split <;> rfl
@[simp] theorem cell_setG_latches (c : Cell) (r : Fin 32) (v : W64) : (c.setG r v).latches = c.latches := by
  unfold Cell.setG; split <;> rfl
@[simp] theorem cell_setG_cagDesc (c : Cell) (r : Fin 32) (v : W64) : (c.setG r v).cagDesc = c.cagDesc := by
  unfold Cell.setG; split <;> rfl
@[simp] theorem cell_setG_wait (c : Cell) (r : Fin 32) (v : W64) : (c.setG r v).wait = c.wait := by
  unfold Cell.setG; split <;> rfl
@[simp] theorem cell_setG_seq (c : Cell) (r : Fin 32) (v : W64) : (c.setG r v).seq = c.seq := by
  unfold Cell.setG; split <;> rfl
@[simp] theorem cell_setG_graph (c : Cell) (r : Fin 32) (v : W64) : (c.setG r v).graph = c.graph := by
  unfold Cell.setG; split <;> rfl
@[simp] theorem cell_setG_inst (c : Cell) (r : Fin 32) (v : W64) : (c.setG r v).inst = c.inst := by
  unfold Cell.setG; split <;> rfl

/-! A predicate is written. -/

@[simp] theorem cell_setP_g (c : Cell) (k : Fin 8) (b : Bool) : (c.setP k b).g = c.g := by
  unfold Cell.setP; split <;> rfl
@[simp] theorem cell_setP_pc (c : Cell) (k : Fin 8) (b : Bool) : (c.setP k b).pc = c.pc := by
  unfold Cell.setP; split <;> rfl
@[simp] theorem cell_setP_status (c : Cell) (k : Fin 8) (b : Bool) : (c.setP k b).status = c.status := by
  unfold Cell.setP; split <;> rfl
@[simp] theorem cell_setP_qh (c : Cell) (k : Fin 8) (b : Bool) : (c.setP k b).qh = c.qh := by
  unfold Cell.setP; split <;> rfl
@[simp] theorem cell_setP_faultPc (c : Cell) (k : Fin 8) (b : Bool) : (c.setP k b).faultPc = c.faultPc := by
  unfold Cell.setP; split <;> rfl
@[simp] theorem cell_setP_faultCause (c : Cell) (k : Fin 8) (b : Bool) : (c.setP k b).faultCause = c.faultCause := by
  unfold Cell.setP; split <;> rfl
@[simp] theorem cell_setP_rsmpc (c : Cell) (k : Fin 8) (b : Bool) : (c.setP k b).rsmpc = c.rsmpc := by
  unfold Cell.setP; split <;> rfl
@[simp] theorem cell_setP_rsmcnt (c : Cell) (k : Fin 8) (b : Bool) : (c.setP k b).rsmcnt = c.rsmcnt := by
  unfold Cell.setP; split <;> rfl
@[simp] theorem cell_setP_rsmsrc (c : Cell) (k : Fin 8) (b : Bool) : (c.setP k b).rsmsrc = c.rsmsrc := by
  unfold Cell.setP; split <;> rfl
@[simp] theorem cell_setP_rsmdst (c : Cell) (k : Fin 8) (b : Bool) : (c.setP k b).rsmdst = c.rsmdst := by
  unfold Cell.setP; split <;> rfl
@[simp] theorem cell_setP_rng (c : Cell) (k : Fin 8) (b : Bool) : (c.setP k b).rng = c.rng := by
  unfold Cell.setP; split <;> rfl
@[simp] theorem cell_setP_cycle (c : Cell) (k : Fin 8) (b : Bool) : (c.setP k b).cycle = c.cycle := by
  unfold Cell.setP; split <;> rfl
@[simp] theorem cell_setP_cycleFrac (c : Cell) (k : Fin 8) (b : Bool) : (c.setP k b).cycleFrac = c.cycleFrac := by
  unfold Cell.setP; split <;> rfl
@[simp] theorem cell_setP_tuse (c : Cell) (k : Fin 8) (b : Bool) : (c.setP k b).tuse = c.tuse := by
  unfold Cell.setP; split <;> rfl
@[simp] theorem cell_setP_tsat (c : Cell) (k : Fin 8) (b : Bool) : (c.setP k b).tsat = c.tsat := by
  unfold Cell.setP; split <;> rfl
@[simp] theorem cell_setP_acct (c : Cell) (k : Fin 8) (b : Bool) : (c.setP k b).acct = c.acct := by
  unfold Cell.setP; split <;> rfl
@[simp] theorem cell_setP_cagv (c : Cell) (k : Fin 8) (b : Bool) : (c.setP k b).cagv = c.cagv := by
  unfold Cell.setP; split <;> rfl
@[simp] theorem cell_setP_arr (c : Cell) (k : Fin 8) (b : Bool) : (c.setP k b).arr = c.arr := by
  unfold Cell.setP; split <;> rfl
@[simp] theorem cell_setP_parcel (c : Cell) (k : Fin 8) (b : Bool) : (c.setP k b).parcel = c.parcel := by
  unfold Cell.setP; split <;> rfl
@[simp] theorem cell_setP_rt (c : Cell) (k : Fin 8) (b : Bool) : (c.setP k b).rt = c.rt := by
  unfold Cell.setP; split <;> rfl
@[simp] theorem cell_setP_defarr (c : Cell) (k : Fin 8) (b : Bool) : (c.setP k b).defarr = c.defarr := by
  unfold Cell.setP; split <;> rfl
@[simp] theorem cell_setP_fixedMode (c : Cell) (k : Fin 8) (b : Bool) : (c.setP k b).fixedMode = c.fixedMode := by
  unfold Cell.setP; split <;> rfl
@[simp] theorem cell_setP_tshape (c : Cell) (k : Fin 8) (b : Bool) : (c.setP k b).tshape = c.tshape := by
  unfold Cell.setP; split <;> rfl
@[simp] theorem cell_setP_clk (c : Cell) (k : Fin 8) (b : Bool) : (c.setP k b).clk = c.clk := by
  unfold Cell.setP; split <;> rfl
@[simp] theorem cell_setP_v (c : Cell) (k : Fin 8) (b : Bool) : (c.setP k b).v = c.v := by
  unfold Cell.setP; split <;> rfl
@[simp] theorem cell_setP_tiles (c : Cell) (k : Fin 8) (b : Bool) : (c.setP k b).tiles = c.tiles := by
  unfold Cell.setP; split <;> rfl
@[simp] theorem cell_setP_acc (c : Cell) (k : Fin 8) (b : Bool) : (c.setP k b).acc = c.acc := by
  unfold Cell.setP; split <;> rfl
@[simp] theorem cell_setP_store (c : Cell) (k : Fin 8) (b : Bool) : (c.setP k b).store = c.store := by
  unfold Cell.setP; split <;> rfl
@[simp] theorem cell_setP_storePoison (c : Cell) (k : Fin 8) (b : Bool) : (c.setP k b).storePoison = c.storePoison := by
  unfold Cell.setP; split <;> rfl
@[simp] theorem cell_setP_storeFree (c : Cell) (k : Fin 8) (b : Bool) : (c.setP k b).storeFree = c.storeFree := by
  unfold Cell.setP; split <;> rfl
@[simp] theorem cell_setP_tilePoison (c : Cell) (k : Fin 8) (b : Bool) : (c.setP k b).tilePoison = c.tilePoison := by
  unfold Cell.setP; split <;> rfl
@[simp] theorem cell_setP_accPoison (c : Cell) (k : Fin 8) (b : Bool) : (c.setP k b).accPoison = c.accPoison := by
  unfold Cell.setP; split <;> rfl
@[simp] theorem cell_setP_sbuf (c : Cell) (k : Fin 8) (b : Bool) : (c.setP k b).sbuf = c.sbuf := by
  unfold Cell.setP; split <;> rfl
@[simp] theorem cell_setP_queues (c : Cell) (k : Fin 8) (b : Bool) : (c.setP k b).queues = c.queues := by
  unfold Cell.setP; split <;> rfl
@[simp] theorem cell_setP_ext (c : Cell) (k : Fin 8) (b : Bool) : (c.setP k b).ext = c.ext := by
  unfold Cell.setP; split <;> rfl
@[simp] theorem cell_setP_sweep (c : Cell) (k : Fin 8) (b : Bool) : (c.setP k b).sweep = c.sweep := by
  unfold Cell.setP; split <;> rfl
@[simp] theorem cell_setP_gather (c : Cell) (k : Fin 8) (b : Bool) : (c.setP k b).gather = c.gather := by
  unfold Cell.setP; split <;> rfl
@[simp] theorem cell_setP_latches (c : Cell) (k : Fin 8) (b : Bool) : (c.setP k b).latches = c.latches := by
  unfold Cell.setP; split <;> rfl
@[simp] theorem cell_setP_cagDesc (c : Cell) (k : Fin 8) (b : Bool) : (c.setP k b).cagDesc = c.cagDesc := by
  unfold Cell.setP; split <;> rfl
@[simp] theorem cell_setP_wait (c : Cell) (k : Fin 8) (b : Bool) : (c.setP k b).wait = c.wait := by
  unfold Cell.setP; split <;> rfl
@[simp] theorem cell_setP_seq (c : Cell) (k : Fin 8) (b : Bool) : (c.setP k b).seq = c.seq := by
  unfold Cell.setP; split <;> rfl
@[simp] theorem cell_setP_graph (c : Cell) (k : Fin 8) (b : Bool) : (c.setP k b).graph = c.graph := by
  unfold Cell.setP; split <;> rfl
@[simp] theorem cell_setP_inst (c : Cell) (k : Fin 8) (b : Bool) : (c.setP k b).inst = c.inst := by
  unfold Cell.setP; split <;> rfl

/-! A vector register is written. -/

@[simp] theorem cell_setV_g (c : Cell) (r : Fin 32) (v : Row) : (c.setV r v).g = c.g := rfl
@[simp] theorem cell_setV_p (c : Cell) (r : Fin 32) (v : Row) : (c.setV r v).p = c.p := rfl
@[simp] theorem cell_setV_pc (c : Cell) (r : Fin 32) (v : Row) : (c.setV r v).pc = c.pc := rfl
@[simp] theorem cell_setV_status (c : Cell) (r : Fin 32) (v : Row) : (c.setV r v).status = c.status := rfl
@[simp] theorem cell_setV_qh (c : Cell) (r : Fin 32) (v : Row) : (c.setV r v).qh = c.qh := rfl
@[simp] theorem cell_setV_faultPc (c : Cell) (r : Fin 32) (v : Row) : (c.setV r v).faultPc = c.faultPc := rfl
@[simp] theorem cell_setV_faultCause (c : Cell) (r : Fin 32) (v : Row) : (c.setV r v).faultCause = c.faultCause := rfl
@[simp] theorem cell_setV_rsmpc (c : Cell) (r : Fin 32) (v : Row) : (c.setV r v).rsmpc = c.rsmpc := rfl
@[simp] theorem cell_setV_rsmcnt (c : Cell) (r : Fin 32) (v : Row) : (c.setV r v).rsmcnt = c.rsmcnt := rfl
@[simp] theorem cell_setV_rsmsrc (c : Cell) (r : Fin 32) (v : Row) : (c.setV r v).rsmsrc = c.rsmsrc := rfl
@[simp] theorem cell_setV_rsmdst (c : Cell) (r : Fin 32) (v : Row) : (c.setV r v).rsmdst = c.rsmdst := rfl
@[simp] theorem cell_setV_rng (c : Cell) (r : Fin 32) (v : Row) : (c.setV r v).rng = c.rng := rfl
@[simp] theorem cell_setV_cycle (c : Cell) (r : Fin 32) (v : Row) : (c.setV r v).cycle = c.cycle := rfl
@[simp] theorem cell_setV_cycleFrac (c : Cell) (r : Fin 32) (v : Row) : (c.setV r v).cycleFrac = c.cycleFrac := rfl
@[simp] theorem cell_setV_tuse (c : Cell) (r : Fin 32) (v : Row) : (c.setV r v).tuse = c.tuse := rfl
@[simp] theorem cell_setV_tsat (c : Cell) (r : Fin 32) (v : Row) : (c.setV r v).tsat = c.tsat := rfl
@[simp] theorem cell_setV_acct (c : Cell) (r : Fin 32) (v : Row) : (c.setV r v).acct = c.acct := rfl
@[simp] theorem cell_setV_cagv (c : Cell) (r : Fin 32) (v : Row) : (c.setV r v).cagv = c.cagv := rfl
@[simp] theorem cell_setV_arr (c : Cell) (r : Fin 32) (v : Row) : (c.setV r v).arr = c.arr := rfl
@[simp] theorem cell_setV_parcel (c : Cell) (r : Fin 32) (v : Row) : (c.setV r v).parcel = c.parcel := rfl
@[simp] theorem cell_setV_rt (c : Cell) (r : Fin 32) (v : Row) : (c.setV r v).rt = c.rt := rfl
@[simp] theorem cell_setV_defarr (c : Cell) (r : Fin 32) (v : Row) : (c.setV r v).defarr = c.defarr := rfl
@[simp] theorem cell_setV_fixedMode (c : Cell) (r : Fin 32) (v : Row) : (c.setV r v).fixedMode = c.fixedMode := rfl
@[simp] theorem cell_setV_tshape (c : Cell) (r : Fin 32) (v : Row) : (c.setV r v).tshape = c.tshape := rfl
@[simp] theorem cell_setV_clk (c : Cell) (r : Fin 32) (v : Row) : (c.setV r v).clk = c.clk := rfl
@[simp] theorem cell_setV_tiles (c : Cell) (r : Fin 32) (v : Row) : (c.setV r v).tiles = c.tiles := rfl
@[simp] theorem cell_setV_acc (c : Cell) (r : Fin 32) (v : Row) : (c.setV r v).acc = c.acc := rfl
@[simp] theorem cell_setV_store (c : Cell) (r : Fin 32) (v : Row) : (c.setV r v).store = c.store := rfl
@[simp] theorem cell_setV_storePoison (c : Cell) (r : Fin 32) (v : Row) : (c.setV r v).storePoison = c.storePoison := rfl
@[simp] theorem cell_setV_storeFree (c : Cell) (r : Fin 32) (v : Row) : (c.setV r v).storeFree = c.storeFree := rfl
@[simp] theorem cell_setV_tilePoison (c : Cell) (r : Fin 32) (v : Row) : (c.setV r v).tilePoison = c.tilePoison := rfl
@[simp] theorem cell_setV_accPoison (c : Cell) (r : Fin 32) (v : Row) : (c.setV r v).accPoison = c.accPoison := rfl
@[simp] theorem cell_setV_sbuf (c : Cell) (r : Fin 32) (v : Row) : (c.setV r v).sbuf = c.sbuf := rfl
@[simp] theorem cell_setV_queues (c : Cell) (r : Fin 32) (v : Row) : (c.setV r v).queues = c.queues := rfl
@[simp] theorem cell_setV_ext (c : Cell) (r : Fin 32) (v : Row) : (c.setV r v).ext = c.ext := rfl
@[simp] theorem cell_setV_sweep (c : Cell) (r : Fin 32) (v : Row) : (c.setV r v).sweep = c.sweep := rfl
@[simp] theorem cell_setV_gather (c : Cell) (r : Fin 32) (v : Row) : (c.setV r v).gather = c.gather := rfl
@[simp] theorem cell_setV_latches (c : Cell) (r : Fin 32) (v : Row) : (c.setV r v).latches = c.latches := rfl
@[simp] theorem cell_setV_cagDesc (c : Cell) (r : Fin 32) (v : Row) : (c.setV r v).cagDesc = c.cagDesc := rfl
@[simp] theorem cell_setV_wait (c : Cell) (r : Fin 32) (v : Row) : (c.setV r v).wait = c.wait := rfl
@[simp] theorem cell_setV_seq (c : Cell) (r : Fin 32) (v : Row) : (c.setV r v).seq = c.seq := rfl
@[simp] theorem cell_setV_graph (c : Cell) (r : Fin 32) (v : Row) : (c.setV r v).graph = c.graph := rfl
@[simp] theorem cell_setV_inst (c : Cell) (r : Fin 32) (v : Row) : (c.setV r v).inst = c.inst := rfl
@[simp] theorem cell_setV_v (c : Cell) (r : Fin 32) (v : Row) : (c.setV r v).v = spPut 0 v r c.v := rfl

/-! A tile row is written. -/

@[simp] theorem cell_setTileRow_g (c : Cell) (t r : Nat) (v : Row) : (c.setTileRow t r v).g = c.g := rfl
@[simp] theorem cell_setTileRow_p (c : Cell) (t r : Nat) (v : Row) : (c.setTileRow t r v).p = c.p := rfl
@[simp] theorem cell_setTileRow_pc (c : Cell) (t r : Nat) (v : Row) : (c.setTileRow t r v).pc = c.pc := rfl
@[simp] theorem cell_setTileRow_status (c : Cell) (t r : Nat) (v : Row) : (c.setTileRow t r v).status = c.status := rfl
@[simp] theorem cell_setTileRow_qh (c : Cell) (t r : Nat) (v : Row) : (c.setTileRow t r v).qh = c.qh := rfl
@[simp] theorem cell_setTileRow_faultPc (c : Cell) (t r : Nat) (v : Row) : (c.setTileRow t r v).faultPc = c.faultPc := rfl
@[simp] theorem cell_setTileRow_faultCause (c : Cell) (t r : Nat) (v : Row) : (c.setTileRow t r v).faultCause = c.faultCause := rfl
@[simp] theorem cell_setTileRow_rsmpc (c : Cell) (t r : Nat) (v : Row) : (c.setTileRow t r v).rsmpc = c.rsmpc := rfl
@[simp] theorem cell_setTileRow_rsmcnt (c : Cell) (t r : Nat) (v : Row) : (c.setTileRow t r v).rsmcnt = c.rsmcnt := rfl
@[simp] theorem cell_setTileRow_rsmsrc (c : Cell) (t r : Nat) (v : Row) : (c.setTileRow t r v).rsmsrc = c.rsmsrc := rfl
@[simp] theorem cell_setTileRow_rsmdst (c : Cell) (t r : Nat) (v : Row) : (c.setTileRow t r v).rsmdst = c.rsmdst := rfl
@[simp] theorem cell_setTileRow_rng (c : Cell) (t r : Nat) (v : Row) : (c.setTileRow t r v).rng = c.rng := rfl
@[simp] theorem cell_setTileRow_cycle (c : Cell) (t r : Nat) (v : Row) : (c.setTileRow t r v).cycle = c.cycle := rfl
@[simp] theorem cell_setTileRow_cycleFrac (c : Cell) (t r : Nat) (v : Row) : (c.setTileRow t r v).cycleFrac = c.cycleFrac := rfl
@[simp] theorem cell_setTileRow_tuse (c : Cell) (t r : Nat) (v : Row) : (c.setTileRow t r v).tuse = c.tuse := rfl
@[simp] theorem cell_setTileRow_tsat (c : Cell) (t r : Nat) (v : Row) : (c.setTileRow t r v).tsat = c.tsat := rfl
@[simp] theorem cell_setTileRow_acct (c : Cell) (t r : Nat) (v : Row) : (c.setTileRow t r v).acct = c.acct := rfl
@[simp] theorem cell_setTileRow_cagv (c : Cell) (t r : Nat) (v : Row) : (c.setTileRow t r v).cagv = c.cagv := rfl
@[simp] theorem cell_setTileRow_arr (c : Cell) (t r : Nat) (v : Row) : (c.setTileRow t r v).arr = c.arr := rfl
@[simp] theorem cell_setTileRow_parcel (c : Cell) (t r : Nat) (v : Row) : (c.setTileRow t r v).parcel = c.parcel := rfl
@[simp] theorem cell_setTileRow_rt (c : Cell) (t r : Nat) (v : Row) : (c.setTileRow t r v).rt = c.rt := rfl
@[simp] theorem cell_setTileRow_defarr (c : Cell) (t r : Nat) (v : Row) : (c.setTileRow t r v).defarr = c.defarr := rfl
@[simp] theorem cell_setTileRow_fixedMode (c : Cell) (t r : Nat) (v : Row) : (c.setTileRow t r v).fixedMode = c.fixedMode := rfl
@[simp] theorem cell_setTileRow_tshape (c : Cell) (t r : Nat) (v : Row) : (c.setTileRow t r v).tshape = c.tshape := rfl
@[simp] theorem cell_setTileRow_clk (c : Cell) (t r : Nat) (v : Row) : (c.setTileRow t r v).clk = c.clk := rfl
@[simp] theorem cell_setTileRow_v (c : Cell) (t r : Nat) (v : Row) : (c.setTileRow t r v).v = c.v := rfl
@[simp] theorem cell_setTileRow_acc (c : Cell) (t r : Nat) (v : Row) : (c.setTileRow t r v).acc = c.acc := rfl
@[simp] theorem cell_setTileRow_store (c : Cell) (t r : Nat) (v : Row) : (c.setTileRow t r v).store = c.store := rfl
@[simp] theorem cell_setTileRow_storePoison (c : Cell) (t r : Nat) (v : Row) : (c.setTileRow t r v).storePoison = c.storePoison := rfl
@[simp] theorem cell_setTileRow_storeFree (c : Cell) (t r : Nat) (v : Row) : (c.setTileRow t r v).storeFree = c.storeFree := rfl
@[simp] theorem cell_setTileRow_accPoison (c : Cell) (t r : Nat) (v : Row) : (c.setTileRow t r v).accPoison = c.accPoison := rfl
@[simp] theorem cell_setTileRow_sbuf (c : Cell) (t r : Nat) (v : Row) : (c.setTileRow t r v).sbuf = c.sbuf := rfl
@[simp] theorem cell_setTileRow_queues (c : Cell) (t r : Nat) (v : Row) : (c.setTileRow t r v).queues = c.queues := rfl
@[simp] theorem cell_setTileRow_ext (c : Cell) (t r : Nat) (v : Row) : (c.setTileRow t r v).ext = c.ext := rfl
@[simp] theorem cell_setTileRow_sweep (c : Cell) (t r : Nat) (v : Row) : (c.setTileRow t r v).sweep = c.sweep := rfl
@[simp] theorem cell_setTileRow_gather (c : Cell) (t r : Nat) (v : Row) : (c.setTileRow t r v).gather = c.gather := rfl
@[simp] theorem cell_setTileRow_latches (c : Cell) (t r : Nat) (v : Row) : (c.setTileRow t r v).latches = c.latches := rfl
@[simp] theorem cell_setTileRow_cagDesc (c : Cell) (t r : Nat) (v : Row) : (c.setTileRow t r v).cagDesc = c.cagDesc := rfl
@[simp] theorem cell_setTileRow_wait (c : Cell) (t r : Nat) (v : Row) : (c.setTileRow t r v).wait = c.wait := rfl
@[simp] theorem cell_setTileRow_seq (c : Cell) (t r : Nat) (v : Row) : (c.setTileRow t r v).seq = c.seq := rfl
@[simp] theorem cell_setTileRow_graph (c : Cell) (t r : Nat) (v : Row) : (c.setTileRow t r v).graph = c.graph := rfl
@[simp] theorem cell_setTileRow_inst (c : Cell) (t r : Nat) (v : Row) : (c.setTileRow t r v).inst = c.inst := rfl
@[simp] theorem cell_setTileRow_tiles (c : Cell) (t r : Nat) (v : Row) : (c.setTileRow t r v).tiles = spPut 0 v (t * 64 + r) c.tiles := rfl

/-! Tiles are marked in use. -/

@[simp] theorem cell_useTiles_g (c : Cell) (t n : Nat) : (c.useTiles t n).g = c.g := rfl
@[simp] theorem cell_useTiles_p (c : Cell) (t n : Nat) : (c.useTiles t n).p = c.p := rfl
@[simp] theorem cell_useTiles_pc (c : Cell) (t n : Nat) : (c.useTiles t n).pc = c.pc := rfl
@[simp] theorem cell_useTiles_status (c : Cell) (t n : Nat) : (c.useTiles t n).status = c.status := rfl
@[simp] theorem cell_useTiles_qh (c : Cell) (t n : Nat) : (c.useTiles t n).qh = c.qh := rfl
@[simp] theorem cell_useTiles_faultPc (c : Cell) (t n : Nat) : (c.useTiles t n).faultPc = c.faultPc := rfl
@[simp] theorem cell_useTiles_faultCause (c : Cell) (t n : Nat) : (c.useTiles t n).faultCause = c.faultCause := rfl
@[simp] theorem cell_useTiles_rsmpc (c : Cell) (t n : Nat) : (c.useTiles t n).rsmpc = c.rsmpc := rfl
@[simp] theorem cell_useTiles_rsmcnt (c : Cell) (t n : Nat) : (c.useTiles t n).rsmcnt = c.rsmcnt := rfl
@[simp] theorem cell_useTiles_rsmsrc (c : Cell) (t n : Nat) : (c.useTiles t n).rsmsrc = c.rsmsrc := rfl
@[simp] theorem cell_useTiles_rsmdst (c : Cell) (t n : Nat) : (c.useTiles t n).rsmdst = c.rsmdst := rfl
@[simp] theorem cell_useTiles_rng (c : Cell) (t n : Nat) : (c.useTiles t n).rng = c.rng := rfl
@[simp] theorem cell_useTiles_cycle (c : Cell) (t n : Nat) : (c.useTiles t n).cycle = c.cycle := rfl
@[simp] theorem cell_useTiles_cycleFrac (c : Cell) (t n : Nat) : (c.useTiles t n).cycleFrac = c.cycleFrac := rfl
@[simp] theorem cell_useTiles_tsat (c : Cell) (t n : Nat) : (c.useTiles t n).tsat = c.tsat := rfl
@[simp] theorem cell_useTiles_acct (c : Cell) (t n : Nat) : (c.useTiles t n).acct = c.acct := rfl
@[simp] theorem cell_useTiles_cagv (c : Cell) (t n : Nat) : (c.useTiles t n).cagv = c.cagv := rfl
@[simp] theorem cell_useTiles_arr (c : Cell) (t n : Nat) : (c.useTiles t n).arr = c.arr := rfl
@[simp] theorem cell_useTiles_parcel (c : Cell) (t n : Nat) : (c.useTiles t n).parcel = c.parcel := rfl
@[simp] theorem cell_useTiles_rt (c : Cell) (t n : Nat) : (c.useTiles t n).rt = c.rt := rfl
@[simp] theorem cell_useTiles_defarr (c : Cell) (t n : Nat) : (c.useTiles t n).defarr = c.defarr := rfl
@[simp] theorem cell_useTiles_fixedMode (c : Cell) (t n : Nat) : (c.useTiles t n).fixedMode = c.fixedMode := rfl
@[simp] theorem cell_useTiles_tshape (c : Cell) (t n : Nat) : (c.useTiles t n).tshape = c.tshape := rfl
@[simp] theorem cell_useTiles_clk (c : Cell) (t n : Nat) : (c.useTiles t n).clk = c.clk := rfl
@[simp] theorem cell_useTiles_v (c : Cell) (t n : Nat) : (c.useTiles t n).v = c.v := rfl
@[simp] theorem cell_useTiles_tiles (c : Cell) (t n : Nat) : (c.useTiles t n).tiles = c.tiles := rfl
@[simp] theorem cell_useTiles_acc (c : Cell) (t n : Nat) : (c.useTiles t n).acc = c.acc := rfl
@[simp] theorem cell_useTiles_store (c : Cell) (t n : Nat) : (c.useTiles t n).store = c.store := rfl
@[simp] theorem cell_useTiles_storePoison (c : Cell) (t n : Nat) : (c.useTiles t n).storePoison = c.storePoison := rfl
@[simp] theorem cell_useTiles_storeFree (c : Cell) (t n : Nat) : (c.useTiles t n).storeFree = c.storeFree := rfl
@[simp] theorem cell_useTiles_tilePoison (c : Cell) (t n : Nat) : (c.useTiles t n).tilePoison = c.tilePoison := rfl
@[simp] theorem cell_useTiles_accPoison (c : Cell) (t n : Nat) : (c.useTiles t n).accPoison = c.accPoison := rfl
@[simp] theorem cell_useTiles_sbuf (c : Cell) (t n : Nat) : (c.useTiles t n).sbuf = c.sbuf := rfl
@[simp] theorem cell_useTiles_queues (c : Cell) (t n : Nat) : (c.useTiles t n).queues = c.queues := rfl
@[simp] theorem cell_useTiles_ext (c : Cell) (t n : Nat) : (c.useTiles t n).ext = c.ext := rfl
@[simp] theorem cell_useTiles_sweep (c : Cell) (t n : Nat) : (c.useTiles t n).sweep = c.sweep := rfl
@[simp] theorem cell_useTiles_gather (c : Cell) (t n : Nat) : (c.useTiles t n).gather = c.gather := rfl
@[simp] theorem cell_useTiles_latches (c : Cell) (t n : Nat) : (c.useTiles t n).latches = c.latches := rfl
@[simp] theorem cell_useTiles_cagDesc (c : Cell) (t n : Nat) : (c.useTiles t n).cagDesc = c.cagDesc := rfl
@[simp] theorem cell_useTiles_wait (c : Cell) (t n : Nat) : (c.useTiles t n).wait = c.wait := rfl
@[simp] theorem cell_useTiles_seq (c : Cell) (t n : Nat) : (c.useTiles t n).seq = c.seq := rfl
@[simp] theorem cell_useTiles_graph (c : Cell) (t n : Nat) : (c.useTiles t n).graph = c.graph := rfl
@[simp] theorem cell_useTiles_inst (c : Cell) (t n : Nat) : (c.useTiles t n).inst = c.inst := rfl
@[simp] theorem cell_useTiles_tuse (c : Cell) (t n : Nat) : (c.useTiles t n).tuse = c.tuse ||| BitVec.ofNat 17 ((2 ^ n - 1) * 2 ^ t) := rfl

/-! The accumulator is marked in use. -/

@[simp] theorem cell_useAcc_g (c : Cell) : (c.useAcc).g = c.g := rfl
@[simp] theorem cell_useAcc_p (c : Cell) : (c.useAcc).p = c.p := rfl
@[simp] theorem cell_useAcc_pc (c : Cell) : (c.useAcc).pc = c.pc := rfl
@[simp] theorem cell_useAcc_status (c : Cell) : (c.useAcc).status = c.status := rfl
@[simp] theorem cell_useAcc_qh (c : Cell) : (c.useAcc).qh = c.qh := rfl
@[simp] theorem cell_useAcc_faultPc (c : Cell) : (c.useAcc).faultPc = c.faultPc := rfl
@[simp] theorem cell_useAcc_faultCause (c : Cell) : (c.useAcc).faultCause = c.faultCause := rfl
@[simp] theorem cell_useAcc_rsmpc (c : Cell) : (c.useAcc).rsmpc = c.rsmpc := rfl
@[simp] theorem cell_useAcc_rsmcnt (c : Cell) : (c.useAcc).rsmcnt = c.rsmcnt := rfl
@[simp] theorem cell_useAcc_rsmsrc (c : Cell) : (c.useAcc).rsmsrc = c.rsmsrc := rfl
@[simp] theorem cell_useAcc_rsmdst (c : Cell) : (c.useAcc).rsmdst = c.rsmdst := rfl
@[simp] theorem cell_useAcc_rng (c : Cell) : (c.useAcc).rng = c.rng := rfl
@[simp] theorem cell_useAcc_cycle (c : Cell) : (c.useAcc).cycle = c.cycle := rfl
@[simp] theorem cell_useAcc_cycleFrac (c : Cell) : (c.useAcc).cycleFrac = c.cycleFrac := rfl
@[simp] theorem cell_useAcc_tsat (c : Cell) : (c.useAcc).tsat = c.tsat := rfl
@[simp] theorem cell_useAcc_acct (c : Cell) : (c.useAcc).acct = c.acct := rfl
@[simp] theorem cell_useAcc_cagv (c : Cell) : (c.useAcc).cagv = c.cagv := rfl
@[simp] theorem cell_useAcc_arr (c : Cell) : (c.useAcc).arr = c.arr := rfl
@[simp] theorem cell_useAcc_parcel (c : Cell) : (c.useAcc).parcel = c.parcel := rfl
@[simp] theorem cell_useAcc_rt (c : Cell) : (c.useAcc).rt = c.rt := rfl
@[simp] theorem cell_useAcc_defarr (c : Cell) : (c.useAcc).defarr = c.defarr := rfl
@[simp] theorem cell_useAcc_fixedMode (c : Cell) : (c.useAcc).fixedMode = c.fixedMode := rfl
@[simp] theorem cell_useAcc_tshape (c : Cell) : (c.useAcc).tshape = c.tshape := rfl
@[simp] theorem cell_useAcc_clk (c : Cell) : (c.useAcc).clk = c.clk := rfl
@[simp] theorem cell_useAcc_v (c : Cell) : (c.useAcc).v = c.v := rfl
@[simp] theorem cell_useAcc_tiles (c : Cell) : (c.useAcc).tiles = c.tiles := rfl
@[simp] theorem cell_useAcc_acc (c : Cell) : (c.useAcc).acc = c.acc := rfl
@[simp] theorem cell_useAcc_store (c : Cell) : (c.useAcc).store = c.store := rfl
@[simp] theorem cell_useAcc_storePoison (c : Cell) : (c.useAcc).storePoison = c.storePoison := rfl
@[simp] theorem cell_useAcc_storeFree (c : Cell) : (c.useAcc).storeFree = c.storeFree := rfl
@[simp] theorem cell_useAcc_tilePoison (c : Cell) : (c.useAcc).tilePoison = c.tilePoison := rfl
@[simp] theorem cell_useAcc_accPoison (c : Cell) : (c.useAcc).accPoison = c.accPoison := rfl
@[simp] theorem cell_useAcc_sbuf (c : Cell) : (c.useAcc).sbuf = c.sbuf := rfl
@[simp] theorem cell_useAcc_queues (c : Cell) : (c.useAcc).queues = c.queues := rfl
@[simp] theorem cell_useAcc_ext (c : Cell) : (c.useAcc).ext = c.ext := rfl
@[simp] theorem cell_useAcc_sweep (c : Cell) : (c.useAcc).sweep = c.sweep := rfl
@[simp] theorem cell_useAcc_gather (c : Cell) : (c.useAcc).gather = c.gather := rfl
@[simp] theorem cell_useAcc_latches (c : Cell) : (c.useAcc).latches = c.latches := rfl
@[simp] theorem cell_useAcc_cagDesc (c : Cell) : (c.useAcc).cagDesc = c.cagDesc := rfl
@[simp] theorem cell_useAcc_wait (c : Cell) : (c.useAcc).wait = c.wait := rfl
@[simp] theorem cell_useAcc_seq (c : Cell) : (c.useAcc).seq = c.seq := rfl
@[simp] theorem cell_useAcc_graph (c : Cell) : (c.useAcc).graph = c.graph := rfl
@[simp] theorem cell_useAcc_inst (c : Cell) : (c.useAcc).inst = c.inst := rfl
@[simp] theorem cell_useAcc_tuse (c : Cell) : (c.useAcc).tuse = c.tuse ||| 0x10000#17 := rfl

/-! Sticky status bits are set. -/

@[simp] theorem cell_orStatus_g (c : Cell) (m : W64) : (c.orStatus m).g = c.g := rfl
@[simp] theorem cell_orStatus_p (c : Cell) (m : W64) : (c.orStatus m).p = c.p := rfl
@[simp] theorem cell_orStatus_pc (c : Cell) (m : W64) : (c.orStatus m).pc = c.pc := rfl
@[simp] theorem cell_orStatus_qh (c : Cell) (m : W64) : (c.orStatus m).qh = c.qh := rfl
@[simp] theorem cell_orStatus_faultPc (c : Cell) (m : W64) : (c.orStatus m).faultPc = c.faultPc := rfl
@[simp] theorem cell_orStatus_faultCause (c : Cell) (m : W64) : (c.orStatus m).faultCause = c.faultCause := rfl
@[simp] theorem cell_orStatus_rsmpc (c : Cell) (m : W64) : (c.orStatus m).rsmpc = c.rsmpc := rfl
@[simp] theorem cell_orStatus_rsmcnt (c : Cell) (m : W64) : (c.orStatus m).rsmcnt = c.rsmcnt := rfl
@[simp] theorem cell_orStatus_rsmsrc (c : Cell) (m : W64) : (c.orStatus m).rsmsrc = c.rsmsrc := rfl
@[simp] theorem cell_orStatus_rsmdst (c : Cell) (m : W64) : (c.orStatus m).rsmdst = c.rsmdst := rfl
@[simp] theorem cell_orStatus_rng (c : Cell) (m : W64) : (c.orStatus m).rng = c.rng := rfl
@[simp] theorem cell_orStatus_cycle (c : Cell) (m : W64) : (c.orStatus m).cycle = c.cycle := rfl
@[simp] theorem cell_orStatus_cycleFrac (c : Cell) (m : W64) : (c.orStatus m).cycleFrac = c.cycleFrac := rfl
@[simp] theorem cell_orStatus_tuse (c : Cell) (m : W64) : (c.orStatus m).tuse = c.tuse := rfl
@[simp] theorem cell_orStatus_tsat (c : Cell) (m : W64) : (c.orStatus m).tsat = c.tsat := rfl
@[simp] theorem cell_orStatus_acct (c : Cell) (m : W64) : (c.orStatus m).acct = c.acct := rfl
@[simp] theorem cell_orStatus_cagv (c : Cell) (m : W64) : (c.orStatus m).cagv = c.cagv := rfl
@[simp] theorem cell_orStatus_arr (c : Cell) (m : W64) : (c.orStatus m).arr = c.arr := rfl
@[simp] theorem cell_orStatus_parcel (c : Cell) (m : W64) : (c.orStatus m).parcel = c.parcel := rfl
@[simp] theorem cell_orStatus_rt (c : Cell) (m : W64) : (c.orStatus m).rt = c.rt := rfl
@[simp] theorem cell_orStatus_defarr (c : Cell) (m : W64) : (c.orStatus m).defarr = c.defarr := rfl
@[simp] theorem cell_orStatus_fixedMode (c : Cell) (m : W64) : (c.orStatus m).fixedMode = c.fixedMode := rfl
@[simp] theorem cell_orStatus_tshape (c : Cell) (m : W64) : (c.orStatus m).tshape = c.tshape := rfl
@[simp] theorem cell_orStatus_clk (c : Cell) (m : W64) : (c.orStatus m).clk = c.clk := rfl
@[simp] theorem cell_orStatus_v (c : Cell) (m : W64) : (c.orStatus m).v = c.v := rfl
@[simp] theorem cell_orStatus_tiles (c : Cell) (m : W64) : (c.orStatus m).tiles = c.tiles := rfl
@[simp] theorem cell_orStatus_acc (c : Cell) (m : W64) : (c.orStatus m).acc = c.acc := rfl
@[simp] theorem cell_orStatus_store (c : Cell) (m : W64) : (c.orStatus m).store = c.store := rfl
@[simp] theorem cell_orStatus_storePoison (c : Cell) (m : W64) : (c.orStatus m).storePoison = c.storePoison := rfl
@[simp] theorem cell_orStatus_storeFree (c : Cell) (m : W64) : (c.orStatus m).storeFree = c.storeFree := rfl
@[simp] theorem cell_orStatus_tilePoison (c : Cell) (m : W64) : (c.orStatus m).tilePoison = c.tilePoison := rfl
@[simp] theorem cell_orStatus_accPoison (c : Cell) (m : W64) : (c.orStatus m).accPoison = c.accPoison := rfl
@[simp] theorem cell_orStatus_sbuf (c : Cell) (m : W64) : (c.orStatus m).sbuf = c.sbuf := rfl
@[simp] theorem cell_orStatus_queues (c : Cell) (m : W64) : (c.orStatus m).queues = c.queues := rfl
@[simp] theorem cell_orStatus_ext (c : Cell) (m : W64) : (c.orStatus m).ext = c.ext := rfl
@[simp] theorem cell_orStatus_sweep (c : Cell) (m : W64) : (c.orStatus m).sweep = c.sweep := rfl
@[simp] theorem cell_orStatus_gather (c : Cell) (m : W64) : (c.orStatus m).gather = c.gather := rfl
@[simp] theorem cell_orStatus_latches (c : Cell) (m : W64) : (c.orStatus m).latches = c.latches := rfl
@[simp] theorem cell_orStatus_cagDesc (c : Cell) (m : W64) : (c.orStatus m).cagDesc = c.cagDesc := rfl
@[simp] theorem cell_orStatus_wait (c : Cell) (m : W64) : (c.orStatus m).wait = c.wait := rfl
@[simp] theorem cell_orStatus_seq (c : Cell) (m : W64) : (c.orStatus m).seq = c.seq := rfl
@[simp] theorem cell_orStatus_graph (c : Cell) (m : W64) : (c.orStatus m).graph = c.graph := rfl
@[simp] theorem cell_orStatus_inst (c : Cell) (m : W64) : (c.orStatus m).inst = c.inst := rfl
@[simp] theorem cell_orStatus_status (c : Cell) (m : W64) : (c.orStatus m).status = c.status ||| m := rfl

/-! A unit's queue is written. -/

@[simp] theorem cell_setQueue_g (c : Cell) (u : UnitId) (q : List QCmd) : (c.setQueue u q).g = c.g := rfl
@[simp] theorem cell_setQueue_p (c : Cell) (u : UnitId) (q : List QCmd) : (c.setQueue u q).p = c.p := rfl
@[simp] theorem cell_setQueue_pc (c : Cell) (u : UnitId) (q : List QCmd) : (c.setQueue u q).pc = c.pc := rfl
@[simp] theorem cell_setQueue_status (c : Cell) (u : UnitId) (q : List QCmd) : (c.setQueue u q).status = c.status := rfl
@[simp] theorem cell_setQueue_qh (c : Cell) (u : UnitId) (q : List QCmd) : (c.setQueue u q).qh = c.qh := rfl
@[simp] theorem cell_setQueue_faultPc (c : Cell) (u : UnitId) (q : List QCmd) : (c.setQueue u q).faultPc = c.faultPc := rfl
@[simp] theorem cell_setQueue_faultCause (c : Cell) (u : UnitId) (q : List QCmd) : (c.setQueue u q).faultCause = c.faultCause := rfl
@[simp] theorem cell_setQueue_rsmpc (c : Cell) (u : UnitId) (q : List QCmd) : (c.setQueue u q).rsmpc = c.rsmpc := rfl
@[simp] theorem cell_setQueue_rsmcnt (c : Cell) (u : UnitId) (q : List QCmd) : (c.setQueue u q).rsmcnt = c.rsmcnt := rfl
@[simp] theorem cell_setQueue_rsmsrc (c : Cell) (u : UnitId) (q : List QCmd) : (c.setQueue u q).rsmsrc = c.rsmsrc := rfl
@[simp] theorem cell_setQueue_rsmdst (c : Cell) (u : UnitId) (q : List QCmd) : (c.setQueue u q).rsmdst = c.rsmdst := rfl
@[simp] theorem cell_setQueue_rng (c : Cell) (u : UnitId) (q : List QCmd) : (c.setQueue u q).rng = c.rng := rfl
@[simp] theorem cell_setQueue_cycle (c : Cell) (u : UnitId) (q : List QCmd) : (c.setQueue u q).cycle = c.cycle := rfl
@[simp] theorem cell_setQueue_cycleFrac (c : Cell) (u : UnitId) (q : List QCmd) : (c.setQueue u q).cycleFrac = c.cycleFrac := rfl
@[simp] theorem cell_setQueue_tuse (c : Cell) (u : UnitId) (q : List QCmd) : (c.setQueue u q).tuse = c.tuse := rfl
@[simp] theorem cell_setQueue_tsat (c : Cell) (u : UnitId) (q : List QCmd) : (c.setQueue u q).tsat = c.tsat := rfl
@[simp] theorem cell_setQueue_acct (c : Cell) (u : UnitId) (q : List QCmd) : (c.setQueue u q).acct = c.acct := rfl
@[simp] theorem cell_setQueue_cagv (c : Cell) (u : UnitId) (q : List QCmd) : (c.setQueue u q).cagv = c.cagv := rfl
@[simp] theorem cell_setQueue_arr (c : Cell) (u : UnitId) (q : List QCmd) : (c.setQueue u q).arr = c.arr := rfl
@[simp] theorem cell_setQueue_parcel (c : Cell) (u : UnitId) (q : List QCmd) : (c.setQueue u q).parcel = c.parcel := rfl
@[simp] theorem cell_setQueue_rt (c : Cell) (u : UnitId) (q : List QCmd) : (c.setQueue u q).rt = c.rt := rfl
@[simp] theorem cell_setQueue_defarr (c : Cell) (u : UnitId) (q : List QCmd) : (c.setQueue u q).defarr = c.defarr := rfl
@[simp] theorem cell_setQueue_fixedMode (c : Cell) (u : UnitId) (q : List QCmd) : (c.setQueue u q).fixedMode = c.fixedMode := rfl
@[simp] theorem cell_setQueue_tshape (c : Cell) (u : UnitId) (q : List QCmd) : (c.setQueue u q).tshape = c.tshape := rfl
@[simp] theorem cell_setQueue_clk (c : Cell) (u : UnitId) (q : List QCmd) : (c.setQueue u q).clk = c.clk := rfl
@[simp] theorem cell_setQueue_v (c : Cell) (u : UnitId) (q : List QCmd) : (c.setQueue u q).v = c.v := rfl
@[simp] theorem cell_setQueue_tiles (c : Cell) (u : UnitId) (q : List QCmd) : (c.setQueue u q).tiles = c.tiles := rfl
@[simp] theorem cell_setQueue_acc (c : Cell) (u : UnitId) (q : List QCmd) : (c.setQueue u q).acc = c.acc := rfl
@[simp] theorem cell_setQueue_store (c : Cell) (u : UnitId) (q : List QCmd) : (c.setQueue u q).store = c.store := rfl
@[simp] theorem cell_setQueue_storePoison (c : Cell) (u : UnitId) (q : List QCmd) : (c.setQueue u q).storePoison = c.storePoison := rfl
@[simp] theorem cell_setQueue_storeFree (c : Cell) (u : UnitId) (q : List QCmd) : (c.setQueue u q).storeFree = c.storeFree := rfl
@[simp] theorem cell_setQueue_tilePoison (c : Cell) (u : UnitId) (q : List QCmd) : (c.setQueue u q).tilePoison = c.tilePoison := rfl
@[simp] theorem cell_setQueue_accPoison (c : Cell) (u : UnitId) (q : List QCmd) : (c.setQueue u q).accPoison = c.accPoison := rfl
@[simp] theorem cell_setQueue_sbuf (c : Cell) (u : UnitId) (q : List QCmd) : (c.setQueue u q).sbuf = c.sbuf := rfl
@[simp] theorem cell_setQueue_ext (c : Cell) (u : UnitId) (q : List QCmd) : (c.setQueue u q).ext = c.ext := rfl
@[simp] theorem cell_setQueue_sweep (c : Cell) (u : UnitId) (q : List QCmd) : (c.setQueue u q).sweep = c.sweep := rfl
@[simp] theorem cell_setQueue_gather (c : Cell) (u : UnitId) (q : List QCmd) : (c.setQueue u q).gather = c.gather := rfl
@[simp] theorem cell_setQueue_latches (c : Cell) (u : UnitId) (q : List QCmd) : (c.setQueue u q).latches = c.latches := rfl
@[simp] theorem cell_setQueue_cagDesc (c : Cell) (u : UnitId) (q : List QCmd) : (c.setQueue u q).cagDesc = c.cagDesc := rfl
@[simp] theorem cell_setQueue_wait (c : Cell) (u : UnitId) (q : List QCmd) : (c.setQueue u q).wait = c.wait := rfl
@[simp] theorem cell_setQueue_seq (c : Cell) (u : UnitId) (q : List QCmd) : (c.setQueue u q).seq = c.seq := rfl
@[simp] theorem cell_setQueue_graph (c : Cell) (u : UnitId) (q : List QCmd) : (c.setQueue u q).graph = c.graph := rfl
@[simp] theorem cell_setQueue_inst (c : Cell) (u : UnitId) (q : List QCmd) : (c.setQueue u q).inst = c.inst := rfl
@[simp] theorem cell_setQueue_queues (c : Cell) (u : UnitId) (q : List QCmd) : (c.setQueue u q).queues = spPut [] q (unitIndex u) c.queues := rfl

/-! A gather slot is written. -/

@[simp] theorem cell_setSlot_g (c : Cell) (n : Fin 2) (g : GatherSlot) : (c.setSlot n g).g = c.g := rfl
@[simp] theorem cell_setSlot_p (c : Cell) (n : Fin 2) (g : GatherSlot) : (c.setSlot n g).p = c.p := rfl
@[simp] theorem cell_setSlot_pc (c : Cell) (n : Fin 2) (g : GatherSlot) : (c.setSlot n g).pc = c.pc := rfl
@[simp] theorem cell_setSlot_status (c : Cell) (n : Fin 2) (g : GatherSlot) : (c.setSlot n g).status = c.status := rfl
@[simp] theorem cell_setSlot_qh (c : Cell) (n : Fin 2) (g : GatherSlot) : (c.setSlot n g).qh = c.qh := rfl
@[simp] theorem cell_setSlot_faultPc (c : Cell) (n : Fin 2) (g : GatherSlot) : (c.setSlot n g).faultPc = c.faultPc := rfl
@[simp] theorem cell_setSlot_faultCause (c : Cell) (n : Fin 2) (g : GatherSlot) : (c.setSlot n g).faultCause = c.faultCause := rfl
@[simp] theorem cell_setSlot_rsmpc (c : Cell) (n : Fin 2) (g : GatherSlot) : (c.setSlot n g).rsmpc = c.rsmpc := rfl
@[simp] theorem cell_setSlot_rsmcnt (c : Cell) (n : Fin 2) (g : GatherSlot) : (c.setSlot n g).rsmcnt = c.rsmcnt := rfl
@[simp] theorem cell_setSlot_rsmsrc (c : Cell) (n : Fin 2) (g : GatherSlot) : (c.setSlot n g).rsmsrc = c.rsmsrc := rfl
@[simp] theorem cell_setSlot_rsmdst (c : Cell) (n : Fin 2) (g : GatherSlot) : (c.setSlot n g).rsmdst = c.rsmdst := rfl
@[simp] theorem cell_setSlot_rng (c : Cell) (n : Fin 2) (g : GatherSlot) : (c.setSlot n g).rng = c.rng := rfl
@[simp] theorem cell_setSlot_cycle (c : Cell) (n : Fin 2) (g : GatherSlot) : (c.setSlot n g).cycle = c.cycle := rfl
@[simp] theorem cell_setSlot_cycleFrac (c : Cell) (n : Fin 2) (g : GatherSlot) : (c.setSlot n g).cycleFrac = c.cycleFrac := rfl
@[simp] theorem cell_setSlot_tuse (c : Cell) (n : Fin 2) (g : GatherSlot) : (c.setSlot n g).tuse = c.tuse := rfl
@[simp] theorem cell_setSlot_tsat (c : Cell) (n : Fin 2) (g : GatherSlot) : (c.setSlot n g).tsat = c.tsat := rfl
@[simp] theorem cell_setSlot_acct (c : Cell) (n : Fin 2) (g : GatherSlot) : (c.setSlot n g).acct = c.acct := rfl
@[simp] theorem cell_setSlot_cagv (c : Cell) (n : Fin 2) (g : GatherSlot) : (c.setSlot n g).cagv = c.cagv := rfl
@[simp] theorem cell_setSlot_arr (c : Cell) (n : Fin 2) (g : GatherSlot) : (c.setSlot n g).arr = c.arr := rfl
@[simp] theorem cell_setSlot_parcel (c : Cell) (n : Fin 2) (g : GatherSlot) : (c.setSlot n g).parcel = c.parcel := rfl
@[simp] theorem cell_setSlot_rt (c : Cell) (n : Fin 2) (g : GatherSlot) : (c.setSlot n g).rt = c.rt := rfl
@[simp] theorem cell_setSlot_defarr (c : Cell) (n : Fin 2) (g : GatherSlot) : (c.setSlot n g).defarr = c.defarr := rfl
@[simp] theorem cell_setSlot_fixedMode (c : Cell) (n : Fin 2) (g : GatherSlot) : (c.setSlot n g).fixedMode = c.fixedMode := rfl
@[simp] theorem cell_setSlot_tshape (c : Cell) (n : Fin 2) (g : GatherSlot) : (c.setSlot n g).tshape = c.tshape := rfl
@[simp] theorem cell_setSlot_clk (c : Cell) (n : Fin 2) (g : GatherSlot) : (c.setSlot n g).clk = c.clk := rfl
@[simp] theorem cell_setSlot_v (c : Cell) (n : Fin 2) (g : GatherSlot) : (c.setSlot n g).v = c.v := rfl
@[simp] theorem cell_setSlot_tiles (c : Cell) (n : Fin 2) (g : GatherSlot) : (c.setSlot n g).tiles = c.tiles := rfl
@[simp] theorem cell_setSlot_acc (c : Cell) (n : Fin 2) (g : GatherSlot) : (c.setSlot n g).acc = c.acc := rfl
@[simp] theorem cell_setSlot_store (c : Cell) (n : Fin 2) (g : GatherSlot) : (c.setSlot n g).store = c.store := rfl
@[simp] theorem cell_setSlot_storePoison (c : Cell) (n : Fin 2) (g : GatherSlot) : (c.setSlot n g).storePoison = c.storePoison := rfl
@[simp] theorem cell_setSlot_storeFree (c : Cell) (n : Fin 2) (g : GatherSlot) : (c.setSlot n g).storeFree = c.storeFree := rfl
@[simp] theorem cell_setSlot_tilePoison (c : Cell) (n : Fin 2) (g : GatherSlot) : (c.setSlot n g).tilePoison = c.tilePoison := rfl
@[simp] theorem cell_setSlot_accPoison (c : Cell) (n : Fin 2) (g : GatherSlot) : (c.setSlot n g).accPoison = c.accPoison := rfl
@[simp] theorem cell_setSlot_sbuf (c : Cell) (n : Fin 2) (g : GatherSlot) : (c.setSlot n g).sbuf = c.sbuf := rfl
@[simp] theorem cell_setSlot_queues (c : Cell) (n : Fin 2) (g : GatherSlot) : (c.setSlot n g).queues = c.queues := rfl
@[simp] theorem cell_setSlot_ext (c : Cell) (n : Fin 2) (g : GatherSlot) : (c.setSlot n g).ext = c.ext := rfl
@[simp] theorem cell_setSlot_sweep (c : Cell) (n : Fin 2) (g : GatherSlot) : (c.setSlot n g).sweep = c.sweep := rfl
@[simp] theorem cell_setSlot_latches (c : Cell) (n : Fin 2) (g : GatherSlot) : (c.setSlot n g).latches = c.latches := rfl
@[simp] theorem cell_setSlot_cagDesc (c : Cell) (n : Fin 2) (g : GatherSlot) : (c.setSlot n g).cagDesc = c.cagDesc := rfl
@[simp] theorem cell_setSlot_wait (c : Cell) (n : Fin 2) (g : GatherSlot) : (c.setSlot n g).wait = c.wait := rfl
@[simp] theorem cell_setSlot_seq (c : Cell) (n : Fin 2) (g : GatherSlot) : (c.setSlot n g).seq = c.seq := rfl
@[simp] theorem cell_setSlot_graph (c : Cell) (n : Fin 2) (g : GatherSlot) : (c.setSlot n g).graph = c.graph := rfl
@[simp] theorem cell_setSlot_inst (c : Cell) (n : Fin 2) (g : GatherSlot) : (c.setSlot n g).inst = c.inst := rfl
@[simp] theorem cell_setSlot_gather (c : Cell) (n : Fin 2) (g : GatherSlot) : (c.setSlot n g).gather = spPut GatherSlot.none g n c.gather := rfl

/-! Own-store bytes are written. -/

@[simp] theorem cell_storeOwn_g (c : Cell) (a : Nat) (bs : List Byte) : (c.storeOwn a bs).g = c.g := rfl
@[simp] theorem cell_storeOwn_p (c : Cell) (a : Nat) (bs : List Byte) : (c.storeOwn a bs).p = c.p := rfl
@[simp] theorem cell_storeOwn_pc (c : Cell) (a : Nat) (bs : List Byte) : (c.storeOwn a bs).pc = c.pc := rfl
@[simp] theorem cell_storeOwn_status (c : Cell) (a : Nat) (bs : List Byte) : (c.storeOwn a bs).status = c.status := rfl
@[simp] theorem cell_storeOwn_qh (c : Cell) (a : Nat) (bs : List Byte) : (c.storeOwn a bs).qh = c.qh := rfl
@[simp] theorem cell_storeOwn_faultPc (c : Cell) (a : Nat) (bs : List Byte) : (c.storeOwn a bs).faultPc = c.faultPc := rfl
@[simp] theorem cell_storeOwn_faultCause (c : Cell) (a : Nat) (bs : List Byte) : (c.storeOwn a bs).faultCause = c.faultCause := rfl
@[simp] theorem cell_storeOwn_rsmpc (c : Cell) (a : Nat) (bs : List Byte) : (c.storeOwn a bs).rsmpc = c.rsmpc := rfl
@[simp] theorem cell_storeOwn_rsmcnt (c : Cell) (a : Nat) (bs : List Byte) : (c.storeOwn a bs).rsmcnt = c.rsmcnt := rfl
@[simp] theorem cell_storeOwn_rsmsrc (c : Cell) (a : Nat) (bs : List Byte) : (c.storeOwn a bs).rsmsrc = c.rsmsrc := rfl
@[simp] theorem cell_storeOwn_rsmdst (c : Cell) (a : Nat) (bs : List Byte) : (c.storeOwn a bs).rsmdst = c.rsmdst := rfl
@[simp] theorem cell_storeOwn_rng (c : Cell) (a : Nat) (bs : List Byte) : (c.storeOwn a bs).rng = c.rng := rfl
@[simp] theorem cell_storeOwn_cycle (c : Cell) (a : Nat) (bs : List Byte) : (c.storeOwn a bs).cycle = c.cycle := rfl
@[simp] theorem cell_storeOwn_cycleFrac (c : Cell) (a : Nat) (bs : List Byte) : (c.storeOwn a bs).cycleFrac = c.cycleFrac := rfl
@[simp] theorem cell_storeOwn_tuse (c : Cell) (a : Nat) (bs : List Byte) : (c.storeOwn a bs).tuse = c.tuse := rfl
@[simp] theorem cell_storeOwn_tsat (c : Cell) (a : Nat) (bs : List Byte) : (c.storeOwn a bs).tsat = c.tsat := rfl
@[simp] theorem cell_storeOwn_acct (c : Cell) (a : Nat) (bs : List Byte) : (c.storeOwn a bs).acct = c.acct := rfl
@[simp] theorem cell_storeOwn_cagv (c : Cell) (a : Nat) (bs : List Byte) : (c.storeOwn a bs).cagv = c.cagv := rfl
@[simp] theorem cell_storeOwn_arr (c : Cell) (a : Nat) (bs : List Byte) : (c.storeOwn a bs).arr = c.arr := rfl
@[simp] theorem cell_storeOwn_parcel (c : Cell) (a : Nat) (bs : List Byte) : (c.storeOwn a bs).parcel = c.parcel := rfl
@[simp] theorem cell_storeOwn_rt (c : Cell) (a : Nat) (bs : List Byte) : (c.storeOwn a bs).rt = c.rt := rfl
@[simp] theorem cell_storeOwn_defarr (c : Cell) (a : Nat) (bs : List Byte) : (c.storeOwn a bs).defarr = c.defarr := rfl
@[simp] theorem cell_storeOwn_fixedMode (c : Cell) (a : Nat) (bs : List Byte) : (c.storeOwn a bs).fixedMode = c.fixedMode := rfl
@[simp] theorem cell_storeOwn_tshape (c : Cell) (a : Nat) (bs : List Byte) : (c.storeOwn a bs).tshape = c.tshape := rfl
@[simp] theorem cell_storeOwn_clk (c : Cell) (a : Nat) (bs : List Byte) : (c.storeOwn a bs).clk = c.clk := rfl
@[simp] theorem cell_storeOwn_v (c : Cell) (a : Nat) (bs : List Byte) : (c.storeOwn a bs).v = c.v := rfl
@[simp] theorem cell_storeOwn_tiles (c : Cell) (a : Nat) (bs : List Byte) : (c.storeOwn a bs).tiles = c.tiles := rfl
@[simp] theorem cell_storeOwn_acc (c : Cell) (a : Nat) (bs : List Byte) : (c.storeOwn a bs).acc = c.acc := rfl
@[simp] theorem cell_storeOwn_tilePoison (c : Cell) (a : Nat) (bs : List Byte) : (c.storeOwn a bs).tilePoison = c.tilePoison := rfl
@[simp] theorem cell_storeOwn_accPoison (c : Cell) (a : Nat) (bs : List Byte) : (c.storeOwn a bs).accPoison = c.accPoison := rfl
@[simp] theorem cell_storeOwn_sbuf (c : Cell) (a : Nat) (bs : List Byte) : (c.storeOwn a bs).sbuf = c.sbuf := rfl
@[simp] theorem cell_storeOwn_queues (c : Cell) (a : Nat) (bs : List Byte) : (c.storeOwn a bs).queues = c.queues := rfl
@[simp] theorem cell_storeOwn_ext (c : Cell) (a : Nat) (bs : List Byte) : (c.storeOwn a bs).ext = c.ext := rfl
@[simp] theorem cell_storeOwn_sweep (c : Cell) (a : Nat) (bs : List Byte) : (c.storeOwn a bs).sweep = c.sweep := rfl
@[simp] theorem cell_storeOwn_gather (c : Cell) (a : Nat) (bs : List Byte) : (c.storeOwn a bs).gather = c.gather := rfl
@[simp] theorem cell_storeOwn_latches (c : Cell) (a : Nat) (bs : List Byte) : (c.storeOwn a bs).latches = c.latches := rfl
@[simp] theorem cell_storeOwn_cagDesc (c : Cell) (a : Nat) (bs : List Byte) : (c.storeOwn a bs).cagDesc = c.cagDesc := rfl
@[simp] theorem cell_storeOwn_wait (c : Cell) (a : Nat) (bs : List Byte) : (c.storeOwn a bs).wait = c.wait := rfl
@[simp] theorem cell_storeOwn_seq (c : Cell) (a : Nat) (bs : List Byte) : (c.storeOwn a bs).seq = c.seq := rfl
@[simp] theorem cell_storeOwn_graph (c : Cell) (a : Nat) (bs : List Byte) : (c.storeOwn a bs).graph = c.graph := rfl
@[simp] theorem cell_storeOwn_inst (c : Cell) (a : Nat) (bs : List Byte) : (c.storeOwn a bs).inst = c.inst := rfl
@[simp] theorem cell_storeOwn_store (c : Cell) (a : Nat) (bs : List Byte) : (c.storeOwn a bs).store = writeBytes c.store a bs := rfl

/-! What is read after a write. -/

/-- Another cell is left alone. -/
theorem cell_setCell_ne (s : State) (c : Cell) {n k : Nat} (h : k ≠ n) : (s.setCell n c).cell k = s.cell k :=
  spGet_spPut_ne _ _ _ h

/-- The cell written is read back. -/
theorem cell_setCell_self {s : State} (h : spWf Cell.zero s.cells = true) (n : Nat) (c : Cell) :
    (s.setCell n c).cell n = c := spGet_spPut_self h _ _

/-- Another cell is left alone. -/
theorem cell_modCell_ne (s : State) (f : Cell → Cell) {n k : Nat} (h : k ≠ n) : (s.modCell n f).cell k = s.cell k :=
  cell_setCell_ne _ _ h

/-- The cell changed is read back. -/
theorem cell_modCell_self {s : State} (h : spWf Cell.zero s.cells = true) (n : Nat) (f : Cell → Cell) :
    (s.modCell n f).cell n = f (s.cell n) := cell_setCell_self h _ _

/-- Another parcel is left alone. -/
theorem parcel_modParcel_ne (s : State) (f : Parcel → Parcel) {p k : Nat} (h : k ≠ p) :
    (s.modParcel p f).parcel k = s.parcel k := spGet_spPut_ne _ _ _ h

/-- The parcel changed is read back. -/
theorem parcel_modParcel_self {s : State} (h : spWf Parcel.zero s.parcels = true) (p : Nat) (f : Parcel → Parcel) :
    (s.modParcel p f).parcel p = f (s.parcel p) := spGet_spPut_self h _ _

/-- Another instance is left alone. -/
theorem inst_setInst_ne (s : State) (v : Option Inst) {i k : Nat} (h : k ≠ i) : (s.setInst i v).inst k = s.inst k :=
  spGet_spPut_ne _ _ _ h

/-- The instance written is read back. -/
theorem inst_setInst_self {s : State} (h : spWf none s.insts = true) (i : Nat) (v : Option Inst) :
    (s.setInst i v).inst i = v := spGet_spPut_self h _ _

/-- Another accessor's orders are left alone. -/
theorem ord_modOrd_ne (s : State) (f : OrdSt → OrdSt) {a k : Nat} (h : k ≠ a) : (s.modOrd a f).ord k = s.ord k :=
  spGet_spPut_ne _ _ _ h

/-- The accessor's orders changed are read back. -/
theorem ord_modOrd_self {s : State} (h : spWf OrdSt.zero s.ords = true) (a : Nat) (f : OrdSt → OrdSt) :
    (s.modOrd a f).ord a = f (s.ord a) := spGet_spPut_self h _ _

/-- R191: g0 reads zero whatever is written. -/
@[simp] theorem greg_zero (c : Cell) : c.greg 0 = 0 := rfl

/-- R191: a write to g0 is discarded. -/
@[simp] theorem setG_zero (c : Cell) (v : W64) : c.setG 0 v = c := rfl

/-- Another general register is left alone. -/
theorem greg_setG_ne (c : Cell) (v : W64) {r k : Fin 32} (h : k ≠ r) : (c.setG r v).greg k = c.greg k := by
  unfold Cell.setG Cell.greg
  split
  · rfl
  · split
    · rfl
    · exact spGet_spPut_ne _ _ _ (fun e => h (Fin.ext e))

/-- The general register written is read back. -/
theorem greg_setG_self {c : Cell} (h : spWf 0 c.g = true) {r : Fin 32} (hr : r ≠ 0) (v : W64) :
    (c.setG r v).greg r = v := by
  rw [Cell.setG, if_neg hr, Cell.greg, if_neg hr]
  exact spGet_spPut_self h v r

/-- R191: p0 reads 1 whatever is written. -/
@[simp] theorem preg_zero (c : Cell) : c.preg 0 = true := by simp [Cell.preg]

/-- R191: a write to p0 is discarded. -/
@[simp] theorem setP_zero (c : Cell) (b : Bool) : c.setP 0 b = c := rfl

/-- A predicate write, read back from every predicate. -/
theorem preg_setP (c : Cell) (k j : Fin 8) (b : Bool) (hk : k ≠ 0) :
    (c.setP k b).preg j = if j = k then b else c.preg j := by
  have key : ∀ (p : Byte) (k j : Fin 8) (b : Bool), k ≠ 0 →
      (decide (j = 0) || (if b then p ||| (1#8 <<< k.val) else p &&& ~~~(1#8 <<< k.val)).getLsbD j) =
        if j = k then b else (decide (j = 0) || p.getLsbD j) := by
    intro p k j b hk
    have hj : ∀ i : Fin 8, (i : Nat) < 8 := fun i => i.isLt
    cases b <;> by_cases h : j = k
    · subst h
      simp [hk, hj j]
    · have h1 : (j : Nat) ≠ k := fun e => h (Fin.ext e)
      by_cases h2 : (j : Nat) < k
      · simp [h, hj j, h2]
      · have h3 : (j : Nat) - k ≠ 0 := by omega
        simp [h, hj j, h2, h3]
    · subst h
      simp [hk, hj j]
    · have h1 : (j : Nat) ≠ k := fun e => h (Fin.ext e)
      by_cases h2 : (j : Nat) < k
      · simp [h, hj j, h2]
      · have h3 : (j : Nat) - k ≠ 0 := by omega
        simp [h, hj j, h2, h3]
  rw [Cell.setP, if_neg hk]
  exact key c.p k j b hk

/-- Another vector register is left alone. -/
theorem vreg_setV_ne (c : Cell) (v : Row) {r k : Fin 32} (h : k ≠ r) : (c.setV r v).vreg k = c.vreg k :=
  spGet_spPut_ne _ _ _ (fun e => h (Fin.ext e))

/-- The vector register written is read back. -/
theorem vreg_setV_self {c : Cell} (h : spWf 0 c.v = true) (r : Fin 32) (v : Row) : (c.setV r v).vreg r = v :=
  spGet_spPut_self h _ _

/-- Another tile row is left alone. -/
theorem tileRow_setTileRow_ne (c : Cell) (v : Row) {t r t' r' : Nat} (h : t' * 64 + r' ≠ t * 64 + r) :
    (c.setTileRow t r v).tileRow t' r' = c.tileRow t' r' := spGet_spPut_ne _ _ _ h

/-- The tile row written is read back. -/
theorem tileRow_setTileRow_self {c : Cell} (h : spWf 0 c.tiles = true) (t r : Nat) (v : Row) :
    (c.setTileRow t r v).tileRow t r = v := spGet_spPut_self h _ _

/-! The log and the trace: what they hold afterwards. -/

/-- R533: once the store has failed, an event is only counted. -/
theorem log_lost {s : State} (h : s.er.lost = true) (e : LogEntry) :
    s.log e = { s with er := { s.er with lostCount := satAdd32 s.er.lostCount 1 } } := by
  rw [State.log, if_pos h]

/-- R540: with its class masked, and the class not 15, an event leaves no trace. -/
theorem trace_masked {s : State} {cls : Nat} (h : s.ob.ctrl.getLsbD cls = false) (hc : cls ≠ 15) (event : Nat)
    (parcel q : Option Nat) (unit aux : Nat) (arg : W64) : s.trace cls event parcel q unit aux arg = s := by
  unfold State.trace
  dsimp only
  rw [if_pos]
  simp [h, hc]

/-- R540: with the trace neither running nor full, an event leaves no trace. -/
theorem trace_off {s : State} (h : s.ob.run = false) (hf : s.ob.full = false) (cls event : Nat)
    (parcel q : Option Nat) (unit aux : Nat) (arg : W64) : s.trace cls event parcel q unit aux arg = s := by
  unfold State.trace
  dsimp only
  rw [if_pos]
  simp [h, hf]

end Sys2Proof.Machine
end

