-- ==== Sys2Proof/Laws/Ops.lean ====
section
/-! SUPPORT. What the shared operations do, said once: how an instruction meets its cell, numbers and their bytes, a row and
its lanes, a write to stacked memory, and what passes when nothing waits. -/

namespace Sys2Proof.Machine

set_option maxRecDepth 20000

/-! An instruction meets its cell (R194, R197, R216). -/

/-- A cell that issues nothing, with no fault of this cycle on it, is left alone. -/
theorem issueLate_idle {h : Hdr} {s : State} (hi : s.issuing h.cell = false) (hf : ∀ e ∈ s.cyc.faulted, e.1 ≠ h.cell.val)
    (len : Nat) (ill : Bool) (uses : List (Fin 32)) (late : Cell → State → Option Nat) (act : Cell → State → State) :
    issueLate h len ill uses late act s = .next s := by
  have hn : s.cyc.faulted.find? (fun e => decide (e.1 = h.cell.val)) = none :=
    List.find?_eq_none.mpr fun e he => by simpa using hf e he
  simp only [issueLate, hi, if_true, State.lateFault, hn]
theorem issue_idle {h : Hdr} {s : State} (hi : s.issuing h.cell = false) (hf : ∀ e ∈ s.cyc.faulted, e.1 ≠ h.cell.val)
    (len : Nat) (ill : Bool) (uses : List (Fin 32)) (act : Cell → State → State) : issue h len ill uses act s = .next s :=
  issueLate_idle hi hf len ill uses _ act

/-- What lets an instruction of `len` bytes past its fetch and decode checks on its cell. -/
def PastFetch (h : Hdr) (len : Nat) (ill : Bool) (s : State) : Prop :=
  s.issuing h.cell = true ∧ (s.cell h.cell).pc < (s.cell h.cell).codeSize ∧
    ¬(len = 8 ∧ (s.cell h.cell).pc % 8 ≠ 0) ∧ ill = false ∧ h.resv = false ∧ (h.pn && decide (h.pg = 0)) = false

/-- Past those checks, a false guard only advances PC, an operand still to be written holds the instruction, and
otherwise it acts. -/
theorem issueLate_fetched {h : Hdr} {len : Nat} {ill : Bool} {s : State} (hf : PastFetch h len ill s)
    (uses : List (Fin 32)) (late : Cell → State → Option Nat) (act : Cell → State → State) :
    issueLate h len ill uses late act s =
      if (((s.cell h.cell).preg h.pg) != h.pn) = false then .next (s.setCell h.cell ((s.cell h.cell).retire len))
      else if uses.all (s.cell h.cell).regFree = false then .next s
      else .next (act (s.cell h.cell) s) := by
  obtain ⟨h1, h2, h3, h4, h5, h6⟩ := hf
  have h2' : ¬(s.cell h.cell).codeSize ≤ (s.cell h.cell).pc := Nat.not_le.mpr h2
  have h1' : ¬s.issuing h.cell = false := by rw [h1]; exact Bool.true_eq_false.mp
  have h4' : ¬(ill || h.resv || (h.pn && decide (h.pg = 0))) = true := by rw [h4, h5, h6]; decide
  exact (if_neg h1').trans ((if_neg h2').trans ((if_neg h3).trans (if_neg h4')))

/-- With its guard true and its operands written, an instruction acts. -/
theorem issueLate_acts {h : Hdr} {len : Nat} {ill : Bool} {s : State} {uses : List (Fin 32)} (hf : PastFetch h len ill s)
    (hg : ((s.cell h.cell).preg h.pg != h.pn) = true) (hu : uses.all (s.cell h.cell).regFree = true)
    (late : Cell → State → Option Nat) (act : Cell → State → State) :
    issueLate h len ill uses late act s = .next (act (s.cell h.cell) s) := by
  rw [issueLate_fetched hf, hg, hu]
  simp
theorem issue_acts {h : Hdr} {len : Nat} {ill : Bool} {s : State} {uses : List (Fin 32)} (hf : PastFetch h len ill s)
    (hg : ((s.cell h.cell).preg h.pg != h.pn) = true) (hu : uses.all (s.cell h.cell).regFree = true)
    (act : Cell → State → State) : issue h len ill uses act s = .next (act (s.cell h.cell) s) :=
  issueLate_acts hf hg hu _ act

/-- With its guard false, an instruction only advances PC. -/
theorem issue_skips {h : Hdr} {len : Nat} {ill : Bool} {s : State} {uses : List (Fin 32)} (hf : PastFetch h len ill s)
    (hg : ((s.cell h.cell).preg h.pg != h.pn) = false) (act : Cell → State → State) :
    issue h len ill uses act s = .next (s.setCell h.cell ((s.cell h.cell).retire len)) := by
  rw [issue, issueLate_fetched hf, if_pos hg]

/-- Whatever it meets, an instruction's command answers a next state. -/
theorem issueLate_answers (h : Hdr) (len : Nat) (ill : Bool) (uses : List (Fin 32)) (late : Cell → State → Option Nat)
    (act : Cell → State → State) (s : State) : ∃ t, issueLate h len ill uses late act s = .next t := by
  unfold issueLate
  dsimp only
  (repeat' split) <;> exact ⟨_, rfl⟩
theorem issue_answers (h : Hdr) (len : Nat) (ill : Bool) (uses : List (Fin 32)) (act : Cell → State → State) (s : State) :
    ∃ t, issue h len ill uses act s = .next t := issueLate_answers h len ill uses _ act s

/-- An instruction on its cell alone, past every check. -/
theorem cellOp_acts {h : Hdr} {len : Nat} {ill : Bool} {s : State} {uses : List (Fin 32)} (hf : PastFetch h len ill s)
    (hg : ((s.cell h.cell).preg h.pg != h.pn) = true) (hu : uses.all (s.cell h.cell).regFree = true) (f : Cell → Cell) :
    cellOp h len ill uses f s = .next (s.setCell h.cell ((f (s.cell h.cell)).retire len)) := issue_acts hf hg hu _

/-- An instruction that checks its operands, past every check of the issue. -/
theorem checkedOp_acts {h : Hdr} {len : Nat} {ill : Bool} {s : State} {uses : List (Fin 32)} (hf : PastFetch h len ill s)
    (hg : ((s.cell h.cell).preg h.pg != h.pn) = true) (hu : uses.all (s.cell h.cell).regFree = true)
    (f : Cell → State → Act) :
    checkedOp h len ill uses f s = .next ((f (s.cell h.cell) s).run h (s.cell h.cell) s) := issueLate_acts hf hg hu _ _

/-- What Safety calls ready is past those checks, with its guard true and its operands written. -/
theorem pastFetch_of_ready {h : Hdr} {len : Nat} {uses : List (Fin 32)} {s : State} (hr : Safety.Ready h len uses s) :
    PastFetch h len false s := by
  refine ⟨hr.issuing, hr.inCode, fun ⟨a, b⟩ => b (hr.aligned a), rfl, hr.noReserved, ?_⟩
  cases hp : h.pn with
  | false => rfl
  | true => simpa using hr.guardLegal hp

/-- A ready instruction acts. -/
theorem issueLate_ready {h : Hdr} {len : Nat} {uses : List (Fin 32)} {s : State} (hr : Safety.Ready h len uses s)
    (late : Cell → State → Option Nat) (act : Cell → State → State) :
    issueLate h len false uses late act s = .next (act (s.cell h.cell) s) := by
  refine issueLate_acts (pastFetch_of_ready hr) ?_ (List.all_eq_true.mpr hr.regsFree) late act
  simpa using hr.guardTrue
theorem issue_ready {h : Hdr} {len : Nat} {uses : List (Fin 32)} {s : State} (hr : Safety.Ready h len uses s)
    (act : Cell → State → State) : issue h len false uses act s = .next (act (s.cell h.cell) s) :=
  issueLate_ready hr _ act

/-- A ready instruction on its cell alone. -/
theorem cellOp_ready {h : Hdr} {len : Nat} {uses : List (Fin 32)} {s : State} (hr : Safety.Ready h len uses s)
    (f : Cell → Cell) : cellOp h len false uses f s = .next (s.setCell h.cell ((f (s.cell h.cell)).retire len)) :=
  issue_ready hr _

/-- A ready instruction that checks its operands. -/
theorem checkedOp_ready {h : Hdr} {len : Nat} {uses : List (Fin 32)} {s : State} (hr : Safety.Ready h len uses s)
    (f : Cell → State → Act) :
    checkedOp h len false uses f s = .next ((f (s.cell h.cell) s).run h (s.cell h.cell) s) := issueLate_ready hr _ _

/-- Retiring touches PC and the place in program order alone. -/
@[simp] theorem retire_pc (c : Cell) (len : Nat) : (c.retire len).pc = c.pc + len := rfl
@[simp] theorem retire_seq (c : Cell) (len : Nat) : (c.retire len).seq = c.seq + 1 := rfl
@[simp] theorem retire_greg (c : Cell) (len : Nat) (r : Fin 32) : (c.retire len).greg r = c.greg r := rfl
@[simp] theorem retire_preg (c : Cell) (len : Nat) (k : Fin 8) : (c.retire len).preg k = c.preg k := rfl
@[simp] theorem retire_vreg (c : Cell) (len : Nat) (r : Fin 32) : (c.retire len).vreg r = c.vreg r := rfl
@[simp] theorem retire_store (c : Cell) (len : Nat) : (c.retire len).store = c.store := rfl
@[simp] theorem retire_status (c : Cell) (len : Nat) : (c.retire len).status = c.status := rfl

/-! Numbers and their bytes. -/

@[simp] theorem length_leBytes (n v : Nat) : (leBytes n v).length = n := by
  induction n generalizing v with
  | zero => rfl
  | succ n ih => simp [leBytes, ih]

/-- The bytes of a number, read back: the number within its bytes. -/
theorem leNat_leBytes (n v : Nat) : leNat (leBytes n v) = v % 256 ^ n := by
  induction n generalizing v with
  | zero => simp [leBytes, leNat, Nat.mod_one]
  | succ n ih =>
    have hm : v % (256 * 256 ^ n) = v % 256 + 256 * (v / 256 % 256 ^ n) := Nat.mod_mul
    have hp : 256 ^ (n + 1) = 256 * 256 ^ n := by rw [Nat.pow_succ, Nat.mul_comm]
    rw [leBytes, leNat, ih, hp, hm]
    rfl

/-- A byte list's number is below 256 to its length. -/
theorem leNat_lt (bs : List Byte) : leNat bs < 256 ^ bs.length := by
  induction bs with
  | nil => simp [leNat]
  | cons b t ih =>
    have := b.isLt
    rw [leNat, List.length_cons, Nat.pow_succ]
    omega

/-- A number's bytes, of the bytes that make it. -/
theorem leBytes_leNat (bs : List Byte) : leBytes bs.length (leNat bs) = bs := by
  induction bs with
  | nil => rfl
  | cons b t ih =>
    have hb : b.toNat < 256 := b.isLt
    have h1 : (b.toNat + 256 * leNat t) / 256 = leNat t := by omega
    have h2 : BitVec.ofNat 8 (b.toNat + 256 * leNat t) = b := by
      apply BitVec.eq_of_toNat_eq
      rw [BitVec.toNat_ofNat]
      omega
    rw [List.length_cons, leBytes, leNat, h1, h2, ih]

/-! A row and its lanes (R246). -/

/-- A packed number is below 2^w to its length. -/
theorem packNat_lt (w : Nat) (l : List Nat) : packNat w l < 2 ^ (w * l.length) := by
  induction l with
  | nil => simp [packNat]
  | cons x t ih =>
    have hx : x % 2 ^ w < 2 ^ w := Nat.mod_lt _ (Nat.two_pow_pos w)
    have he : packNat w (x :: t) = x % 2 ^ w + 2 ^ w * packNat w t := rfl
    have hp : 2 ^ (w * (t.length + 1)) = 2 ^ w * 2 ^ (w * t.length) := by rw [← Nat.pow_add, Nat.mul_succ, Nat.add_comm]
    have hm : 2 ^ w * (packNat w t + 1) ≤ 2 ^ w * 2 ^ (w * t.length) := Nat.mul_le_mul_left _ ih
    rw [he, List.length_cons, hp]
    rw [Nat.mul_add] at hm
    omega

/-- Word i of a packed number. -/
theorem packNat_word (w : Nat) (l : List Nat) (i : Nat) (hi : i < l.length) :
    packNat w l / 2 ^ (w * i) % 2 ^ w = l[i] % 2 ^ w := by
  induction l generalizing i with
  | nil => cases hi
  | cons x t ih =>
    have he : packNat w (x :: t) = x % 2 ^ w + 2 ^ w * packNat w t := rfl
    cases i with
    | zero => simp [he]
    | succ i =>
      have hd : packNat w (x :: t) / 2 ^ w = packNat w t := by
        rw [he, Nat.add_mul_div_left _ _ (Nat.two_pow_pos w), Nat.div_eq_of_lt (Nat.mod_lt _ (Nat.two_pow_pos w)),
          Nat.zero_add]
      have hp : 2 ^ (w * (i + 1)) = 2 ^ w * 2 ^ (w * i) := by rw [← Nat.pow_add, Nat.mul_succ, Nat.add_comm]
      rw [hp, ← Nat.div_div_eq_div_mul, hd]
      exact ih i (by simpa using hi)

set_option exponentiation.threshold 4096 in
/-- A lane of a row made from 64 lanes is that lane. -/
theorem laneOf_rowOfLanes (l : List W32) (hl : l.length = 64) (i : Nat) (hi : i < 64) :
    laneOf (rowOfLanes l) i = l[i]'(by omega) := by
  have hn := packNat_lt 32 (l.map (·.toNat))
  rw [List.length_map, hl] at hn
  have hw := packNat_word 32 (l.map (·.toNat)) i (by simpa [hl] using hi)
  rw [List.getElem_map] at hw
  have hb : (l[i]'(by omega)).toNat < 2 ^ 32 := (l[i]'(by omega)).isLt
  apply BitVec.eq_of_toNat_eq
  rw [laneOf, BitVec.extractLsb'_toNat, Nat.shiftRight_eq_div_pow, rowOfLanes, BitVec.toNat_ofNat, Nat.mod_eq_of_lt hn, hw,
    Nat.mod_eq_of_lt hb]

/-! Stacked memory (R433, R434). -/

/-- A byte that no write of an access lands on reads as before. -/
theorem spGet_stackWrite (s : State) (p stks gran a : Nat) (bs : List Byte) (k : Nat)
    (h : ∀ i, i < bs.length → (s.parcel p).place stks gran (a + i) ≠ k) :
    spGet 0 (s.stackWrite p stks gran a bs).stk.mem k = spGet 0 s.stk.mem k := by
  have key : ∀ (l : List (Nat × Byte)) (m : Sparse Byte), (∀ e ∈ l, (s.parcel p).place stks gran (a + e.1) ≠ k) →
      spGet 0 (l.foldl (fun m e =>
        if (s.parcel p).inSpace ((s.parcel p).place stks gran (a + e.1)) ∧
            !s.stk.lost.getLsbD ((s.parcel p).place stks gran (a + e.1) / 2 ^ 36)
        then spPut 0 e.2 ((s.parcel p).place stks gran (a + e.1)) m else m) m) k = spGet 0 m k := by
    intro l
    induction l with
    | nil => intro m _; rfl
    | cons e t ih =>
      intro m hl
      rw [List.foldl_cons, ih _ (fun x hx => hl x (List.mem_cons_of_mem _ hx))]
      split
      · exact spGet_spPut_ne _ _ _ (Ne.symm (hl e List.mem_cons_self))
      · rfl
  refine key _ _ (fun e he => h e.1 ?_)
  have := (List.of_mem_zip he).1
  simpa using this

/-! What passes when nothing waits. -/

/-- With no CONTROL request waiting, none is taken. -/
theorem pump_quiet (s : State) (h : s.net.ctlOrder = []) : s.pump = s := by
  have e : ({ s with net := { s.net with ctlOrder := [] } } : State) = s := by rw [← h]
  rw [State.pump, h, List.foldl_nil, e]

/-- With no store waiting at the Welt, none is performed. -/
theorem runStores_quiet (s : State) (k : Option Nat) (h : s.host.stores = []) : s.runStores k = s := by
  have e : s.modHost (fun x => { x with stores := [] }) = s := by rw [State.modHost, ← h]
  rw [State.runStores, h, e]
  rfl

/-- Without the main rails, an idle step only closes the cycle. -/
theorem idle_off {s : State} (h : s.powered = false) : s.idle = { s with cyc := {} } := by
  have hp : State.powered { s with cyc := {} } = false := h
  simp only [State.idle, hp, Bool.not_false, if_true]

/-- A step with a command in front is its exec; with none, a hub-die cycle passes. -/
theorem step_cons (s : State) (c : Instr) (rest : List Instr) (h : s.pending = c :: rest) :
    step s = exec c { s with pending := rest } := by
  simp only [step, h]

theorem step_nil (s : State) (h : s.pending = []) : step s = .next s.idle := by
  simp only [step, h]

end Sys2Proof.Machine
end

