-- ==== Sys2Proof/Machine/Fetch.lean ====
section
/-! DEFINITION. What a cell fetches (R148, R194, R197): the command that the code of its graph spells at its PC. -/

namespace Sys2Proof.Machine

/-- R9, R148: the instruction word at a code offset, its bytes least significant first. -/
def CellGraph.wordAt (g : CellGraph) (pc : Nat) : Nat := leNat ((g.code.drop pc).take 4)

/-- R197: the command that cell n's code spells at its PC; none for a cell without a graph, and past the code's SIZE. -/
def State.nextCommand (s : State) (n : Fin 128) : Option Instr :=
  let c := s.cell n
  match c.graph with
  | some g => if g.size ≤ c.pc then none else some (decodeCell n (g.wordAt c.pc) (g.wordAt (c.pc + 4)))
  | none => none

end Sys2Proof.Machine
end

