-- ==== Sys2Proof/WellFormed.lean ====
section
/-! DEFINITION. Which commands are well formed: the operands that their types leave wider than the spec does. -/

namespace Sys2Proof

/-- R23, R555: a BAR0 access of 1 to 8 bytes that starts inside the 32 MiB of BAR0; R23 answers one of another width than 4
or 8, or not aligned. -/
def accessOk (off width : Nat) : Bool := decide (1 ≤ width) && decide (width ≤ 8) && decide (off < 2 ^ 25)

/-- A list without repeats. -/
def distinct {α : Type} [DecidableEq α] (l : List α) : Bool := decide l.Nodup

/-- R361: a line is 64 bytes. -/
def HostAnswer.wellFormed : HostAnswer → Bool
  | .line b | .owned b | .poison b => decide (b.length = 64)
  | .error => true

/-- R482: a pseudo-channel is one of 32, the Welt one; the failing words carry bits below 64. -/
def TestFind.wellFormed (f : TestFind) : Bool := f.fails.all (fun e => decide (e.2 < 64))

/-- R382: a packet number has 64 bits. -/
def Frame.wellFormed (f : Frame) : Bool :=
  match f.tag with
  | some t => decide (t.pn < 2 ^ 64)
  | none => true

/-- R477: each unit has one sample. -/
def Sample.wellFormed (m : Sample) : Bool :=
  distinct (m.cells.map (·.1)) && distinct (m.stks.map (·.1)) && distinct (m.hub.map (·.1)) &&
    distinct (m.vr.map (·.1)) && distinct (m.filtered.map (·.1))

/-- Whether a command's operands lie within what the spec gives them. -/
def Instr.wellFormed : Instr → Bool
  | .registerWrite _ off width v => accessOk off width && decide (v.toNat < 2 ^ (8 * width))
  | .lowerHalfRead _ off _ => accessOk off 4
  | .bar0Read _ off width _ => accessOk off width
  | .launchDescriptorRead _ _ desc _ _ => decide (desc.length = 64)
  | .msixMessage _ v | .msixVectorUnmask _ v => decide (v < 2048)
  | .hostSnoop _ addr => decide (addr % 64 = 0) && decide (addr < 2 ^ 52)
  | .hostResponse addr a _ => decide (addr < 2 ^ 52) && a.wellFormed
  | .linkUp width speed _ _ => decide (1 ≤ width) && decide (width ≤ 16) && decide (1 ≤ speed) && decide (speed ≤ 6)
  | .surveyTestEnd _ f _ | .surveyAbandon _ f _ => f.wellFormed
  | .sensorSample _ m => m.wellFormed
  | .powerOn sense => decide (sense.length ≤ 2)
  | .stackTraining fails => distinct fails
  | .scrubRead _ sector _ => decide (sector < 3 * 2 ^ 29)
  | .stackLost _ _ cause => decide (1 ≤ cause.toNat) && decide (cause.toNat ≤ 6)
  | .oscillatorMeasure drifts => distinct (drifts.map (·.1))
  | .frameReceive _ f => f.wellFormed
  | .marginPassEnd results => decide (results.length = 1024)
  | _ => true

end Sys2Proof
end

