-- ==== Sys2Proof/Tests/Slice0.lean ====
section
/-! SUPPORT. Small tests: an ill-formed command for each check of well-formedness, results worked out by hand from the rules
of spec/, and for every statement with hypotheses a state and operands that meet them, at the boundaries of its clauses. -/

namespace Sys2Proof.Tests

open Sys2Proof Sys2Proof.Machine Sys2Proof.Safety

set_option Elab.async false
set_option maxRecDepth 20000
set_option exponentiation.threshold 4096

/-! Well-formedness: each check refuses a term, and passes its neighbour. -/

theorem test_wf_register_access :
    (Instr.registerWrite (.fn 0) 0 4 0xFFFFFFFF).wellFormed = true ∧
    (Instr.registerWrite (.fn 0) 0 4 0x100000000).wellFormed = false ∧
    (Instr.registerWrite (.fn 0) 0x2000000 4 0).wellFormed = false ∧
    (Instr.bar0Read 0 0x1FFFFFC 4 false).wellFormed = true ∧ (Instr.bar0Read 0 0 0 false).wellFormed = false ∧
    (Instr.bar0Read 0 0 9 false).wellFormed = false ∧ (Instr.lowerHalfRead (.fn 0) 0x2000000 false).wellFormed = false := by
  decide

theorem test_wf_host_side :
    (Instr.launchDescriptorRead 0 0 (List.replicate 64 0) [] ⟨false, 0⟩).wellFormed = true ∧
    (Instr.launchDescriptorRead 0 0 (List.replicate 63 0) [] ⟨false, 0⟩).wellFormed = false ∧
    (Instr.msixMessage 0 2047).wellFormed = true ∧ (Instr.msixMessage 0 2048).wellFormed = false ∧
    (Instr.msixVectorUnmask 0 2048).wellFormed = false ∧ (Instr.hostSnoop .cur 64).wellFormed = true ∧
    (Instr.hostSnoop .cur 65).wellFormed = false ∧ (Instr.hostSnoop .cur (2 ^ 52)).wellFormed = false ∧
    (Instr.hostResponse 0 .error 0).wellFormed = true ∧ (Instr.hostResponse (2 ^ 52) .error 0).wellFormed = false ∧
    (Instr.hostResponse 0 (.line [1]) 0).wellFormed = false ∧ (Instr.linkUp 16 6 true true).wellFormed = true ∧
    (Instr.linkUp 0 6 true true).wellFormed = false ∧ (Instr.linkUp 17 6 true true).wellFormed = false ∧
    (Instr.linkUp 16 0 true true).wellFormed = false ∧ (Instr.linkUp 16 7 true true).wellFormed = false := by
  decide

/-- A sample of two cells. -/
def twoCells (a b : Fin 128) : Sample :=
  { cells := [(a, 0), (b, 0)], stks := [], hub := [], vr := [], cool := none, power := none, filtered := [] }

theorem test_wf_environment :
    (Instr.sensorSample 0 (twoCells 0 1)).wellFormed = true ∧ (Instr.sensorSample 0 (twoCells 1 1)).wellFormed = false ∧
    (Instr.powerOn [(true, true, true), (true, true, true)]).wellFormed = true ∧
    (Instr.powerOn [(true, true, true), (true, true, true), (true, true, true)]).wellFormed = false ∧
    (Instr.scrubRead 0 (3 * 2 ^ 29 - 1) .clean).wellFormed = true ∧ (Instr.scrubRead 0 (3 * 2 ^ 29) .clean).wellFormed = false ∧
    (Instr.stackLost 0 0 6).wellFormed = true ∧ (Instr.stackLost 0 0 0).wellFormed = false ∧
    (Instr.stackLost 0 0 7).wellFormed = false ∧ (Instr.oscillatorMeasure [(0, 1), (1, 1)]).wellFormed = true ∧
    (Instr.oscillatorMeasure [(0, 1), (0, 2)]).wellFormed = false := by
  decide

theorem test_wf_margin_results :
    (Instr.marginPassEnd (List.replicate 1024 0)).wellFormed = true ∧
    (Instr.marginPassEnd (List.replicate 1023 0)).wellFormed = false := by decide +kernel

/-! A cell that runs an instance, and its operands. -/

/-- The fields of an instruction of cell 0 with no guard. -/
def hdr : Hdr := ⟨0, false, 0, false⟩

/-- A graph of one cell, 16 bytes of code. -/
def cg : CellGraph := ⟨0, 0, 0, 1, 0, 0, 16, 65536, 0xFFFF, []⟩

/-- A doorbell's request with a HOST, a STORE (cell 5) and a STACK window. -/
def req0 : Request :=
  { src := .bell 0 0, tag := 7, stamp := 0, ctx := 0, noirq := false, ready := true, pb := []
    windows := [⟨1, 4096, 1024, true, true, 0, 0, 0⟩, ⟨3, 2 ^ 47 + 5 * 2 ^ 23, 1024, true, true, 1, 0, 0⟩,
      ⟨2, 2 ^ 30, 1024, true, true, 2, 1, 0⟩]
    carried := 0, timeout := 10, segs := [], unbound := false }

/-- A running instance on cell 0. -/
def inst0 : Inst :=
  { parcel := 0, q := 0, slot := 0, replica := 0, cells := [0], task := none, req := some req0, running := true
    entry := false, start := 0, lines := 0, sectors := [], excess := false, overrun := false, thermal := false
    slowHost := false, removing := false, released := false }

/-- Cell 0, where it issues. -/
def cell0 : Cell := { inst := some 0, graph := some cg, parcel := some 0 }

/-- The machine with cell 0 as given and the instance on it. -/
def on (c : Cell) : State := { cells := [(0, c)], insts := [(0, some inst0)] }

/-- Ready on registers none of which is still to be written. -/
theorem test_ready : Ready hdr 4 [1, 2, 3] (on cell0) ∧ Ready hdr 8 [1, 2, 3] (on cell0) ∧ Ready hdr 4 [] (on cell0) ∧
    Ready hdr 4 [2, 1, 1] (on cell0) ∧ Ready hdr 4 [31] (on cell0) :=
  ⟨⟨by decide, by decide, by decide, by decide, by decide, by decide, by decide⟩,
    ⟨by decide, by decide, by decide, by decide, by decide, by decide, by decide⟩,
    ⟨by decide, by decide, by decide, by decide, by decide, by decide, by decide⟩,
    ⟨by decide, by decide, by decide, by decide, by decide, by decide, by decide⟩,
    ⟨by decide, by decide, by decide, by decide, by decide, by decide, by decide⟩⟩

/-! Results worked out from R198 to R205, on one step each. -/

/-- g1 of the cell after one command. -/
def g1After (i : Instr) (s : State) : Option W64 :=
  match exec i s with | .next t => some ((t.cell 0).greg 1) | _ => none

/-- cs.status after one command. -/
def statusAfter (i : Instr) (s : State) : Option W64 :=
  match exec i s with | .next t => some (t.cell 0).status | _ => none

/-- The cell with g1, g2 and g3. -/
def regs (a b c : W64) : Cell := { cell0 with g := [(1, a), (2, b), (3, c)] }

theorem test_add_w_wraps : g1After (.add hdr true 1 2 3) (on (regs 1 0x7FFFFFFF 1)) = some 0xFFFFFFFF80000000 := by decide
theorem test_sub_is_rs1_less_rs2 : g1After (.sub hdr false 1 2 3) (on (regs 9 5 7)) = some 0xFFFFFFFFFFFFFFFE := by decide
theorem test_andn : g1After (.andn hdr 1 2 3) (on (regs 9 0xFF 0x0F)) = some 0xF0 := by decide
theorem test_srl_w : g1After (.srl hdr true 1 2 3) (on (regs 9 0xFFFFFFFF80000000 31)) = some 1 := by decide
theorem test_sra_past_width : g1After (.sra hdr false 1 2 3) (on (regs 9 0x8000000000000000 64)) = some (-1) := by decide
theorem test_mulh_signed : g1After (.mulh hdr 1 2 3) (on (regs 9 (-1) 1)) = some (-1) := by decide
theorem test_mulhu : g1After (.mulhu hdr 1 2 3) (on (regs 9 (-1) (-1))) = some 0xFFFFFFFFFFFFFFFE := by decide
theorem test_div_by_zero : g1After (.div hdr false 1 2 3) (on (regs 9 5 0)) = some (-1) ∧
    statusAfter (.div hdr false 1 2 3) (on (regs 9 5 0)) = some 2 := by decide
theorem test_div_rounds_to_zero : g1After (.div hdr false 1 2 3) (on (regs 9 (-7) 2)) = some (-3) := by decide
theorem test_rem_sign : g1After (.rem hdr false 1 2 3) (on (regs 9 (-7) 2)) = some (-1) := by decide
theorem test_div_overflow : g1After (.div hdr true 1 2 3) (on (regs 9 0x80000000 (-1))) = some 0xFFFFFFFF80000000 ∧
    statusAfter (.div hdr true 1 2 3) (on (regs 9 0x80000000 (-1))) = some 1 := by decide
theorem test_clz : g1After (.clz hdr 1 2) (on (regs 9 0x10 1)) = some 59 := by decide
theorem test_popc : g1After (.popc hdr 1 2) (on (regs 9 0xF0F 1)) = some 8 := by decide
theorem test_addi_negative : g1After (.addi hdr 1 2 0x7FF) (on (regs 9 5 1)) = some 4 := by decide
theorem test_lui : g1After (.lui hdr 1 0x8000) (on (regs 9 5 1)) = some 0xFFFFFFFF80000000 := by decide
theorem test_lih_keeps_low : g1After (.lih hdr 1 0x12345678) (on (regs 0xFFFFFFFF00000009 5 1)) = some 0x1234567800000009 := by
  decide
theorem test_g0_discards : (match exec (.addi hdr 0 2 5) (on (regs 9 5 1)) with
    | .next t => decide ((t.cell 0).greg 0 = 0) && decide ((t.cell 0).pc = 4) | _ => false) = true := by decide
theorem test_false_guard_passes : (match exec (.addi { hdr with pg := 3 } 1 2 5) (on (regs 9 5 1)) with
    | .next t => decide ((t.cell 0).greg 1 = 9) && decide ((t.cell 0).pc = 4) | _ => false) = true := by decide
theorem test_reserved_field_faults : (match exec (.addi { hdr with resv := true } 1 2 5) (on (regs 9 5 1)) with
    | .next t => decide ((t.cell 0).faultCause = 1) && decide (t.inst 0 = none) | _ => false) = true := by decide +kernel

/-- The own store holds 1, 2, …, 16 from address 0; g2 is the address given. -/
def stored (a : W64) : Cell :=
  { regs 9 a 0xAABBCCDD11223344 with
    store := [(0, 1), (1, 2), (2, 3), (3, 4), (4, 5), (5, 6), (6, 7), (7, 0x88), (8, 9)] }

theorem test_lw_little_endian : g1After (.lw hdr 1 2 1) (on (stored 0)) = some 0xFFFFFFFF88070605 := by decide
theorem test_lbu : g1After (.lbu hdr 1 2 7) (on (stored 0)) = some 0x88 := by decide
theorem test_lb_extends : g1After (.lb hdr 1 2 7) (on (stored 0)) = some 0xFFFFFFFFFFFFFF88 := by decide
theorem test_ld_scaled : g1After (.ld hdr 1 2 0xFF) (on (stored 8)) = some 0x8807060504030201 := by decide
theorem test_misaligned_load_faults : (match exec (.lw hdr 1 2 0) (on (stored 2)) with
    | .next t => decide ((t.cell 0).faultCause = 2) | _ => false) = true := by decide +kernel
theorem test_amoadd_returns_old : (match exec (.amoadd hdr false 1 2 3) (on (stored 0)) with
    | .next t => decide ((t.cell 0).greg 1 = 0x04030201) && decide (leNat ((t.cell 0).loadOwn 0 4) = 0x15253545)
    | _ => false) = true := by decide
theorem test_store_waits_in_buffer : (match exec (.sh hdr 3 2 1) (on (stored 0)) with
    | .next t => decide ((t.cell 0).sbuf.map (fun e => (e.addr, e.bytes)) = [(2, [0x44, 0x33])]) &&
        decide ((t.cell 0).loadOwn 2 2 = [3, 4])
    | _ => false) = true := by decide

/-! Instruction words written out from the tables and worked examples of spec/07, 08 and 10. -/

theorem test_decode_addi : decodeCell 3 0xA28FFF02 0 = .addi ⟨3, true, 2, false⟩ 5 3 0x7FE := by decide
theorem test_decode_mma : decodeCell 3 0x00433266 0 = .mma ⟨3, false, 0, false⟩ 0 4 3 3 0 true none := by decide
theorem test_decode_agath : decodeCell 3 0x0018042A 0 = .agath ⟨3, false, 0, false⟩ 6 1 := by decide
theorem test_decode_tld : decodeCell 3 0x03214061 0x97 = .tld ⟨3, false, 0, false⟩ 3 4 5 (some ⟨2, 23⟩) := by decide
/-- R196, R198: a reserved MAJOR, a reserved FUNC and a W where an operation has none are reserved fields. -/
theorem test_decode_reserved : decodeCell 3 (0x0A * 2) 0 = .add ⟨3, false, 0, true⟩ false 0 0 0 ∧
    decodeCell 3 (0x18 * 128) 0 = .add ⟨3, false, 0, true⟩ false 0 0 0 ∧
    decodeCell 3 (0x22 * 128) 0 = .andR ⟨3, false, 0, true⟩ 0 0 0 ∧ decodeCell 3 0x7F 0 = .li ⟨3, false, 0, true⟩ 0 0 := by decide
/-- R194, R197: the word at PC 4 of a cell's code, least significant byte first. -/
theorem test_next_command : ({ cells := [(3, { cell0 with
    pc := 4, graph := some { cg with code := List.replicate 4 0 ++ leBytes 4 0xA28FFF02 ++ List.replicate 8 0 } })] } : State).nextCommand 3 =
      some (.addi ⟨3, true, 2, false⟩ 5 3 0x7FE) := by decide

/-! Witnesses: cells, memory and instructions (statements IdleStepIsOneCycle to LongOperationsComplete). -/

/-- A running device with nothing on it. -/
def running : State := { dev := .running }

theorem test_wit_idle : State.reset.pending = [] ∧ State.reset.powered = false ∧ running.pending = [] ∧
    running.powered = true ∧ (running.cell 127).gated = true ∧ running.testing 127 = false := by decide

theorem test_wit_registers : spWf 0 (regs 1 2 3).g = true ∧ (31 : Fin 32) ≠ 0 ∧ (7 : Fin 8) ≠ 0 ∧
    spWf 0 ({ v := [(0, 1), (31, 2)] } : Cell).v = true ∧ spWf Cell.zero (on cell0).cells = true := by decide

theorem test_wit_compare : (6 : BitVec 3) ≠ 7 ∧ (0 : BitVec 3) ≠ 7 ∧ 63 < 64 := by decide

/-- The cell with an address in g2. -/
def addr (a : W64) : Cell := regs 0 a 0

/-- Window w of the request, at an offset. -/
def win (w off : Nat) : W64 := BitVec.ofNat 64 (w * 2 ^ 52 + off)

/-- A buffered store of the own store's bytes 0 to 7. -/
def buffered : SbEntry := { target := none, addr := 0, bytes := [1, 2, 3, 4, 5, 6, 7, 8], pc := 0, seq := 0 }

theorem test_wit_load_own : (addr 65528).loadOut = false ∧ (on (addr 65528)).resolve 0 65528 8 true false = .own 65528 ∧
    (addr 65528).storeBad 65528 8 = false ∧ NoOverlap (addr 65528) 0 none 65528 8 ∧
    (on (addr 65532)).resolve 0 65536 4 true false = .outside :=
  ⟨by decide, by decide, by decide, fun _ h => (List.not_mem_nil h).elim, by decide⟩

theorem test_wit_load_forwarded :
    let c : Cell := { addr 4 with sbuf := [buffered] }
    (on c).resolve 0 4 4 true false = .own 4 ∧ Contained c 0 none 4 4 [5, 6, 7, 8] :=
  ⟨by decide, [], buffered, [], by decide, fun _ h => (List.not_mem_nil h).elim, by decide, by decide, by decide, by decide⟩

theorem test_wit_load_forwarded_outside :
    let c : Cell := { addr (win 2 0) with sbuf := [{ buffered with target := some (.storeSeg 5) }] }
    (on c).resolve 0 (win 2 0) 8 true false = .ext (.storeSeg 5) 0 ∧
      Contained c 0 (some (.storeSeg 5)) 0 8 [1, 2, 3, 4, 5, 6, 7, 8] :=
  ⟨by decide, [], { buffered with target := some (.storeSeg 5) }, [], by decide, fun _ h => (List.not_mem_nil h).elim, by decide,
    by decide, by decide, by decide⟩

theorem test_wit_load_outside :
    (on (addr (win 2 1016))).resolve 0 (win 2 1016) 8 true false = .ext (.storeSeg 5) 1016 ∧
    (on (addr (win 3 0))).resolve 0 (win 3 0) 8 true false = .ext (.stack 1 0) (2 ^ 30) ∧
    NoOverlap (addr (win 2 1016)) 0 (some (.storeSeg 5)) 1016 8 ∧ (ExtTarget.storeSeg 5) ≠ .host :=
  ⟨by decide, by decide, fun _ h => (List.not_mem_nil h).elim, by decide⟩

/-- A line of the Welt. -/
def line0 : WLine := ⟨.e, List.replicate 64 7, false, 0, 0⟩

/-- The machine with the line at host address 4096. -/
def withLine (c : Cell) : State := { on c with host := { lines := [(64, some line0)] } }

theorem test_wit_load_host :
    (withLine (addr (win 1 56))).resolve 0 (win 1 56) 8 true false = .ext .host 4152 ∧
    NoOverlap (addr (win 1 56)) 0 (some .host) 4152 8 ∧
    (withLine (addr (win 1 56))).weltServe 4152 8 false = some (List.replicate 8 7, false) ∧
    (on (addr (win 1 56))).weltServe 4152 8 false = none ∧ (on (addr (win 1 56))).weltRoom 0 = true :=
  ⟨by decide, fun _ h => (List.not_mem_nil h).elim, by decide, by decide, by decide⟩

theorem test_wit_store : (addr 65535).sbuf.length < 8 ∧ (addr 65535).sweep = none ∧
    (on (addr 65535)).resolve 0 65535 1 false true = .own 65535 ∧
    (on (addr (win 1 1023))).resolve 0 (win 1 1023) 1 false true = .ext .host 5119 := by decide

theorem test_wit_drain :
    let c : Cell := { addr 0 with sbuf := [buffered] }
    let d : Cell := { addr 0 with sbuf := [{ buffered with target := some (.stack 1 0) }] }
    ((on c).cell 0).sbuf = [buffered] ∧ c.olderLoad buffered.seq = false ∧ spWf Cell.zero (on c).cells = true ∧
    spWf 0 c.store = true ∧ (d.sbuf.map (·.target)) = [some (.stack 1 0)] ∧ ExtTarget.stack 1 0 ≠ .host := by decide

theorem test_wit_atomic : (addr 65528).sbuf = [] ∧ (addr 65528).loadOut = false ∧
    (on (addr 65528)).resolve 0 65528 8 true true = .own 65528 ∧ (addr 65528).storeBad 65528 8 = false ∧
    (on (addr (win 3 1020))).resolve 0 (win 3 1020) 4 true true = .ext (.stack 1 0) (2 ^ 30 + 1020) := by decide

/-- A load of another cell's store that is out. -/
def outLoad : ExtAcc := { kind := .load 1 8 false, target := .replica 5, addr := 0, pc := 0, seq := 0 }

theorem test_wit_external :
    let c : Cell := { cell0 with ext := [outLoad] }
    let d : Cell := { cell0 with
      ext := [{ outLoad with kind := .store }], sbuf := [{ buffered with target := some (.replica 5) }] }
    ((on c).cell 0).ext = [] ++ outLoad :: [] ∧ c.gone = [] ∧ (5 : Fin 128) ≠ 0 ∧ (on c).bankTested 5 outLoad.addr = false ∧
    spWf Cell.zero (on c).cells = true ∧ ((on c).cell 5).storeBad 0 8 = false ∧
    (d.sbuf.map (·.target)) = [some outLoad.target] ∧ spWf Cell.zero (on d).cells = true := by decide

theorem test_wit_control : ((12 : Nat) : Int) = (cell0.pc : Int) + (3 : BitVec 21).toInt * 4 ∧ 12 % 4 = 0 ∧
    12 < cell0.codeSize ∧ ((regs 0 0 0).greg 1 + BitVec.ofInt 64 ((3 : BitVec 11).toInt * 4)).toNat = 12 ∧
    cell0.sbuf = [] ∧ cell0.sweep = none ∧ ({ cell0 with sbuf := [buffered] } : Cell).sbuf ≠ [] ∧
    (0x5F : Byte).getLsbD 5 = false ∧ (0x5F : Byte).getLsbD 7 = false := by decide

/-- UWAIT on the array unit with nothing there, and with a command there. -/
theorem test_wit_uwait :
    (∀ k u, (k, u) ∈ [(0, UnitId.array), (1, .mv), (2, .cag), (3, .vec), (4, .tmove)] →
      (0x41 : Byte).getLsbD k = true → cell0.queue u = []) ∧
    ({ cell0 with queues := [(0, [⟨.accz, 0, 0⟩])] } : Cell).queue .array ≠ [] := by
  refine ⟨?_, by decide⟩
  intro k u h _
  simp only [List.mem_cons, Prod.mk.injEq, List.not_mem_nil, or_false] at h
  rcases h with ⟨_, rfl⟩ | ⟨_, rfl⟩ | ⟨_, rfl⟩ | ⟨_, rfl⟩ | ⟨_, rfl⟩ <;> rfl

/-- Two cells of one instance; the second as given. -/
def pair (w : CellWait) (x : Inst) : State :=
  { cells := [(0, cell0), (1, { cell0 with wait := w })], insts := [(0, some { x with cells := [0, 1] })] }

theorem test_wit_end :
    (pair .run inst0).instOn 0 = some (0, { inst0 with cells := [0, 1] }) ∧ inst0.task = none ∧
    ((pair .run inst0).cell 0).quietForQueue = true ∧ spWf Cell.zero (pair .run inst0).cells = true ∧
    spWf none (pair .run inst0).insts = true ∧
    (∃ n ∈ [0, 1], n ≠ hdr.cell.val ∧ ((pair .run inst0).cell n).wait ≠ .atEnd) ∧
    (∀ n ∈ [0, 1], n ≠ hdr.cell.val → ((pair .atEnd inst0).cell n).wait = .atEnd) ∧
    inst0.req.map (·.src) = some (.bell 0 0) := by decide

theorem test_wit_waitq :
    let x : Inst := { inst0 with task := some 0 }
    (pair .run x).instOn 0 = some (0, { x with cells := [0, 1] }) ∧ x.task ≠ none ∧
    ((pair .run x).cell 1).wait = .run ∧ ((pair (.atWaitq 3) x).cell 1).wait = .atWaitq 3 ∧ x.removing = false ∧
    ((pair .run x).parcel 0).inCompute = false ∧ ((pair .run x).cell 0).quietForQueue = true := by decide

theorem test_wit_ready_pair : Ready hdr 4 [] (pair .run inst0) ∧ Ready hdr 4 [3] (pair .run { inst0 with task := some 0 }) :=
  ⟨⟨by decide, by decide, by decide, by decide, by decide, by decide, by decide⟩,
    ⟨by decide, by decide, by decide, by decide, by decide, by decide, by decide⟩⟩

/-- VCOPY of 256 bytes, of no bytes, and lines of host memory both ways. -/
def longAt (count a b : W64) : Cell := regs count a b

theorem test_wit_vcopy :
    (on (longAt 256 0 256)).rangesMeet 0 0 256 256 = false ∧ (on (longAt 256 0 256)).winKind 0 0 = .own ∧
    (on (longAt 256 0 256)).reachable 0 0 256 true false = true ∧
    (on (longAt 256 0 256)).reachable 0 256 256 false true = true ∧ ((longAt 256 0 256).queue .vec).length < 4 ∧
    (on (longAt 0 0 0)).rangesMeet 0 0 0 0 = false ∧ Ready hdr 4 [1, 2, 3] (on (longAt 256 0 256)) :=
  ⟨by decide, by decide, by decide, by decide, by decide, by decide,
    ⟨by decide, by decide, by decide, by decide, by decide, by decide, by decide⟩⟩

/-- The cell's parcel with a graph of one pointer. -/
def withPtr (c : Cell) : State :=
  { withLine c with parcels := [(0, { slots := [(0, { ptrs := [⟨0, 0, 0, true, true⟩] })] })] }

theorem test_wit_hsweep :
    let s := withPtr (longAt 64 (win 1 0) 128)
    let t := withPtr (longAt 64 128 (win 1 0))
    s.winKind 0 (win 1 0) = .pointer 1 ∧ s.winKind 0 128 = .own ∧ s.resolve 0 (win 1 0) 64 true false = .ext .host 4096 ∧
    s.resolve 0 128 64 false true = .own 128 ∧ s.line (4096 / 64) = some line0 ∧ line0.poison = false ∧
    t.winKind 0 128 = .own ∧ t.winKind 0 (win 1 0) = .pointer 1 ∧ t.resolve 0 128 64 true false = .own 128 ∧
    t.resolve 0 (win 1 0) 64 false true = .ext .host 4096 ∧ line0.st ≠ .s ∧ s.host.dead = false ∧ s.host.stores = [] ∧
    (longAt 64 0 0).ext = [] ∧ spWf Cell.zero s.cells = true := by decide

/-! Witnesses: vectors, tiles and units (LanesComplete to IntegerFormats). -/

theorem test_wit_vcvt : fmtOf 3 = some .int8 ∧ fmtOf 10 = some .fp32 ∧ rndOf 0 = some .rne ∧
    (0 : BitVec 3).toNat < 2048 / (64 * max Fmt.int8.bits Fmt.fp32.bits) := by decide

theorem test_wit_vld : let c := regs 65280 0 0
    (c.greg 1 + BitVec.ofInt 64 ((0 : Byte).toInt * 256)).toNat % 128 = 0 ∧ OwnRange c 65280 256 ∧ c.loadOut = false ∧
    NoOverlap c 0 none 65280 256 ∧ c.storeBad 65280 256 = false ∧ c.sbuf = [] ∧ Ready hdr 4 [1] (on c) :=
  ⟨by decide, ⟨by decide, by decide⟩, by decide, fun _ h => (List.not_mem_nil h).elim, by decide, by decide,
    ⟨by decide, by decide, by decide, by decide, by decide, by decide, by decide⟩⟩

theorem test_wit_group : Group cell0 15 1 ∧ Group cell0 12 4 ∧ Group cell0 0 4 ∧ cell0.tilesFree (2 ^ 15) (2 ^ 15) = true ∧
    cell0.tileBad 15 63 1 32 = false :=
  ⟨⟨by decide, by decide⟩, ⟨by decide, by decide⟩, ⟨by decide, by decide⟩, by decide, by decide⟩

theorem test_wit_shapes : ShapeIs cell0 3 (some ⟨7, 63⟩) 64 8 8 ∧
    ShapeIs { cell0 with fixedMode := true, tshape := [0x01FF000000000000] } 3 none 64 8 4 :=
  ⟨.inl ⟨by decide, ⟨7, 63⟩, by decide⟩, .inr (by decide)⟩

theorem test_wit_tile_move : let c := regs 256 256 0
    (c.greg 1).toNat % 32 = 0 ∧ OwnRange c 256 256 ∧ OwnRange c ((64 - 1) * (256 : W64).toNat + 32 * 8 : Nat) 1 ∧
    UnitFree c .tmove (.tld 3 256 256 64 8) ∧ UnitFree c .tmove (.tcopy 3 4) ∧ (3 : Fin 16) ≠ 4 ∧
    Ready hdr 8 [1, 2] (on c) :=
  ⟨by decide, ⟨by decide, by decide⟩, ⟨by decide, by decide⟩, ⟨by decide, by decide⟩, ⟨by decide, by decide⟩, by decide,
    ⟨by decide, by decide, by decide, by decide, by decide, by decide, by decide⟩⟩

theorem test_wit_array_commands : UnitFree cell0 .array .accz ∧ (pairOf 3 3).isSome = true ∧
    UnitFree cell0 .array (.mma 0 12 3 3 0 true 64 0) ∧ fmtOf 11 = some .int32 ∧
    UnitFree cell0 .array (.accmv 0 11 0 none 64) ∧ (2 : BitVec 2) ≠ 3 ∧ (0 : BitVec 2).toNat < arrGroup cell0.arr ∧
    UnitFree (regs 0 0 0) .cag (.cagset 0) ∧ OwnRange (regs 0 0 0) 0 64 :=
  ⟨⟨by decide, by decide⟩, by decide, ⟨by decide, by decide⟩, by decide, ⟨by decide, by decide⟩, by decide, by decide,
    ⟨by decide, by decide⟩, ⟨by decide, by decide⟩⟩

theorem test_wit_conv_mvm : let c : Cell := { regs (2 ^ 40 * 225) 64 0 with cagv := true }
    bits (c.greg 1).toNat 40 8 = 225 ∧ bits (c.greg 1).toNat 48 16 % 32 = 0 ∧ (c.greg 2).toNat = 64 ∧
    UnitFree c .array (.conv 12 0 0 225 0 64 0 false 0) ∧
    OwnRange (regs 0 0 0) 0 (2 * 128 * 128) ∧ OwnRange (regs 0 0 0) 0 (1 * (4 / 2) * 32768) ∧
    UnitFree (regs 0 0 0) .mv (.mvm 0 0 0 true true false 4 1) :=
  ⟨by decide, by decide, by decide, ⟨by decide, by decide⟩, ⟨by decide, by decide⟩, ⟨by decide, by decide⟩,
    ⟨by decide, by decide⟩⟩

theorem test_wit_commit :
    let q (cmd : UnitCmd) : QCmd := ⟨cmd, 0, 0⟩
    let c : Cell := { cell0 with queues := [(4, [q (.tld 0 0 256 64 8)])] }
    c.queue .tmove = [q (.tld 0 0 256 64 8)] ∧ spWf 0 c.tiles = true ∧ spWf [] c.queues = true ∧
    (∀ r, r < 64 → c.storeBad (r * 256) 256 = false) ∧ c.tileBad 0 0 1 32 = false ∧ c.tileBad 0 0 64 32 = false ∧
    spWf Cell.zero (on c).cells = true := by decide

theorem test_wit_array_sum : spWf 0 cell0.acc = true ∧ pairOf 3 4 = some (8, false) ∧ fmtOf 3 = some .int8 ∧ fmtOf 4 = some .uint8 ∧
    (3 : BitVec 2).toNat < arrGroup 2 ∧ (2 : BitVec 2) ≠ 3 := by decide

theorem test_wit_formats : (Fmt.uint8, 8) ∈ [(Fmt.uint4, 4), (.uint8, 8)] ∧ 255 < 2 ^ 8 ∧
    (Fmt.int32, 32) ∈ [(Fmt.int4, 4), (.int8, 8), (.int32, 32)] ∧ 0xFFFFFFFF < 2 ^ 32 ∧ 128 ≤ 128 := by decide

/-- R257: the lowest int8 and the highest uint8. -/
theorem test_int8_value : intValue .int8 0x80 = -128 ∧ intValue .uint8 0xFF = 255 := by decide

/-- R247, R200: a lane shift by 32 gives zero; a saturating add clamps and sets VSAT. -/
theorem test_vadds_saturates : (match exec (.vadds hdr false 0 1 2) (on { cell0 with v := [(1, 0x7FFFFFFF), (2, 1)] }) with
    | .next t => decide (laneOf ((t.cell 0).vreg 0) 0 = 0x7FFFFFFF) && decide (laneOf ((t.cell 0).vreg 0) 1 = 0) &&
        decide ((t.cell 0).status = 8)
    | _ => false) = true := by decide +kernel

/-! Witnesses: the front end (TickPhasesComplete to SessionsComplete). -/

/-- A parcel of function 0: cell 0, two queues, one session, an update log of 64 MiB at 2 GiB. -/
def cfg0 : ParcelCfg :=
  { ownerSess := false, ownerId := 0, targetClk := 2, floorClk := 1, updWin := 1, instShare := 4, weltWays := 1, cells := 1
    rtCells := 0, memBase := 2, memUnits := 1, ulog := 1, hostLat := 600, share := [4, 4, 4, 4, 4, 4, 4, 4]
    queues := [⟨0, 0, true, 1, 4⟩, ⟨31, 255, false, 1, 1⟩], nctx := 1, segs := [], sessions := [⟨0, 0, false, 0, 50000, 1⟩]
    fixedMode := false, arrange := 0, shapes := [] }

/-- A HOST and a STACK segment, both readable and writable. -/
def hostSeg : SegDesc := ⟨0, 0x10000, 2 ^ 25, 1, true, true, false, 0, 0⟩
def stackSeg : SegDesc := ⟨0, 2 ^ 31, 2 ^ 25, 2, true, true, false, 1, 0⟩

/-- The parcel, active. -/
def par0 : Parcel := { state := .active, cfg := cfg0, segs := [(0, some hostSeg), (1, some stackSeg)] }

/-- The running device with the parcel as given. -/
def dev (x : Parcel) : State := { dev := .running, tk := { run := true, started := true }, parcels := [(0, x)] }

/-- The device `late` ns into a tick of 100 µs with a survey slice of 20 µs and a drain guard of 5 µs; ALIGN as given. -/
def inTick (x : Parcel) (late : Nat) (align : Bool) : State :=
  { dev x with
    datum := 700000 + late, lc := { ctr := 9000 + late, edge := 9000, len := 100000 }
    img := { cfg := { period := 10, survey := 20, drain := 5, align := align } } }

/-- The phases of the tick at their first and last instants: B, B + W, T − S − D, T. -/
theorem test_wit_tick :
    let c : DevCfg := (inTick par0 0 true).img.cfg
    (inTick par0 100000 true).tk.run = true ∧ (inTick par0 100000 true).lc.edge + (inTick par0 100000 true).lc.len ≤
      (inTick par0 100000 true).lc.ctr ∧ (inTick par0 99999 true).lc.ctr < 9000 + 100000 ∧ (inTick par0 0 true).insts = [] ∧
    (∀ e ∈ (inTick par0 0 true).parcels, ∀ q ∈ e.2.queues, q.2.ready = [] ∧ q.2.waiting = [] ∧ q.2.unseated = []) ∧
    par0.state = .active ∧ par0.windowRan = false ∧ par0.computeRan = false ∧ par0.computeOver = false ∧
    3000 + par0.cfg.updWin * 1000 = 4000 ∧ c.computeEnd = 75000 ∧ 3999 < 4000 ∧ 74999 < c.computeEnd ∧
    (inTick par0 0 true).instsOf 0 = [] ∧ (inTick par0 0 true).tk.started = true ∧
    ({ par0 with inWindow := true } : Parcel).inWindow = true := by decide

theorem test_wit_phase_end :
    let s : State := { inTick { par0 with inCompute := true } 75000 true with insts := [(3, some inst0)] }
    s.img.cfg.computeEnd ≤ s.lc.ctr - s.lc.edge ∧ s.inst 3 = some inst0 ∧ inst0.parcel = 0 ∧ inst0.task = none := by decide

/-- R87, R111: a boundary 400 ns after an aligned one shortens the next tick by 400 ns; without ALIGN none is shortened. -/
theorem test_boundary_aligns : (match exec (.tickBoundary 0) { inTick par0 100000 true with datum := 800400 },
      exec (.tickBoundary 0) { inTick par0 100000 false with datum := 800400 } with
    | .next t, .next u => decide (t.lc.len = 99600) && decide (t.tk.epoch = 8) && decide (t.tk.alignErr = 400) &&
        decide (u.lc.len = 100000) && decide (u.tk.alignErr = 0)
    | _, _ => false) = true := by decide +kernel

/-- R90: no window opens before 3 µs, nor a compute phase before 4 µs. -/
theorem test_phases_wait : (match exec (.updateWindowStart 0 0) (inTick par0 2999 true), exec (.updateWindowStart 0 0) (inTick par0 3000 true),
      exec (.computePhaseStart 0 0) (inTick par0 3999 true), exec (.computePhaseStart 0 0) (inTick par0 4000 true) with
    | .next a, .next b, .next c, .next d => !(a.parcel 0).inWindow && (b.parcel 0).inWindow && !(c.parcel 0).inCompute &&
        (d.parcel 0).inCompute
    | _, _, _, _ => false) = true := by decide +kernel

/-- An instance admitted at 0 with a timeout of 10 ns and not started. -/
def notStarted : Inst := { inst0 with running := false, cells := [] }

theorem test_wit_timeout :
    let s : State := { dev par0 with insts := [(0, some notStarted)] }
    s.inst 0 = some notStarted ∧ notStarted.req = some req0 ∧ req0.src = .bell 0 0 ∧ req0.timeout ≠ 0 ∧
    notStarted.start + req0.timeout ≤ (s.at 10).lc.ctr ∧ (s.at 9).lc.ctr < notStarted.start + req0.timeout ∧
    notStarted.task = none ∧ notStarted.cells = [] ∧ notStarted.overrun = false := by decide

/-- An overwrite of two fp32 elements of row 0 of table 0: UID 1, length 128. -/
def updBytes : List Byte :=
  leBytes 2 0 ++ [0, 10, 0, 0, 0, 0] ++ leBytes 4 0 ++ leBytes 2 128 ++ [0, 0] ++ leBytes 8 0 ++ leBytes 8 1 ++
    List.replicate 32 0 ++ List.replicate 64 0

/-- A table of 32 rows of 16 elements in stack 0. -/
def tab0 : TableDesc := ⟨false, false, 1, 16, 2 ^ 31, 32, 0⟩

/-- The record, eligible, in lines 0 and 1 of the log. -/
def upd0 : UpdRec :=
  { bytes := updBytes, lines := [0, 1], accepted := 0, sess := none, fence := 0, uid := 1, tid := 0, row := 0, elig := some 1
    fenceTick := none, fenceRan := false }

/-- The parcel in its window with the record due. -/
def inWindow : Parcel := { par0 with inWindow := true, log := [upd0], tables := [(0, some tab0)] }

/-- A record that commits, one whose payload is an infinity, and one line of which is poisoned. -/
theorem test_wit_update : inWindow.firstDue = some upd0 ∧ inWindow.table upd0.tid = some tab0 ∧ inWindow.inWindow = true ∧
    ((dev inWindow).at 700).lc.ctr + 300 ≤ inWindow.winStart + inWindow.cfg.updWin * 1000 ∧
    ¬ (((dev inWindow).at 701).lc.ctr + 300 ≤ inWindow.winStart + inWindow.cfg.updWin * 1000) ∧
    field upd0.bytes 2 1 = 0 ∧
    (∀ j ∈ upd0.lines, ((dev inWindow).stackRead 0 0 0 (inWindow.lineAddr j) 64).2 = false) ∧
    (updValues tab0 upd0.bytes ((dev inWindow).stackRead 0 0 0 (2 ^ 31) 32).1).1.all (fun v => !nonFinite v) = true ∧
    (updValues tab0 (upd0.bytes.take 64 ++ leBytes 4 0x7F800000 ++ List.replicate 60 0) []).1.any nonFinite = true ∧
    (let x : Parcel := inWindow
     let s : State := { dev x with stk := { poison := [((x.cfg.logBase / 8) / 32, true)] } }
     (s.stackRead 0 0 0 (x.lineAddr 0) 64).2 = true) ∧
    ((dev par0).parcel 0).due = [] := by decide +kernel

theorem test_wit_unbound : (dev par0).dev ≠ .retired ∧ ((dev par0).parcel 0).serves = true ∧
    ((dev par0).queue 0 31).state ≠ .launched ∧ ((dev par0).queue 0 31).state ≠ .persistent := by decide

/-- A launched queue 0 with rings of 16 entries, one below full, and the graph of slot 0. -/
def queue0 : Queue :=
  { state := .launched, rings := some ⟨0x1000, 4, 0x2000, 4, some 3⟩, sqUsed := 15, sqTail := 0xFFFFFFFF }
def bound (y : Queue) : State := dev { par0 with queues := [(0, y)], slots := [(0, { state := .loaded })] }

theorem test_wit_doorbell : Bell (bound queue0) 0 0 0 0 ∧ (bound queue0).cyc.reqs = [] ∧ spWf Queue.zero ((bound queue0).parcel 0).queues = true ∧ (0 : W32) - ((bound queue0).queue 0 0).sqTail = 1 ∧
    ((bound queue0).queue 0 0).sqUsed + 1 ≤ ((bound queue0).queue 0 0).sqSize ∧ (bound queue0).arrivalCode 0 0 = none ∧
    ((bound queue0).parcel 0).qcfg 0 = some ⟨0, 0, true, 1, 4⟩ ∧ queue0.waiting.length < 8 ∧
    ((7 : W32) - 0).toNat ≤ ((7 : W32) - 0).toNat ∧ (bound queue0).gqueue 7 = none :=
  ⟨⟨by decide, by decide, by decide⟩, by decide, by decide, by decide, by decide, by decide, by decide, by decide, by decide, by decide⟩

/-- A full queue, an unbound one, and a function in D3hot. -/
theorem test_wit_doorbell_ends :
    let full := bound { queue0 with waiting := List.replicate 8 req0 }
    8 ≤ (full.queue 0 0).waiting.length ∧ full.arrivalCode 0 0 = none ∧
    (dev par0).arrivalCode 0 0 = some (6, 4) ∧ Bell (bound { queue0 with state := .unbound }) 0 0 0 0 ∧
    (bound { queue0 with state := .unbound }).arrivalCode 0 0 = some (6, 4) ∧
    (({ bound queue0 with ords := [(1, { d3 := true })] } : State).ord 1).d3 = true ∧
    (bound queue0).arrivalCode 0 31 = some (6, 4) :=
  ⟨by decide, by decide, by decide, ⟨by decide, by decide, by decide⟩, by decide, by decide, by decide⟩

/-- A request whose descriptor is not read, and a descriptor of no parameters. -/
def unread : Request := { req0 with ready := false, windows := [], segs := par0.segs }
def launchDesc : List Byte := leBytes 8 9 ++ List.replicate 56 0

theorem test_wit_descriptor :
    let s := bound { queue0 with waiting := [unread] }
    let r' : Request := { unread with tag := 9, noirq := false, ready := true, ctx := 0 }
    (s.queue 0 0).waiting = [unread] ∧ unread.src = .bell 0 0 ∧ unread.ready = false ∧
    (match (s.parcel 0).fetch r' ((s.parcel 0).gslot 0) launchDesc [] false with | .ok ws _ => decide (ws = []) | _ => false) = true ∧
    s.oldestUnread 0 0 = some (0, false) ∧ s.bellReq 0 0 0 = some unread ∧ s.instOf 0 0 unread.src = none ∧
    (s.parcel 0).waits = [] ∧ s.host.disabled = false ∧ s.host.flushing = false ∧ s.net.ctlOrder = [] ∧
    (match (s.parcel 0).fetch r' ((s.parcel 0).gslot 0) launchDesc [] true with | .bad _ _ => true | _ => false) = true ∧
    (dev par0).oldestUnread 0 0 = none ∧
    BitVec.ofNat 64 (field launchDesc 0 8) = 9 ∧ launchDesc.length = 64 := by decide +kernel

/-- The completion record of the request. -/
def rec0 : Record := ⟨.bell 0 0, 7, 0, 10, 0, 0, 0, false, false, false, [], 0, false⟩

theorem test_wit_record :
    let s := bound { queue0 with records := [rec0], cqTail := 15 }
    (s.queue 0 0).records = [rec0] ∧ rec0.unread = false ∧ rec0.src = .bell 0 0 ∧
    ((s.queue 0 0).cqTail - (s.queue 0 0).cqHead).toNat < (s.queue 0 0).cqSize ∧ s.host.disabled = false ∧
    s.host.flushing = false ∧ s.host.dead = false ∧ 0x2000 + 32 * (15 % 16) < 2 ^ 52 ∧ s.host.stores = [] ∧
    s.lineOwned (0x2000 + 32 * 15) = false ∧ (s.queue 0 0).recAsked = false ∧
    ({ s with host := { lines := [((0x2000 + 32 * 15) / 64, some line0)] } } : State).lineOwned (0x2000 + 32 * 15) = true ∧
    ¬ (((bound { queue0 with records := [rec0], cqTail := 16 }).queue 0 0).cqTail -
      ((bound { queue0 with records := [rec0], cqTail := 16 }).queue 0 0).cqHead).toNat < 16 := by decide

theorem test_wit_msix :
    let s : State := { dev par0 with ords := [(1, { msixDue := [(0, 1), (2047, 2)], msix := [(12, 1)], msixPending := [(2047, true)] })] }
    2047 < s.vectors ∧ (s.ord 1).masked 0 = false ∧ (s.ord 1).masked 2047 = true ∧ spGet 0 (s.ord 1).msixDue 0 ≠ 0 ∧
    spGet 0 (s.ord 1).msixDue 2047 ≠ 0 ∧ spGet 0 (s.ord 1).msixDue 5 = 0 ∧ spWf OrdSt.zero s.ords = true ∧ (s.ord 1).d3 = false ∧ spWf 0 (s.ord 1).msix = true ∧
    spGet false (s.ord 1).msixPending 2047 = true := by decide

/-! Orders. -/

/-- An order of function 0. -/
def oh : OrdHdr := ⟨.fn 0, 5, false, false⟩

/-- What lets an order of function 0 be taken in the parcel as given, decided at once. -/
def takesB (x : Parcel) (o : Order) : Bool :=
  decide ((dev x).orderParcel (.fn 0) = some 0) && decide (x.state ≠ .building) && x.resetting.isEmpty &&
    (decide (x.state ≠ .draining) || o.whileDraining) && o.wellFormed && o.accepted x (dev x).vectors

/-- The decided condition is what Takes asks. -/
theorem takes_of {x : Parcel} {o : Order} (h : takesB x o = true) : Takes (dev x) oh 0 0 o := by
  simp only [takesB, Bool.and_eq_true, Bool.or_eq_true, decide_eq_true_eq, List.isEmpty_iff] at h
  obtain ⟨⟨⟨⟨⟨h1, h2⟩, h3⟩, h4⟩, h5⟩, h6⟩ := h
  exact ⟨rfl, rfl, rfl, h1, h2, h3, fun e => h4.resolve_left (fun n => n e), h5, h6, rfl⟩

theorem test_wit_parcel_wf : ParcelWf par0 ∧ ParcelWf inWindow := by
  unfold ParcelWf
  decide

/-- The parcel with a loaded graph of one replica in slot 63. -/
def loaded63 : Parcel :=
  { par0 with slots := [(63, { state := .loaded, hdr := ⟨false, 1, 1, 0, 4096, 0, 0, 0, 0, 0, 0, [], 0, 0, 0⟩ })] }

theorem test_wit_bind : Takes (dev loaded63) oh 0 0 (.queueBind 31 63 1 1) ∧ Takes (dev loaded63) oh 0 0 (.queueBind 31 63 0 0) ∧
    loaded63.qcfg 31 = some ⟨31, 255, false, 1, 1⟩ ∧ ((dev loaded63).queue 0 31).state = .unbound ∧
    (loaded63.gslot 63).state = .loaded ∧ loaded63.slotHeld 63 = false ∧
    (let n : BoundQ := ⟨⟨31, 255, false, 1, 1⟩, true, 1, (loaded63.gslot 63).hdr⟩
     bindCheck (dev loaded63).img.cfg cfg0 (insertBound n loaded63.boundQueues) n = none) ∧
    (let n : BoundQ := ⟨⟨31, 255, false, 1, 1⟩, false, 0, (loaded63.gslot 63).hdr⟩
     bindCheck (inTick loaded63 0 true).img.cfg cfg0 (insertBound n loaded63.boundQueues) n = none) ∧
    (∀ e ∈ loaded63.queues, e.2.unseated = []) ∧ (dev loaded63).shareHeld 0 + 1 ≤ cfg0.instShare :=
  ⟨takes_of (by decide), takes_of (by decide), by decide, by decide, by decide, by decide, by decide, by decide, by decide, by decide⟩

theorem test_wit_timeout_rings : Takes (dev par0) oh 0 0 (.queueTimeout 31 2000000) ∧
    Takes (dev par0) oh 0 0 (.queueRings 31 0 0 0xC4 0 0x10000 2047) ∧
    (match par0.orderWindow 0 0 0 (64 * 2 ^ 4) true false [1], par0.orderWindow 0 0 0x10000 (32 * 2 ^ 12) false true [1] with
      | .ok _, .ok _ => true | _, _ => false) = true ∧
    Takes (bound queue0) oh 0 0 (.queueUnbind 0) ∧ ((bound queue0).queue 0 0).state = .launched :=
  ⟨takes_of (by decide), takes_of (by decide), by decide, takes_of (by decide), by decide⟩

theorem test_wit_unbind_end :
    let s := bound { queue0 with state := .unbinding, unbind := some ⟨.fn 0, 5, 0⟩, records := [rec0] }
    (s.queue 0 0).state = .unbinding ∧ (∀ e ∈ s.instsOf 0, e.2.q ≠ 0) ∧ (s.queue 0 0).ready = [] ∧
    (∀ r ∈ (s.queue 0 0).records, r.holdsShare = false) ∧ s.net.ctlOrder = [] := by decide

/-- A queue with two ready requests, TAG 7 and 8. -/
def readReqs : Queue := { queue0 with ready := [req0], waiting := [{ req0 with src := .bell 0 1, tag := 8 }] }

theorem test_wit_cancel : Takes (bound readReqs) oh 0 0 (.cancel 0 7) ∧ Takes (bound readReqs) oh 0 0 (.cancel 0 9) ∧
    (∀ r ∈ readReqs.ready ++ readReqs.waiting, r.ready = true) ∧
    (∃ r ∈ readReqs.ready ++ readReqs.waiting, (r.ready && decide (r.tag = 7)) = true) ∧
    (∀ r ∈ readReqs.ready ++ readReqs.waiting, r.ready = true ∧ r.tag ≠ 9) :=
  ⟨takes_of (by decide), takes_of (by decide), by decide, by decide, by decide⟩

/-- A queue with one ready and one waiting request, TAG 7 the ready one's. -/
def twoReqs : Queue := { queue0 with ready := [req0], waiting := [{ unread with src := .bell 0 1 }] }

theorem test_wit_reset_cancel : Takes (bound twoReqs) oh 0 0 (.queueReset 0) ∧ Takes (bound twoReqs) oh 0 0 (.cancel 0 7) ∧
    (bound twoReqs).insts = [] ∧ (∀ r ∈ twoReqs.ready ++ twoReqs.waiting, r.src = .bell 0 0 ∨ r.src = .bell 0 1) ∧
    (∃ r ∈ twoReqs.ready ++ twoReqs.waiting, (r.ready && decide (r.tag = 7)) = true) ∧
    (∃ r ∈ twoReqs.ready ++ twoReqs.waiting, r.ready = false) :=
  ⟨takes_of (by decide), takes_of (by decide), by decide, by decide, by decide, by decide⟩

theorem test_wit_graph_load : Takes (dev par0) oh 0 0 (.graphLoad 63 0 0 0 280) ∧ (par0.gslot 63).state = .empty ∧
    (match par0.orderWindow 0 0 0 16777216 true false [1, 2, 3] with | .ok _ => true | _ => false) = true ∧
    280 % 8 = 0 ∧ 16777216 % 8 = 0 := ⟨takes_of (by decide), by decide, by decide, by decide, by decide⟩

/-- A slot that loads 280 zero bytes from host memory: a load that ends refused. -/
def loading : Parcel :=
  { par0 with slots := [(63, { state := .loading, window := some ⟨1, 0x10000, 280, true, true, 0, 0, 0⟩, order := some ⟨.fn 0, 5, 0⟩ })] }

theorem test_wit_graph_load_end : (loading.gslot 63).state = .loading ∧ (loading.gslot 63).window.isSome = true ∧
    (loading.gslot 63).order = some ⟨.fn 0, 5, 0⟩ ∧ (dev loading).cellsTested 0 = false ∧ loading.state ≠ .absent ∧
    (dev loading).net.ctlOrder = [] ∧ (dev loading).host.disabled = false ∧ (dev loading).host.flushing = false ∧ ((63 : Fin 64).val = 63) := by decide

theorem test_wit_graph_unload : Takes (dev loaded63) oh 0 0 (.graphUnload 63) ∧ loaded63.slotHeld 63 = false ∧
    (({ loaded63 with slots := [(63, { state := .unloading, order := some ⟨.fn 0, 5, 0⟩ })] } : Parcel).gslot 63).state =
      .unloading ∧ spWf Cell.zero (dev loaded63).cells = true :=
  ⟨takes_of (by decide), by decide, by decide, by decide⟩

theorem test_wit_quiesce : Takes (dev par0) oh 0 0 .quiesce ∧ Takes (dev { par0 with state := .quiet }) oh 0 0 .resume ∧
    (dev { par0 with state := .draining, drained := true }).isQuiet 0 = true ∧ (dev par0).cellsTested 0 = false :=
  ⟨takes_of (by decide), takes_of (by decide), by decide, by decide⟩

/-- A STACK segment of 64 bytes at the end of the parcel's region below its log, readable. -/
def endSeg : SegDesc := segDescOf 10 0x001 0 (3 * 2 ^ 30 - 2 ^ 26 - 64) 64

theorem test_wit_segments : Takes (dev par0) oh 0 0 (.segSet 0 15 10 0x001 0 (3 * 2 ^ 30 - 2 ^ 26 - 64) 64) ∧
    (dev par0).unreadAll 0 = [] ∧ (bound { queue0 with waiting := [unread] }).unreadAll 0 ≠ [] ∧
    Takes (bound { queue0 with waiting := [unread] }) oh 0 0 (.ctxClear 0) ∧ par0.targetOk endSeg = true ∧ par0.placementOk endSeg 15 = true ∧ Takes (dev par0) oh 0 0 (.segClear 0 1) ∧
    Takes (dev par0) oh 0 0 (.ctxClear 0) :=
  ⟨takes_of (by decide), by decide, by decide, takes_of (by decide), by decide, by decide, takes_of (by decide), takes_of (by decide)⟩

theorem test_wit_fence : Takes (dev par0) oh 0 0 (.segFence 3 (2 ^ 47) 64) ∧ par0.fenceConflict 3 (2 ^ 47) 64 = false ∧
    ({ par0 with fences := [⟨⟨.fn 0, 5, 0⟩, 3, 2 ^ 47, 64⟩] } : Parcel).fences.length = 1 ∧
    (∀ w ∈ (dev par0).windowsOf 0, w.meets 3 (2 ^ 47) 64 = false) :=
  ⟨takes_of (by decide), by decide, by decide, by decide⟩

theorem test_wit_parcel_reset : Takes (dev par0) oh 0 0 (.parcelReset 0) ∧ (dev par0).instsOf 0 = [] ∧
    (∀ q ∈ par0.queues, q.2.waiting = [] ∧ q.2.ready = []) ∧ (∀ g ∈ loaded63.slots, g.2.state ≠ .loading) ∧
    ({ par0 with resetting := [some ⟨.fn 0, 5, 0⟩] } : Parcel).queues = [] ∧ par0.slots = [] :=
  ⟨takes_of (by decide), by decide, by decide, by decide, by decide, by decide⟩

/-! Sessions. -/

/-- Session 0 open at sequence numbers 5 and 9. -/
def vg0 : VgSess := { isOpen := true, inc := 1, rxNext := 5, txNext := 9, ulimit := 100 }
def sessDev (x : Parcel) (v : VgSess) : State :=
  { dev x with
    img := { on := true, cfg := { ports := [{ mode := 1, macsec := false, ptp := false, mac := 0x10 }]
                                  subs := [{ v6 := 1, v4 := 0, enabled := true }] } }
    net := { sess := [(0, v)], keys := [(0, some 1)], subs := [(0, { up := true })] } }

/-- A message header of session 0. -/
def vh : VHdr := ⟨0, false, false, true, 5, 9⟩

/-- The parcel of session 0's own. -/
def sessPar : Parcel := { par0 with cfg := { cfg0 with ownerSess := true } }

theorem test_wit_message (x : Parcel) (h : x = par0 ∨ x = sessPar ∨ x = inWindow) :
    NextMessage (sessDev x vg0) vh 0 ⟨0, 0, false, 0, 50000, 1⟩ := by
  rcases h with rfl | rfl | rfl <;>
    exact ⟨⟨by decide, by decide, by decide, by decide, by decide, by decide⟩, by decide, by decide, by decide, by decide,
      by decide, by decide⟩

/-- A RANK body with no parameters. -/
def work0 : WorkBody := ⟨1, 0, 0, 0, 0, false, []⟩

theorem test_wit_rank :
    let x : Parcel := { par0 with queues := [(0, { queue0 with rings := none })] }
    (sessDev x vg0).arrivalCode 0 0 = none ∧ ((sessDev x vg0).queue 0 0).waiting.length < 8 ∧
    (match x.translate (x.gslot 0) 0 0 0 none [] with | .ok ws _ => decide (ws = []) | _ => false) = true ∧
    x.workBad work0 false = false ∧ x.workBad work0 true = false ∧ (sessDev x vg0).dev = .running := by decide +kernel

theorem test_wit_update_message : inWindow.serves = true ∧ updLen updBytes = updBytes.length ∧ 64 ≤ updBytes.length ∧
    inWindow.updCode vg0.credit updBytes = 0 := by decide +kernel

theorem test_wit_order_message :
    let d : List Byte := 9 :: List.replicate 63 0
    d.length = 64 ∧ decodeOrder d = some (.quiesce, true) ∧ sessPar.ownerSess = some 0 ∧ sessPar.resetting = [] := by decide

theorem test_wit_stage : (match sessPar.orderWindow 0 1 0 8936 false true [2] with | .ok _ => true | _ => false) = true ∧
    (List.replicate 8936 (0 : Byte)).length ≤ 8936 ∧ [(1 : Byte)] ≠ [] := by decide +kernel

theorem test_wit_open_close :
    let s := sessDev par0 { vg0 with isOpen := false, recent := [1] }
    s.sessCfg 0 = some (0, ⟨0, 0, false, 0, 50000, 1⟩) ∧ s.vgKey 0 = some 1 ∧ (s.parcel 0).state ≠ .building ∧
    s.subReceives 0 = true ∧ vh.bad = false ∧ vh.enc = false ∧ vh.auth = true ∧ (2 : BitVec 56) ∉ (s.vg 0).recent ∧
    vg0.isOpen = true ∧ vg0.delivered = false ∧ spWf VgSess.zero s.net.sess = true ∧
    vgHeaderOk ⟨0, 0, false, 0, 50000, 1⟩ vh = true := by decide

/-- A message that waits for its acknowledgement until 10. -/
def tx0 : VgTx := ⟨8, [], 0, 10, 3000000, 7, 0, false, true⟩

theorem test_wit_timers :
    let v : VgSess := { vg0 with unacked := [tx0], ackDue := true }
    tx0.seq < v.txNext ∧ vh.ack = BitVec.ofNat 32 v.txNext ∧ tx0.deadline ≤ 10 ∧ tx0.resent < 8 ∧
    8 ≤ ({ tx0 with resent := 8 } : VgTx).resent ∧ v.ackDue = true ∧ v.lastTx + 100000000 ≤ 100000000 ∧
    v.lastRx + 2000000000 ≤ 2000000000 ∧ SessionOpen (sessDev par0 v) 0 0 ⟨0, 0, false, 0, 50000, 1⟩ :=
  ⟨by decide, by decide, by decide, by decide, by decide, by decide, by decide, by decide,
    ⟨by decide, by decide, by decide, by decide, by decide, by decide⟩⟩

/-- R96, R128: a doorbell of one descriptor at the last place of the ring is stamped with the datum. -/
theorem test_doorbell_stamps : (match exec (.sqTail 0 0 0 false) { bound queue0 with datum := 77 } with
    | .next t => decide ((t.queue 0 0).waiting.map (·.stamp) = [77]) && decide ((t.queue 0 0).sqUsed = 16)
    | _ => false) = true := by decide +kernel

/-- R116: a QUIESCE of an active parcel ends with OK and leaves it DRAINING. -/
theorem test_quiesce : (match exec (.quiesce oh) (dev par0) with
    | .next t => decide ((t.parcel 0).state = .draining) && decide ((t.ord 1).result = (5, 0, 0))
    | _ => false) = true := by decide +kernel

/-! Witnesses: an instruction at its cell, faults, the Awl, images, survey (InstructionMeetsItsCell to SurveyAndWearComplete). -/

/-- A cell whose instance another cell's fault has just ended, at the end of its code. -/
theorem test_wit_late_fault :
    let s : State := { cells := [(0, { graph := some cg, pc := 16 })], cyc := { faulted := [(0, true)] } }
    s.issuing 0 = false ∧ (∃ e ∈ s.cyc.faulted, e.1 = 0) ∧ (s.cell 0).codeSize ≤ (s.cell 0).pc ∧
    (∀ e ∈ s.cyc.faulted, e.1 ≠ 1) := by decide

theorem test_wit_meets : cellHdr (.mma hdr 0 12 3 3 0 false (some ⟨1, 63⟩)) = some (hdr, 8) ∧
    reservedForm cell0 (.mma hdr 0 12 3 3 0 false (some ⟨1, 63⟩)) = true ∧
    reservedForm cell0 (.mma hdr 0 12 3 3 0 false (some ⟨0, 63⟩)) = false ∧ (State.reset.issuing 0 = false) ∧
    (on cell0).issuing 0 = true ∧ ({ cell0 with pc := 16 } : Cell).codeSize ≤ 16 ∧ 12 < ({ cell0 with pc := 12 } : Cell).codeSize ∧
    12 % 8 ≠ 0 ∧ cell0.preg hdr.pg ≠ hdr.pn ∧ cell0.preg 7 = ({ hdr with pg := 7 } : Hdr).pn := by decide

theorem test_wit_fault : ((on cell0).cell 0).inst = some 0 ∧ (on cell0).inst 0 = some inst0 ∧ inst0.overrun = false ∧
    (on cell0).insts = [(0, some inst0)] ∧ (∀ n ∈ inst0.cells, ((on cell0).cell n).sbuf = [] ∧ ((on cell0).cell n).gather = []) ∧
    (on cell0).er.lost = false ∧ (on cell0).er.queue = [] ∧ 65535 < 65536 ∧ 255 < 256 := by decide

/-- An fp32 SUM gather of one index at address 64, output at 128, status at 256. -/
def gatherBytes : List Byte :=
  leBytes 2 0 ++ [1, 10, 0, 0, 0, 0] ++ leBytes 2 1 ++ leBytes 2 1 ++ leBytes 4 1 ++ leBytes 8 64 ++ leBytes 8 0 ++ leBytes 8 0 ++
    leBytes 4 128 ++ leBytes 4 64 ++ leBytes 4 0 ++ leBytes 4 256 ++ List.replicate 8 0

/-- The cell with the descriptor in its store and its address 0 in g1. -/
def gcell : Cell := { cell0 with store := writeBytes [] 0 gatherBytes }

theorem test_wit_agath : (gcell.greg 1).toNat % 64 = 0 ∧ DescAt gcell 0 (gcell.greg 1) 64 ∧ (gcell.slot 1).phase = .idle ∧
    (on gcell).gatherLegal 0 (gcell.loadOwn 0 64) 65536 = true ∧ (gatherDescOf (gcell.loadOwn 0 64)).aligned = true ∧
    (∀ e ∈ [((gatherDescOf (gcell.loadOwn 0 64)).idx, (gatherDescOf (gcell.loadOwn 0 64)).listBytes.1)],
      e.2 ≠ 0 → (on gcell).winKind 0 e.1 ≠ .undefined ∧ (on gcell).reachable 0 e.1 e.2 true false = true) ∧
    (gatherDescOf (gcell.loadOwn 0 64)).listBytes.2 = (0, 0) :=
  ⟨by decide, ⟨by decide, ⟨by decide, by decide⟩, by decide, fun _ h => (List.not_mem_nil h).elim, by decide +kernel⟩, by decide,
    by decide +kernel, by decide +kernel, by decide +kernel, by decide +kernel⟩

theorem test_wit_await : (3 : Byte).toNat < 4 ∧ (∀ k : Fin 2, (gcell.slot k).phase = .idle) ∧
    (({ gcell with gather := [(1, { GatherSlot.none with phase := .issued })] } : Cell).slot 1).phase ≠ .idle ∧
    (2 : Byte).getLsbD 1 = true := by decide

theorem test_wit_atab : spWf none inWindow.tables = true ∧ spWf Parcel.zero (dev inWindow).parcels = true ∧
    inWindow.tableCode (List.replicate 64 0) ≠ 0 ∧ par0.tableCode (List.replicate 64 0) = 0 ∧
    par0.tableCode (1 :: List.replicate 63 0) = 0 := by decide +kernel

theorem test_wit_aupd : max 64 (updLen updBytes) = 128 ∧ inWindow.updCode 2 updBytes = 0 ∧ inWindow.updCode 1 updBytes = 5 := by
  decide +kernel

/-- An accepted gather of row 3 of the table, and its output row as it has come. -/
def gdesc : GatherDesc := ⟨0, 1, 10, 0, 1, 1, 1, 64, 0, 0, 128, 64, 0, 256⟩
def reading (got : List (Nat × List Byte)) : GatherSlot :=
  { GatherSlot.none with phase := .reading, desc := gdesc, table := tab0, idx := [3], rows := [⟨0, 3, got, none, false⟩] }

theorem test_wit_gather_accept : (reading []).desc.iform = 0 ∧ (dev inWindow).parcel 0 = inWindow ∧
    ((dev par0).parcel 0).table gdesc.tid = none ∧ inWindow.table gdesc.tid = some tab0 ∧
    tab0.dim * ofmtBytes gdesc.ofmt ≤ gdesc.ostride ∧ gdesc.nbag * tab0.dim * ofmtBytes gdesc.ofmt ≤ 16384 ∧ gdesc.pool ≠ 3 ∧
    gdesc.idx.toNat < 2 ^ 52 ∧ gcell.storeBad 64 4 = false := by decide

theorem test_wit_gather_read :
    let c : Cell := { gcell with gather := [(0, reading [])] }
    spWf GatherSlot.none c.gather = true ∧ spWf 0 c.store = true ∧ (c.slot 0).phase = .reading ∧ c.goneGather = [] ∧
    ((c.slot 0).rows.find? (fun r => decide (r.pos = 0))).isSome = true ∧ tab0.rstride / 32 - 1 < tab0.rstride / 32 ∧
    (∀ r ∈ (reading [(0, [])]).rows, r.got.length = tab0.rstride / 32) ∧
    gdesc.out + gdesc.nbag * gdesc.ostride ≤ gdesc.status := by decide +kernel

theorem test_wit_refused : (State.reset.ord 1).mbBusy = false ∧
    (({ State.reset with ords := [(1, { mbBusy := true })] } : State).ord 1).mbBusy = true ∧ (State.reset.pushImage (.fn 0) []).1 ≠ 0 ∧ ((dev par0).pushImage (pusherOf (.fn 0)) []).1 ≠ 0 := by
  decide +kernel

theorem test_wit_builds :
    let x : Parcel := { par0 with state := .building }
    ((dev x).parcel 0).state = .building ∧ (dev x).img.building = false ∧ (dev x).cellsTested 0 = false ∧
    spWf Parcel.zero (dev x).parcels = true ∧
    (∀ n, n < 128 → ({ dev x with img := { building := true } } : State).testing n = false) := by decide +kernel

theorem test_wit_push : (sessDev sessPar vg0).ctlGate 0 0 false = none ∧ (sessDev sessPar vg0).dev = .running ∧
    (match sessPar.orderWindow 0 1 0 64 true false [2] with | .ok w => decide (w.target = 2) | _ => false) = true ∧
    ((sessDev sessPar vg0).stackRead 0 1 0 (2 ^ 31) 64).2 = false ∧
    (sessDev sessPar vg0).misplaced 0 1 0 (2 ^ 31) 64 = false := by decide +kernel

/-- The device `late` ns into a tick of 200 µs whose slice of 100 µs starts at 95 µs. -/
def sliceAt (late : Nat) : State :=
  { dev par0 with lc := { ctr := late }, img := { cfg := { period := 20, survey := 100, drain := 5 } } }
def surveyed : State := sliceAt 95000

theorem test_wit_survey : surveyed.tk.run = true ∧ surveyed.tk.started = true ∧ surveyed.lc.surveyed = false ∧
    surveyed.img.cfg.computeEnd = 95000 ∧ surveyed.offset = 95000 ∧ (sliceAt 94999).offset < 95000 ∧
    (sliceAt 194999).offset < 95000 + 100 * 1000 ∧ (sliceAt 194000).offset + 1000 ≤ 95000 + 100 * 1000 ∧
    (∀ e ∈ surveyed.sv.agents, e.2.testing = none) ∧ surveyed.svOn 3 = true ∧ 12 ≤ surveyed.img.cfg.survey ∧
    surveyed.svOn 0 = true ∧ surveyed.we.fences.getLsbD 127 = false ∧ (surveyed.agent 127).region < 256 ∧
    (surveyed.cell 127).inst = none ∧ surveyed.heldBack 127 = false ∧ surveyed.clockAllows 127 = true ∧
    surveyed.cellFits 127 (surveyed.agent 127).due = true ∧ spWf SvAgent.zero surveyed.sv.agents = true ∧
    ({ surveyed with sv := { ctrl := 7 } } : State).svOn 3 = false := by decide

theorem test_wit_survey_end : (({ surveyed with sv := { agents := [(384, { testing := some false })] } } : State).agent
      (agentIndex .welt)).testing = some false ∧ agentIndex (.pch 7 31) = 383 ∧ agentIndex (.cell 127) = 127 := by decide

theorem test_wit_wear : running.powered = true ∧ ([(535, 1)].map (·.1) : List (Fin 536)).Nodup ∧ spWf 0 running.we.drift = true ∧
    (running.we.life + 1 < 168) ∧ running.live = true := by decide

/-! Witnesses: what the management owner writes, registers (DeviceOrdersComplete to RegisterAccessesComplete). -/

/-- Endpoint 8 is the management owner, in SPDM session 0. -/
def owner : Accessor := .mgmt 8 (some 0)
def owned (d : DevState) : State :=
  { dev := d, mg := { standby := true, rails := true, owner := some 8, spdm := [(0, some ⟨8, true, true, 0⟩)] }
    img := { serial := 9, cfg := { nfunc := 8 } } }

theorem test_wit_device_orders : (owned .unlasted).ownerAccess owner = true ∧ (owned .unlasted).hasOwner = true ∧
    (owned .unlasted).insts = [] ∧ (∀ k, k < 385 → (owned .unlasted).testing k = false) ∧
    (owned .unlasted).ownerAccess (.mgmt 9 none) = false ∧ (owned .unlasted).ownerAccess (.fn 0) = false ∧
    (({ owned (.starting 3) with img := { on := true, cfg := { mgmtEid := 8 } } } : State).ownerAccess owner = true) ∧
    (({ owned (.starting 3) with img := { on := true, cfg := { mgmtEid := 8 } } } : State).hasOwner = true) := by decide +kernel

theorem test_wit_keys : (3 : Byte).toNat < 4 ∧ ((owned .unlasted).keySlot 3).prog = false ∧
    (({ owned .unlasted with mg := { slots := [(3, { prog := true, qx := 1, qy := 2 })] } } : State).keySlot 3).prog = true ∧
    (owned .unlasted).live = true ∧ (owned .unlasted).img.floor < 9 ∧ (9 : W64) ≤ (owned .unlasted).img.serial ∧
    (owned .unlasted).img.serial < 10 := by decide

/-- Sub-port 4, of port 1 in its first mode, with MACSEC, as the image gives it. -/
def msecDev (u : SubPort) : State :=
  { owned .running with
    img := { on := true, cfg := { mgmtEid := 8
                                  ports := List.replicate 4 { mode := 1, macsec := true, ptp := true, mac := 0x10 }
                                  subs := List.replicate 16 { v6 := 1, v4 := 0x0A000001, enabled := true } } }
    net := { subs := [(4, u)], mods := [(1, 6)] } }
def saRec (dir rsc : Byte) (sci pn : W64) : SaRec := ⟨4, dir, rsc, 1, sci, pn, 0, 0, 7, false⟩

theorem test_wit_macsec : (msecDev {}).ownerAccess owner = true ∧ (msecDev {}).saCode 1 (saRec 0 0 0 1) = 0 ∧
    (msecDev {}).saCode 1 (saRec 1 3 9 1) = 0 ∧
    (msecDev { txSa := [(1, some ⟨1, 0, 0, 7⟩)] }).saCode 2 (saRec 0 0 0 0) = 0 ∧
    (msecDev { rxSa := [(13, some ⟨1, 0, 0, 7⟩)], rxSci := [(3, some 9)] }).saCode 2 (saRec 1 3 9 0) = 0 ∧
    (msecDev { txSa := [(1, some ⟨1, 0, 0, 7⟩)] }).saCode 3 (saRec 0 0 0 0) = 0 ∧
    spWf SubPort.zero (msecDev { txSa := [(1, some ⟨1, 0, 0, 7⟩)] }).net.subs = true := by decide +kernel

theorem test_wit_session_keys : (255 : W16).toNat < 256 ∧ ((sessDev par0 vg0).vgKey 0).isSome = true ∧
    spWf none (sessDev par0 vg0).net.keys = true ∧
    (sessDev par0 vg0).sessCfg 0 = some (0, ⟨0, 0, false, 0, 50000, 1⟩) := by decide

theorem test_wit_logs : (600 : W32).toNat < 65536 ∧ 600 ≤ (600 : W32).toNat ∧ (1150 : W32).toNat ≤ 1150 ∧ 1150 < (1151 : W32).toNat ∧
    (owned .unlasted).er.lost = false ∧ (owned .unlasted).er.queue = [] ∧ (owned .unlasted).ob.ctrl.getLsbD 63 = false ∧
    (0x8000000000000000 : W64).getLsbD 63 = true ∧ spWf 0 (owned .unlasted).ob.cnt = true ∧
    ({ ctrl := 0x8000000000000000 } : Ob).ctrl.getLsbD 63 = true ∧ (0 : W64).getLsbD 63 = false := by decide

/-- A trace record, and the device with it queued in a system region of 1 GiB at 40 GiB. -/
def trRec : TrRec := ⟨5, 15, 1, 0xFF, 0xFF, 0, 0, 0, 0⟩
def traced : State := { running with ob := { queue := [trRec] }, img := { cfg := { sysBase := 40, sysUnits := 1 } } }

theorem test_wit_trace : traced.ob.queue = [trRec] ∧ traced.img.cfg.traceCap = 2 ^ 24 ∧ traced.img.cfg.traceCap ≠ 0 ∧
    traced.ob.ctrl.getLsbD 62 = false ∧
    traced.stk.lost.getLsbD (traced.img.cfg.tracePlace (32 * (traced.ob.wptr.toNat % traced.img.cfg.traceCap)) / 2 ^ 36) = false ∧
    ({ traced with ob := { ctrl := 0x4000000000000000, wptr := 2 ^ 24 - 1 } } : State).ob.wptr.toNat < 2 ^ 24 := by decide +kernel

theorem test_wit_log_entry : ({ queue := [logEntry running 0x0206] } : ErrLog).queue = [logEntry running 0x0206] ∧
    (logEntry running 0x0206).cont = none ∧ (max 999999999 1000000000) % 1000000000 = 0 ∧
    2 ≤ ({ state := 2 } : PtpSt).state ∧ ({ snap := some ⟨1, 2, 3, []⟩ } : Ob).snap = some ⟨1, 2, 3, []⟩ := by decide

theorem test_wit_bad_access : (¬ (2 = 4 ∨ 2 = 8)) ∧ 0x10006 % 4 ≠ 0 ∧
    (match findReg (regView 0x10008).1.map (regView 0x10008).2 with | some (row, _, b) => row.widthOk b 8 | none => true) = false ∧
    (owned .unlasted).reaches (.fn 7) = true ∧ (owned .unlasted).reaches owner = true := by decide +kernel

theorem test_wit_register_access : (owned .unlasted).live = true ∧ spWf OrdSt.zero (owned .unlasted).ords = true ∧
    (7 : Fin 8).val < (owned .unlasted).img.cfg.nfunc ∧ (∀ e ∈ readRows, e.2 (owned .unlasted) < 2 ^ 32) ∧
    ((owned .unlasted).ord 8).window.length = 64 ∧ (0x80000000 : W32).getLsbD 31 = true ∧ ((owned .unlasted).ord 8).mbBusy = false ∧
    (owned .unlasted).net.ctlOrder = [] ∧
    (({ owned .unlasted with ords := [(8, { mbBusy := true, d3 := true })] } : State).ord 8).mbBusy = true ∧
    (({ owned .unlasted with ords := [(8, { mbBusy := true, d3 := true })] } : State).ord 8).d3 = true := by decide

/-- R472, R554: TH_PWR_LIMIT takes the lowest legal value, and refuses one below it. -/
theorem test_power_limit : (match exec (.powerLimitWrite owner 600) (owned .running), exec (.powerLimitWrite owner 599) (owned .running) with
    | .next t, .next u => decide (t.th.limit = 600) && decide (u.th.limit = 1150) && decide (u.er.queue.map (·.code) = [0x0A06])
    | _, _ => false) = true := by decide +kernel

/-- R520: RETIRE by the owner retires the device with cause 4. -/
theorem test_retire : (match exec (.mgOrderRetire owner) (owned .unlasted) with
    | .next t => decide (t.dev = .retired) && decide (t.mg.retire = 4) | _ => false) = true := by decide +kernel

/-- R23: a read of two bytes returns zero and is logged. -/
theorem test_bad_read : (match exec (.bar0Read 0 0x10008 2 false) (owned .running) with
    | .next t => decide (t.out = [.bar0 1 0]) && decide (t.er.queue.map (·.code) = [0x0201]) | _ => false) = true := by decide +kernel

/-! Witnesses: the network and the host link (PortsComplete to SnoopsAndResponsesComplete). -/

/-- Port 1 without MACSEC. -/
def plainDev (u : SubPort) : State :=
  { msecDev u with img := { on := true, cfg := { (msecDev u).img.cfg with
      card := true, ports := List.replicate 4 { mode := 1, macsec := false, ptp := true, mac := 0x10 }, vgPort := 50001 } } }

theorem test_wit_ports : (msecDev {}).portsTrain = true ∧ (msecDev {}).subExists 4 = true ∧ (msecDev {}).subExists 5 = false ∧
    spGet 0 (msecDev {}).net.mods 1 % 4 = 2 ∧ spWf 0 (msecDev {}).net.mods = true ∧ (msecDev {}).powered = true ∧
    ((msecDev {}).port 3).mode = 1 ∧ (5 : Nat) % 4 = 1 ∧ ((msecDev { up := true }).sub 4).up = true ∧
    (plainDev { up := true }).subReceives 4 = true ∧
    (msecDev { up := true }).subReceives 4 = false ∧ (msecDev { up := true, rxSa := [(0, some ⟨1, 0, 0, 7⟩)] }).subReceives 4 = true ∧
    (plainDev { up := true }).ownAddr 4 false = 1 ∧ (msecDev {}).ownAddr 15 false = 1 ∧ (msecDev {}).ownAddr 15 true = v4Mapped 0x0A000001 ∧
    v4Mapped 0x0A000001 ≠ 0 ∧ ((msecDev { neigh := [⟨9, none, 3⟩] }).sub 4).neigh = [⟨9, none, 3⟩] := by decide +kernel

/-- A frame to sub-port 4. -/
def frame (size : Nat) (tag : Option SecTag) (payload : Payload) : Frame := ⟨true, size, 0x10, 0x86DD, tag, payload⟩

theorem test_wit_frames : (plainDev { up := true }).subExists 4 = true ∧ ((plainDev { up := true }).sub 4).up = true ∧
    (frame 64 none .other).size = 64 ∧ (frame 9216 none .other).size ≤ 9216 ∧ (plainDev { up := true }).addrOk 4 0x10 = true ∧
    etypeOk 0x86DD = true ∧ ((plainDev { up := true }).port 1).macsec = false ∧ ((msecDev { up := true }).port 1).macsec = true ∧
    ((msecDev { up := true }).sub 4).rxSci = [] ∧ (⟨9, 1, 1, true⟩ : SecTag).sci = 9 := by decide +kernel

/-- Session 3 on sub-port 4 with its partner at address 9. -/
def vgDev : State :=
  { plainDev { up := true } with parcels := [(0, { par0 with cfg := { cfg0 with sessions := [⟨3, 4, false, 0, 50000, 9⟩] } })] }

theorem test_wit_vangir_frame : vgDev.sessCfg 3 = some (0, ⟨3, 4, false, 0, 50000, 9⟩) ∧ vgDev.ownAddr 4 false = 1 ∧
    (1 : BitVec 128) ≠ 0 ∧ vgDev.addrOk 4 0x10 = true := by decide

/-- A frame to send, and a transmit association at the last packet number. -/
def txf : TxFrame := ⟨false, 0x20, 0x86DD, [1]⟩
def sa0 : Sa := ⟨2 ^ 64 - 1, 0, 0, 7⟩

theorem test_wit_transmit : (∀ x ∈ [txf], x.ptp = false) ∧
    ((msecDev { up := true, txq := [txf], txSa := [(1, some sa0)], cur := some 1 }).sub 4).usable = some (1, sa0) ∧
    ((plainDev { up := true, txq := [txf] }).sub 4).txq = [txf] := by decide

/-- A port of the time receiver. -/
def ptpDev (src : Option Nat) (x : PtpPort) : State :=
  { plainDev {} with net := { (plainDev {}).net with subs := [(12, { up := true })], ptp := { ports := [(3, x)], src := src, state := if src.isSome then 2 else 0 } } }

theorem test_wit_ptp : (ptpDev none {}).ptpReceives 3 = true ∧ (ptpDev none {}).ptpReceives 2 = false ∧ (ptpDev none {}).net.ctlOrder = [] ∧ (ptpDev none {}).net.ptp.src ≠ some 3 ∧
    (ptpDev (some 3) { delay := some 5 }).net.ptp.src = some 3 ∧ ((ptpDev (some 3) { delay := some 5 }).ptpPort 3).delay = some 5 ∧
    ((ptpDev none { sync := some (1, 2), delay := some 5 }).ptpPort 3).sync = some (1, 2) ∧
    ((ptpDev none { announces := 2 }).ptpPort 3).announces < 3 ∧ 3 ≤ ((ptpDev none { announces := 3 }).ptpPort 3).announces ∧
    (∀ q, q < 4 → ((ptpDev none { announces := 3 }).ptpPort q).qualified = false) := by decide +kernel

theorem test_wit_announce_timeout :
    let s := { ptpDev (some 3) { qualified := true } with
      net := { (ptpDev (some 3) { qualified := true }).net with ptp := { ports := [(3, { qualified := true })], src := some 3, state := 1 } } }
    s.net.ptp.src = some 3 ∧ s.net.ptp.state ≠ 2 ∧ (∀ q, q < 4 → q ≠ 3 → (s.ptpPort q).qualified = false) ∧
    spWf PtpPort.zero s.net.ptp.ports = true := by decide

theorem test_wit_link : (∀ n, n < 128 → ((plainDev {}).cell n).ext = [] ∧ ((plainDev {}).cell n).gone = []) ∧
    (plainDev {}).host.stores = [] ∧ (plainDev {}).net.ctlOrder = [] ∧ spWf Cell.zero (plainDev {}).cells = true ∧
    ({ owned .running with host := { up := true } } : State).hasFn0 = true ∧ (owned .running).hasFn0 = false ∧ (plainDev {}).mayTrain = true ∧
    (plainDev {}).host.up = false ∧ spWf none (plainDev {}).host.lines = true ∧
    (∀ p, p < 16 → ((plainDev {}).parcel p).state = .absent ∨ ((plainDev {}).parcel p).cfg.ownerSess = true) ∧
    ({ plainDev {} with host := { up := true } } : State).host.up = true ∧ (plainDev {}).sled = false ∧
    (plainDev {}).img.cfg.card = true ∧ (plainDev {}).insts = [] ∧ (∀ k, k < 385 → (plainDev {}).testing k = false) ∧
    ({ plainDev {} with mg := { assembly := 3 } } : State).sled = true := by decide +kernel

theorem test_wit_functions : (7 : Fin 8).val < (owned .running).img.cfg.nfunc ∧
    (∀ p, p < 16 → ((owned .running).parcel p).ownedBy 7 = false) ∧ running.img.on = false ∧ running.dev = .running ∧
    ({ flushing := true } : HostPort).flushing = true := by decide

theorem test_wit_snoop : (on cell0).line 64 = none ∧ (withLine cell0).line 64 = some line0 ∧
    spWf none (withLine cell0).host.lines = true ∧ (on cell0).storesOn 64 = [] ∧ (on cell0).recordsOn 64 = [] ∧
    (∀ n, n < 128 → (on cell0).waitingOn n 64 = [] ∧ (on cell0).goneOn n 64 = []) := by decide +kernel

/-- A load of the last eight bytes of the line at 4096, and the host's answer. -/
def hostLoad : ExtAcc := { kind := .load 1 8 true, target := .host, addr := 4152, pc := 0, seq := 0 }

theorem test_wit_response :
    let s := on { cell0 with ext := [hostLoad] }
    (s.cell 0).ext = [hostLoad] ∧ hostLoad.addr / 64 = 64 ∧ 64 < 2 ^ 46 ∧ hostLoad.addr % 64 + 8 ≤ 64 ∧
    (List.replicate 64 (1 : Byte)).length = 64 ∧ (∀ m, m < 128 → m ≠ 0 → (s.cell m).ext = []) ∧
    (∀ m, m < 128 → (s.cell m).sweep = none ∧ (s.cell m).gone = []) ∧ s.host.stores = [] ∧ s.recordsOn 64 = [] ∧
    s.line 64 = none ∧ spWf none s.host.lines = true ∧ spWf Cell.zero s.cells = true ∧
    (∀ w, w < (s.parcel 0).cfg.weltWays → spGet false s.host.masked (64 * 16 + (s.wayBase 0 + w)) = true) := by decide +kernel

/-- The same load for a parcel of one way; R359: the line stays in it, and masked it does not. -/
theorem test_response_fills : (let s : State := { on { cell0 with ext := [hostLoad] } with parcels := [(0, par0)] }
    match exec (.hostResponse 4096 (.line (List.replicate 64 1)) 0) s,
      exec (.hostResponse 4096 (.line (List.replicate 64 1)) 0) { s with host := { masked := [(64 * 16, true)] } } with
    | .next t, .next u => (t.line 64).isSome && (u.line 64).isNone && decide ((t.cell 0).greg 1 = 0x0101010101010101) &&
        decide ((u.cell 0).greg 1 = 0x0101010101010101)
    | _, _ => false) = true := by decide +kernel

/-! Witnesses: power, start-up, memory, the management bus, invariants (ThrottlesComplete to RetiredIsLeftOnlyByReset). -/

/-- Cell 0 of the parcel at a clock code and a temperature of 0.1 °C, in a running device. -/
def warm (clk : Nat) (t : Int) : State :=
  { dev par0 with
    cells := [(0, { cell0 with inst := none, clk := clk })], th := { cells := [(0, { temps := [t] })], stks := [(7, { temps := [(0, [t])] })] } }

theorem test_wit_throttle :
    argMax (warm 2 759).cellTemp ((warm 2 759).ungated.filter (warm 2 759).throttles) = none ∧
    argMax (warm 2 760).cellTemp ((warm 2 760).ungated.filter (warm 2 760).throttles) = some 0 ∧
    (warm 2 760).floorOf 0 < ((warm 2 760).cell 0).clk ∧
    argMax (warm 1 800).cellTemp ((warm 1 800).ungated.filter (warm 1 800).throttles) = some 0 ∧
    ((warm 1 800).cell 0).clk ≤ (warm 1 800).floorOf 0 ∧ (warm 2 760).powered = true ∧
    argMax (warm 2 720).stackTemp ((List.range 8).filter (warm 2 720).canTighten) = some 7 ∧
    (warm 1 700).rises 0 = true ∧ (warm 2 700).rises 0 = false ∧ since 0 (warm 2 760).th.lastCell 2000 = true ∧
    since 2000 (some 0) 2000 = true ∧ since 1999 (some 0) 2000 = false ∧ since 0 (warm 2 720).th.lastCap 100000 = true ∧
    since 99999 (some 0) 100000 = false := by decide +kernel

/-- The device at an average power, W. -/
def drawing (w : Nat) : State := { warm 2 0 with th := { power := [w] } }

theorem test_wit_limiter : (drawing 1150).powerAvg ≤ (drawing 1150).effLimit ∧
    (drawing 1151).effLimit < (drawing 1151).powerAvg ∧ since 0 (drawing 1151).th.lastStep 50000 = true ∧
    since 50000 (some 0) 50000 = true ∧ since 49999 (some 0) 50000 = false ∧ (drawing 1151).th.pemerg = false ∧
    ((drawing 1151).cell 0).graph.isSome = true ∧ (drawing 1151).floorOf 0 < ((drawing 1151).cell 0).clk ∧
    ((drawing 1151).cell 1).graph = none ∧ 0 + 2000000 ≤ max 0 2000000 := by decide

theorem test_wit_sensor : meanOf [879] < 880 ∧ 880 ≤ meanOf [880] ∧ (∀ m, m < 128 → m ≠ 0 → running.cellTemp m < 880) ∧
    (∀ k, k < 8 → running.stackTemp k < 840) ∧ running.hubTemp < 880 ∧ (∀ k, k < 8 → running.vrTemp k < 1000) ∧
    spWf ThCell.zero running.th.cells = true ∧ (∀ m, m < 0 → running.cellTemp m < 880) := by decide +kernel

theorem test_wit_supplies : running.dev ≠ .off ∧ running.dev ≠ .halted ∧ (10 : Fin 11).val ≠ 0 ∧
    ({ dev := .halted } : State).dev = .halted ∧ ({ mg := { assembly := 3 } } : State).sled = true ∧ running.sled = false ∧
    ({ running with th := { capacity := some (600, 450) } } : State).th.capacity = some (600, 450) ∧ running.mg.fusing = none ∧
    running.img.floorOld = none := by decide

/-- The device after a step of start-up. -/
def starting (n : Nat) : State := { dev := .starting n, mg := { rails := true, standby := true } }

theorem test_wit_startup : State.reset.dev = .off ∧ State.reset.sled = false ∧ State.reset.mg.standby = false ∧
    (starting 0).mg.rails = true ∧ (starting 2).dev = .starting 2 ∧ (starting 3).dev = .starting 3 ∧
    (starting 4).dev = .starting 4 ∧ (starting 5).dev = .starting 5 ∧ (starting 6).dev = .starting 6 ∧
    spWf Parcel.zero (starting 6).parcels = true ∧ (starting 4).slotReason [] false false ≠ 0 := by decide +kernel

/-- A copy of row 5 while its range is free, and while it is under test. -/
theorem test_wit_copy :
    let s : State := { running with stk := { copying := [(7, [5])] } }
    let t : State := { s with sv := { agents := [(128 + 32 * 7, { testing := some false, region := 5 })] } }
    ((spGet [] s.stk.copying 7).take 1).any (s.rowTested 7) = false ∧
    ((spGet [] t.stk.copying 7).take 1).any (t.rowTested 7) = true ∧ spWf [] s.stk.copying = true := by decide

theorem test_wit_stacks : 3 * 2 ^ 29 - 1 < 3 * 2 ^ 29 ∧ running.powered = true ∧ running.stk.lost.getLsbD 7 = false ∧
    (6 : Byte).toNat ≤ 6 ∧ (6 : Byte) ≠ 0 ∧ running.parcels = [] ∧ running.host.lines = [] ∧ running.dev ≠ .retired ∧
    ({ marginRun := true } : Stacks).marginRun = true ∧ ({ loss := 0x8000 } : Stacks).loss.getLsbD 15 = true ∧
    running.stk.loss.getLsbD 15 = false ∧ ({ scrubCount := 8 * (3 * 2 ^ 29) - 1 } : Stacks).scrubCount + 1 = 8 * (3 * 2 ^ 29) := by
  decide

theorem test_wit_bus : (owned .running).mg.standby = true ∧ (owned .running).mg.addr = none ∧ (0xFE : Byte) ≠ 0xFF ∧
    (1 : Byte) ≠ 0 ∧ (owned .running).we.eolNow = 0xFFFFFFFF ∧ 156 < (157 : W32).toNat ∧ (owned .running).mg.events = [] ∧
    0 + 1000000000 ≤ max 0 1000000000 ∧ max 0 999999999 < 0 + 1000000000 ∧ (0x4B : BitVec 7) ≠ 0x4A := by decide

/-- The owner's endpoint, in its session and outside it; an endpoint that is not the owner. -/
def req8 : Requester := ⟨8, some 0⟩
def plain8 : Requester := ⟨8, none⟩

theorem test_wit_messages : (owned .running).ownerAccess (asAccessor req8) = true ∧
    (owned .running).ownerAccess (asAccessor ⟨9, none⟩) = false ∧ (∀ e ∈ readRows, e.2 (owned .running) < 2 ^ 32) ∧
    (owned .running).live = true ∧ (3 : Byte) ≠ 4 ∧ (3 : Byte) ≠ 8 ∧ 16 < (17 : Byte).toNat ∧
    0x2000000 ≤ (0x2000000 : W32).toNat ∧ (0x10002 : W32).toNat % (4 : Byte).toNat ≠ 0 := by decide

/-- The device with a firmware update of the owner's in progress. -/
def updating (comp size got : Nat) (v : Option Byte) : State :=
  { owned .running with mg := { (owned .running).mg with fw := some ⟨8, true, comp, size, got, v, false⟩ } }

theorem test_wit_firmware : (updating 1 2048 1024 none).mg.fw = some ⟨8, true, 1, 2048, 1024, none, false⟩ ∧
    (updating 1 2048 1024 none).isMgmtOwner 8 = true ∧ (owned .running).takesUpdate = true ∧ (owned .running).mg.fw = none ∧
    (owned (.starting 3)).takesUpdate = false ∧ (⟨8, true, 1, 2048, 1024, none, false⟩ : FwUpd).busy = true ∧
    (⟨8, true, 1, 2048, 2048, some 0, false⟩ : FwUpd).busy = false ∧ (1048576 : W32).toNat ≤ 1048576 ∧ (1048576 : W32) ≠ 0 ∧
    1024 = min 1024 (2048 - 1024) ∧ (updating 1 2048 2048 (some 0)).mg.fw.bind (·.verify) = some 0 := by decide

theorem test_wit_spdm : (owned .running).inSession ⟨9, some 0⟩ = false ∧ (owned .running).inSession req8 = true ∧
    (owned .running).inSession plain8 = true ∧ (owned .running).spdm 1 = none ∧ spWf none (owned .running).mg.spdm = true ∧
    (owned .running).spdm 0 = some ⟨8, true, true, 0⟩ ∧
    (let s : State := { owned .running with mg := { (owned .running).mg with spdm := [(0, some ⟨8, false, false, 0⟩)] } }
     s.spdm 0 = some ⟨8, false, false, 0⟩ ∧ plain8.sess = none) ∧
    (let x : SpdmSess := ⟨9, true, false, 0⟩
     let s : State := { owned .running with mg := { (owned .running).mg with spdm := [(0, some x), (1, some x), (2, some x), (3, some x)] } }
     ∀ k, k < 4 → s.spdm k ≠ none) ∧
    0 + 180000000000 ≤ max 0 180000000000 := by decide

theorem test_wit_slots : slotsLegal State.reset = true ∧
    slotsLegal { owned .running with mg := { slots := [(3, { prog := true, revoked := true, qx := 1, qy := 2 })], fusing := some (3, 0) } } =
      true ∧
    (({ owned .running with mg := { slots := [(3, { prog := true, revoked := true, qx := 1, qy := 2 })] } } : State).keySlot 3).revoked = true := by
  decide

theorem test_wit_steps : (match step State.reset, step ({ dev := .retired, pending := [.mainInputLoss] } : State) with
    | .next t, .next u => decide (t.dev = .off) && decide (u.dev = .off) | _, _ => false) = true := by decide +kernel

/-! Steps worked out from the rules. -/

/-- R514: power on, and the first three steps of start-up. -/
theorem test_power_on : (match exec (.powerOn [(true, true, true)]) State.reset with
    | .next t => decide (t.dev = .starting 0) && decide (t.th.capacity = some (600, 0)) && t.mg.rails | _ => false) = true := by
  decide +kernel

/-- R475: 88.0 °C at a cell halts the device and latches the cell and its reading. -/
theorem test_hotstop : (match exec (.sensorSample 9 { twoCells 0 1 with cells := [(3, 880)] }) running with
    | .next t => decide (t.dev = .halted) && decide (t.th.hotstop = 0x81030370) | _ => false) = true := by decide +kernel

/-- R360: SnpInv takes a clean line. -/
theorem test_snoop_takes_line : (match exec (.hostSnoop .inv 4096) (withLine cell0) with
    | .next t => decide (t.line 64 = none) && decide (t.out = [.snoopRsp 4096 true none none false]) | _ => false) = true := by
  decide +kernel

/-- R168, R170, R546: an idle cycle advances OB_CYCLE and, at code 20, the cycle of a cell with a graph. -/
theorem test_idle_cycle : (match step { running with cells := [(0, { cell0 with inst := none, clk := 20 })] } with
    | .next t => decide (t.ob.cycle = 1) && decide ((t.cell 0).cycle = 1) && decide ((t.cell 1).cycle = 0) | _ => false) = true := by
  decide +kernel

end Sys2Proof.Tests
end

/-! SUPPORT. BAR0 accesses: what a write and a read of a register are, the accesses that R23 answers with nothing, the latched
upper halves, the order window and the mailbox; with the three statements about registers and reset. -/

namespace Sys2Proof.Machine

open Sys2Proof.Safety

/-! Accesses of BAR0 (R19 to R23). -/

theorem exec_registerWrite (who : Accessor) (off width : Nat) (v : W64) (s : State) :
    exec (.registerWrite who off width v) s = execRegisterWrite who off width v s := rfl
theorem exec_bar0Read (f : Fin 8) (off width : Nat) (b : Bool) (s : State) :
    exec (.bar0Read f off width b) s = execBar0Read f off width b s := rfl
theorem exec_lowerHalfRead (who : Accessor) (off : Nat) (b : Bool) (s : State) :
    exec (.lowerHalfRead who off b) s = execLowerHalfRead who off b s := rfl
theorem exec_mailboxGo (who : Accessor) (v : W32) (s : State) :
    exec (.mailboxGo who v) s = execMailboxGo who v s := rfl

/-- A write of an accessor that reaches its registers. -/
theorem registerWrite_reached {s : State} {who : Accessor} (h : s.reaches who = true) (off width : Nat) (v : W64) :
    exec (.registerWrite who off width v) s = .next (s.bar0Put who off width v.toNat).pump := by
  rw [exec_registerWrite, execRegisterWrite, if_pos h]

/-- A write of an accessor that does not reach its registers has no effect. -/
theorem registerWrite_unreached {s : State} {who : Accessor} (h : s.reaches who = false) (off width : Nat) (v : W64) :
    exec (.registerWrite who off width v) s = .next s := by
  rw [exec_registerWrite, execRegisterWrite, h, if_neg Bool.false_ne_true]

/-- A read of a function that reaches its registers, with no CONTROL request waiting afterwards. -/
theorem bar0Read_reached {s t : State} {f : Fin 8} {off width n : Nat} {b : Bool} (h : s.reaches (.fn f) = true)
    (hg : s.bar0Get (.fn f) off width b = (t, n)) (hq : t.net.ctlOrder = []) :
    exec (.bar0Read f off width b) s = .next (t.emit (.bar0 (1 + f) (BitVec.ofNat 64 n))) := by
  rw [exec_bar0Read, execBar0Read, h, hg]
  exact congrArg Host.Outcome.next (pump_quiet (t.emit _) hq)

/-- A function that does not reach its registers is not answered. -/
theorem bar0Read_unreached {s : State} {f : Fin 8} (h : s.reaches (.fn f) = false) (off width : Nat) (b : Bool) :
    exec (.bar0Read f off width b) s = .next s := by
  rw [exec_bar0Read, execBar0Read, h]
  rfl

/-- A 32-bit read of an accessor that reaches its registers, with no CONTROL request waiting afterwards. -/
theorem lowerHalfRead_reached {s t : State} {who : Accessor} {off n : Nat} {b : Bool} (h : s.reaches who = true)
    (hg : s.bar0Get who off 4 b = (t, n)) (hq : t.net.ctlOrder = []) :
    exec (.lowerHalfRead who off b) s = .next (t.emit (.bar0 (accIndex who) (BitVec.ofNat 64 n))) := by
  rw [exec_lowerHalfRead, execLowerHalfRead, h, hg]
  exact congrArg Host.Outcome.next (pump_quiet (t.emit _) hq)

/-! Bad accesses (R23). -/

/-- R23: an access of another width than 4 or 8 or not aligned, or one wider than the register it meets. -/
def BadAccess (off width : Nat) : Prop :=
  ((width ≠ 4 ∧ width ≠ 8) ∨ off % width ≠ 0) ∨
    ∃ row i b, findReg (regView off).1.map (regView off).2 = some (row, i, b) ∧ row.widthOk b width = false

/-- R23: a bad write is only logged. -/
theorem bar0Put_bad {off width : Nat} (h : BadAccess off width) (s : State) (who : Accessor) (x : Nat) :
    s.bar0Put who off width x = s.badAccess who off := by
  by_cases hshape : (width ≠ 4 ∧ width ≠ 8) ∨ off % width ≠ 0
  · simp only [State.bar0Put, if_pos hshape]
  · obtain ⟨row, i, b, hf, hb⟩ := h.resolve_left hshape
    simp [State.bar0Put, hf, hb]

/-- R23: a bad read is logged and gives zero. -/
theorem bar0Get_bad {off width : Nat} (h : BadAccess off width) (s : State) (who : Accessor) (b : Bool) :
    s.bar0Get who off width b = (s.badAccess who off, 0) := by
  by_cases hshape : (width ≠ 4 ∧ width ≠ 8) ∨ off % width ≠ 0
  · simp only [State.bar0Get, if_pos hshape]
  · obtain ⟨row, i, b, hf, hb⟩ := h.resolve_left hshape
    simp [State.bar0Get, hf, hb]

/-- R530: an entry without a continuation enters the input queue while a place of its 64 is free. -/
theorem log_room {s : State} {e : LogEntry} (hl : s.er.lost = false) (hc : e.cont = none)
    (hr : s.er.queue.foldl (fun n x => n + if x.cont.isSome then 2 else 1) 0 < 64) :
    s.log e = { s with er := { s.er with queue := s.er.queue ++ [e] } } := by
  have hfit : s.er.queue.foldl (fun n x => n + if x.cont.isSome then 2 else 1) 0 + 1 ≤ 64 := hr
  simp only [State.log, hl, hc, Option.isSome_none, Bool.false_eq_true, if_false, if_pos hfit]

/-- Settles O42: a read and a write check the shape of an access before they look at its register, and its width before they
look at the rights; what either check finds is logged and nothing else happens (log entry 43 for the width). -/
theorem badAccessReadsZero : Obligations.BadAccessReadsZero := by
  intro s off width hq hbad
  have hbad : BadAccess off width := or_assoc.mpr hbad
  have hquiet (who : Accessor) : (s.badAccess who off).net.ctlOrder = [] := by
    rw [State.badAccess, state_log_net]
    exact hq
  refine ⟨fun who hl hr => log_room hl rfl hr, fun who v hreach => ?_, fun f b hreach => ?_⟩
  · rw [registerWrite_reached hreach, bar0Put_bad hbad, pump_quiet _ (hquiet who)]
    rfl
  · rw [bar0Read_reached hreach (bar0Get_bad hbad s (.fn f) b) (hquiet (.fn f))]
    simp only [State.emit, State.badAccess, state_log_out, BitVec.ofNat_eq_ofNat]

/-! Accesses that meet a register (R21, R555 to R558). -/

/-- An access of `width` bytes at an offset is whole and aligned, and meets byte b of number i of a row of view v. -/
structure Meets (off width : Nat) (v : RegView) (row : RegRow) (i b : Nat) : Prop where
  whole : width = 4 ∨ width = 8
  aligned : off % width = 0
  view : (regView off).1 = v
  found : findReg v.map (regView off).2 = some (row, i, b)
  fits : row.widthOk b width = true

/-- A write that meets a register which the accessor sees and may write is performed. -/
theorem bar0Put_meets {off width : Nat} {v : RegView} {row : RegRow} {i b : Nat} (h : Meets off width v row i b) {s : State}
    {who : Accessor} (hs : s.sees who v row.reg i = true) (hm : s.mayWrite who row = true) (x : Nat) :
    s.bar0Put who off width x = s.writeRow who off v row i b width (x % 2 ^ (8 * width)) := by
  obtain ⟨hw, ha, rfl, hf, hb⟩ := h
  have hshape : ¬((width ≠ 4 ∧ width ≠ 8) ∨ off % width ≠ 0) := by omega
  simp [State.bar0Put, if_neg hshape, hf, hb, hs, hm]

/-- A write that meets a register which the accessor may not write has no effect. -/
theorem bar0Put_refused {off width : Nat} {v : RegView} {row : RegRow} {i b : Nat} (h : Meets off width v row i b) {s : State}
    {who : Accessor} (hm : s.mayWrite who row = false) (x : Nat) : s.bar0Put who off width x = s := by
  obtain ⟨hw, ha, rfl, hf, hb⟩ := h
  have hshape : ¬((width ≠ 4 ∧ width ≠ 8) ∨ off % width ≠ 0) := by omega
  simp [State.bar0Put, if_neg hshape, hf, hb, hm]

/-- A read that meets a register which the accessor sees reads it. -/
theorem bar0Get_meets {off width : Nat} {v : RegView} {row : RegRow} {i b : Nat} (h : Meets off width v row i b) {s : State}
    {who : Accessor} (hs : s.sees who v row.reg i = true) :
    s.bar0Get who off width false = s.readReg (accIndex who) off v row i b width := by
  obtain ⟨hw, ha, rfl, hf, hb⟩ := h
  have hshape : ¬((width ≠ 4 ∧ width ≠ 8) ∨ off % width ≠ 0) := by omega
  simp [State.bar0Get, if_neg hshape, hf, hb, hs]

/-- R557: the device registers that stand once for each sub-port or session, where that exists. -/
def Reg.perUnit : Reg → Bool
  | .npSub | .npMsecRpw | .npMsecTxan | .npCounter | .vgRoute | .vgNosess
  | .vgSess | .vgSretx | .vgSdisc | .vgSrxdrop => true
  | _ => false

/-- R556: a powered device shows its other registers to every accessor. -/
theorem sees_device {s : State} {r : Reg} (hl : s.live = true) (hr : r.perUnit = false) (who : Accessor) (i : Nat) :
    s.sees who .device r i = true := by
  simp only [State.sees, hl, Bool.true_or, Bool.true_and]
  split
  case h_11 => rfl
  all_goals cases hr

/-- R561: a function writes no register of the management plane's but OB_TRACE_WBASE. -/
theorem mayWrite_fn {row : RegRow} (hw : row.wr = .m) (hr : row.reg ≠ .obTraceWbase) (s : State) (f : Fin 8) :
    s.mayWrite (.fn f) row = false := by
  simp [State.mayWrite, hw, hr]

/-- R561: the management owner writes them all. -/
theorem mayWrite_owner {s : State} {who : Accessor} (ho : s.ownerAccess who = true) {row : RegRow} (hw : row.wr = .m) :
    s.mayWrite who row = true := by
  cases who with
  | fn f => cases ho
  | mgmt e k => simp [State.mayWrite, hw]

/-- The management owner reaches its registers. -/
theorem reaches_owner {s : State} {who : Accessor} (ho : s.ownerAccess who = true) : s.reaches who = true := by
  cases who with
  | fn f => cases ho
  | mgmt e k => exact ho

/-- R21: what lets an access of 4 bytes at an offset meet a 32-bit device register r that stands once, with its writers. -/
abbrev IsWord (off : Nat) (r : Reg) (w : Writers) : Prop :=
  off % 4 = 0 ∧ regView off = (.device, off) ∧ findReg RegView.device.map off = some ({ reg := r, off := off, wr := w }, 0, 0) ∧
    r.perUnit = false ∧ r ≠ .obTraceWbase

/-- The access meets the register, whole. -/
theorem meets_word {off : Nat} {r : Reg} {w : Writers} (h : IsWord off r w) :
    Meets off 4 .device { reg := r, off := off, wr := w } 0 0 := by
  obtain ⟨ha, hv, hf, -, -⟩ := h
  exact ⟨.inl rfl, ha, by rw [hv], by rw [hv, hf], rfl⟩

/-- A 32-bit value given in 64 bits, cut to its 4 bytes. -/
theorem toNat_word_of_quad (v : W32) : (v.setWidth 64).toNat % 2 ^ (8 * 4) = v.toNat := by
  have := v.isLt
  rw [BitVec.toNat_setWidth]
  omega

/-- R19: the owner's write to such a register of the management plane's sets it. -/
theorem registerWrite_word {off : Nat} {r : Reg} (h : IsWord off r .m) {s : State} (hl : s.live = true) {who : Accessor}
    (ho : s.ownerAccess who = true) (v : W32) :
    exec (.registerWrite who off 4 (v.setWidth 64)) s = .next (s.setReg who .device r 0 v.toNat).pump := by
  have hm := meets_word h
  obtain ⟨-, -, -, honce, -⟩ := h
  rw [registerWrite_reached (reaches_owner ho), bar0Put_meets hm (sees_device hl honce who 0) (mayWrite_owner ho rfl),
    toNat_word_of_quad]
  rfl

/-- R352: a function's write to such a register has no effect. -/
theorem registerWrite_word_fn {off : Nat} {r : Reg} (h : IsWord off r .m) {s : State} (hq : s.net.ctlOrder = [])
    (f : Fin 8) (v : W64) : exec (.registerWrite (.fn f) off 4 v) s = .next s := by
  cases hf : s.reaches (.fn f) with
  | false => exact registerWrite_unreached hf off 4 v
  | true =>
    have hm := meets_word h
    obtain ⟨-, -, -, -, hbase⟩ := h
    rw [registerWrite_reached hf, bar0Put_refused hm (mayWrite_fn rfl hbase s f), pump_quiet s hq]

/-- R21: a read of the whole of a register that is no window. -/
theorem readReg_whole {row : RegRow} {width : Nat} (hp : row.win = false) (hc : row.reg ≠ .npCounter)
    (hw : width = 8 ∨ row.size = 4) (s : State) (a off : Nat) (v : RegView) (i b : Nat) :
    s.readReg a off v row i b width = (s, s.regValue a v row.reg i / 2 ^ (64 * (b / 8)) % 2 ^ (8 * width)) := by
  simp [State.readReg, hp, hc, hw]

/-- R22: the upper half of a 64-bit register is held for the offset at which it is read. -/
def OrdSt.hold (off : Nat) (x : W32) (o : OrdSt) : OrdSt := { o with latch := spPut none (some x) off o.latch }

theorem d3_hold (off : Nat) (x : W32) (o : OrdSt) : (o.hold off x).d3 = o.d3 := rfl

/-- R22: a read of the lower half of a 64-bit register holds its upper half. -/
theorem readReg_lower {row : RegRow} (hp : row.win = false) (hc : row.reg ≠ .npCounter) (hs : row.size = 8)
    (s : State) (a off : Nat) (v : RegView) (i : Nat) :
    s.readReg a off v row i 0 4 =
      (s.modOrd a (OrdSt.hold (off + 4) (BitVec.ofNat 32 (s.regValue a v row.reg i / 2 ^ 32))),
        s.regValue a v row.reg i % 2 ^ 32) := by
  unfold OrdSt.hold
  simp [State.readReg, hp, hc, hs]

/-- R22: a read of the upper half gives what the read of the lower half held, once. -/
theorem readReg_upper {row : RegRow} (hp : row.win = false) (hs : row.size = 8) {s : State} {a off : Nat} {x : W32}
    (hx : spGet none (s.ord a).latch off = some x) (v : RegView) (i : Nat) :
    s.readReg a off v row i 4 4 =
      (s.modOrd a (fun o => { o with latch := spPut none none off o.latch }), x.toNat) := by
  simp [State.readReg, hp, hs, hx]

/-- A read of a 32-bit register gives its value. -/
theorem bar0Get_word {off : Nat} {r : Reg} {w : Writers} (h : IsWord off r w) {s : State} (hl : s.live = true)
    (who : Accessor) : s.bar0Get who off 4 false = (s, s.regValue (accIndex who) .device r 0 % 2 ^ 32) := by
  have hm := meets_word h
  obtain ⟨-, -, -, honce, -⟩ := h
  have hc : r ≠ .npCounter := by
    rintro rfl
    cases honce
  rw [bar0Get_meets hm (sees_device hl honce who 0), readReg_whole rfl hc (.inr rfl)]
  simp

/-! What the writes and reads of single registers are. -/

theorem setReg_svCtrl (s : State) (who : Accessor) (i x : Nat) : s.setReg who .device .svCtrl i x =
    { s with sv := { s.sv with ctrl := BitVec.ofNat 32 x &&& 0x00FFFF0F } } := rfl
theorem setReg_tkOverrun (s : State) (who : Accessor) (i x : Nat) : s.setReg who .device .tkOverrun i x =
    { s with tk := { s.tk with overrun := s.tk.overrun &&& ~~~BitVec.ofNat 32 x } } := rfl
theorem setReg_thEmerg (s : State) (who : Accessor) (i x : Nat) : s.setReg who .device .thEmerg i x =
    { s with th := { s.th with emergs := s.th.emergs &&& ~~~BitVec.ofNat 32 x } } := rfl
theorem setReg_npPtpCfg (s : State) (who : Accessor) (i x : Nat) : s.setReg who .device .npPtpCfg i x =
    { s with net := { s.net with ptp := { s.net.ptp with domain := BitVec.ofNat 8 (x % 128) } } } := rfl
theorem setReg_mgOrderResult (s : State) (who : Accessor) (i x : Nat) : s.setReg who .device .mgOrderResult i x =
    { s with mg := { s.mg with orderDone := s.mg.orderDone && !decide (x / 2 ^ 8 % 2 = 1) } } := rfl

theorem regValue_mgState (s : State) (a i : Nat) : s.regValue a .device .mgState i = s.mg.step * 256 + s.dev.code := by
  simp only [State.regValue, State.readMg, State.readNp, State.readVg, State.readSm, State.readTh, State.readSv, State.readOb,
    Nat.add_zero]

/-- Each row of `writeRows` stands at a register whose write is what the row says; no CONTROL request comes to wait. -/
theorem writeRows_sound {e : Nat × (State → W32 → State)} (he : e ∈ writeRows) :
    ∃ r, IsWord e.1 r .m ∧ ∀ s who v, s.setReg who .device r 0 v.toNat = e.2 s v ∧
      (e.2 s v).net.ctlOrder = s.net.ctlOrder := by
  simp only [writeRows, List.mem_cons, List.not_mem_nil, or_false] at he
  obtain rfl | rfl | rfl | rfl | rfl := he
  · exact ⟨.svCtrl, by decide, fun s who v => ⟨by simp [setReg_svCtrl], rfl⟩⟩
  · exact ⟨.tkOverrun, by decide, fun s who v => ⟨by simp [setReg_tkOverrun], rfl⟩⟩
  · exact ⟨.thEmerg, by decide, fun s who v => ⟨by simp [setReg_thEmerg], rfl⟩⟩
  · exact ⟨.npPtpCfg, by decide, fun s who v => ⟨setReg_npPtpCfg s who 0 _, rfl⟩⟩
  · refine ⟨.mgOrderResult, by decide, fun s who v => ⟨?_, rfl⟩⟩
    rw [setReg_mgOrderResult, ← Nat.testBit_eq_decide_div_mod_eq]
    rfl

/-- Each row of `readRows` stands at a register whose value is what the row says. -/
theorem readRows_sound {e : Nat × (State → Nat)} (he : e ∈ readRows) :
    ∃ r w, IsWord e.1 r w ∧ ∀ s a, s.regValue a .device r 0 = e.2 s := by
  simp only [readRows, List.mem_cons, List.not_mem_nil, or_false] at he
  obtain rfl | rfl | rfl | rfl | rfl | rfl := he
  · exact ⟨.mgState, .none, by decide, fun s a => regValue_mgState s a 0⟩
  · exact ⟨.mgResetCause, .none, by decide, fun s a => rfl⟩
  · exact ⟨.tkCount, .none, by decide, fun s a => rfl⟩
  · exact ⟨.tkOverrun, .m, by decide, fun s a => rfl⟩
  · exact ⟨.svCtrl, .m, by decide, fun s a => Nat.zero_add _⟩
  · exact ⟨.erDropped, .none, by decide, fun s a => Nat.zero_add _⟩

/-! The latched upper half (R22). -/

theorem regValue_npDatum (s : State) (a i : Nat) : s.regValue a .device .npDatum i = s.datum := Nat.zero_add _
theorem regValue_obCycle (s : State) (a i : Nat) : s.regValue a .device .obCycle i = s.ob.cycle.toNat := Nat.zero_add _

/-- R565: the row of NP_DATUM. -/
def npDatumRow : RegRow := { reg := .npDatum, off := 0x50018, size := 8 }
theorem meets_npDatum_lower : Meets 0x50018 4 .device npDatumRow 0 0 :=
  ⟨.inl rfl, rfl, by decide, by decide, rfl⟩
theorem meets_npDatum_upper : Meets 0x5001C 4 .device npDatumRow 0 4 :=
  ⟨.inl rfl, rfl, by decide, by decide, rfl⟩

/-- R566: the row of OB_CYCLE. -/
def obCycleRow : RegRow := { reg := .obCycle, off := 0x100020, size := 8 }
theorem meets_obCycle : Meets 0x100020 8 .device obCycleRow 0 0 :=
  ⟨.inr rfl, rfl, by decide, by decide +kernel, rfl⟩

/-- An accessor reaches its registers as before when its window has been changed, but for D3hot. -/
theorem reaches_modOrd {s : State} (hw : spWf OrdSt.zero s.ords = true) {who : Accessor} {f : OrdSt → OrdSt}
    (hf : ∀ o, (f o).d3 = o.d3) : (s.modOrd (accIndex who) f).reaches who = s.reaches who := by
  cases who with
  | fn g =>
    have ho : (s.modOrd (accIndex (.fn g)) f).ord (1 + g) = f (s.ord (1 + g)) := ord_modOrd_self hw _ f
    simp only [State.reaches, ho, hf]
    rfl
  | mgmt e k => rfl

/-- What an accessor has been sent, and the datum, do not bear on whether it reaches its registers. -/
theorem reaches_emit_datum (s : State) (who : Accessor) (o : Output) (d : Nat) :
    State.reaches { s.emit o with datum := d } who = s.reaches who := by
  cases who <;> rfl

/-- R546: an 8-byte read of OB_CYCLE. -/
theorem obCycle_read {s : State} (hl : s.live = true) {f : Fin 8} (h : s.reaches (.fn f) = true) (hq : s.net.ctlOrder = []) :
    exec (.bar0Read f 0x100020 8 false) s = .next (s.emit (.bar0 (1 + f) s.ob.cycle)) := by
  have hg : s.bar0Get (.fn f) 0x100020 8 false = (s, s.ob.cycle.toNat) := by
    rw [bar0Get_meets meets_obCycle (sees_device hl rfl (.fn f) 0),
      readReg_whole rfl (by decide) (.inl rfl), obCycleRow, regValue_obCycle]
    simp [Nat.mod_eq_of_lt s.ob.cycle.isLt]
  rw [bar0Read_reached h hg hq, BitVec.ofNat_toNat, BitVec.setWidth_eq]

/-- R22: a read of NP_DATUM's lower half holds the upper one. -/
theorem npDatum_read_lower {s : State} (hl : s.live = true) (hq : s.net.ctlOrder = []) {who : Accessor}
    (h : s.reaches who = true) : exec (.lowerHalfRead who 0x50018 false) s =
      .next ((s.modOrd (accIndex who) (OrdSt.hold 0x5001C (BitVec.ofNat 32 (s.datum / 2 ^ 32)))).emit
        (.bar0 (accIndex who) (BitVec.ofNat 64 (s.datum % 2 ^ 32)))) := by
  refine lowerHalfRead_reached h ?_ hq
  rw [bar0Get_meets meets_npDatum_lower (sees_device hl rfl who 0), readReg_lower rfl (by decide) rfl, npDatumRow,
    regValue_npDatum]

/-- R22: a read of NP_DATUM's upper half answers what is held of it. -/
theorem npDatum_read_upper {s : State} (hl : s.live = true) (hq : s.net.ctlOrder = []) {who : Accessor}
    (h : s.reaches who = true) {x : W32} (hx : spGet none (s.ord (accIndex who)).latch 0x5001C = some x) :
    ∃ u, exec (.lowerHalfRead who 0x5001C false) s = .next u ∧
      u.out = .bar0 (accIndex who) (BitVec.ofNat 64 x.toNat) :: s.out := by
  have hg := (bar0Get_meets meets_npDatum_upper (sees_device hl rfl who 0)).trans (readReg_upper rfl rfl hx _ _)
  exact ⟨_, lowerHalfRead_reached h hg hq, rfl⟩

/-- R22: NP_DATUM read in two halves: the upper one as it stood when the lower one was read. -/
theorem npDatum_read_halves {s : State} (hl : s.live = true) (hw : spWf OrdSt.zero s.ords = true) (hq : s.net.ctlOrder = [])
    {who : Accessor} (h : s.reaches who = true) : ∃ t, exec (.lowerHalfRead who 0x50018 false) s = .next t ∧
      t.out = .bar0 (accIndex who) (BitVec.ofNat 64 (s.datum % 2 ^ 32)) :: s.out ∧
      ∀ later, ∃ u, exec (.lowerHalfRead who 0x5001C false) { t with datum := later } = .next u ∧
        u.out = .bar0 (accIndex who) (BitVec.ofNat 64 (s.datum / 2 ^ 32 % 2 ^ 32)) :: t.out := by
  refine ⟨_, npDatum_read_lower hl hq h, rfl, fun later => ?_⟩
  have hreach := (reaches_modOrd hw (d3_hold 0x5001C (BitVec.ofNat 32 (s.datum / 2 ^ 32)))).trans h
  have hheld := congrArg OrdSt.latch
    (ord_modOrd_self hw (accIndex who) (OrdSt.hold 0x5001C (BitVec.ofNat 32 (s.datum / 2 ^ 32))))
  rw [← BitVec.toNat_ofNat]
  refine npDatum_read_upper ?_ ?_ ((reaches_emit_datum _ who _ later).trans hreach)
    ((congrArg (spGet none · 0x5001C) hheld).trans (spGet_spPut_of_ne _ _ (Option.some_ne_none _)))
  · exact hl
  · exact hq

/-! The order window (R117, R570). -/

/-- Bytes put into a list long enough are its field there. -/
theorem field_patchBytes {bs : List Byte} {off : Nat} (new : List Byte) (h : off ≤ bs.length) :
    field (patchBytes bs off new) off new.length = leNat new := by
  have hl : (bs.take off).length = off := List.length_take_of_le h
  rw [field, patchBytes, List.append_assoc, List.drop_append_of_le_length (by omega), List.drop_of_length_le (by omega)]
  simp

/-- R569: the row of FE_ORD. -/
def feOrdRow : RegRow := { reg := .feOrd, off := 0x800000, size := 64, wr := .a, win := true }
theorem meets_feOrd (k : Fin 16) : Meets (0x800000 + 4 * k) 4 .function feOrdRow 0 (4 * k) := by
  have hall : ∀ k : Fin 16, (0x800000 + 4 * k.val) % 4 = 0 ∧
      regView (0x800000 + 4 * k.val) = (.function, 0x800000 + 4 * k.val) ∧
      findReg RegView.function.map (0x800000 + 4 * k.val) = some (feOrdRow, 0, 4 * k.val) ∧
      feOrdRow.widthOk (4 * k.val) 4 = true := by decide
  obtain ⟨ha, hv, hf, hb⟩ := hall k
  exact ⟨.inl rfl, ha, by rw [hv], by rw [hv]; exact hf, hb⟩

/-- R570: an accessor's write of 4 bytes to FE_ORD puts them in its own window. -/
theorem registerWrite_feOrd {s : State} (hl : s.live = true) (hq : s.net.ctlOrder = []) {who : Accessor}
    (h : s.reaches who = true) (k : Fin 16) (v : W32) :
    exec (.registerWrite who (0x800000 + 4 * k) 4 (v.setWidth 64)) s = .next (s.modOrd (accIndex who) (fun o =>
      { o with window := patchBytes o.window (4 * k) (leBytes 4 v.toNat) })) := by
  have hs : s.sees who .function feOrdRow.reg 0 = true := by
    cases who <;> simp [State.sees, hl, feOrdRow]
  rw [registerWrite_reached h, bar0Put_meets (meets_feOrd k) hs rfl, toNat_word_of_quad]
  exact congrArg Host.Outcome.next (pump_quiet _ hq)

/-! The mailbox (R71 to R74, R358). -/

/-- A window changed to one that shows DONE of LS_PUSH_RESULT is read back, in any list of windows. -/
theorem ord_modOrd_pushDone {s : State} {a : Nat} {f : OrdSt → OrdSt} (h : (f (s.ord a)).pushDone = true) :
    (s.modOrd a f).ord a = f (s.ord a) := by
  refine spGet_spPut_of_ne _ _ fun e => ?_
  have e : f (s.ord a) = OrdSt.zero := e
  rw [e] at h
  cases h

/-- R355: a function event leaves LS_PUSH_RESULT alone. -/
theorem fnEvent_pushDone {s : State} {a : Nat} (h : (s.ord a).pushDone = true) (bit : Nat) :
    ((s.fnEvent a bit).ord a).pushDone = true ∧ ((s.fnEvent a bit).ord a).pushCode = (s.ord a).pushCode := by
  unfold State.fnEvent State.callMsix
  split
  · exact ⟨h, rfl⟩
  · rw [ord_modOrd_pushDone, ord_modOrd_pushDone]
    · exact ⟨h, rfl⟩
    · exact h
    · rw [ord_modOrd_pushDone] <;> exact h

@[simp] theorem fnEvent_parcels (s : State) (a bit : Nat) : (s.fnEvent a bit).parcels = s.parcels := by
  unfold State.fnEvent
  split <;> rfl

/-- R73, R358: a push judged shows DONE and its code in LS_PUSH_RESULT. -/
theorem ord_pushResult (s : State) (a code : Nat) : ((s.pushResult a code).ord a).pushDone = true ∧
    ((s.pushResult a code).ord a).pushCode = BitVec.ofNat 8 code := by
  have hset := ord_modOrd_pushDone (s := s) (a := a)
    (f := fun o => { o with pushDone := true, pushCode := BitVec.ofNat 8 code, mbBusy := decide (code = 0) }) rfl
  have hev := fnEvent_pushDone (by rw [hset]) 1
  exact ⟨hev.1, hev.2.trans (by rw [hset])⟩

/-- R358: MAILBOX_GO by an accessor that reaches its registers. -/
theorem mailboxGo_reached {s : State} (hl : s.live = true) {who : Accessor} (h : s.reaches who = true) (v : W32) :
    exec (.mailboxGo who v) s = .next (s.mailGo who v) := by
  simp [exec_mailboxGo, execMailboxGo, hl, h]

/-- R358: LS_MB_CTRL written without GO. -/
theorem mailGo_off (s : State) (who : Accessor) {v : W32} (hv : v.getLsbD 31 = false) : s.mailGo who v = s := by
  simp only [State.mailGo, hv, Bool.not_false, if_true]

/-- R358: GO with the mailbox free pushes as many of its bytes as the value says. -/
theorem mailGo_push {s : State} {who : Accessor} {v : W32} (hv : v.getLsbD 31 = true)
    (hb : (s.ord (accIndex who)).mbBusy = false) :
    s.mailGo who v =
      let r := s.pushImage (pusherOf who) ((List.range (v.toNat % 2 ^ 21)).map (s.ord (accIndex who)).mailByte)
      r.2.pushResult (accIndex who) r.1 := by
  simp only [State.mailGo, hv, hb, Bool.not_true, Bool.false_eq_true, if_false]

/-- R358: GO with the mailbox busy is only logged. -/
theorem mailGo_busy {s : State} {who : Accessor} {v : W32} (hv : v.getLsbD 31 = true)
    (hb : (s.ord (accIndex who)).mbBusy = true) :
    s.mailGo who v = s.log { logEntry s 0x0602 with unit := accUnit who } := by
  simp only [State.mailGo, hv, hb, Bool.not_true, Bool.false_eq_true, if_false, if_true]

/-- Settles O43: each clause is the law of the access that it names, at the registers that it names. -/
theorem registerAccessesComplete : Obligations.RegisterAccessesComplete := by
  intro s who f hq hl hw
  refine ⟨fun ho e he v => ?_, fun _ e he v => ?_, fun hr e he hlt => ?_, npDatum_read_halves hl hw hq,
    fun hr => obCycle_read hl hr hq, fun hd off width b => ?_, fun hr k v => ?_, fun hr v => ⟨fun hv => ?_, fun hv hb => ?_,
      fun hv hb => ?_⟩⟩
  · obtain ⟨r, hword, hset⟩ := writeRows_sound he
    obtain ⟨hval, hctl⟩ := hset s who v
    rw [registerWrite_word hword hl ho, hval, pump_quiet _ (hctl.trans hq)]
  · obtain ⟨r, hword, -⟩ := writeRows_sound he
    exact registerWrite_word_fn hword hq f v
  · obtain ⟨r, w, hword, hval⟩ := readRows_sound he
    rw [lowerHalfRead_reached hr (bar0Get_word hword hl who) hq, hval, Nat.mod_eq_of_lt hlt]
  · exact bar0Read_unreached (by simp [State.reaches, hd]) off width b
  · refine ⟨_, registerWrite_feOrd hl hq hr k v, rfl, fun hlen => ?_⟩
    have hfield := field_patchBytes (leBytes 4 v.toNat) (bs := (s.ord (accIndex who)).window) (off := 4 * k) (by omega)
    rw [length_leBytes, leNat_leBytes, Nat.mod_eq_of_lt (show v.toNat < 256 ^ 4 from v.isLt)] at hfield
    rw [ord_modOrd_self hw]
    exact hfield
  · rw [mailboxGo_reached hl hr, mailGo_off s who hv]
  · rw [mailboxGo_reached hl hr, mailGo_busy hv hb]
  · refine ⟨_, mailboxGo_reached hl hr v, ?_⟩
    rw [mailGo_push hv hb]
    obtain ⟨hdone, hcode⟩ := ord_pushResult _ _ _
    exact ⟨hdone, hcode, fnEvent_parcels _ _ _⟩

/-! The machine right after reset (R20, R514). -/

/-- Settles O57: every field named stands at its default, which is its reset value. -/
theorem resetState : Obligations.ResetState := by
  unfold Obligations.ResetState
  decide

end Sys2Proof.Machine

/-! SUPPORT. The host link: accesses that do not wait for the host, the functions' configuration, the lines of the Welt and
the warm reset of PERST_n; with the statement about the link's commands. -/

namespace Sys2Proof.Machine

/-! What changes nothing. -/

/-- A fold each of whose steps leaves the start as it is leaves it as it is. -/
theorem foldl_stays {α β : Type} {g : β → α → β} {b : β} {l : List α} (h : ∀ a ∈ l, g b a = b) : l.foldl g b = b :=
  List.foldlRecOn (motive := (· = b)) l g rfl fun _ ht a ha => ht ▸ h a ha

/-- In canonical form, writing what a number reads changes nothing. -/
theorem spPut_spGet {α : Type} [DecidableEq α] {d : α} {m : Sparse α} (h : spWf d m = true) (k : Nat) :
    spPut d (spGet d m k) k m = m := by
  induction m with
  | nil => simp [spPut]
  | cons e t ih =>
    obtain ⟨a, x⟩ := e
    obtain ⟨hx, -, ht⟩ := (spWf_cons d x a t).1 h
    rcases Nat.lt_trichotomy a k with hak | rfl | hka
    · rw [spGet, if_neg (Nat.ne_of_lt hak), spPut, if_pos hak, ih ht]
    · simp [spGet, spPut, hx]
    · rw [spGet, if_neg (Nat.ne_of_gt hka), spGet_of_lt h (Nat.le_of_lt hka), spPut, if_neg (Nat.lt_asymm hka),
        if_neg (Nat.ne_of_gt hka), if_pos rfl]

/-- In canonical form, a change that a cell does not feel changes nothing. -/
theorem modCell_same {s : State} (h : spWf Cell.zero s.cells = true) {n : Nat} {f : Cell → Cell}
    (hf : f (s.cell n) = s.cell n) : s.modCell n f = s := by
  rw [State.modCell, hf, State.setCell, State.cell, spPut_spGet h]

/-! Nothing waits for the host (R360, R361, R368, R369). -/

/-- No access of a cell and no store waits for the host; the cells are in canonical form. -/
structure HostIdle (s : State) : Prop where
  accesses : ∀ n, n < 128 → (s.cell n).ext = [] ∧ (s.cell n).gone = []
  stores : s.host.stores = []
  cells : spWf Cell.zero s.cells = true

theorem HostIdle.of_cells {s t : State} (h : HostIdle s) (hc : t.cells = s.cells) (hs : t.host.stores = []) : HostIdle t where
  accesses n hn := by rw [State.cell, hc]; exact h.accesses n hn
  stores := hs
  cells := hc ▸ h.cells

theorem linesOf_idle {s : State} (h : HostIdle s) {n : Nat} (hn : n < 128) : s.linesOf n = [] := by
  obtain ⟨he, hg⟩ := h.accesses n hn
  simp [State.linesOf, he, hg]

/-- A change of the accesses of a cell that has none changes nothing. -/
theorem cell_mapAccesses {c : Cell} (he : c.ext = []) (hg : c.gone = []) (f : ExtAcc → ExtAcc) :
    ({ c with ext := c.ext.map f, gone := c.gone.map f } : Cell) = c := by
  cases c
  simp_all

theorem askHeld_idle {s : State} (h : HostIdle s) {n : Nat} (hn : n < 128) : s.askHeld n = s := by
  obtain ⟨he, hg⟩ := h.accesses n hn
  rw [State.askHeld, he, hg, modCell_same h.cells (cell_mapAccesses he hg ExtAcc.send)]
  rfl

/-- R368, R369: with nothing waiting, nothing is served. -/
theorem serveAll_idle {s : State} (h : HostIdle s) : s.serveAll = s := by
  have hcells : (List.range 128).foldl (fun s n => ((s.linesOf n).foldl (fun s k => s.serveCell n k) s).askHeld n) s = s :=
    foldl_stays fun n hn => by
      rw [linesOf_idle h (List.mem_range.1 hn), List.foldl_nil, askHeld_idle h (List.mem_range.1 hn)]
  rw [State.serveAll, hcells]
  exact runStores_quiet s none h.stores

/-- R349: with nothing waiting, a retrain asks for nothing again. -/
theorem askAgain_idle {s : State} (h : HostIdle s) : s.askAgain = s := by
  have hcells : (List.range 128).foldl (fun s n =>
      if (s.cell n).ext.isEmpty && (s.cell n).gone.isEmpty then s
      else s.modCell n (fun c => { c with ext := c.ext.map ExtAcc.unsend, gone := c.gone.map ExtAcc.unsend })) s = s :=
    foldl_stays fun n hn => by
      obtain ⟨he, hg⟩ := h.accesses n (List.mem_range.1 hn)
      simp [he, hg]
  have hhost : s.modHost (fun x => { x with stores := x.stores.map (fun e => { e with asked := false }) }) = s := by
    rw [State.modHost, h.stores, List.map_nil, ← h.stores]
  rw [State.askAgain, hcells, hhost, serveAll_idle h]

/-! The functions' configuration (R353, R510, R521). -/

/-- What a reset of its function leaves of an order window. -/
def OrdSt.fnReset (o : OrdSt) : OrdSt := { o with event := 0, msix := [], msixPending := [], msixDue := [], d3 := false }

theorem resetFunction_eq (s : State) (f : Nat) : s.resetFunction f = s.modOrd (f + 1) OrdSt.fnReset := rfl

theorem ord_resetFunction_modOrd {s : State} (h : spWf OrdSt.zero s.ords = true) (f : Nat) (g : OrdSt → OrdSt) :
    ((s.resetFunction f).modOrd (f + 1) g).ord (f + 1) = g (s.ord (f + 1)).fnReset := by
  rw [resetFunction_eq, ord_modOrd_self (spWf_spMod h (f + 1) OrdSt.fnReset), ord_modOrd_self h]

/-- A reset of functions touches order windows alone. -/
theorem resetFunctions_frame (s : State) : s.resetFunctions = { s with ords := s.resetFunctions.ords } := by
  unfold State.resetFunctions
  exact List.foldlRecOn (motive := fun t : State => t = { s with ords := t.ords }) (List.range 8) _ rfl
    fun t ht f _ => by rw [ht]; rfl

/-- A fold of function resets resets the functions of its list. -/
theorem ord_foldl_resetFunction (l : List Nat) {s : State} (h : spWf OrdSt.zero s.ords = true) (f : Nat) :
    (l.foldl (fun s f => s.resetFunction f) s).ord (f + 1) = if f ∈ l then (s.ord (f + 1)).fnReset else s.ord (f + 1) := by
  induction l generalizing s with
  | nil => rfl
  | cons g t ih =>
    rw [List.foldl_cons, ih (s := s.resetFunction g) (spWf_spMod h (g + 1) OrdSt.fnReset), resetFunction_eq]
    by_cases hg : f = g
    · subst hg
      rw [ord_modOrd_self h, if_pos List.mem_cons_self]
      split <;> rfl
    · rw [ord_modOrd_ne s _ (by omega)]
      simp only [List.mem_cons, hg, false_or]

theorem ord_resetFunctions {s : State} (h : spWf OrdSt.zero s.ords = true) (f : Fin 8) :
    s.resetFunctions.ord (f + 1) = (s.ord (f + 1)).fnReset :=
  (ord_foldl_resetFunction (List.range 8) h f).trans (if_pos (List.mem_range.2 f.isLt))

/-- R353, R513: a function-level reset of a function that owns no parcel. -/
theorem functionLevelReset_free {s : State} {f : Fin 8} (hf : f.val < s.img.cfg.nfunc)
    (hp : ∀ p, p < 16 → (s.parcel p).ownedBy f = false) :
    exec (.functionLevelReset f) s = .next ((s.resetFunction f).modOrd (f + 1) (fun o =>
      { o with mboxFree := [(0, 0x100000, s.fresh)] })).useFresh := by
  have hnone : (List.range 16).find? (fun p => (s.parcel p).ownedBy f) = none :=
    List.find?_eq_none.2 fun p hm => by simp [hp p (List.mem_range.1 hm)]
  show execFunctionLevelReset f s = _
  unfold execFunctionLevelReset
  rw [if_neg (Nat.not_le.2 hf)]
  dsimp only
  split
  · rfl
  · next p h => exact absurd (h.symm.trans hnone) (Option.some_ne_none p)

/-- R354: a function that the image presents changes its power state. -/
theorem powerStateChange_present {s : State} {f : Fin 8} (hf : f.val < s.img.cfg.nfunc) (d3 : Bool) :
    exec (.powerStateChange f d3) s = .next (s.modOrd (f + 1) (fun o => { o with d3 := d3 })) :=
  if_neg (Nat.not_le.2 hf)

/-! The link comes up and goes down (R349, R350, R366 to R368). -/

/-- R349, R350: the link trains: the functions answer from reset, and a degraded link is logged. -/
theorem linkUp_trains {s : State} (hm : s.mayTrain = true) (hu : s.host.up = false) {width speed : Nat}
    (hw : 1 ≤ width) (hw' : width ≤ 16) (hs : 1 ≤ speed) (hs' : speed ≤ 6) (flit cache : Bool) :
    ∃ u, u = s.resetFunctions.modHost (fun h => { h with
          up := true, flit := flit, cache := cache, degraded := decide (width < 16) || decide (speed < 6), speed := speed
          width := width, dead := false }) ∧
      exec (.linkUp width speed flit cache) s = .next (if decide (width < 16) || decide (speed < 6) then
        u.log { logEntry u 0x0601 with arg := u.host.link.setWidth 64 } else u).askAgain := by
  have hgo : ¬ (!s.mayTrain ∨ s.host.up ∨ width = 0 ∨ 16 < width ∨ speed = 0 ∨ 6 < speed) := by
    simp [hm, hu]
    omega
  exact ⟨_, rfl, if_neg hgo⟩

/-- R349, R350: the link reaches L0 with nothing waiting for the host. -/
theorem linkUp_idle {s : State} (h : HostIdle s) (hm : s.mayTrain = true) (hu : s.host.up = false) {width speed : Nat}
    (hw : 1 ≤ width) (hw' : width ≤ 16) (hs : 1 ≤ speed) (hs' : speed ≤ 6) (flit cache : Bool) :
    ∃ t, exec (.linkUp width speed flit cache) s = .next t ∧ t.ords = s.resetFunctions.ords ∧
      t.host = { s.host with
        up := true, flit := flit, cache := cache, degraded := decide (width < 16) || decide (speed < 6), speed := speed
        width := width, dead := false } := by
  obtain ⟨u, hlink, hexec⟩ := linkUp_trains hm hu hw hw' hs hs' flit cache
  have hords : u.ords = s.resetFunctions.ords := by rw [hlink, state_modHost_ords]
  have hcells : u.cells = s.cells := by rw [hlink, state_modHost_cells, resetFunctions_frame]
  have hhost : s.resetFunctions.host = s.host := by rw [resetFunctions_frame]
  refine ⟨_, hexec.trans (congrArg Host.Outcome.next (askAgain_idle (h.of_cells ?_ ?_))), ?_, ?_⟩
  · split <;> simp [hcells]
  · split <;> simp [hlink, hhost, h.stores]
  · split <;> simp [hords]
  · split <;> simp [hlink, hhost]

/-- R366 to R368: what the loss of the link leaves of the link and the Welt. -/
def HostPort.lost (h : HostPort) : HostPort :=
  let dirty := (h.lines.filter (fun e => match e.2 with | some l => decide (l.st = .m) | none => false)).length
  { h.linkDown with dead := true, lines := [], stores := [], lostLines := satAdd32 h.lostLines dirty }

theorem loseLink_idle {s : State} (h : HostIdle s) : s.loseLink = s.modHost HostPort.lost := by
  have hserve := serveAll_idle (h.of_cells (t := s.modHost HostPort.lost) rfl rfl)
  rw [← hserve]
  unfold State.loseLink
  rw [h.stores]
  rfl

/-- R368: where no function owns a parcel, the loss of the link resets none. -/
theorem resetHostParcels_none {s : State}
    (h : ∀ p, p < 16 → (s.parcel p).state = .absent ∨ (s.parcel p).cfg.ownerSess = true) : s.resetHostParcels = s := by
  have hnone : (List.range 16).filter (fun p => decide ((s.parcel p).state ≠ .absent) && !(s.parcel p).cfg.ownerSess) = [] :=
    List.filter_eq_nil_iff.2 fun p hp => by
      rcases h p (List.mem_range.1 hp) with h | h <;> simp [h]
  rw [State.resetHostParcels, hnone, List.foldl_nil]

/-- R368: the link is lost with nothing waiting for the host, and with no parcel to reset. -/
theorem linkDown_idle {s : State} (h : HostIdle s) (hq : s.net.ctlOrder = []) (hu : s.host.up = true)
    (hp : s.dev ≠ .running ∨ ∀ p, p < 16 → (s.parcel p).state = .absent ∨ (s.parcel p).cfg.ownerSess = true) :
    exec .linkDown s = .next (s.modHost HostPort.lost) := by
  show execLinkDown s = _
  rw [execLinkDown, hu, Bool.not_true, if_neg Bool.false_ne_true, loseLink_idle h]
  refine congrArg Host.Outcome.next ?_
  split
  · next hrun =>
    rw [resetHostParcels_none (s := s.modHost HostPort.lost) (hp.resolve_left (not_not.2 hrun))]
    exact pump_quiet _ hq
  · rfl

/-! The Welt is written back (R361, R369). -/

/-- R361: what a line sends as it leaves the Welt. -/
def WLine.leaves (k : Nat) (l : WLine) : Output :=
  if l.st = .m then .hostWrite (64 * k) l.bytes l.poison else .weltReq 3 (64 * k)

theorem evict_held {s : State} {k : Nat} {l : WLine} (h : s.line k = some l) :
    s.evict k = (s.setLine k none).emit (l.leaves k) := by
  rw [State.evict, h, WLine.leaves]
  exact (apply_ite (s.setLine k none).emit _ _ _).symm

/-- R361: from lines in canonical form, all leave the Welt, each with what it sends. -/
theorem evictAll_eq {s : State} (h : spWf none s.host.lines = true) :
    s.evictAll = { s with
      host := { s.host with lines := [] }
      out := (s.host.lines.filterMap fun e => e.2.map (WLine.leaves e.1)).reverse ++ s.out } := by
  unfold State.evictAll
  generalize hm : s.host.lines = m at h ⊢
  induction m generalizing s with
  | nil =>
    have hlines : ({ s.host with lines := [] } : HostPort) = s.host := by rw [← hm]
    exact congrArg (fun x => ({ s with host := x } : State)) hlines.symm
  | cons e t ih =>
    obtain ⟨k, x⟩ := e
    obtain ⟨hx, -, ht⟩ := (spWf_cons none x k t).1 h
    obtain ⟨l, rfl⟩ := Option.ne_none_iff_exists'.1 hx
    have hl : s.line k = some l := by simp [State.line, hm, spGet]
    have hrest : (s.evict k).host.lines = t := by simp [evict_held hl, State.setLine, hm, spPut]
    rw [List.map_cons, List.foldl_cons, ih hrest ht, evict_held hl]
    simp [State.setLine, State.modHost, State.emit]

/-- R361, R369: the write-back completes with nothing waiting for the host. -/
theorem cacheWritebackComplete_idle {s : State} (h : HostIdle s) (hl : spWf none s.host.lines = true)
    (hf : s.host.flushing = true) :
    exec .cacheWritebackComplete s = .next { s with
      host := { s.host with lines := [], flushing := false, invalid := true }
      out := .weltReq 4 0 :: ((s.host.lines.filterMap fun e => e.2.map (WLine.leaves e.1)).reverse ++ s.out) } := by
  show execCacheWritebackComplete s = _
  rw [execCacheWritebackComplete, hf, Bool.not_true, if_neg Bool.false_ne_true, evictAll_eq hl]
  exact congrArg Host.Outcome.next (serveAll_idle (h.of_cells rfl h.stores))

/-- A number whose value is not the default stands in the list. -/
theorem mem_of_spGet {α : Type} {d : α} {m : Sparse α} {k : Nat} (h : spGet d m k ≠ d) : (k, spGet d m k) ∈ m := by
  induction m with
  | nil => exact absurd rfl h
  | cons e t ih =>
    obtain ⟨a, x⟩ := e
    rw [spGet] at h ⊢
    split at h
    · next ha => rw [if_pos ha, ← ha]; exact List.mem_cons_self
    · next ha => rw [if_neg ha]; exact List.mem_cons_of_mem _ (ih h)

/-- The bytes of a modified line are among what the lines of the Welt send as they leave. -/
theorem hostWrite_mem_leaves {s : State} {k : Nat} {l : WLine} (h : s.line k = some l) (hd : l.st = .m) :
    .hostWrite (64 * k) l.bytes l.poison ∈ s.host.lines.filterMap fun e => e.2.map (WLine.leaves e.1) := by
  have hk : spGet none s.host.lines k = some l := h
  have hmem := mem_of_spGet (hk.trans_ne (Option.some_ne_none l))
  rw [hk] at hmem
  exact List.mem_filterMap.2 ⟨_, hmem, by simp [WLine.leaves, hd]⟩

/-! The write-back and disable controls (R369). -/

theorem cacheDisable_idle {s : State} (h : HostIdle s) (hf : s.hasFn0 = true) (b : Bool) :
    exec (.cacheDisable b) s = .next (s.modHost fun x => { x with disabled := b }) := by
  show execCacheDisable b s = _
  have hserve := serveAll_idle (h.of_cells (t := s.modHost fun x => { x with disabled := b }) rfl h.stores)
  simp only [execCacheDisable, hf, hserve, Bool.not_true, Bool.false_eq_true, if_false, ite_self]

/-! The warm reset of PERST_n (R507, R508, R521). -/

/-- The run state, the datum, the tick machine, stacked memory, PERST_n, the parcels and the cause of the last reset. -/
def State.warmView (s : State) : DevState × Nat × TickSt × Sparse Byte × Bool × Sparse Parcel × Byte :=
  (s.dev, s.datum, s.tk, s.stk.mem, s.host.perst, s.parcels, s.mg.resetCause)

theorem parcels_of_warmView {s t : State} (h : t.warmView = s.warmView) (hp : s.parcels = []) : t.parcels = [] :=
  (congrArg (·.2.2.2.2.2.1) h).trans hp

theorem warmView_log (s : State) (e : LogEntry) : (s.log e).warmView = s.warmView := by simp [State.warmView]

theorem warmView_pldmEvent (s : State) (cls : Byte) (data : List Byte) : (s.pldmEvent cls data).warmView = s.warmView := by
  unfold State.pldmEvent
  dsimp only
  split <;> rfl

theorem warmView_fnEvent (s : State) (a bit : Nat) : (s.fnEvent a bit).warmView = s.warmView := by
  unfold State.fnEvent
  split <;> rfl

theorem warmView_allFnEvent (s : State) (bit : Nat) : (s.allFnEvent bit).warmView = s.warmView :=
  List.foldlRecOn (motive := fun t : State => t.warmView = s.warmView) _ _ rfl
    fun t ht f _ => (warmView_fnEvent t (f + 1) bit).trans ht

theorem vgAlertAll_noParcel {s : State} (h : s.parcels = []) (source : Nat) : s.vgAlertAll source = s := by
  rw [State.vgAlertAll, h, List.foldl_nil]

/-- R532: without parcels, an alert leaves what the view shows. -/
theorem warmView_alert {s : State} (h : s.parcels = []) (bit : Nat) (code : W16) :
    (s.alert bit code).warmView = s.warmView := by
  unfold State.alert
  split
  · rfl
  · dsimp only
    rw [vgAlertAll_noParcel, warmView_allFnEvent, warmView_pldmEvent]
    · rfl
    · exact parcels_of_warmView ((warmView_allFnEvent _ 2).trans (warmView_pldmEvent _ _ _)) h

theorem warmView_ptpUnlock {s : State} (h : s.parcels = []) : s.ptpUnlock.warmView = s.warmView := by
  rw [State.ptpUnlock, warmView_alert, warmView_log]
  exact parcels_of_warmView (warmView_log s _) h

/-- R392, R508: without parcels, the datum of a warm reset enters HOLDOVER and leaves what the view shows. -/
theorem warmView_ptpWarm {s : State} (h : s.parcels = []) (old : PtpSt) : (s.ptpWarm old).warmView = s.warmView := by
  unfold State.ptpWarm
  dsimp only
  split
  · exact warmView_ptpUnlock h
  · rfl

theorem warmView_toDev (s : State) (d : DevState) : (s.toDev d).warmView = ({ s with dev := d } : State).warmView := by
  unfold State.toDev
  dsimp only
  split
  · rfl
  · exact warmView_pldmEvent _ _ _

/-- R596: the end of an update touches the management plane and the image slots alone. -/
theorem dropUpdate_frame (s : State) : s.dropUpdate = { s with mg := s.dropUpdate.mg, img := s.dropUpdate.img } := by
  unfold State.dropUpdate
  split <;> rfl

/-- R508, R509: a warm reset of a device in which no graph runs and no region is under test. -/
theorem warmReset_quiet {s : State} (hi : s.insts = []) (ht : ∀ k, k < 385 → s.testing k = false) (cause : Nat) :
    (s.warmReset cause).warmView =
      (.starting 3, s.datum, {}, s.stk.mem, s.host.perst, [], BitVec.ofNat 8 cause) := by
  have hinsts : s.dropUpdate.insts = [] := by rw [dropUpdate_frame]; exact hi
  have hends : (List.range 385).foldl (fun s k => if s.testing k then s.endTest k else s) s.dropUpdate = s.dropUpdate :=
    foldl_stays fun k hk => by
      have hk : s.dropUpdate.testing k = false := by rw [dropUpdate_frame]; exact ht k (List.mem_range.1 hk)
      rw [hk, if_neg Bool.false_ne_true]
  have hview := warmView_toDev s.dropUpdate (.starting 3)
  have hdev : (s.dropUpdate.toDev (.starting 3)).dev = .starting 3 := congrArg Prod.fst hview
  have hdatum : (s.dropUpdate.toDev (.starting 3)).datum = s.dropUpdate.datum := congrArg (·.2.1) hview
  unfold State.warmReset
  dsimp only
  rw [hends, hinsts, List.filterMap_nil, List.foldl_nil, warmView_ptpWarm (by simp [State.logReset]), State.logReset,
    warmView_log]
  simp only [State.warmView, hdev, hdatum]
  rw [dropUpdate_frame]
  rfl

/-- R507: PERST_n asserted on a card in service, with an image: a warm reset. -/
theorem perstAssert_card {s : State} (hs : s.sled = false) (hd : s.dev = .running) (hon : s.img.on = true)
    (hc : s.img.cfg.card = true) :
    exec .perstAssert s = .next ((s.modHost fun h => { h with perst := true }).warmReset 4) := by
  show execPerstAssert s = _
  simp [execPerstAssert, hs, hd, hon, hc]

/-- R507: PERST_n asserted without an image is ignored and logged. -/
theorem perstAssert_noImage {s : State} (hs : s.sled = false) (hd : s.dev = .running) (hon : s.img.on = false) :
    exec .perstAssert s = .next ((s.modHost fun h => { h with perst := true }).log (logEntry s 0x1002)) := by
  show execPerstAssert s = _
  simp [execPerstAssert, hs, hd, hon, logEntry]

/-- R521: PERST_n asserted in RETIRED: the link is lost and the functions return to reset. -/
theorem perstAssert_retired {s : State} (hs : s.sled = false) (hd : s.dev = .retired) :
    exec .perstAssert s = .next (s.modHost fun h => { h with perst := true }).loseLink.resetFunctions := by
  show execPerstAssert s = _
  simp [execPerstAssert, hs, hd]

/-- R521: PERST_n asserted in RETIRED with nothing waiting for the host: the link is down, the Welt is empty and the functions
are reset. -/
theorem perstAssert_retired_idle {s : State} (h : HostIdle s) (hs : s.sled = false) (hd : s.dev = .retired) :
    ∃ u, u = s.modHost (fun h => ({ h with perst := true } : HostPort).lost) ∧
      exec .perstAssert s = .next u.resetFunctions := by
  have hidle := h.of_cells (t := s.modHost fun h => { h with perst := true }) rfl h.stores
  exact ⟨_, rfl, by rw [perstAssert_retired hs hd, loseLink_idle hidle]; rfl⟩

/-- Settles O47: each clause is the law of the command that it names, with nothing waiting for the host. -/
theorem hostLinkCompletes : Obligations.HostLinkCompletes := by
  intro s f hacc hstores hq hords hlines hcells
  have hidle : HostIdle s := ⟨hacc, hstores, hcells⟩
  refine ⟨fun width speed flit cache hm hu hw hw' hs hs' => ?_, fun hu hp => ?_,
    fun hs => ⟨fun hd hon hc hi ht => ?_, fun hd hon => perstAssert_noImage hs hd hon, fun hd => ?_, ?_⟩,
    fun hs => ⟨if_pos hs, if_pos hs⟩, fun hf => ⟨fun hp => ?_, fun d3 => ?_⟩,
    fun h0 => ⟨if_pos h0, cacheDisable_idle hidle h0⟩, fun h0 => ⟨?_, fun b => ?_⟩, fun hf => ?_⟩
  · obtain ⟨t, hexec, htords, hthost⟩ := linkUp_idle hidle hm hu hw hw' hs hs' flit cache
    have hfn : t.ord (f + 1) = (s.ord (f + 1)).fnReset := by rw [State.ord, htords]; exact ord_resetFunctions hords f
    exact ⟨t, hexec, hthost, by rw [hfn]; rfl, by rw [hfn]; rfl, by rw [hfn]; rfl⟩
  · rw [linkDown_idle hidle hq hu hp, State.modHost, HostPort.lost, ← hstores]
    rfl
  · have hview := warmReset_quiet (s := s.modHost fun h => { h with perst := true }) hi ht 4
    simp only [State.warmView, Prod.mk.injEq] at hview
    obtain ⟨hdev, hdatum, htk, hmem, hperst, -, hcause⟩ := hview
    exact ⟨_, perstAssert_card hs hd hon hc, hdev, hcause, hperst, hdatum, htk, hmem⟩
  · obtain ⟨u, hu, hexec⟩ := perstAssert_retired_idle hidle hs hd
    have hfn : u.resetFunctions.ord (f + 1) = (u.ord (f + 1)).fnReset := ord_resetFunctions (by rw [hu]; exact hords) f
    refine ⟨_, hexec, ?_, ?_, ?_, by rw [hfn]; rfl⟩ <;> rw [resetFunctions_frame, hu]
    · exact hd
    · rfl
    · rfl
  · exact if_neg (by simp [hs])
  · exact ⟨_, functionLevelReset_free hf hp, rfl,
      ord_resetFunction_modOrd hords f fun o => { o with mboxFree := [(0, 0x100000, s.fresh)] }⟩
  · exact ⟨_, powerStateChange_present hf d3, rfl, ord_modOrd_self hords _ _, fun a ha => ord_modOrd_ne s _ ha⟩
  · exact if_neg (by simp [h0])
  · exact if_pos (by simp [h0])
  · refine ⟨_, cacheWritebackComplete_idle hidle hlines hf, rfl, rfl, rfl, rfl, fun k l hl hm => ?_⟩
    exact List.mem_cons_of_mem _ (List.mem_append_left _ (List.mem_reverse.2 (hostWrite_mem_leaves hl hm)))

end Sys2Proof.Machine

/-! SUPPORT. The key slots (R65, R562): every command but a key record and a loss of the standby supply leaves them alone, and
those two take back neither a key nor a revoke bit. -/

namespace Sys2Proof.Machine

open Sys2Proof.Safety

/-! What leaves the fuses alone. -/

/-- The key slots and the key slot that is burning. -/
def State.fuses (s : State) : Sparse KeySlot × Option (Nat × Nat) := (s.mg.slots, s.mg.fusing)

theorem fuses_of_kept {s t : State} (h : t.kept = s.kept) : t.fuses = s.fuses := congrArg (·.2.2) h

theorem fuses_foldl {α : Type} (l : List α) (g : State → α → State) (h : ∀ s x, (g s x).fuses = s.fuses) (s : State) :
    (l.foldl g s).fuses = s.fuses := by
  induction l generalizing s with
  | nil => rfl
  | cons a l ih => rw [List.foldl_cons, ih, h]

@[simp] theorem fuses_toDev (s : State) (d : DevState) : (s.toDev d).fuses = s.fuses := by
  unfold State.toDev
  dsimp only
  split
  · rfl
  · exact (fuses_of_kept (kept_pldmEvent _ _ _) : _ = State.fuses { s with dev := d })

@[simp] theorem fuses_stepDone (s : State) (k : Nat) : (s.stepDone k).fuses = s.fuses := rfl

@[simp] theorem fuses_at (s : State) (t : Nat) : (s.at t).fuses = s.fuses := rfl

@[simp] theorem fuses_endBuild (s : State) : s.endBuild.fuses = s.fuses := fuses_of_kept (kept_endBuild s)

@[simp] theorem fuses_log (s : State) (e : LogEntry) : (s.log e).fuses = s.fuses := fuses_of_kept (kept_log s e)

@[simp] theorem fuses_dropUpdate (s : State) : s.dropUpdate.fuses = s.fuses := fuses_of_kept (kept_dropUpdate s)

@[simp] theorem fuses_pump (s : State) : s.pump.fuses = s.fuses := fuses_of_kept (kept_pump s)

@[simp] theorem fuses_retire (s : State) (cause : Nat) : (s.retire cause).fuses = s.fuses := by
  unfold State.retire
  split
  · rfl
  · have hparcels (l : List Nat) (u : State) : (l.foldl (fun s p => s.retireParcel p) u).kept = u.kept :=
      kept_foldl l _ (fun u p => kept_retireParcel u p) u
    dsimp only
    refine Eq.trans (fuses_of_kept ?_) (fuses_toDev { s with
      tk := {}, mg := { s.mg with retire := BitVec.ofNat 8 cause }, img := { s.img with building := false } } .retired)
    simp [hparcels]

@[simp] theorem fuses_loseStack (s : State) (k chan cause : Nat) : (s.loseStack k chan cause).fuses = s.fuses := by
  refine (fuses_retire _ 1).trans (fuses_of_kept ?_)
  rw [kept_alert, kept_log]
  split <;> rfl

@[simp] theorem fuses_startRails (s : State) : s.startRails.fuses = s.fuses := by
  unfold State.startRails
  split
  · split
    · exact fuses_log _ _
    · rfl
  · rfl

@[simp] theorem fuses_coldReset (s : State) (cause : Nat) : (s.coldReset cause).fuses = s.fuses := by
  exact (fuses_startRails _).trans ((fuses_log _ _).trans (fuses_dropUpdate s))

@[simp] theorem fuses_warmReset (s : State) (cause : Nat) : (s.warmReset cause).fuses = s.fuses := by
  have hends (l : List Nat) (u : State) : (l.foldl (fun s k => if s.testing k then s.endTest k else s) u).kept = u.kept :=
    kept_foldl l _ (fun u k => by split; exacts [kept_endTest u k, rfl]) u
  have haborts (l : List Inst) (u : State) :
      (l.foldl (fun s x => x.cells.foldl (fun s n => s.abortCell n) s) u).kept = u.kept :=
    kept_foldl l _ (fun u x => kept_foldl _ _ (fun u n => kept_abortCell u n) u) u
  unfold State.warmReset
  generalize List.range 385 = regions
  dsimp only
  refine (fuses_of_kept (kept_ptpWarm _ _)).trans ((fuses_log _ _).trans ?_)
  exact (fuses_of_kept ((haborts _ _).trans (hends _ _))).trans (fuses_dropUpdate s)

@[simp] theorem fuses_deviceOrder (s : State) (who : Accessor) (op : Nat) : (s.deviceOrder who op).fuses = s.fuses := by
  unfold State.deviceOrder
  have hcode (c : Nat) : (s.orderCode c).fuses = s.fuses := rfl
  split
  · rfl
  · dsimp only
    (repeat' split) <;> simp [hcode]

@[simp] theorem fuses_hardShutdown (s : State) (units : List (Nat × Nat × Nat)) : (s.hardShutdown units).fuses = s.fuses := by
  unfold State.hardShutdown
  split
  · rfl
  · exact (fuses_toDev _ .halted).trans (fuses_foldl _ _ (fun s u => fuses_log s _) s)

@[simp] theorem fuses_loseMain (s : State) : s.loseMain.fuses = s.fuses := by
  unfold State.loseMain
  split
  · rfl
  · rfl
  · exact fuses_toDev _ .off

/-! The commands that leave the fuses alone, though not all of the four that Keeps speaks of. -/

/-- A command's next state has the same fuses. -/
def KeepsFuses (s : State) (o : Out) : Prop := match o with | .next t => t.fuses = s.fuses | _ => True

@[simp] theorem keepsFuses_next (s t : State) : KeepsFuses s (.next t) ↔ t.fuses = s.fuses := Iff.rfl

theorem keepsFuses_of_keeps {s : State} {o : Out} (h : Keeps s o) : KeepsFuses s o := by
  cases o with
  | next t => exact fuses_of_kept h
  | fault r => trivial
  | refused r => trivial

theorem keepsFuses_if {s : State} {p : Prop} [Decidable p] {a b : Out} (ha : KeepsFuses s a) (hb : KeepsFuses s b) :
    KeepsFuses s (if p then a else b) := by split <;> assumption

theorem keepsFuses_deviceBuildEnd (at' : Nat) (s : State) : KeepsFuses s (execDeviceBuildEnd at' s) := by
  unfold execDeviceBuildEnd
  dsimp only
  (repeat' split) <;> simp

theorem keepsFuses_hubUncorrectableError (unit : W16) (addr : W64) (s : State) :
    KeepsFuses s (execHubUncorrectableError unit addr s) :=
  keepsFuses_if rfl ((fuses_retire _ 2).trans (fuses_log _ _))

theorem keepsFuses_imageFetch (badA badB : Bool) (s : State) : KeepsFuses s (execImageFetch badA badB s) := by
  unfold execImageFetch
  dsimp only
  have hlog (b : Bool) (k : Nat) (u : State) :
      (if b then u.log { logEntry u 0x0F02 with aux := BitVec.ofNat 8 k } else u).fuses = u.fuses := by
    split <;> simp
  have hlogs := (hlog badB 2 _).trans (hlog badA 1 s)
  exact keepsFuses_if rfl (keepsFuses_if ((fuses_toDev _ .unlasted).trans hlogs) hlogs)

theorem keepsFuses_perstAssert (s : State) : KeepsFuses s (execPerstAssert s) := by
  unfold execPerstAssert
  dsimp only
  (repeat' split)
  · rfl
  · rfl
  · exact fuses_of_kept ((kept_resetFunctions _).trans (kept_loseLink _))
  · exact fuses_warmReset _ 4
  · exact fuses_log _ _

theorem keepsFuses_postPackageRepair (s : State) : KeepsFuses s (execPostPackageRepair s) := keepsFuses_if rfl rfl

theorem keepsFuses_powerOn (sense : List (Bool × Bool × Bool)) (s : State) : KeepsFuses s (execPowerOn sense s) :=
  keepsFuses_if rfl (fuses_coldReset _ 1)

/-- R481, R489, R490, R494: what the power-on self-test finds in the logic, the cells, the Welt and the stacks is mended or
fenced, and is recorded. -/
def State.postMend (s : State) (find : PostFind) : State :=
  let s := { s with we := { s.we with fences := 0 } }
  let s := find.logic.foldl (fun s n => s.postLogic n) s
  let s := find.cells.foldl (fun s e => if e.2.2.fails.isEmpty then s else s.postCell e.1 e.2.1 e.2.2) s
  let s := find.welt.foldl (fun s e => s.postRegion 384 e.1 false e.2 (s.mendWelt e.1 e.2)) s
  let s := find.ranges.foldl (fun s e => s.postRegion (128 + 32 * e.1 + e.2.1) e.2.2.1 true e.2.2.2
    (s.mendRange e.1 e.2.1 e.2.2.1 e.2.2.2)) s
  s.postRegs find.parts

/-- R479: every stack, store, tile and accumulator is zero after the self-test. -/
def State.postZero (s : State) : State :=
  { s with stk := { s.stk with mem := [], poison := [], unsettled := [], wrote := [] }, cells := [] }

/-- R453: the stacks of the channels that fail are lost; those lost already stay as they are. -/
def State.loseStacks (s : State) (l : List (Fin 8 × Fin 16)) (cause : Nat) : State :=
  l.foldl (fun s e => if s.stk.lost.getLsbD e.1 then s else s.loseStack e.1 e.2 cause) s

theorem execPowerOnSelfTest_eq (find : PostFind) (s : State) : execPowerOnSelfTest find s =
    if s.dev ≠ .starting 2 then .next s
    else .next (if find.hub then (((s.stepDone 3).postMend find).postZero.loseStacks find.channels 6).retire 3
      else ((s.stepDone 3).postMend find).postZero.loseStacks find.channels 6) := rfl

@[simp] theorem fuses_loseStacks (s : State) (l : List (Fin 8 × Fin 16)) (cause : Nat) :
    (s.loseStacks l cause).fuses = s.fuses :=
  fuses_foldl _ _ (fun s e => by split <;> simp) s

/-- What the self-test mends touches none of the four that Keeps speaks of. -/
@[simp] theorem kept_postMend (s : State) (find : PostFind) : (s.postMend find).kept = s.kept := by
  have hlogic (u : State) : (find.logic.foldl (fun s n => s.postLogic n) u).kept = u.kept :=
    kept_foldl _ _ (fun u (n : Fin 128) => kept_postLogic u n) u
  have hcells (u : State) :
      (find.cells.foldl (fun s e => if e.2.2.fails.isEmpty then s else s.postCell e.1 e.2.1 e.2.2) u).kept = u.kept :=
    kept_foldl _ _ (fun u e => by split; exacts [rfl, kept_postCell ..]) u
  have hwelt (u : State) :
      (find.welt.foldl (fun s e => s.postRegion 384 e.1 false e.2 (s.mendWelt e.1 e.2)) u).kept = u.kept :=
    kept_foldl _ _ (fun u e => kept_postRegion _ _ _ _ _ _ (kept_mendWelt ..)) u
  have hranges (u : State) : (find.ranges.foldl (fun s e => s.postRegion (128 + 32 * e.1 + e.2.1) e.2.2.1 true e.2.2.2
      (s.mendRange e.1 e.2.1 e.2.2.1 e.2.2.2)) u).kept = u.kept :=
    kept_foldl _ _ (fun u e => kept_postRegion _ _ _ _ _ _ (kept_mendRange ..)) u
  exact (kept_postRegs _ _).trans ((hranges _).trans ((hwelt _).trans ((hcells _).trans (hlogic _))))

theorem keepsFuses_powerOnSelfTest (find : PostFind) (s : State) : KeepsFuses s (execPowerOnSelfTest find s) := by
  rw [execPowerOnSelfTest_eq]
  have hmend : ((s.stepDone 3).postMend find).postZero.fuses = s.fuses :=
    (fuses_of_kept (kept_postMend (s.stepDone 3) find) : _ = (s.stepDone 3).fuses)
  have hlose := (fuses_loseStacks _ find.channels 6).trans hmend
  refine keepsFuses_if rfl ?_
  rw [keepsFuses_next]
  split
  · exact (fuses_retire _ 3).trans hlose
  · exact hlose

theorem keepsFuses_pwrEnLow (s : State) : KeepsFuses s (execPwrEnLow s) := keepsFuses_if (fuses_loseMain s) rfl

theorem keepsFuses_railFault (stage : Fin 11) (s : State) : KeepsFuses s (execRailFault stage s) := by
  unfold execRailFault
  (repeat' split) <;> simp

theorem keepsFuses_ready (at' : Nat) (s : State) : KeepsFuses s (execReady at' s) :=
  keepsFuses_if rfl ((fuses_toDev _ .running).trans (fuses_endBuild _))

theorem keepsFuses_sensorSample (at' : Nat) (smp : Sample) (s : State) : KeepsFuses s (execSensorSample at' smp s) :=
  keepsFuses_if rfl ((fuses_hardShutdown _ _).trans (fuses_of_kept (by simp)))

theorem keepsFuses_stackLost (stack : Fin 8) (chan : Fin 16) (cause : Byte) (s : State) :
    KeepsFuses s (execStackLost stack chan cause s) := keepsFuses_if rfl (fuses_loseStack s _ _ _)

theorem keepsFuses_stackTraining (fails : List (Fin 8 × Fin 16)) (s : State) :
    KeepsFuses s (execStackTraining fails s) := keepsFuses_if rfl (fuses_loseStacks _ fails 1)

theorem keepsFuses_startupBuild (s : State) : KeepsFuses s (execStartupBuild s) := by
  have hbuild (b : List Byte) : (s.recall.applyDevice b s.img.sel).fuses = s.fuses :=
    fuses_of_kept ((kept_applyDevice _ _ _).trans (kept_recall s))
  exact keepsFuses_if rfl (hbuild _)

/-! A key slot is only burned further. -/

/-- Key slot b holds all that slot a held: its key once it is programmed, and its revoke bit once it is set. -/
def KeySlot.Within (a b : KeySlot) : Prop :=
  (a.prog = true → b.prog = true ∧ b.qx = a.qx ∧ b.qy = a.qy) ∧ (a.revoked = true → b.revoked = true)

theorem KeySlot.Within.refl (a : KeySlot) : a.Within a := ⟨fun h => ⟨h, rfl, rfl⟩, id⟩

theorem KeySlot.Within.trans {a b c : KeySlot} (hab : a.Within b) (hbc : b.Within c) : a.Within c := by
  refine ⟨fun ha => ?_, fun ha => hbc.2 (hab.2 ha)⟩
  obtain ⟨hb, hbx, hby⟩ := hab.1 ha
  obtain ⟨hc, hcx, hcy⟩ := hbc.1 hb
  exact ⟨hc, hcx.trans hbx, hcy.trans hby⟩

/-- From legal key slots of s, those of t are legal and hold all that those of s held. -/
def KeysLast (s t : State) : Prop :=
  slotsLegal s = true → slotsLegal t = true ∧ ∀ k, (s.keySlot k).Within (t.keySlot k)

theorem KeysLast.trans {s t u : State} (hst : KeysLast s t) (htu : KeysLast t u) : KeysLast s u := fun hs => by
  obtain ⟨ht, hwithin⟩ := hst hs
  obtain ⟨hu, hwithin'⟩ := htu ht
  exact ⟨hu, fun k => (hwithin k).trans (hwithin' k)⟩

/-- What a slot legally holds: a revoked slot reads as programmed. -/
def KeySlot.legal (k : KeySlot) : Bool := !k.revoked || k.prog

theorem slotsLegal_iff {s : State} : slotsLegal s = true ↔ spWf KeySlot.zero s.mg.slots = true ∧
    (∀ e ∈ s.mg.slots, e.1 < 4 ∧ e.2.legal = true) ∧ ∀ x, s.mg.fusing = some x → x.1 < 4 := by
  unfold slotsLegal
  cases s.mg.fusing <;> simp [KeySlot.legal, and_assoc]

/-- In a legal state every key slot is legal. -/
theorem keySlot_legal {s : State} (h : slotsLegal s = true) (k : Nat) : (s.keySlot k).legal = true := by
  obtain ⟨-, hslots, -⟩ := slotsLegal_iff.1 h
  by_cases hk : s.keySlot k = KeySlot.zero
  · rw [hk]
    rfl
  · exact (hslots _ (mem_of_spGet hk)).2

/-- Key slots that stay as they were last; a slot that is no longer burning among them. -/
theorem keysLast_of_slots {s t : State} (hslots : t.mg.slots = s.mg.slots)
    (hfusing : ∀ x, t.mg.fusing = some x → s.mg.fusing = some x) : KeysLast s t := by
  intro hs
  obtain ⟨hwf, hall, hburn⟩ := slotsLegal_iff.1 hs
  refine ⟨slotsLegal_iff.2 ⟨hslots ▸ hwf, hslots ▸ hall, fun x hx => hburn x (hfusing x hx)⟩, fun k => ?_⟩
  rw [State.keySlot, State.keySlot, hslots]
  exact .refl _

theorem keysLast_of_fuses {s t : State} (h : t.fuses = s.fuses) : KeysLast s t := by
  obtain ⟨hslots, hfusing⟩ := Prod.mk.inj h
  exact keysLast_of_slots hslots fun x hx => hfusing ▸ hx

/-- A slot from 0 to 3 burned further, into what is legal, lasts; whether its programming may still be cut off or not. -/
theorem keysLast_spPut {s t : State} {k : Nat} {v : KeySlot} (hk : k < 4) (hv : v.legal = true)
    (hwithin : (s.keySlot k).Within v) (hslots : t.mg.slots = spPut KeySlot.zero v k s.mg.slots)
    (hfusing : ∀ x, t.mg.fusing = some x → x.1 = k ∨ s.mg.fusing = some x) : KeysLast s t := by
  intro hs
  obtain ⟨hwf, hall, hburn⟩ := slotsLegal_iff.1 hs
  have hself : t.keySlot k = v := by rw [State.keySlot, hslots, spGet_spPut_self hwf]
  have hother : ∀ j, j ≠ k → t.keySlot j = s.keySlot j := fun j hj => by
    rw [State.keySlot, hslots, spGet_spPut_ne _ _ _ hj]; rfl
  have hwf' : spWf KeySlot.zero t.mg.slots = true := hslots ▸ spWf_spPut hwf v k
  refine ⟨slotsLegal_iff.2 ⟨hwf', fun e he => ?_, fun x hx => ?_⟩, fun j => ?_⟩
  · have hget : t.keySlot e.1 = e.2 := spGet_of_mem hwf' he
    have hne : e.2 ≠ KeySlot.zero := ne_of_mem hwf' he
    by_cases hj : e.1 = k
    · rw [hj, hself] at hget
      exact ⟨hj ▸ hk, hget ▸ hv⟩
    · rw [hother _ hj] at hget
      exact hget ▸ hall _ (mem_of_spGet (hget ▸ hne : s.keySlot e.1 ≠ KeySlot.zero))
  · rcases hfusing x hx with h | h
    · exact h ▸ hk
    · exact hburn x h
  · by_cases hj : j = k
    · rw [hj, hself]
      exact hwithin
    · rw [hother j hj]
      exact .refl _

/-! The key records (R562) and the loss of the standby supply. -/

/-- R562: a record that passes its checks programs an empty slot from 0 to 3, or revokes a programmed one. -/
theorem keySlotCode_zero {s : State} {op slot : Nat} {qx qy : BitVec 384} {resv : Bool}
    (h : s.keySlotCode op slot qx qy resv = 0) :
    slot < 4 ∧ (op = 1 ∧ (s.keySlot slot).prog = false ∨ op = 2 ∧ (s.keySlot slot).prog = true) := by
  unfold State.keySlotCode at h
  dsimp only at h
  split_ifs at h with hfields hprog hempty hkey
  have hop : op = 1 ∨ op = 2 := by tauto
  refine ⟨by omega, hop.imp (fun h1 => ⟨h1, ?_⟩) (fun h2 => ⟨h2, ?_⟩)⟩
  · simpa [h1] using hprog
  · simpa [h2] using hempty

theorem takeKeySlot_keysLast (s : State) (op slot : Nat) (qx qy : BitVec 384) (resv : Bool) :
    KeysLast s (s.takeKeySlot op slot qx qy resv) := by
  by_cases hcode : s.keySlotCode op slot qx qy resv = 0
  · obtain ⟨hslot, ⟨rfl, hempty⟩ | ⟨rfl, hprog⟩⟩ := keySlotCode_zero hcode
    · refine fun hs => keysLast_spPut hslot (v := { prog := true, revoked := false, qx := qx, qy := qy }) rfl ?_ ?_ ?_ hs
      · have hlegal := keySlot_legal hs slot
        have hunrevoked : (s.keySlot slot).revoked = false := by simpa [KeySlot.legal, hempty] using hlegal
        simp [KeySlot.Within, hempty, hunrevoked]
      · simp [State.takeKeySlot, hcode]
      · simp [State.takeKeySlot, hcode]
    · refine keysLast_spPut hslot (v := { s.keySlot slot with revoked := true }) (by simp [KeySlot.legal, hprog])
        ⟨fun h => ⟨h, rfl, rfl⟩, fun _ => rfl⟩ ?_ fun x hx => .inr ?_
      · simp [State.takeKeySlot, hcode]
      · simpa [State.takeKeySlot, hcode] using hx
  · exact keysLast_of_fuses (by simp [State.takeKeySlot, hcode, State.fuses])

/-- R562: a slot whose programming a loss of power cuts off reads as programmed and revoked, with the key it held. -/
theorem cutOff_keysLast (s : State) : KeysLast s s.cutOff := by
  by_cases hcut : ∃ k, s.mg.fusing = some (k, s.datum)
  · obtain ⟨k, hk⟩ := hcut
    refine fun hs => keysLast_spPut (k := k) (v := { s.keySlot k with prog := true, revoked := true }) ?_ rfl
      ⟨fun _ => ⟨rfl, rfl, rfl⟩, fun _ => rfl⟩ ?_ ?_ hs
    · exact (slotsLegal_iff.1 hs).2.2 _ hk
    · simp only [State.cutOff, hk, if_true]
      rfl
    · exact fun x hx => nomatch (hx : none = some x)
  · refine keysLast_of_slots ?_ fun x hx => nomatch (hx : none = some x)
    cases hfusing : s.mg.fusing with
    | none => simp [State.cutOff, hfusing]
    | some x =>
      have hx : x.2 ≠ s.datum := fun h => hcut ⟨x.1, by rw [hfusing, ← h]⟩
      simp [State.cutOff, hfusing, hx]

/-- R579, R562: the loss of the standby supply keeps the fuses but for what it cuts off. -/
theorem standbySupplyLoss_keysLast {s t : State} (h : execStandbySupplyLoss s = .next t) : KeysLast s t := by
  obtain rfl := Host.Outcome.next.inj h
  have hslots : s.cutOff.dropUpdate.mg.slots = s.cutOff.mg.slots := congrArg Prod.fst (fuses_dropUpdate s.cutOff)
  exact (cutOff_keysLast s).trans (keysLast_of_slots hslots fun x hx => by cases hx)

/-! Register writes (R562). -/

theorem writeMg_keysLast (s : State) (who : Accessor) (r : Reg) (v : Nat) : KeysLast s (s.writeMg who r v) := by
  unfold State.writeMg
  dsimp only
  split
  · exact keysLast_of_fuses (fuses_deviceOrder s who _)
  · exact keysLast_of_fuses rfl
  · split
    · exact takeKeySlot_keysLast _ _ _ _ _ _
    · exact keysLast_of_fuses rfl
  · exact keysLast_of_fuses rfl
  · exact keysLast_of_fuses rfl
  · exact keysLast_of_fuses (fuses_of_kept (kept_raiseFloor _ _))
  · exact keysLast_of_fuses rfl

theorem setReg_keysLast (s : State) (who : Accessor) (v : RegView) (r : Reg) (i x : Nat) :
    KeysLast s (s.setReg who v r i x) := by
  cases v with
  | parcel p => exact keysLast_of_fuses (fuses_of_kept (kept_writeParcel ..))
  | function => exact keysLast_of_fuses (fuses_of_kept (kept_writeOwn ..))
  | device =>
    exact (writeMg_keysLast s who r x).trans (keysLast_of_fuses (fuses_of_kept
      ((kept_writeOb ..).trans ((kept_writeTh ..).trans (kept_writeNp ..)))))

theorem writeRow_keysLast (s : State) (who : Accessor) (off : Nat) (v : RegView) (row : RegRow) (i b width x : Nat) :
    KeysLast s (s.writeRow who off v row i b width x) := by
  unfold State.writeRow
  dsimp only
  split_ifs
  · exact keysLast_of_fuses (fuses_of_kept (kept_setWin ..))
  · exact setReg_keysLast _ _ _ _ _ _
  · exact setReg_keysLast _ _ _ _ _ _
  · exact keysLast_of_fuses rfl
  · refine KeysLast.trans (keysLast_of_fuses ?_) (setReg_keysLast _ _ _ _ _ _)
    rfl

theorem bar0Put_keysLast (s : State) (who : Accessor) (off width x : Nat) : KeysLast s (s.bar0Put who off width x) := by
  have hbad : KeysLast s (s.badAccess who off) := keysLast_of_fuses (fuses_of_kept (kept_badAccess ..))
  unfold State.bar0Put
  dsimp only
  split
  · exact hbad
  · split
    · exact hbad
    · split_ifs
      · exact hbad
      · exact keysLast_of_fuses rfl
      · exact writeRow_keysLast _ _ _ _ _ _ _ _ _

theorem writeMany_keysLast (who : Accessor) (width n : Nat) (s : State) (off : Nat) (data : List Byte) :
    KeysLast s (s.writeMany who width n off data) := by
  induction n generalizing s off data with
  | zero => exact keysLast_of_fuses rfl
  | succ n ih => exact KeysLast.trans (bar0Put_keysLast _ _ _ _ _) (ih _ _ _)

theorem regAccessWrite_keysLast {who : Requester} {tag width count : Byte} {off : W32} {data : List Byte} {bad : Bool}
    {s t : State} (h : execRegAccessWrite who tag width count off data bad s = .next t) : KeysLast s t := by
  have hresponse (u : State) (status : Nat) :
      (u.regResponse who.eid 2 tag status count off []).fuses = u.fuses := fuses_of_kept (kept_regResponse ..)
  have htouch : (s.touch who).fuses = s.fuses := fuses_of_kept (kept_touch ..)
  unfold execRegAccessWrite at h
  dsimp only at h
  split_ifs at h <;> obtain rfl := Host.Outcome.next.inj h
  · exact keysLast_of_fuses ((hresponse _ 2).trans htouch)
  · exact keysLast_of_fuses ((hresponse _ 1).trans htouch)
  · exact (keysLast_of_fuses htouch).trans ((writeMany_keysLast _ _ _ _ _ _).trans
      (keysLast_of_fuses ((fuses_pump _).trans (hresponse _ 0))))

/-! Every command and every step. -/

/-- Whatever the command, the key slots last. -/
theorem exec_keysLast (i : Instr) {s t : State} (h : exec i s = .next t) : KeysLast s t := by
  have keeps (hi : KeepsFuses s (exec i s)) : KeysLast s t := keysLast_of_fuses (by rwa [h] at hi)
  have burns {u : State} (hi : exec i s = .next u) (hu : KeysLast s u) : KeysLast s t := by
    rw [h] at hi
    exact Host.Outcome.next.inj hi ▸ hu
  have stays (hi : exec i s = .next s) : KeysLast s t := burns hi (keysLast_of_fuses rfl)
  cases i with
  | keySlotProgram who slot qx qy resv =>
    by_cases howner : s.ownerAccess who = true
    · exact burns (if_pos howner) (takeKeySlot_keysLast s 1 _ qx qy resv)
    · exact stays (if_neg howner)
  | keySlotRevoke who slot qx qy resv =>
    by_cases howner : s.ownerAccess who = true
    · exact burns (if_pos howner) (takeKeySlot_keysLast s 2 _ qx qy resv)
    · exact stays (if_neg howner)
  | standbySupplyLoss => exact standbySupplyLoss_keysLast h
  | registerWrite who off width v =>
    by_cases hreaches : s.reaches who = true
    · exact burns (if_pos hreaches) ((bar0Put_keysLast _ _ _ _ _).trans (keysLast_of_fuses (fuses_pump _)))
    · exact stays (if_neg hreaches)
  | regAccessWrite who tag width count off data bad => exact regAccessWrite_keysLast h
  | deviceBuildEnd at' => exact keeps (keepsFuses_deviceBuildEnd at' s)
  | hubUncorrectableError unit addr => exact keeps (keepsFuses_hubUncorrectableError unit addr s)
  | imageFetch badA badB => exact keeps (keepsFuses_imageFetch badA badB s)
  | mainInputLoss => exact keeps (fuses_loseMain s)
  | mgOrderCold who => exact keeps (fuses_deviceOrder s who 1)
  | mgOrderRetire who => exact keeps (fuses_deviceOrder s who 3)
  | mgOrderWarm who => exact keeps (fuses_deviceOrder s who 2)
  | perstAssert => exact keeps (keepsFuses_perstAssert s)
  | postPackageRepair => exact keeps (keepsFuses_postPackageRepair s)
  | powerOn sense => exact keeps (keepsFuses_powerOn sense s)
  | powerOnSelfTest find => exact keeps (keepsFuses_powerOnSelfTest find s)
  | pwrEnLow => exact keeps (keepsFuses_pwrEnLow s)
  | railFault stage => exact keeps (keepsFuses_railFault stage s)
  | ready at' => exact keeps (keepsFuses_ready at' s)
  | sensorSample at' smp => exact keeps (keepsFuses_sensorSample at' smp s)
  | stackLost stack chan cause => exact keeps (keepsFuses_stackLost stack chan cause s)
  | stackTraining fails => exact keeps (keepsFuses_stackTraining fails s)
  | startupBuild => exact keeps (keepsFuses_startupBuild s)
  | _ => exact keeps (keepsFuses_of_keeps (by simp only [exec]; simp))

/-- Whatever the step, the key slots last. -/
theorem step_keysLast {s t : State} (h : step s = .next t) : KeysLast s t := by
  cases hp : s.pending with
  | nil =>
    rw [step_nil s hp] at h
    exact Host.Outcome.next.inj h ▸ keysLast_of_fuses (fuses_of_kept (kept_idle s))
  | cons c rest =>
    rw [step_cons s c rest hp] at h
    exact KeysLast.trans (t := { s with pending := rest }) (keysLast_of_fuses rfl) (exec_keysLast c h)

/-- Settles O58: whatever the step, each key slot holds all that it held. -/
theorem keySlotsAreWrittenOnce : Obligations.KeySlotsAreWrittenOnce :=
  fun _ _ hs h k => (step_keysLast h hs).2 k

/-- Settles O59. -/
theorem keySlotsStayLegal : Obligations.KeySlotsStayLegal := fun _ _ hs h => (step_keysLast h hs).1

end Sys2Proof.Machine

/-! SUPPORT. The pushes of an image: what the judgement of a push leaves, and what shows its result (R66, R71 to R74, R358). -/

namespace Sys2Proof.Machine

open Sys2Proof.Safety

/-- R73: the device once a push is judged: the push is logged, and its ingress is remembered for this hub-die cycle. -/
def State.judged (s : State) (w : Pusher) (b : List Byte) : State :=
  { s.logImage w (s.pushImage w b).1 b with cyc := { s.cyc with push := some (s.pushIngress w) } }

/-- R74, R78, R80: an image that passes comes into force, for its parcel or for the device; one that is refused does not. -/
theorem pushImage_snd (s : State) (w : Pusher) (b : List Byte) : (s.pushImage w b).2 =
    if (s.pushImage w b).1 ≠ 0 then s.judged w b
    else if field b 0xE 1 = 1 then (s.judged w b).applyLocal (Fin.ofNat 16 (field b 0xF 1)) b
    else (s.judged w b).applyDevice b 3 := by
  unfold State.judged State.pushImage
  dsimp only
  generalize (if s.dev = .retired then 0x17 else _) = code
  by_cases hcode : code = 0
  · subst hcode
    split_ifs <;> simp_all
  · simp [hcode]

theorem pushImage_refused {s : State} {w : Pusher} {b : List Byte} (h : (s.pushImage w b).1 ≠ 0) :
    (s.pushImage w b).2 = s.judged w b := by
  rw [pushImage_snd, if_pos h]

/-- R74: what a refused push leaves as it was: the structure in force, every parcel and cell, what runs there, every session
and every byte of memory. -/
def State.SameImage (s t : State) : Prop := t.img = s.img ∧ t.tk = s.tk ∧ t.parcels = s.parcels ∧ t.cells = s.cells ∧
  t.insts = s.insts ∧ t.net = s.net ∧ t.stk = s.stk ∧ t.host = s.host ∧ t.dev = s.dev

theorem judged_sameImage (s : State) (w : Pusher) (b : List Byte) : s.SameImage (s.judged w b) := by
  simp [State.SameImage, State.judged, State.logImage]

/-- R355: a function event touches the accessors' windows alone. -/
theorem fnEvent_frame (s : State) (a bit : Nat) : s.fnEvent a bit = { s with ords := (s.fnEvent a bit).ords } := by
  unfold State.fnEvent
  split <;> rfl

/-- R73: the result of a push touches the accessors' windows alone. -/
theorem pushResult_frame (s : State) (a code : Nat) :
    s.pushResult a code = { s with ords := (s.pushResult a code).ords } := by
  unfold State.pushResult
  rw [fnEvent_frame]
  rfl

/-- R358: a push by a mailbox that is busy is only logged. -/
theorem lastImagePush_busy {s : State} {who : Accessor} (h : (s.ord (accIndex who)).mbBusy = true) (b : List Byte) :
    exec (.lastImagePush who b) s = .next (s.log { logEntry s 0x0602 with unit := accUnit who }) := if_pos h

/-- R71 to R74: a push by a mailbox that is not busy. -/
theorem lastImagePush_free {s : State} {who : Accessor} (h : (s.ord (accIndex who)).mbBusy = false) (b : List Byte) :
    exec (.lastImagePush who b) s =
      .next ((s.pushImage (pusherOf who) b).2.pushResult (accIndex who) (s.pushImage (pusherOf who) b).1) :=
  if_neg (by simp [h])

/-- Settles O36: a refused push is only logged and answered. -/
theorem refusedImageChangesNothing : Obligations.RefusedImageChangesNothing := by
  intro s w b
  refine ⟨fun hcode => ?_, fun who hbusy => lastImagePush_busy hbusy b, fun who hfree hcode => ?_⟩
  · rw [pushImage_refused hcode]
    exact judged_sameImage s w b
  · obtain ⟨hdone, hpushed⟩ := ord_pushResult (s.pushImage (pusherOf who) b).2 (accIndex who) (s.pushImage (pusherOf who) b).1
    refine ⟨_, lastImagePush_free hfree b, ?_, hdone, hpushed⟩
    rw [pushResult_frame, pushImage_refused hcode]
    exact judged_sameImage s _ b

end Sys2Proof.Machine

/-! SUPPORT. The deletion of a session key in a state whose parcels stand out of order (R405). -/

namespace Sys2Proof.Machine

open Sys2Proof.Safety

/-! A list of parcels that is not in canonical form: parcel 3 stands before parcel 1, and both name session 7. While session 2
closes, its waiting requests leave the queue of parcel 1, and parcel 1 is then written in front of parcel 3: from there on,
session 7 is read as one of parcel 1, with another key. -/

/-- Parcel 3: session 7 has key 5. -/
def keyedParcel : Parcel := { state := .active, cfg := { Parcel.zero.cfg with sessions := [⟨7, 0, false, 5, 50000, 1⟩] } }

/-- Parcel 1: session 2 has key 5 and session 7 has key 6; queue 0 is in use. -/
def doublingParcel : Parcel :=
  { state := .active, queues := [(0, { tasks := 1 })]
    cfg := { Parcel.zero.cfg with sessions := [⟨2, 0, false, 5, 50000, 1⟩, ⟨7, 0, false, 6, 50000, 1⟩] } }

/-- A running device with those two parcels; sessions 2 and 7 are open, key 5 is installed, and endpoint 8 is the owner. -/
def doubledDevice : State :=
  { dev := .running, parcels := [(3, keyedParcel), (1, doublingParcel)]
    net := { sess := [(2, { isOpen := true }), (7, { isOpen := true })], keys := [(5, some 1)] }
    mg := { standby := true, owner := some 8, spdm := [(0, some ⟨8, true, true, 0⟩)] } }

/-- The management owner of that device. -/
def doubledOwner : Accessor := .mgmt 8 (some 0)

theorem doubledOwner_access : doubledDevice.ownerAccess doubledOwner = true := by decide

theorem doubledDevice_sessCfg : doubledDevice.sessCfg 7 = some (3, ⟨7, 0, false, 5, 50000, 1⟩) := by decide

/-- Session 7 stays open when key 5 goes. -/
theorem doubledDevice_keyDelete : ∃ t, exec (.sessionKeyDelete doubledOwner 5 false) doubledDevice = .next t ∧
    (t.vg 7).isOpen = true := ⟨_, rfl, by decide +kernel⟩

/-- Refutes O40: the statement asks nothing of the list of parcels. Where it is not in canonical form, a session of the deleted
key can stay open: in `doubledDevice`, session 7 does when key 5 is deleted. -/
theorem not_keyRecordsComplete : ¬ Obligations.KeyRecordsComplete := by
  intro h
  let r : SaRec := ⟨0, 0, 0, 0, 0, 0, 0, 0, 0, false⟩
  obtain ⟨-, -, -, hkeys⟩ := h.2 doubledDevice doubledOwner r 5 0 doubledOwner_access rfl (by decide)
  obtain ⟨-, hdelete⟩ := hkeys (by decide) (by decide)
  obtain ⟨t, ht, -, -, hclosed⟩ := hdelete (by decide) rfl
  obtain ⟨u, hu, hopen⟩ := doubledDevice_keyDelete
  obtain rfl : t = u := Host.Outcome.next.inj (ht.symm.trans hu)
  have hshut := hclosed 7 3 _ (by decide) doubledDevice_sessCfg rfl
  rw [hopen] at hshut
  exact Bool.noConfusion hshut

end Sys2Proof.Machine

/-! SUPPORT. The commands of a firmware update (R587, R594 to R596): how each is taken, from the management owner and from another
endpoint, outside an update and in one. -/

namespace Sys2Proof.Machine

open Sys2Proof.Safety

/-! A message is taken (R588). -/

/-- R588: a message touches the time of its SPDM session alone. -/
theorem touch_frame (s : State) (who : Requester) :
    s.touch who = { s with mg := { s.mg with spdm := (s.touch who).mg.spdm } } := by
  unfold State.touch
  (repeat' split) <;> rfl

@[simp] theorem touch_img (s : State) (who : Requester) : (s.touch who).img = s.img := by rw [touch_frame]
@[simp] theorem touch_out (s : State) (who : Requester) : (s.touch who).out = s.out := by rw [touch_frame]
@[simp] theorem touch_fw (s : State) (who : Requester) : (s.touch who).mg.fw = s.mg.fw := by rw [touch_frame]
@[simp] theorem touch_standby (s : State) (who : Requester) : (s.touch who).mg.standby = s.mg.standby := by rw [touch_frame]
@[simp] theorem touch_assembly (s : State) (who : Requester) : (s.touch who).mg.assembly = s.mg.assembly := by rw [touch_frame]
@[simp] theorem touch_takesUpdate (s : State) (who : Requester) : (s.touch who).takesUpdate = s.takesUpdate := by
  rw [touch_frame]; rfl
@[simp] theorem touch_isMgmtOwner (s : State) (who : Requester) (eid : Byte) :
    (s.touch who).isMgmtOwner eid = s.isMgmtOwner eid := by rw [touch_frame]; rfl

/-- The time of a session gives its requester no rights and takes none. -/
@[simp] theorem touch_ownerAccess (s : State) (who : Requester) :
    (s.touch who).ownerAccess (asAccessor who) = s.ownerAccess (asAccessor who) := by
  obtain ⟨eid, sess⟩ := who
  cases sess with
  | none => rfl
  | some k =>
    cases hk : s.spdm k with
    | none => simp [State.touch, hk]
    | some x =>
      by_cases hin : s.inSession ⟨eid, some k⟩ = true
      · have hput : spGet none (spPut none (some { x with last := s.datum }) k s.mg.spdm) k = some { x with last := s.datum } :=
          spGet_spPut_of_ne _ _ (by simp)
        have hk : spGet none s.mg.spdm k = some x := hk
        simp [State.touch, State.spdm, State.setSpdm, hk, hin, asAccessor, State.ownerAccess, hput, State.isMgmtOwner]
      · simp [State.touch, hk, hin]

/-- A powered management plane answers. -/
theorem answer_powered {s : State} (h : s.mg.standby = true) (type : Nat) (eid : Byte) (cmd code : Nat) (data : List Byte) :
    s.answer type eid cmd code data = s.emit (.mctp type eid (leBytes 1 cmd ++ leBytes 1 code ++ data)) := if_pos h

theorem fwAnswer_powered {s : State} (h : s.mg.standby = true) (who : Requester) (cmd code : Nat) (data : List Byte) :
    s.fwAnswer who cmd code data = s.emit (.mctp 1 who.eid (leBytes 1 cmd ++ leBytes 1 code ++ data)) :=
  answer_powered h ..

/-! The update in progress and the slots. -/

@[simp] theorem setFw_fw (s : State) (u : Option FwUpd) : (s.setFw u).mg.fw = u := rfl
@[simp] theorem setFw_standby (s : State) (u : Option FwUpd) : (s.setFw u).mg.standby = s.mg.standby := rfl
@[simp] theorem setFw_img (s : State) (u : Option FwUpd) : (s.setFw u).img = s.img := rfl
@[simp] theorem emit_out (s : State) (o : Output) : (s.emit o).out = o :: s.out := rfl
@[simp] theorem setFw_out (s : State) (u : Option FwUpd) : (s.setFw u).out = s.out := rfl
@[simp] theorem setFw_slotImage (s : State) (u : Option FwUpd) (comp : Nat) : (s.setFw u).slotImage comp = s.slotImage comp := rfl
@[simp] theorem emit_slotImage (s : State) (o : Output) (comp : Nat) : (s.emit o).slotImage comp = s.slotImage comp := rfl
@[simp] theorem touch_slotImage (s : State) (who : Requester) (comp : Nat) :
    (s.touch who).slotImage comp = s.slotImage comp := by rw [touch_frame]; rfl

@[simp] theorem setSlotImage_mg (s : State) (comp : Nat) (b : List Byte) (bad : Bool) :
    (s.setSlotImage comp b bad).mg = s.mg := by unfold State.setSlotImage; split <;> rfl
@[simp] theorem setSlotImage_out (s : State) (comp : Nat) (b : List Byte) (bad : Bool) :
    (s.setSlotImage comp b bad).out = s.out := by unfold State.setSlotImage; split <;> rfl
@[simp] theorem setSlotImage_slotImage (s : State) (comp : Nat) (b : List Byte) (bad : Bool) :
    (s.setSlotImage comp b bad).slotImage comp = b := by
  unfold State.setSlotImage State.slotImage; split <;> rfl
@[simp] theorem setSlotImage_badA (s : State) (b : List Byte) (bad : Bool) :
    (s.setSlotImage 1 b bad).img.badA = bad := rfl
@[simp] theorem setSlotImage_badB (s : State) (b : List Byte) (bad : Bool) :
    (s.setSlotImage 2 b bad).img.badB = bad := rfl

@[simp] theorem answer_mg (s : State) (type : Nat) (eid : Byte) (cmd code : Nat) (data : List Byte) :
    (s.answer type eid cmd code data).mg = s.mg := by unfold State.answer; split <;> rfl
@[simp] theorem answer_img (s : State) (type : Nat) (eid : Byte) (cmd code : Nat) (data : List Byte) :
    (s.answer type eid cmd code data).img = s.img := by unfold State.answer; split <;> rfl

@[simp] theorem answer_slotImage (s : State) (type : Nat) (eid : Byte) (cmd code : Nat) (data : List Byte) (comp : Nat) :
    (s.answer type eid cmd code data).slotImage comp = s.slotImage comp := by unfold State.slotImage; rw [answer_img]

/-- R84, R595: a slot that is verified keeps its bytes, and the update keeps its result; a slot whose write failed stays
invalid. -/
theorem fwVerify_keeps (s : State) (x : FwUpd) : (s.fwVerify x).slotImage x.comp = s.slotImage x.comp ∧
    (∃ r, (s.fwVerify x).mg.fw = some { x with verify := some r }) ∧
    (x.failed = true → (x.comp = 1 → (s.fwVerify x).img.badA = true) ∧ (x.comp = 2 → (s.fwVerify x).img.badB = true)) := by
  unfold State.fwVerify
  dsimp only
  generalize hcode : State.checkImage _ _ _ = code
  refine ⟨?_, ?_, fun hfailed => ⟨fun hc => ?_, fun hc => ?_⟩⟩
  · split <;> simp
  · split <;> exact ⟨_, by simp only [answer_mg]; rfl⟩
  · rw [hc]
    simp [hfailed]
  · rw [hc]
    simp [hfailed]

/-- R596: an update that is dropped leaves its slot invalid. -/
theorem dropUpdate_some {s : State} {x : FwUpd} (h : s.mg.fw = some x) : s.dropUpdate = { s with
    mg := { s.mg with fw := none }
    img := { s.img with badA := s.img.badA || decide (x.comp = 1), badB := s.img.badB || decide (x.comp = 2) } } := by
  rw [State.dropUpdate, h]

/-! A firmware command is taken (R587, R596). -/

/-- The management plane is powered, and the endpoint of an update in progress still has its rights. -/
structure FwLive (s : State) : Prop where
  powered : s.mg.standby = true
  current : ∀ x, s.mg.fw = some x → s.isMgmtOwner x.eid = true

section
variable {s : State} {who : Requester} (hl : FwLive s)
include hl

/-- R587, R596: with an update whose endpoint still has its rights, taking a command only touches its session. -/
theorem fwTake_live : s.fwTake who = s.touch who := by
  unfold State.fwTake
  dsimp only
  split
  · next x hx =>
    rw [touch_fw] at hx
    rw [touch_isMgmtOwner, if_pos (hl.current x hx)]
  · rfl

theorem fwOwner_owner (ho : s.ownerAccess (asAccessor who) = true) (cmd : Nat) (f : State → State) :
    s.fwOwner who cmd f = .next (f (s.touch who)) := by
  rw [State.fwOwner, fwTake_live hl, touch_ownerAccess, if_pos ho]

/-- Another endpoint gets an ERROR. -/
theorem fwOwner_other (ho : s.ownerAccess (asAccessor who) = false) (cmd : Nat) (f : State → State) :
    s.fwOwner who cmd f = .next ((s.touch who).emit (.mctp 1 who.eid (leBytes 1 cmd ++ [1]))) := by
  rw [State.fwOwner, fwTake_live hl, touch_ownerAccess, if_neg (by simp [ho]),
    fwAnswer_powered (by rw [touch_standby, hl.powered]), List.append_nil]
  rfl

theorem fwIn_none (ho : s.ownerAccess (asAccessor who) = true) (hfw : s.mg.fw = none) (cmd : Nat) (f : FwUpd → State → State) :
    s.fwIn who cmd f = .next ((s.touch who).emit (.mctp 1 who.eid (leBytes 1 cmd ++ [0x80]))) := by
  rw [State.fwIn, fwOwner_owner hl ho, touch_fw, hfw]
  dsimp only
  rw [fwAnswer_powered (by rw [touch_standby, hl.powered]), List.append_nil]
  rfl

theorem fwIn_some (ho : s.ownerAccess (asAccessor who) = true) {x : FwUpd} (hfw : s.mg.fw = some x) (cmd : Nat)
    (f : FwUpd → State → State) : s.fwIn who cmd f = .next (f x (s.touch who)) := by
  rw [State.fwIn, fwOwner_owner hl ho, touch_fw, hfw]

end

/-! The request of an update (R596). -/

section
variable {s : State} {who : Requester} (hl : FwLive s)
include hl

theorem requestUpdate_unable (h : s.ownerAccess (asAccessor who) = false ∨ s.takesUpdate = false) :
    exec (.requestUpdate who) s = .next ((s.touch who).emit (.mctp 1 who.eid [0x10, 0x8A])) := by
  show execRequestUpdate who s = _
  unfold execRequestUpdate
  dsimp only
  rw [fwTake_live hl, touch_ownerAccess, touch_takesUpdate, if_pos (by simpa using h),
    fwAnswer_powered (by rw [touch_standby, hl.powered])]
  rfl

theorem requestUpdate_already (ho : s.ownerAccess (asAccessor who) = true) (ht : s.takesUpdate = true) (hfw : s.mg.fw ≠ none) :
    exec (.requestUpdate who) s = .next ((s.touch who).emit (.mctp 1 who.eid [0x10, 0x81])) := by
  show execRequestUpdate who s = _
  unfold execRequestUpdate
  dsimp only
  rw [fwTake_live hl, touch_ownerAccess, touch_takesUpdate, if_neg (by simp [ho, ht]), touch_fw,
    if_pos (Option.isSome_iff_ne_none.2 hfw), fwAnswer_powered (by rw [touch_standby, hl.powered])]
  rfl

theorem requestUpdate_begins (ho : s.ownerAccess (asAccessor who) = true) (ht : s.takesUpdate = true) (hfw : s.mg.fw = none) :
    exec (.requestUpdate who) s = .next (((s.touch who).setFw (some {
      eid := who.eid, table := false, comp := 0, size := 0, got := 0, verify := none })).emit (.mctp 1 who.eid [0x10, 0])) := by
  show execRequestUpdate who s = _
  unfold execRequestUpdate
  dsimp only
  rw [fwTake_live hl, touch_ownerAccess, touch_takesUpdate, if_neg (by simp [ho, ht]), touch_fw, if_neg (by simp [hfw]),
    fwAnswer_powered (by show (s.touch who).mg.standby = true; rw [touch_standby, hl.powered])]
  rfl

/-! The commands outside an update. -/

/-- R587: whatever the command, another endpoint than the management owner gets an error. -/
theorem firmware_other (ho : s.ownerAccess (asAccessor who) = false) :
    ∀ e ∈ [(Instr.queryDeviceIdentifiers who, 0x01), (.getFirmwareParameters who, 0x02), (.passComponentTable who 1, 0x13),
        (.updateComponent who 1 1, 0x14), (.firmwareDataReceive who ⟨[], false⟩, 0x15), (.activateFirmware who false, 0x1A),
        (.getStatus who, 0x1B), (.cancelUpdate who, 0x1D)],
      exec e.1 s = .next ((s.touch who).emit (.mctp 1 who.eid [BitVec.ofNat 8 e.2, 1])) := by
  simp only [List.forall_mem_cons, List.not_mem_nil, false_implies, implies_true, and_true]
  simp only [exec, execQueryDeviceIdentifiers, execGetFirmwareParameters, execPassComponentTable, execUpdateComponent,
    execFirmwareDataReceive, execActivateFirmware, execGetStatus, execCancelUpdate, State.fwIn, fwOwner_other hl ho]
  exact ⟨rfl, rfl, rfl, rfl, rfl, rfl, rfl, rfl⟩

/-- R594: the commands of an update answer NOT_IN_UPDATE_MODE outside one. -/
theorem firmware_noUpdate (ho : s.ownerAccess (asAccessor who) = true) (hfw : s.mg.fw = none) :
    ∀ e ∈ [(Instr.passComponentTable who 1, 0x13), (.updateComponent who 1 1, 0x14),
        (.firmwareDataReceive who ⟨[], false⟩, 0x15), (.activateFirmware who false, 0x1A), (.cancelUpdate who, 0x1D)],
      exec e.1 s = .next ((s.touch who).emit (.mctp 1 who.eid [BitVec.ofNat 8 e.2, 0x80])) := by
  simp only [List.forall_mem_cons, List.not_mem_nil, false_implies, implies_true, and_true]
  simp only [exec, execPassComponentTable, execUpdateComponent, execFirmwareDataReceive, execActivateFirmware,
    execCancelUpdate, fwIn_none hl ho hfw]
  exact ⟨rfl, rfl, rfl, rfl, rfl⟩

theorem queryDeviceIdentifiers_owner (ho : s.ownerAccess (asAccessor who) = true) :
    exec (.queryDeviceIdentifiers who) s = .next ((s.touch who).emit (.mctp 1 who.eid
      [1, 0, 0x6B, 0x1F, 0x40, 0xE0, 0x6B, 0x1F, s.mg.assembly, 0])) := by
  have hbytes : leBytes 2 s.mg.assembly.toNat = [s.mg.assembly, 0] := by
    have := s.mg.assembly.isLt
    simp only [leBytes, List.cons.injEq, and_true]
    refine ⟨BitVec.eq_of_toNat_eq ?_, BitVec.eq_of_toNat_eq ?_⟩
    · simp
    · simp
      omega
  rw [← hbytes]
  show execQueryDeviceIdentifiers who s = _
  rw [execQueryDeviceIdentifiers, fwOwner_owner hl ho]
  rw [fwAnswer_powered (by rw [touch_standby, hl.powered]), touch_assembly]
  rfl

theorem getFirmwareParameters_owner (ho : s.ownerAccess (asAccessor who) = true) :
    exec (.getFirmwareParameters who) s = .next ((s.touch who).emit (.mctp 1 who.eid ([2, 0, 0xFF, 0xFF, 1, 0] ++
      leBytes 4 ((s.touch who).stamp 1) ++ [0xFF, 0xFF, 2, 0] ++ leBytes 4 ((s.touch who).stamp 2)))) := by
  show execGetFirmwareParameters who s = _
  rw [execGetFirmwareParameters, fwOwner_owner hl ho]
  rw [fwAnswer_powered (by rw [touch_standby, hl.powered])]
  simp [leBytes]
  rfl

theorem getStatus_owner (ho : s.ownerAccess (asAccessor who) = true) :
    exec (.getStatus who) s = .next ((s.touch who).emit (.mctp 1 who.eid [0x1B, 0, BitVec.ofNat 8 (fwState s.mg.fw)])) := by
  show execGetStatus who s = _
  rw [execGetStatus, fwOwner_owner hl ho]
  rw [fwAnswer_powered (by rw [touch_standby, hl.powered]), touch_fw]
  rfl

/-! The commands of an update. -/

variable (ho : s.ownerAccess (asAccessor who) = true) {x : FwUpd} (hfw : s.mg.fw = some x)
include ho hfw

theorem passComponentTable_update {comp : W16} (hc : comp = 1 ∨ comp = 2) : exec (.passComponentTable who comp) s =
    .next (((s.touch who).setFw (some { x with table := true })).emit (.mctp 1 who.eid [0x13, 0])) := by
  show execPassComponentTable who comp s = _
  rw [execPassComponentTable, fwIn_some hl ho hfw]
  rw [if_pos hc, fwAnswer_powered (by show (s.touch who).mg.standby = true; rw [touch_standby, hl.powered])]
  rfl

theorem updateComponent_update {comp : W16} {size : W32} (hb : x.busy = false) (hc : comp = 1 ∨ comp = 2) (hz : size ≠ 0)
    (hs : size.toNat ≤ 1048576) : exec (.updateComponent who comp size) s =
    .next (((((s.touch who).setSlotImage comp.toNat [] true).setFw (some { x with
      comp := comp.toNat, size := size.toNat, got := 0, verify := none, failed := false })).emit
        (.mctp 1 who.eid [0x14, 0])).emit
        (.mctp 1 x.eid ([0x15, 0, 0, 0, 0, 0] ++ leBytes 4 (min 1024 size.toNat)))) := by
  have hfits : ¬((comp ≠ 1 ∧ comp ≠ 2) ∨ size = 0 ∨ 1048576 < size.toNat) := by
    rintro (⟨h1, h2⟩ | h0 | hbig)
    · exact hc.elim h1 h2
    · exact hz h0
    · omega
  show execUpdateComponent who comp size s = _
  rw [execUpdateComponent, fwIn_some hl ho hfw, if_neg (by simp [hb]), if_neg hfits]
  simp only [State.askBlock, Nat.sub_zero]
  rw [fwAnswer_powered (by simp [hl.powered]), answer_powered (by simp [hl.powered])]
  rfl

/-- R595: the slot with the block that is taken, in the update that has grown by it. -/
def State.takeBlock (s : State) (x : FwUpd) (data : List Byte) (fail : Bool) : State :=
  (s.setSlotImage x.comp (s.slotImage x.comp ++ data) true).setFw
    (some { x with got := x.got + data.length, failed := x.failed || fail })

theorem firmwareDataReceive_more {data : List Byte} {fail : Bool} (hb : x.busy = true)
    (hd : data.length = min 1024 (x.size - x.got)) (hm : x.got + data.length < x.size) :
    exec (.firmwareDataReceive who ⟨data, fail⟩) s = .next (((s.touch who).takeBlock x data fail).emit
      (.mctp 1 x.eid ([0x15, 0] ++ leBytes 4 (x.got + data.length) ++
        leBytes 4 (min 1024 (x.size - (x.got + data.length)))))) := by
  show execFirmwareDataReceive who ⟨data, fail⟩ s = _
  rw [execFirmwareDataReceive, fwIn_some hl ho hfw, if_neg (by simp [hb]), if_neg (by simp [hd]), if_pos hm, State.askBlock,
    answer_powered (by simp [hl.powered])]
  rfl

theorem firmwareDataReceive_last {data : List Byte} {fail : Bool} (hb : x.busy = true)
    (hd : data.length = min 1024 (x.size - x.got)) (hm : x.got + data.length = x.size) :
    exec (.firmwareDataReceive who ⟨data, fail⟩) s = .next (((s.touch who).takeBlock x data fail).fwVerify
      { x with got := x.got + data.length, failed := x.failed || fail }) := by
  show execFirmwareDataReceive who ⟨data, fail⟩ s = _
  rw [execFirmwareDataReceive, fwIn_some hl ho hfw, if_neg (by simp [hb]), if_neg (by simp [hd]), if_neg (by simp [hm])]
  rfl

theorem activateFirmware_verified (hv : x.verify = some 0) : exec (.activateFirmware who false) s =
    .next (((s.touch who).setFw none).emit (.mctp 1 who.eid [0x1A, 0, 0, 0])) := by
  show execActivateFirmware who false s = _
  rw [execActivateFirmware, fwIn_some hl ho hfw, if_neg (by simp), if_neg (by simp [hv]), fwAnswer_powered (by simp [hl.powered])]
  rfl

theorem activateFirmware_incomplete (hv : x.verify ≠ some 0) : exec (.activateFirmware who false) s =
    .next ((s.touch who).emit (.mctp 1 who.eid [0x1A, 0x85])) := by
  show execActivateFirmware who false s = _
  rw [execActivateFirmware, fwIn_some hl ho hfw, if_neg (by simp), if_pos hv, fwAnswer_powered (by simp [hl.powered])]
  rfl

theorem activateFirmware_selfContained : exec (.activateFirmware who true) s =
    .next ((s.touch who).emit (.mctp 1 who.eid [0x1A, 0x8C])) := by
  show execActivateFirmware who true s = _
  rw [execActivateFirmware, fwIn_some hl ho hfw, if_pos rfl, fwAnswer_powered (by simp [hl.powered])]
  rfl

theorem cancelUpdate_update : exec (.cancelUpdate who) s =
    .next ((s.touch who).dropUpdate.emit (.mctp 1 who.eid [0x1D, 0])) := by
  have hdrop : (s.touch who).dropUpdate.mg.standby = true := by
    rw [dropUpdate_some (by rw [touch_fw, hfw]), touch_standby, hl.powered]
  show execCancelUpdate who s = _
  rw [execCancelUpdate, fwIn_some hl ho hfw, fwAnswer_powered hdrop]
  rfl

end

/-- Settles O55: each clause is the law of the command that it names. -/
theorem firmwareUpdateCompletes : Obligations.FirmwareUpdateCompletes := by
  intro s who hpowered hcurrent
  have hl : FwLive s := ⟨hpowered, hcurrent⟩
  refine ⟨fun ho => ⟨firmware_other hl ho, requestUpdate_unable hl (.inl ho)⟩, fun ho => ⟨queryDeviceIdentifiers_owner hl ho,
    getFirmwareParameters_owner hl ho, getStatus_owner hl ho, fun ht => requestUpdate_unable hl (.inr ht),
    requestUpdate_already hl ho, fun ht hfw => ⟨_, requestUpdate_begins hl ho ht hfw, rfl, ?_, ?_⟩,
    firmware_noUpdate hl ho, fun x hfw => ⟨fun comp hc => passComponentTable_update hl ho hfw hc,
    fun comp size hb hc hz hs => ⟨_, updateComponent_update hl ho hfw hb hc hz hs, rfl, ?_, ?_, ?_, ?_⟩,
    fun data fail hb hd => ?_, fun hv => ⟨_, activateFirmware_verified hl ho hfw hv, rfl, ?_, ?_⟩,
    activateFirmware_incomplete hl ho hfw, activateFirmware_selfContained hl ho hfw,
    ⟨_, cancelUpdate_update hl ho hfw, ?_, ?_, ?_, ?_⟩⟩⟩⟩
  · simp
  · simp
  · simp
  · rintro rfl
    simp
  · rintro rfl
    simp
  · simp
  · have hkeep : (((s.touch who).takeBlock x data fail).slotImage x.comp) = s.slotImage x.comp ++ data := by
      simp [State.takeBlock]
    by_cases hm : x.got + data.length < x.size
    · refine ⟨_, firmwareDataReceive_more hl ho hfw hb hd hm, hkeep, fun _ => ⟨rfl, ?_⟩, fun hm' => absurd hm' hm.ne⟩
      simp [State.takeBlock]
    · obtain ⟨-, hgot⟩ : x.comp ≠ 0 ∧ x.got < x.size := by simpa [FwUpd.busy] using hb
      have hm : x.got + data.length = x.size := by omega
      obtain ⟨hslot, hresult, hfailed⟩ := fwVerify_keeps ((s.touch who).takeBlock x data fail)
        { x with got := x.got + data.length, failed := x.failed || fail }
      refine ⟨_, firmwareDataReceive_last hl ho hfw hb hd hm, hslot.trans hkeep, fun hm' => absurd hm hm'.ne, fun _ => ?_⟩
      obtain ⟨r, hr⟩ := hresult
      exact ⟨r, hm ▸ hr, fun hf => hfailed (by simpa using hf)⟩
  · simp
  · simp
  · rw [dropUpdate_some (by rw [touch_fw, hfw])]
    rfl
  · rw [dropUpdate_some (by rw [touch_fw, hfw])]
    simp
  · rw [dropUpdate_some (by rw [touch_fw, hfw])]
    exact fun hc => by simp [hc]
  · rw [dropUpdate_some (by rw [touch_fw, hfw])]
    exact fun hc => by simp [hc]

end Sys2Proof.Machine

/-! SUPPORT. What reports leave alone, what the memory's bookkeeping leaves alone, and what keeps the list of parcels in canonical
form: the frames of the operations that orders, images and start-up are made of. -/

namespace Sys2Proof.Machine

/-- A fold of steps that keep a view of the state keeps it. -/
theorem view_foldl {σ α β : Type} (view : σ → β) (l : List α) (g : σ → α → σ)
    (h : ∀ s, ∀ x ∈ l, view (g s x) = view s) (s : σ) : view (l.foldl g s) = view s := by
  induction l generalizing s with
  | nil => rfl
  | cons a l ih =>
    rw [List.foldl_cons, ih (fun s x hx => h s x (List.mem_cons_of_mem _ hx)), h s a List.mem_cons_self]

/-! Reports. -/

/-- The state but for what the device reports: its log, its trace and counters, what leaves it, its windows of orders, and its
network, of which the list of waiting CONTROL requests stays. -/
def State.still (s : State) : State :=
  { s with er := {}, ords := [], net := { ctlOrder := s.net.ctlOrder }, ob := {}, out := [] }

section
variable {s t : State} (h : t.still = s.still)
include h

theorem dev_of_still : t.dev = s.dev := congrArg (·.dev) h
theorem datum_of_still : t.datum = s.datum := congrArg (·.datum) h
theorem tk_of_still : t.tk = s.tk := congrArg (·.tk) h
theorem parcels_of_still : t.parcels = s.parcels := congrArg (·.parcels) h
theorem parcel_of_still (p : Nat) : t.parcel p = s.parcel p := congrArg (·.parcel p) h
theorem cells_of_still : t.cells = s.cells := congrArg (·.cells) h
theorem insts_of_still : t.insts = s.insts := congrArg (·.insts) h
theorem img_of_still : t.img = s.img := congrArg (·.img) h
theorem ctlOrder_of_still : t.net.ctlOrder = s.net.ctlOrder := congrArg (·.net.ctlOrder) h

end

@[simp] theorem still_log (s : State) (e : LogEntry) : (s.log e).still = s.still := by
  unfold State.log; dsimp only; (repeat' split) <;> rfl
@[simp] theorem still_logP (s : State) (code p : Nat) (f : LogEntry → LogEntry) : (s.logP code p f).still = s.still :=
  still_log _ _
@[simp] theorem still_emit (s : State) (o : Output) : (s.emit o).still = s.still := rfl
@[simp] theorem still_modOrd (s : State) (a : Nat) (f : OrdSt → OrdSt) : (s.modOrd a f).still = s.still := rfl
@[simp] theorem still_modVg (s : State) (n : Nat) (f : VgSess → VgSess) : (s.modVg n f).still = s.still := rfl
@[simp] theorem still_modSub (s : State) (i : Nat) (f : SubPort → SubPort) : (s.modSub i f).still = s.still := rfl
@[simp] theorem still_queueFrame (s : State) (i : Nat) (f : TxFrame) : (s.queueFrame i f).still = s.still := rfl
@[simp] theorem still_freeMail (s : State) : s.freeMail.still = s.still := by
  unfold State.freeMail
  exact view_foldl State.still _ _ (fun s a _ => by split <;> rfl) s
@[simp] theorem still_trace (s : State) (cls event : Nat) (parcel q : Option Nat) (unit aux : Nat) (arg : W64) :
    (s.trace cls event parcel q unit aux arg).still = s.still := by
  unfold State.trace; dsimp only; (repeat' split) <;> rfl
@[simp] theorem still_countEvent (s : State) (ev unit : Nat) (parcel : Option Nat) (k : Nat) :
    (s.countEvent ev unit parcel k).still = s.still :=
  view_foldl State.still _ _ (fun s e _ => by dsimp only; (repeat' split) <;> rfl) s
@[simp] theorem still_startResolve (s : State) (i : Nat) (addr : BitVec 128) : (s.startResolve i addr).still = s.still := by
  unfold State.startResolve; (repeat' split) <;> rfl
@[simp] theorem still_vgTransmit (s : State) (n : Nat) (bytes : List Byte) : (s.vgTransmit n bytes).still = s.still := by
  unfold State.vgTransmit; (repeat' split) <;> simp
@[simp] theorem still_vgReliable (s : State) (n kind op : Nat) (rseq : W32) (body : List Byte) (answer : Bool) :
    (s.vgReliable n kind op rseq body answer).still = s.still := by
  unfold State.vgReliable; dsimp only; split <;> simp
@[simp] theorem still_vgUnreliable (s : State) (n op : Nat) (body : List Byte) :
    (s.vgUnreliable n op body).still = s.still := by
  simp [State.vgUnreliable]
@[simp] theorem still_vgAnswer (s : State) (n inc kind op : Nat) (rseq : W32) (body : List Byte) :
    (s.vgAnswer n inc kind op rseq body).still = s.still := by
  unfold State.vgAnswer; dsimp only; split <;> simp
@[simp] theorem still_fnEvent (s : State) (a bit : Nat) : (s.fnEvent a bit).still = s.still := by
  unfold State.fnEvent; split <;> rfl
@[simp] theorem still_orderResult (s : State) (p : Nat) (r : OrdRef) (code detail : Byte) :
    (s.orderResult p r code detail).still = s.still := by
  unfold State.orderResult; dsimp only; (repeat' split) <;> simp
@[simp] theorem still_grantCredit (s : State) (p : Nat) : (s.grantCredit p).still = s.still := by
  unfold State.grantCredit
  exact view_foldl State.still _ _ (fun s n _ => by dsimp only; split <;> rfl) s
@[simp] theorem still_endWait (s : State) (p : Nat) (w : ReadWait) : (s.endWait p w).still = s.still := by
  unfold State.endWait; split <;> simp
@[simp] theorem still_traceRecord (s : State) (p q : Nat) (r : Record) : (s.traceRecord p q r).still = s.still := by
  simp [State.traceRecord]

/-! The memory, the cells and the host. -/

/-- The state but for what `still` leaves out, and for the cells, the instances, the stacked memory, the host's side and the
dies' rails: what stays is the run state, the tick, the parcels, the image in force and the management plane. -/
def State.core (s : State) : State :=
  { s.still with cells := [], insts := [], stk := {}, host := {}, th := {}, fresh := 0, net := {} }

theorem core_of_still {s t : State} (h : t.still = s.still) : t.core = s.core := (congrArg State.core h : _)

section
variable {s t : State} (h : t.core = s.core)
include h

theorem dev_of_core : t.dev = s.dev := congrArg (·.dev) h
theorem tk_of_core : t.tk = s.tk := congrArg (·.tk) h
theorem parcels_of_core : t.parcels = s.parcels := congrArg (·.parcels) h
theorem parcel_of_core (p : Nat) : t.parcel p = s.parcel p := congrArg (·.parcel p) h

end

@[simp] theorem core_modCell (s : State) (n : Nat) (f : Cell → Cell) : (s.modCell n f).core = s.core := rfl
@[simp] theorem core_fallDie (s : State) (d : Nat) : (s.fallDie d).core = s.core := rfl
@[simp] theorem core_modHost (s : State) (f : HostPort → HostPort) : (s.modHost f).core = s.core := rfl
@[simp] theorem core_modSub (s : State) (i : Nat) (f : SubPort → SubPort) : (s.modSub i f).core = s.core := rfl
@[simp] theorem core_placeAnew (s : State) (p lo hi stks gran : Nat) : (s.placeAnew p lo hi stks gran).core = s.core := rfl
@[simp] theorem core_stackWrite (s : State) (p stks gran a : Nat) (bs : List Byte) :
    (s.stackWrite p stks gran a bs).core = s.core := rfl
@[simp] theorem core_placeSegs (s : State) (p lo hi : Nat) : (s.placeSegs p lo hi).core = s.core := by
  unfold State.placeSegs
  exact view_foldl State.core _ _ (fun s d _ => by split <;> simp) s
@[simp] theorem core_countSector (s : State) (k ph : Nat) (o : Option Nat) : (s.countSector k ph o).core = s.core := by
  rw [State.countSector]
  exact core_of_still (still_countEvent _ _ _ _ _)
@[simp] theorem core_countWrites (s : State) (p stks gran a n : Nat) : (s.countWrites p stks gran a n).core = s.core := by
  refine view_foldl State.core _ _ ?_ _
  intros
  simp
@[simp] theorem core_writeLines (s : State) (p : Nat) (l : List Nat) (b : List Byte) : (s.writeLines p l b).core = s.core := by
  induction l generalizing s b with
  | nil => rfl
  | cons j l ih => rw [State.writeLines, ih, core_stackWrite, core_countWrites]
@[simp] theorem core_rewriteLog (s : State) (p : Nat) : (s.rewriteLog p).core = s.core := by
  unfold State.rewriteLog
  exact view_foldl State.core _ _ (fun s r _ => core_writeLines _ _ _ _) s
@[simp] theorem core_configureCells (s : State) (p : Fin 16) : (s.configureCells p).core = s.core := by
  unfold State.configureCells
  exact view_foldl State.core _ _ (fun s n _ => by split <;> simp) s
@[simp] theorem core_evict (s : State) (k : Nat) : (s.evict k).core = s.core := by
  unfold State.evict; dsimp only; (repeat' split) <;> rfl
@[simp] theorem core_flushWays (s : State) (old new : ParcelSet) : (s.flushWays old new).core = s.core := by
  unfold State.flushWays
  exact view_foldl State.core _ _ (fun s e _ => by (repeat' split) <;> simp) s
@[simp] theorem core_zeroFill (s : State) (old new : ParcelSet) : (s.zeroFill old new).core = s.core := by
  unfold State.zeroFill
  dsimp only
  refine (view_foldl State.core _ _ (fun s n _ => ?_) _).trans rfl
  split <;> simp
@[simp] theorem core_removeTask (s : State) (i : Nat) (x : Inst) : (s.removeTask i x).core = s.core := by
  unfold State.removeTask
  have hset (u : State) (v : Option Inst) : (u.setInst i v).core = u.core := rfl
  exact (hset _ none).trans (view_foldl State.core _ _ (fun s n _ => core_modCell _ _ _) s)
@[simp] theorem core_freeCells (s : State) (p slot : Nat) : (s.freeCells p slot).core = s.core := by
  unfold State.freeCells
  exact view_foldl State.core _ _ (fun s n _ => by simp) s

end Sys2Proof.Machine

/-! SUPPORT. Builds (R78, R80): the list of parcels stays in canonical form, and what a whole-device image makes of the tick
machine, the parcels and the registers. -/

namespace Sys2Proof.Machine

/-! The list of parcels stays in canonical form. -/

/-- The list of parcels is in canonical form. -/
def State.pwf (s : State) : Prop := spWf Parcel.zero s.parcels = true

theorem pwf_of_core {s t : State} (h : t.core = s.core) (hs : s.pwf) : t.pwf := by
  rw [State.pwf, parcels_of_core h]
  exact hs

theorem pwf_of_still {s t : State} (h : t.still = s.still) (hs : s.pwf) : t.pwf := pwf_of_core (core_of_still h) hs

theorem pwf_foldl {α : Type} (l : List α) (g : State → α → State) (h : ∀ s x, s.pwf → (g s x).pwf) {s : State} (hs : s.pwf) :
    (l.foldl g s).pwf := by
  induction l generalizing s with
  | nil => exact hs
  | cons a l ih => exact ih (h s a hs)

theorem pwf_modParcel {s : State} (h : s.pwf) (p : Nat) (f : Parcel → Parcel) : (s.modParcel p f).pwf := spWf_spPut h _ _

theorem pwf_setParcel {s : State} (h : s.pwf) (p : Nat) (x : Parcel) : (s.setParcel p x).pwf := spWf_spPut h _ _

theorem pwf_modQueue {s : State} (h : s.pwf) (p q : Nat) (f : Queue → Queue) : (s.modQueue p q f).pwf := pwf_modParcel h p _

/-- R149: a completion is counted, and a TICK_FULL is traced. -/
def State.noteEnd (s : State) (p q : Nat) (r : Request) (code detail : Byte) : State :=
  let s := s.countEvent 0x42 (p * 32 + q) (some p) 1
  if code = ccTickFull then (s.trace 2 2 (some p) (some q) (s.ingressOf r.src) detail.toNat (BitVec.ofNat 64 r.stamp)).countEvent
    0x41 (p * 32 + q) (some p) 1 else s

@[simp] theorem still_noteEnd (s : State) (p q : Nat) (r : Request) (code detail : Byte) :
    (s.noteEnd p q r code detail).still = s.still := by
  unfold State.noteEnd
  dsimp only
  split <;> simp

theorem complete_eq (s : State) (p q : Nat) (r : Request) (code detail : Byte) (ret : W32) (overrun share : Bool)
    (payload : List Byte) (pstat cell : Nat) : s.complete p q r code detail ret overrun share payload pstat cell =
      let done := r.record s.datum code detail ret overrun share cell
      let s := s.noteEnd p q r code detail
      match r.src with
      | .bell _ _ => s.modQueue p q (fun x => { x with records := x.records ++ [done] })
      | .sess n inc g rseq => (s.traceRecord p q done).vgAnswer n inc (if g then 2 else 1) 0 rseq
          (responseBody (done.bytes q false) payload pstat) := rfl

theorem pwf_complete {s : State} (h : s.pwf) (p q : Nat) (r : Request) (code detail : Byte) (ret : W32) (overrun share : Bool)
    (payload : List Byte) (pstat cell : Nat) : (s.complete p q r code detail ret overrun share payload pstat cell).pwf := by
  have hnoted := pwf_of_still (still_noteEnd s p q r code detail) h
  rw [complete_eq]
  dsimp only
  split
  · exact pwf_modQueue hnoted ..
  · exact pwf_of_still (by rw [still_vgAnswer, still_traceRecord]) hnoted

theorem pwf_refuse {s : State} (h : s.pwf) (p q : Nat) (r : Request) (code detail : Byte) : (s.refuse p q r code detail).pwf :=
  pwf_complete h ..

/-! The close of a session (R425, R426). -/

/-- R425: the partner of a session that closes is told, where it can be reached and did not close it. -/
def State.tellClose (s : State) (n code : Nat) : State :=
  let reach := match s.sessCfg n with | some (_, c) => (s.hopMac c.subport c.peerAddr).isSome | none => false
  if code = 0 ∨ code = 5 ∨ !reach then s else s.vgUnreliable n 3 (leBytes 1 code ++ List.replicate 7 0)

theorem tellClose_cases (s : State) (n code : Nat) : s.tellClose n code = s ∨
    s.tellClose n code = s.vgUnreliable n 3 (leBytes 1 code ++ List.replicate 7 0) := ite_eq_or_eq _ _ _

@[simp] theorem still_tellClose (s : State) (n code : Nat) : (s.tellClose n code).still = s.still := by
  rcases tellClose_cases s n code with hsame | htold
  · rw [hsame]
  · rw [htold, still_vgUnreliable]

/-- R426: an OPEN session is closed: its partner is told, its messages are released, and its CONTROL requests no longer wait. -/
def State.shutSession (s : State) (n code : Nat) : State :=
  let s := (s.tellClose n code).modVg n (fun v => { v with
    isOpen := false, close := BitVec.ofNat 8 code, disc := satAdd32 v.disc v.unacked.length
    unacked := [], held := [], ctl := [], ctlBusy := v.ctlBusy && decide (code ≠ 2), upd := [], ackDue := false })
  let s : State := { s with net := { s.net with ctlOrder := s.net.ctlOrder.filter (fun k => decide (k ≠ n)) } }
  s.trace 7 2 ((s.sessCfg n).map (·.1)) none n code 0

/-- Whether a request came over session n. -/
def Request.ofSess (n : Nat) (r : Request) : Bool := match r.src with | .sess m _ _ _ => decide (m.val = n) | _ => false

/-- R426: the waiting requests of a closed session end with ABORTED, in the queues of a parcel. -/
def State.dropWaiting (s : State) (p n : Nat) : State :=
  (s.parcel p).queues.foldl (fun s e =>
    (e.2.waiting.filter (Request.ofSess n)).foldl (fun s r => s.refuse p e.1 r ccAborted 0)
      (s.modQueue p e.1 (fun y => { y with waiting := y.waiting.filter (fun r => !Request.ofSess n r) }))) s

/-- The parcel of a session; 16 for none. -/
def State.sessParcel (s : State) (n : Nat) : Nat := match s.sessCfg n with | some (p, _) => p | none => 16

/-- R426: what a closed session had outstanding is counted, and the other sessions of its parcel share its credit. -/
def State.recredit (s : State) (n : Nat) (disc : W32) : State :=
  let p := s.sessParcel n
  let s := (s.dropWaiting p n).modVg n (fun w => { w with disc := disc })
  if p < 16 then s.grantCredit p else s

theorem closeSession_eq (s : State) (n code : Nat) : s.closeSession n code =
    if !(s.vg n).isOpen then s
    else (s.shutSession n code).recredit n (satAdd32 (s.vg n).disc (s.vg n).unacked.length) := rfl

theorem core_shutSession (s : State) (n code : Nat) : (s.shutSession n code).core = s.core := by
  have hnet (u : State) (f : VgSess → VgSess) (order : List Nat) :
      ({ u.modVg n f with net := { (u.modVg n f).net with ctlOrder := order } } : State).core = u.core := rfl
  exact (core_of_still (still_trace _ _ _ _ _ _ _ _)).trans ((hnet _ _ _).trans (core_of_still (still_tellClose s n code)))

/-- A request that is refused touches its own parcel alone. -/
theorem parcel_refuse_ne (s : State) {p k : Nat} (h : k ≠ p) (q : Nat) (r : Request) (code detail : Byte) :
    (s.refuse p q r code detail).parcel k = s.parcel k := by
  have hnoted := parcel_of_still (still_noteEnd s p q { r with windows := [] } code detail) k
  rw [State.refuse, complete_eq]
  dsimp only
  split
  · exact (parcel_modParcel_ne _ _ h).trans hnoted
  · exact (parcel_of_still (by rw [still_vgAnswer, still_traceRecord]) k).trans hnoted

theorem pwf_dropWaiting {s : State} (h : s.pwf) (p n : Nat) : (s.dropWaiting p n).pwf :=
  pwf_foldl _ _ (fun _ _ hs => pwf_foldl _ _ (fun _ _ hs => pwf_refuse hs ..) (pwf_modQueue hs ..)) h

theorem parcel_dropWaiting_ne (s : State) {p k : Nat} (h : k ≠ p) (n : Nat) : (s.dropWaiting p n).parcel k = s.parcel k := by
  refine view_foldl (State.parcel · k) _ _ (fun s e _ => ?_) s
  refine (view_foldl (State.parcel · k) _ _ (fun s r _ => ?_) _).trans (parcel_modParcel_ne s _ h)
  exact parcel_refuse_ne s h ..

theorem core_recredit (s : State) (n : Nat) (disc : W32) :
    (s.recredit n disc).core = (s.dropWaiting (s.sessParcel n) n).core := by
  unfold State.recredit
  dsimp only
  split
  · exact core_of_still ((still_grantCredit _ _).trans (still_modVg _ _ _))
  · rfl

theorem pwf_closeSession {s : State} (h : s.pwf) (n code : Nat) : (s.closeSession n code).pwf := by
  rw [closeSession_eq]
  split
  · exact h
  · exact pwf_of_core (core_recredit _ _ _) (pwf_dropWaiting (pwf_of_core (core_shutSession _ _ _) h) _ _)

/-- A parcel without queues is left alone by the close of a session. -/
theorem parcel_closeSession {s : State} {k : Nat} (h : (s.parcel k).queues = []) (n code : Nat) :
    (s.closeSession n code).parcel k = s.parcel k := by
  rw [closeSession_eq]
  split
  · rfl
  · have hshut := parcel_of_core (core_shutSession s n code) k
    rw [parcel_of_core (core_recredit _ _ _)]
    by_cases hk : k = (s.shutSession n code).sessParcel n
    · rw [← hk, State.dropWaiting, hshut, h]
      exact hshut
    · rw [parcel_dropWaiting_ne _ hk, hshut]

/-! The parcel is emptied (R78). -/

theorem pwf_orderResult {s : State} (h : s.pwf) (p : Nat) (r : OrdRef) (code detail : Byte) :
    (s.orderResult p r code detail).pwf := pwf_of_still (still_orderResult ..) h

theorem pwf_emptySlot {s : State} (h : s.pwf) (p slot : Nat) : (s.emptySlot p slot).pwf := pwf_modParcel h _ _

theorem pwf_endLoads {s : State} (h : s.pwf) (p : Nat) : (s.endLoads p).pwf :=
  pwf_foldl _ _ (fun _ _ hs => by
    split
    · exact pwf_orderResult (pwf_emptySlot hs ..) ..
    · exact hs) h

theorem pwf_notePoison {s : State} (h : s.pwf) (p addr : Nat) : (s.notePoison p addr).pwf :=
  pwf_modParcel (pwf_of_still (still_logP ..) h) _ _

theorem pwf_storeLine {s : State} (h : s.pwf) (p addr : Nat) (bs : List Byte) : (s.storeLine p addr bs).pwf := by
  unfold State.storeLine
  split
  · next l _ =>
    have hpoison : (if l.poison then s.notePoison p addr else s).pwf := by
      split
      · exact pwf_notePoison h p addr
      · exact h
    exact hpoison
  · exact h

theorem pwf_hostStore {s : State} (h : s.pwf) (p addr : Nat) (bs : List Byte) : (s.hostStore p addr bs).pwf := by
  unfold State.hostStore
  split
  · exact pwf_notePoison h p addr
  · split
    · exact pwf_storeLine h p addr bs
    · unfold State.hostQueue State.weltAsk
      dsimp only
      split <;> exact h

theorem pwf_writeRecord {s : State} (h : s.pwf) (p q : Nat) : (s.writeRecord p q).pwf := by
  unfold State.writeRecord
  dsimp only
  split
  · split
    · split
      · exact h
      · split
        · exact pwf_of_core (core_modHost ..) (pwf_modQueue h ..)
        · have hwritten (addr : Nat) (bs : List Byte) (f : Queue → Queue) (o : Output) (r : Record) :
              ((((s.modQueue p q f).hostStore p addr bs).emit o).traceRecord p q r).pwf :=
            pwf_of_still (still_traceRecord ..) (pwf_hostStore (pwf_modQueue h p q f) p addr bs)
          split <;> exact hwritten ..
    · exact h
  · exact h

theorem pwf_dropRings {s : State} (h : s.pwf) (p q : Nat) : (s.dropRings p q).pwf :=
  pwf_of_core (core_modHost ..) (pwf_modQueue (pwf_foldl _ _ (fun _ _ hs => pwf_writeRecord hs p q) h) ..)

theorem pwf_endWaits {s : State} (h : s.pwf) (p : Nat) : (s.endWaits p).pwf :=
  pwf_foldl _ _ (fun _ _ hs => pwf_of_still (still_endWait ..) hs) (pwf_modParcel h ..)

theorem pwf_clearParcel {s : State} (h : s.pwf) (p : Nat) : (s.clearParcel p).pwf := by
  unfold State.clearParcel
  dsimp only
  refine pwf_of_core (core_placeSegs ..) (pwf_modParcel (pwf_endWaits (pwf_foldl _ _ (fun s e hs => ?_)
    (pwf_foldl _ _ (fun s q hs => ?_) h)) p) p _)
  · have hslot := pwf_emptySlot (pwf_of_core (core_freeCells s p e.1) hs) p e.1
    split
    · exact pwf_orderResult hslot ..
    · exact hslot
  · have hqueue := pwf_modQueue (pwf_dropRings hs p q) p q fun y => { y.unbound with timeout := 0 }
    split
    · exact pwf_orderResult hqueue ..
    · exact hqueue

/-- R78: the tasks of a parcel go. -/
theorem core_removeTasks (l : List (Nat × Inst)) (s : State) :
    (l.foldl (fun s e => s.removeTask e.1 e.2) s).core = s.core :=
  view_foldl State.core _ _ (fun s e _ => core_removeTask s e.1 e.2) s

theorem emptyParcel_pwf_parcel {s : State} (h : s.pwf) (p : Fin 16) : (s.emptyParcel p).pwf ∧
    ((s.emptyParcel p).parcel p).queues = [] ∧ ((s.emptyParcel p).parcel p).slots = [] := by
  unfold State.emptyParcel
  dsimp only
  have hclear := pwf_clearParcel (pwf_of_core (core_removeTasks ((s.endLoads p).instsOf p) _) (pwf_endLoads h p)) p
  rw [parcel_modParcel_self hclear]
  exact ⟨pwf_modParcel hclear _ _, rfl, rfl⟩

end Sys2Proof.Machine

/-! SUPPORT. What a whole-device image makes of the tick machine, the parcels and the registers (R78), and what a parcel-local one
makes of its parcel. -/

namespace Sys2Proof.Machine

/-- The parcels of a whole-device image. -/
def imageParcels (b : List Byte) : ParcelSet := (List.range (devOf b).nparcel).map (fun p => (p, parcelOf b p))

theorem imageParcels_find (b : List Byte) (p : Nat) : (imageParcels b).find? (fun e => decide (e.1 = p)) =
    if p < (devOf b).nparcel then some (p, parcelOf b p) else none := by
  rw [imageParcels, List.find?_map]
  by_cases hp : p < (devOf b).nparcel
  · have hfind : (List.range (devOf b).nparcel).find? ((fun e : Nat × ParcelCfg => decide (e.1 = p)) ∘ fun p => (p, parcelOf b p)) =
        some p := List.find?_range_eq_some.2 (by simpa using ⟨hp, fun j hj => Nat.ne_of_lt hj⟩)
    rw [if_pos hp, hfind]
    rfl
  · rw [if_neg hp, List.find?_eq_none.2 (by simp; omega)]
    rfl

/-- R78: every parcel's work and every session end. -/
def State.endWork (s : State) : State :=
  (List.range 256).foldl (fun s n => s.closeSession n 2) (s.parcelSet.foldl (fun s e => s.emptyParcel (Fin.ofNat 16 e.1)) s)

/-- R78: what a whole-device image ends: every parcel's work, every session, the words it does not keep and the tick. -/
def State.clearDevice (s : State) (b : List Byte) : State :=
  let d := devOf b
  let oldDev := s.img.cfg
  let old := s.parcelSet
  let s := (s.endWork.flushWays old (imageParcels b)).zeroFill old (imageParcels b)
  let s := if s.img.on ∧ (oldDev.sysBase ≠ d.sysBase ∨ oldDev.sysUnits ≠ d.sysUnits) then s.stopTrace else s
  { s with tk := {} }

/-- R78: parcel p as a whole-device image has it; `keeps`: whether a parcel keeps its memory. -/
def State.layParcel (s : State) (b : List Byte) (keeps : ParcelCfg → Bool) (p : Nat) : State :=
  match (imageParcels b).find? (fun e => decide (e.1 = p)) with
  | some e =>
    let x := s.parcel p
    let s := s.setParcel p (builtParcel x e.2 (BitVec.ofNat 64 (field b 0x10 8)) (keeps e.2))
    (if x.cfg.ulog = e.2.ulog then s else s.rewriteLog p).placeSegs p 0 (2 ^ 48)
  | none => s.setParcel p Parcel.zero

/-- R78: whether a parcel's memory stays with it. -/
def keepsMemory (old new : ParcelSet) (c : ParcelCfg) : Bool := (List.range c.memUnits).all (fun i =>
  decide (unitHolder old (c.memBase + i) = unitHolder new (c.memBase + i)))

/-- R78: the ports that a whole-device image changes. -/
def changedPorts (oldDev d : DevCfg) : List Nat := (List.range 4).filter (fun p => decide (oldDev.ports[p]? ≠ d.ports[p]?)
  || (List.range 4).any (fun k => decide (oldDev.subs[4 * p + k]? ≠ d.subs[4 * p + k]?)))

/-- R78: whether a whole-device image retrains the host link. -/
def retrainsHost (oldDev d : DevCfg) : Bool := decide (oldDev.card ≠ d.card) || decide (oldDev.nfunc ≠ d.nfunc)

/-- R78: the cells and the links as a whole-device image has them. -/
def State.layLinks (s : State) (b : List Byte) (oldDev : DevCfg) : State :=
  let s := (List.range 128).foldl (fun s n =>
    (s.modCell n (fun c => c.configure none (parcelOf b 0) n)).fallDie (n / 32)) s
  let s := (imageParcels b).foldl (fun s e => s.configureCells (Fin.ofNat 16 e.1)) s
  let s := (List.range 16).foldl (fun s i => if (changedPorts oldDev (devOf b)).contains (i / 4) then
      s.modSub i (fun u => { u with
        up := false, neigh := [], txq := [], txSa := [], cur := none, rxSci := [], rxSa := [], noSa := false }) else s) s
  let s := { s with net := { s.net with mods := retrainMods (changedPorts oldDev (devOf b)) s.net.mods } }
  let s := if retrainsHost oldDev (devOf b) then s.modHost HostPort.linkDown else s
  { s with net := { s.net with sess := s.net.sess.filter (fun e =>
    (imageParcels b).any (fun q => q.2.sessions.any (fun c => decide (c.session = e.1)))) } }

theorem applyDevice_eq (s : State) (b : List Byte) (sel : Nat) : s.applyDevice b sel =
    let u := ((List.range 16).foldl (fun t p => t.layParcel b (keepsMemory s.parcelSet (imageParcels b)) p)
      (s.clearDevice b)).layLinks b s.img.cfg
    { u with img := { u.img with
      cfg := devOf b, on := true, serial := BitVec.ofNat 64 (field b 0x10 8), label := (b.drop 0x30).take 16
      digest := Config.sha384 (b.take (field b 8 4)), sel := sel, building := true
      retrain := changedPorts s.img.cfg (devOf b), retrainHost := retrainsHost s.img.cfg (devOf b) } } := rfl

theorem clearDevice_tk (s : State) (b : List Byte) : (s.clearDevice b).tk = {} := rfl

theorem pwf_endWork {s : State} (h : s.pwf) : s.endWork.pwf :=
  pwf_foldl _ _ (fun _ n hs => pwf_closeSession hs n 2)
    (pwf_foldl s.parcelSet _ (fun _ e hs => (emptyParcel_pwf_parcel hs (Fin.ofNat 16 e.1)).1) h)

theorem parcels_stopTrace (s : State) : s.stopTrace.parcels = s.parcels := by
  unfold State.stopTrace
  split <;> rfl

theorem pwf_clearDevice {s : State} (h : s.pwf) (b : List Byte) : (s.clearDevice b).pwf := by
  have hfilled := pwf_of_core ((core_zeroFill _ s.parcelSet (imageParcels b)).trans
    (core_flushWays s.endWork s.parcelSet (imageParcels b))) (pwf_endWork h)
  unfold State.clearDevice
  dsimp only
  split
  · exact (congrArg (spWf Parcel.zero ·) (parcels_stopTrace _)).trans hfilled
  · exact hfilled

/-! Parcel p as the image has it. -/

theorem core_layRest (s : State) (p : Nat) (same : Prop) [Decidable same] :
    ((if same then s else s.rewriteLog p).placeSegs p 0 (2 ^ 48)).core = s.core := by
  rw [core_placeSegs]
  split
  · rfl
  · exact core_rewriteLog s p

/-- What a whole-device image makes of parcel p. -/
theorem layParcel_cases (s : State) (b : List Byte) (keeps : ParcelCfg → Bool) (p : Nat) : ∃ x,
    (s.layParcel b keeps p).core = (s.setParcel p x).core ∧
      if p < (devOf b).nparcel then x.state = .building ∧ x.cfg = parcelOf b p else x.state = .absent := by
  rw [State.layParcel, imageParcels_find]
  by_cases hp : p < (devOf b).nparcel
  · simp only [if_pos hp]
    exact ⟨_, core_layRest _ p _, rfl, rfl⟩
  · simp only [if_neg hp]
    exact ⟨_, rfl, rfl⟩

theorem layParcel_tk (s : State) (b : List Byte) (keeps : ParcelCfg → Bool) (p : Nat) :
    (s.layParcel b keeps p).tk = s.tk := by
  obtain ⟨x, hcore, -⟩ := layParcel_cases s b keeps p
  exact (tk_of_core hcore).trans rfl

theorem pwf_layParcel {s : State} (h : s.pwf) (b : List Byte) (keeps : ParcelCfg → Bool) (p : Nat) :
    (s.layParcel b keeps p).pwf := by
  obtain ⟨x, hcore, -⟩ := layParcel_cases s b keeps p
  exact pwf_of_core hcore (pwf_setParcel h p x)

theorem layParcel_ne (s : State) (b : List Byte) (keeps : ParcelCfg → Bool) {p k : Nat} (h : k ≠ p) :
    (s.layParcel b keeps p).parcel k = s.parcel k := by
  obtain ⟨x, hcore, -⟩ := layParcel_cases s b keeps p
  rw [parcel_of_core hcore]
  exact spGet_spPut_ne _ _ _ h

theorem layParcel_self {s : State} (h : s.pwf) (b : List Byte) (keeps : ParcelCfg → Bool) (p : Nat) :
    if p < (devOf b).nparcel then
      ((s.layParcel b keeps p).parcel p).state = .building ∧ ((s.layParcel b keeps p).parcel p).cfg = parcelOf b p
    else ((s.layParcel b keeps p).parcel p).state = .absent := by
  obtain ⟨x, hcore, hx⟩ := layParcel_cases s b keeps p
  have hself : (s.layParcel b keeps p).parcel p = x := by
    rw [parcel_of_core hcore]
    exact spGet_spPut_self h _ _
  rwa [hself]

/-- Each parcel of a list without repetition is as the image has it. -/
theorem layParcels_mem {s : State} (h : s.pwf) (b : List Byte) (keeps : ParcelCfg → Bool) {l : List Nat} (hl : l.Nodup) {p : Nat}
    (hp : p ∈ l) : let t := l.foldl (fun s p => s.layParcel b keeps p) s
    if p < (devOf b).nparcel then (t.parcel p).state = .building ∧ (t.parcel p).cfg = parcelOf b p
    else (t.parcel p).state = .absent := by
  induction l generalizing s with
  | nil => cases hp
  | cons q l ih =>
    obtain ⟨hq, hl⟩ := List.nodup_cons.1 hl
    by_cases hpq : p = q
    · subst hpq
      have hlater : ((l.foldl (fun s p => s.layParcel b keeps p) (s.layParcel b keeps p)).parcel p) = _ :=
        view_foldl (State.parcel · p) l _ (fun u r hr => layParcel_ne u b keeps (fun he => hq (he ▸ hr))) _
      rw [List.foldl_cons]
      dsimp only
      rw [hlater]
      exact layParcel_self h b keeps p
    · exact ih (pwf_layParcel h b keeps q) hl (List.mem_of_ne_of_mem hpq hp)

/-! The cells and the links. -/

theorem core_layLinks (s : State) (b : List Byte) (oldDev : DevCfg) : (s.layLinks b oldDev).core = s.core := by
  unfold State.layLinks
  dsimp only
  have hcells (l : List Nat) (u : State) : (l.foldl (fun s n =>
      (s.modCell n (fun c => c.configure none (parcelOf b 0) n)).fallDie (n / 32)) u).core = u.core :=
    view_foldl State.core l _ (fun u n _ => (core_fallDie _ _).trans (core_modCell u n _)) u
  have hconf (u : State) : ((imageParcels b).foldl (fun s e => s.configureCells (Fin.ofNat 16 e.1)) u).core = u.core :=
    view_foldl State.core _ _ (fun u e _ => core_configureCells u _) u
  have hsubs (l : List Nat) (u : State) : (l.foldl (fun s i => if (changedPorts oldDev (devOf b)).contains (i / 4) then
      s.modSub i (fun u => { u with
        up := false, neigh := [], txq := [], txSa := [], cur := none, rxSci := [], rxSa := [], noSa := false }) else s) u).core =
      u.core :=
    view_foldl State.core l _ (fun u i _ => by split <;> rfl) u
  have hhost (u : State) (yes : Bool) : (if yes then u.modHost HostPort.linkDown else u).core = u.core := by split <;> rfl
  exact (hhost _ _).trans ((hsubs _ _).trans ((hconf _).trans (hcells _ _)))

/-- What a whole-device image makes of the tick machine, the parcels and the registers (R78). -/
theorem applyDevice_done {s : State} (h : s.pwf) (b : List Byte) (sel : Nat) : let t := s.applyDevice b sel
    t.tk = {} ∧ ∀ p, p < 16 → if p < (devOf b).nparcel then (t.parcel p).state = .building ∧ (t.parcel p).cfg = parcelOf b p
      else (t.parcel p).state = .absent := by
  have hlinks := core_layLinks ((List.range 16).foldl (fun t p => t.layParcel b (keepsMemory s.parcelSet (imageParcels b)) p)
    (s.clearDevice b)) b s.img.cfg
  rw [applyDevice_eq]
  refine ⟨(tk_of_core hlinks).trans (view_foldl State.tk _ _ (fun u p _ => layParcel_tk u b _ p) _), fun p hp => ?_⟩
  have hparcel := parcel_of_core hlinks p
  dsimp only
  exact hparcel ▸ layParcels_mem (pwf_clearDevice h b) b _ List.nodup_range (List.mem_range.2 hp)

end Sys2Proof.Machine

/-! SUPPORT. The steps of start-up (R69, R70, R80, R451, R479 to R481, R514), and the end of a whole-device build. -/

namespace Sys2Proof.Machine

open Sys2Proof.Safety

/-! The run state changes. -/

/-- A change of the run state is told to the event receiver alone (R593). -/
theorem toDev_frame (s : State) (d : DevState) : s.toDev d = { s with dev := d, mg := (s.toDev d).mg, out := (s.toDev d).out } := by
  unfold State.toDev State.pldmEvent
  dsimp only
  (repeat' split) <;> rfl

@[simp] theorem toDev_dev (s : State) (d : DevState) : (s.toDev d).dev = d := by rw [toDev_frame]
@[simp] theorem toDev_datum (s : State) (d : DevState) : (s.toDev d).datum = s.datum := by rw [toDev_frame]
@[simp] theorem toDev_tk (s : State) (d : DevState) : (s.toDev d).tk = s.tk := by rw [toDev_frame]
@[simp] theorem toDev_lc (s : State) (d : DevState) : (s.toDev d).lc = s.lc := by rw [toDev_frame]
@[simp] theorem toDev_img (s : State) (d : DevState) : (s.toDev d).img = s.img := by rw [toDev_frame]
@[simp] theorem toDev_stk (s : State) (d : DevState) : (s.toDev d).stk = s.stk := by rw [toDev_frame]
@[simp] theorem toDev_er (s : State) (d : DevState) : (s.toDev d).er = s.er := by rw [toDev_frame]
@[simp] theorem toDev_parcels (s : State) (d : DevState) : (s.toDev d).parcels = s.parcels := by rw [toDev_frame]
@[simp] theorem toDev_parcel (s : State) (d : DevState) (p : Nat) : (s.toDev d).parcel p = s.parcel p := by
  rw [toDev_frame]; rfl

@[simp] theorem stepDone_dev (s : State) (k : Nat) : (s.stepDone k).dev = .starting k := toDev_dev s _
@[simp] theorem stepDone_step (s : State) (k : Nat) : (s.stepDone k).mg.step = k + 1 := rfl
@[simp] theorem stepDone_tk (s : State) (k : Nat) : (s.stepDone k).tk = s.tk := toDev_tk s _
@[simp] theorem stepDone_img (s : State) (k : Nat) : (s.stepDone k).img = s.img := toDev_img s _
@[simp] theorem stepDone_stk (s : State) (k : Nat) : (s.stepDone k).stk = s.stk := toDev_stk s _
@[simp] theorem stepDone_er (s : State) (k : Nat) : (s.stepDone k).er = s.er := toDev_er s _

/-! Power-on and its tests (R453, R471, R479 to R481, R514, R577). -/

/-- R471: on a card the core rails come up when the input capacity is at least 600 W. -/
theorem startRails_card {s : State} {c : Nat} (h : s.capacity = some c) :
    s.startRails.mg = { s.mg with rails := decide (600 ≤ c) } ∧ s.startRails.dev = s.dev ∧ s.startRails.datum = s.datum ∧
      s.startRails.th = s.th := by
  unfold State.startRails
  rw [h]
  dsimp only
  by_cases hc : c < 600
  · rw [if_pos hc]
    simp [Nat.not_le.2 hc]
  · rw [if_neg hc]
    simp [Nat.not_lt.1 hc]

/-- R508, R509: what a cold reset of a card leaves: the datum starts anew, and step 1 of start-up begins. -/
theorem coldReset_card {s : State} {a b : Nat} (h : s.th.capacity = some (a, b)) (cause : Nat) :
    (s.coldReset cause).dev = .starting 0 ∧ (s.coldReset cause).datum = 0 ∧
      (s.coldReset cause).mg.standby = s.mg.standby ∧ (s.coldReset cause).mg.resetCause = BitVec.ofNat 8 cause ∧
      (s.coldReset cause).th.capacity = some (a, b) ∧ (s.coldReset cause).mg.rails = decide (600 ≤ 66 + a + b) := by
  have hcap : s.dropUpdate.th.capacity = some (a, b) := by rw [dropUpdate_frame, h]
  have hstandby : s.dropUpdate.mg.standby = s.mg.standby := by
    unfold State.dropUpdate
    split <;> rfl
  unfold State.coldReset
  dsimp only
  generalize hu : State.logReset _ 1 = u
  have hth : u.th.capacity = some (a, b) := by simp [← hu, State.logReset, State.commitWear, State.foldCycles, hcap]
  obtain ⟨hmg, hdev, hdatum, hth'⟩ := startRails_card (s := u) (c := 66 + a + b) (by rw [State.capacity, hth]; rfl)
  rw [hmg, hdev, hdatum, hth']
  refine ⟨?_, ?_, ?_, ?_, hth, rfl⟩
  · simp [← hu, State.logReset]
  · simp [← hu, State.logReset]
  · simp [← hu, State.logReset, Mg.clearRegs, State.commitWear, State.foldCycles, hstandby]
  · simp [← hu, State.logReset, Mg.clearRegs]

/-- R514, R577: the standby and main inputs of a card come up together. -/
theorem powerOn_card {s : State} (hoff : s.dev = .off) (hs : s.sled = false) (hm : s.mg.standby = false)
    (sense : List (Bool × Bool × Bool)) :
    let w (i : Nat) : Nat := senseWatts (sense.getD i (false, false, false))
    ∃ t, exec (.powerOn sense) s = .next t ∧ t.dev = .starting 0 ∧ t.datum = 0 ∧ t.mg.standby = true ∧ t.mg.resetCause = 1 ∧
      t.th.capacity = some (w 0, w 1) ∧ t.mg.rails = decide (600 ≤ 66 + w 0 + w 1) := by
  intro w
  refine ⟨_, if_neg (by simp [hoff]), ?_⟩
  rw [if_neg (by simp [hs]), if_neg (by simp [hm])]
  exact coldReset_card rfl 1

/-- R453: every channel trains. -/
theorem stackTraining_passes {s : State} (hd : s.dev = .starting 0) (hr : s.mg.rails = true) :
    exec (.stackTraining []) s = .next { s.stepDone 2 with stk := { (s.stepDone 2).stk with trained := 0xFF } } :=
  if_neg (by simp [hd, hr])

/-- R479 to R481: the self-test of a device whose channels and hub die pass, whatever is mended. -/
theorem powerOnSelfTest_mends {s : State} (hd : s.dev = .starting 2) {find : PostFind} (hc : find.channels = [])
    (hh : find.hub = false) : exec (.powerOnSelfTest find) s = .next ((s.stepDone 3).postMend find).postZero := by
  show execPowerOnSelfTest find s = _
  rw [execPowerOnSelfTest_eq, if_neg (by simp [hd]), hc, if_neg (by simp [hh])]
  rfl

theorem postMend_dev (s : State) (find : PostFind) : (s.postMend find).dev = s.dev :=
  congrArg (·.2.1) (kept_postMend s find)

/-- With nothing found, the self-test lifts every fence and writes its registers. -/
theorem postMend_clean {s : State} {find : PostFind} (hl : find.logic = []) (hc : find.cells = []) (hw : find.welt = [])
    (hr : find.ranges = []) : s.postMend find = { s with we := { s.we with fences := 0 } }.postRegs find.parts := by
  unfold State.postMend
  rw [hl, hc, hw, hr]
  rfl

/-- R479 to R481: the self-test ends; what it found of channels or the hub die alone stops start-up. -/
theorem powerOnSelfTest_done {s : State} (hd : s.dev = .starting 2) (find : PostFind) :
    ∃ t, exec (.powerOnSelfTest find) s = .next t ∧
      (find.channels = [] → find.hub = false → t.dev = .starting 3 ∧ t.stk.mem = [] ∧ t.stk.poison = [] ∧
        t.stk.unsettled = [] ∧ t.cells = []) ∧
      (find.logic = [] → find.cells = [] → find.welt = [] → find.ranges = [] → find.channels = [] → find.hub = false →
        t.we.fences = 0 ∧ t.er = s.er) := by
  by_cases hpass : find.channels = [] ∧ find.hub = false
  · obtain ⟨hc, hh⟩ := hpass
    refine ⟨_, powerOnSelfTest_mends hd hc hh, fun _ _ => ⟨?_, rfl, rfl, rfl, rfl⟩, fun hl hcell hw hr _ _ => ?_⟩
    · exact (postMend_dev _ find).trans (stepDone_dev s 3)
    · rw [postMend_clean hl hcell hw hr]
      exact ⟨rfl, stepDone_er s 3⟩
  · obtain ⟨t, ht⟩ : ∃ t, exec (.powerOnSelfTest find) s = .next t := ⟨_, if_neg (by simp [hd])⟩
    exact ⟨t, ht, fun hc hh => absurd ⟨hc, hh⟩ hpass, fun _ _ _ _ hc hh => absurd ⟨hc, hh⟩ hpass⟩

/-! Post-package repair (R451). -/

theorem repair_mem (t : Stacks) (k : Nat) : (t.repair k).mem = t.mem := by
  unfold Stacks.repair
  dsimp only
  refine (view_foldl Stacks.mem _ _ (fun t row _ => ?_) _).trans rfl
  split <;> rfl

/-- A repair touches the remap entries of its own stack alone, and finds nothing to do where there is none. -/
theorem repair_remap {t : Stacks} {k j : Nat} (h : spGet [] t.remap k = []) : spGet [] (t.repair j).remap k = [] := by
  unfold Stacks.repair
  dsimp only
  by_cases hj : k = j
  · subst hj
    rw [h]
    exact h
  · refine (view_foldl (fun t : Stacks => spGet [] t.remap k) _ _ (fun t row _ => ?_) _).trans h
    split
    · exact spGet_spMod_ne [] t.remap (·.erase row) hj
    · rfl

theorem repairs_remap (l : List Nat) {t : Stacks} {k : Nat} (h : spGet [] t.remap k = []) :
    spGet [] (l.foldl (fun t j => t.repair j) t).remap k = [] := by
  induction l generalizing t with
  | nil => exact h
  | cons j l ih => exact ih (repair_remap h)

theorem postPackageRepair_done {s : State} (hd : s.dev = .starting 3) : exec .postPackageRepair s =
    .next ({ s with stk := (List.range 8).foldl (fun t k => t.repair k) s.stk }.stepDone 4) := if_neg (by simp [hd])

/-! The image slots (R69, R70, R84). -/

/-- R69, R70: the image of a slot comes into force; `ra`, `rb`: the reasons of the two slots. -/
def State.fetchSlot (s : State) (ra rb sel : Nat) (b : List Byte) : State :=
  { s with img := { s.img with
    reasonA := BitVec.ofNat 8 ra, reasonB := BitVec.ofNat 8 rb, cfg := devOf b, on := true
    serial := BitVec.ofNat 64 (field b 0x10 8), label := (b.drop 0x30).take 16
    digest := Config.sha384 (b.take (field b 8 4)), sel := sel } }.stepDone 5

/-- R70: no slot is valid: the E40 enters UNLASTED. -/
def State.fetchNone (s : State) (ra rb : Nat) : State :=
  let s := { s with img := { s.img with reasonA := BitVec.ofNat 8 ra, reasonB := BitVec.ofNat 8 rb } }
  { (s.toDev .unlasted) with img := { s.img with sel := 0 } }

/-- R70: which slot comes into force, by the reasons of the two: 1 slot A, 2 slot B, 0 neither. -/
def State.fetchSel (s : State) (ra rb : Nat) : Nat :=
  if ra = 0 ∧ (rb ≠ 0 ∨ field s.img.slotB 0x10 8 ≤ field s.img.slotA 0x10 8) then 1 else if rb = 0 then 2 else 0

/-- R69, R70: the fetch of a flash that reads. -/
theorem imageFetch_read {s : State} (hd : s.dev = .starting 4) :
    let ra := s.slotReason s.img.slotA s.img.badA false
    let rb := s.slotReason s.img.slotB s.img.badB false
    let sel := s.fetchSel ra rb
    exec (.imageFetch false false) s = if sel = 0 then .next (s.fetchNone ra rb)
      else .next (s.fetchSlot ra rb sel (if sel = 1 then s.img.slotA else s.img.slotB)) := if_neg (by simp [hd])

/-- R69, R70: the valid slot with the higher SERIAL comes into force, slot A winning a tie; with none, the E40 is UNLASTED. -/
theorem imageFetch_done {s : State} (hd : s.dev = .starting 4) :
    let ra := s.slotReason s.img.slotA s.img.badA false
    let rb := s.slotReason s.img.slotB s.img.badB false
    let serial (b : List Byte) : Nat := field b 0x10 8
    ∃ t, exec (.imageFetch false false) s = .next t ∧ t.img.reasonA = BitVec.ofNat 8 ra ∧ t.img.reasonB = BitVec.ofNat 8 rb ∧
      if ra = 0 ∧ (rb ≠ 0 ∨ serial s.img.slotB ≤ serial s.img.slotA) then t.dev = .starting 5 ∧ t.img.on = true ∧
        t.img.sel = 1 ∧ t.img.serial = BitVec.ofNat 64 (serial s.img.slotA)
      else if rb = 0 then t.dev = .starting 5 ∧ t.img.on = true ∧ t.img.sel = 2 ∧
        t.img.serial = BitVec.ofNat 64 (serial s.img.slotB)
      else t.dev = .unlasted ∧ t.img.sel = 0 := by
  intro ra rb serial
  have hexec : exec (.imageFetch false false) s = if s.fetchSel ra rb = 0 then .next (s.fetchNone ra rb)
      else .next (s.fetchSlot ra rb (s.fetchSel ra rb) (if s.fetchSel ra rb = 1 then s.img.slotA else s.img.slotB)) :=
    imageFetch_read hd
  have hslot (sel : Nat) (b : List Byte) : (s.fetchSlot ra rb sel b).img.reasonA = BitVec.ofNat 8 ra ∧
      (s.fetchSlot ra rb sel b).img.reasonB = BitVec.ofNat 8 rb ∧ (s.fetchSlot ra rb sel b).dev = .starting 5 ∧
      (s.fetchSlot ra rb sel b).img.on = true ∧ (s.fetchSlot ra rb sel b).img.sel = sel ∧
      (s.fetchSlot ra rb sel b).img.serial = BitVec.ofNat 64 (serial b) := by
    rw [State.fetchSlot, stepDone_img, stepDone_dev]
    exact ⟨rfl, rfl, rfl, rfl, rfl, rfl⟩
  by_cases hA : ra = 0 ∧ (rb ≠ 0 ∨ serial s.img.slotB ≤ serial s.img.slotA)
  · have hsel : s.fetchSel ra rb = 1 := if_pos hA
    obtain ⟨ha, hb, hfields⟩ := hslot 1 s.img.slotA
    rw [hexec, hsel]
    exact ⟨_, rfl, ha, hb, (if_pos hA).mpr hfields⟩
  · by_cases hB : rb = 0
    · have hsel : s.fetchSel ra rb = 2 := (if_neg hA).trans (if_pos hB)
      obtain ⟨ha, hb, hfields⟩ := hslot 2 s.img.slotB
      rw [hexec, hsel]
      exact ⟨_, rfl, ha, hb, ((if_neg hA).trans (if_pos hB)).mpr hfields⟩
    · have hsel : s.fetchSel ra rb = 0 := (if_neg hA).trans (if_neg hB)
      rw [hexec, hsel]
      exact ⟨s.fetchNone ra rb, rfl, rfl, rfl, ((if_neg hA).trans (if_neg hB)).mpr ⟨toDev_dev _ _, rfl⟩⟩

theorem startupBuild_done {s : State} (hd : s.dev = .starting 5) : exec .startupBuild s =
    let u := s.recall.applyDevice (if s.img.sel = 1 then s.img.slotA else s.img.slotB) s.img.sel
    .next ({ u with img := { u.img with before := [] } }.stepDone 6) := if_neg (by simp [hd])

theorem pwf_recall {s : State} (h : s.pwf) : s.recall.pwf := pwf_foldl _ _ (fun _ _ hs => pwf_setParcel hs _ _) h

/-! The end of a build (R80). -/

/-- R80: the parcels of a whole-device build become ACTIVE. -/
def State.wake (s : State) (l : List (Nat × Parcel)) : State :=
  l.foldl (fun s e => if e.2.state = .building then
    s.modParcel e.1 (fun x => { x with state := .active, buildDone := false }) else s) s

theorem endBuild_eq (s : State) : s.endBuild = { (s.wake s.parcels).freeMail with
    img := { (s.wake s.parcels).img with building := false, retrain := [], retrainHost := false }, tk := { run := true }
    lc := { (s.wake s.parcels).lc with
      edge := (s.wake s.parcels).lc.ctr, len := (s.wake s.parcels).img.cfg.firstTick (s.wake s.parcels).datum } } := rfl

@[simp] theorem wake_img (s : State) (l : List (Nat × Parcel)) : (s.wake l).img = s.img :=
  view_foldl State.img _ _ (fun s e _ => by split <;> rfl) s
@[simp] theorem wake_datum (s : State) (l : List (Nat × Parcel)) : (s.wake l).datum = s.datum :=
  view_foldl State.datum _ _ (fun s e _ => by split <;> rfl) s
@[simp] theorem wake_lc (s : State) (l : List (Nat × Parcel)) : (s.wake l).lc = s.lc :=
  view_foldl State.lc _ _ (fun s e _ => by split <;> rfl) s

theorem wake_parcel {s : State} (h : spWf Parcel.zero s.parcels = true) (l : List (Nat × Parcel)) (p : Nat) :
    ((s.wake l).parcel p).state =
      if ∃ e ∈ l, e.1 = p ∧ e.2.state = .building then .active else (s.parcel p).state := by
  induction l generalizing s with
  | nil => simp [State.wake]
  | cons e l ih =>
    by_cases he : e.2.state = .building
    · have hcons : s.wake (e :: l) = (s.modParcel e.1 fun x => { x with state := .active, buildDone := false }).wake l := by
        rw [State.wake, List.foldl_cons, if_pos he]; rfl
      rw [hcons, ih (spWf_spPut h _ _)]
      by_cases hp : e.1 = p
      · subst hp
        simp [he, parcel_modParcel_self h]
      · simp only [parcel_modParcel_ne _ _ (Ne.symm hp), List.exists_mem_cons_iff, hp, false_and, false_or]
    · have hcons : s.wake (e :: l) = s.wake l := by
        rw [State.wake, List.foldl_cons, if_neg he]; rfl
      rw [hcons, ih h]
      simp only [List.exists_mem_cons_iff, he, and_false, false_or]

/-- R80: the parcels that are being built become ACTIVE, and the others stay as they are. -/
theorem endBuild_parcel {s : State} (h : spWf Parcel.zero s.parcels = true) (p : Nat) :
    (s.endBuild.parcel p).state = if (s.parcel p).state = .building then .active else (s.parcel p).state := by
  have hbuilding : (∃ e ∈ s.parcels, e.1 = p ∧ e.2.state = .building) ↔ (s.parcel p).state = .building := by
    constructor
    · rintro ⟨e, he, rfl, hstate⟩
      rwa [State.parcel, spGet_of_mem h he]
    · exact fun hstate => ⟨_, mem_of_spGet (fun hzero => by rw [State.parcel, hzero] at hstate; cases hstate), rfl, hstate⟩
  have hparcels : s.endBuild.parcels = (s.wake s.parcels).parcels := by
    rw [endBuild_eq, parcels_of_still (still_freeMail _)]
  have hparcel : s.endBuild.parcel p = (s.wake s.parcels).parcel p := congrArg (spGet Parcel.zero · p) hparcels
  rw [hparcel, wake_parcel h]
  simp only [hbuilding]

theorem endBuild_img (s : State) : s.endBuild.img = { s.img with building := false, retrain := [], retrainHost := false } := by
  rw [endBuild_eq, wake_img]

theorem endBuild_tk (s : State) : s.endBuild.tk = { run := true } := by rw [endBuild_eq]

theorem endBuild_datum (s : State) : s.endBuild.datum = s.datum := by
  have hdatum : s.endBuild.datum = (s.wake s.parcels).freeMail.datum := by rw [endBuild_eq]
  rw [hdatum, datum_of_still (still_freeMail _), wake_datum]

theorem endBuild_lc (s : State) :
    s.endBuild.lc = { s.lc with edge := s.lc.ctr, len := s.img.cfg.firstTick s.datum } := by
  rw [endBuild_eq, wake_img, wake_lc, wake_datum]

theorem ready_done {s : State} (hd : s.dev = .starting 6) (at' : Nat) :
    exec (.ready at') s = .next (((s.at at').endBuild).toDev .running) := if_neg (by simp [hd])

/-- Settles O51: each clause is the law of the step that it names. -/
theorem startUpCompletes : Obligations.StartUpCompletes := by
  intro s hwf
  refine ⟨fun sense hd hs hm => powerOn_card hd hs hm sense, fun hd hr => ⟨_, stackTraining_passes hd hr, ?_, rfl, rfl⟩,
    fun find hd => ?_, fun hd => ⟨_, postPackageRepair_done hd, ?_, ?_, fun k hk hnone => ?_⟩, fun hd => ?_,
    fun hd => ⟨_, startupBuild_done hd, ?_, ?_, ?_, ?_, ?_⟩, fun at' hd => ⟨_, ready_done hd at', ?_, ?_, ?_, ?_, ?_⟩⟩
  · exact stepDone_dev s 2
  · exact powerOnSelfTest_done hd find
  · exact stepDone_dev _ 4
  · rw [stepDone_stk]
    exact view_foldl Stacks.mem _ _ (fun t k _ => repair_mem t k) s.stk
  · rw [stepDone_stk]
    exact repairs_remap _ hnone
  · exact imageFetch_done hd
  · exact stepDone_dev _ 6
  · rw [stepDone_tk]
    exact (applyDevice_done (pwf_recall hwf) (if s.img.sel = 1 then s.img.slotA else s.img.slotB) s.img.sel).1
  · rw [stepDone_img, applyDevice_eq]
  · rw [stepDone_img]
  · rw [stepDone_img, applyDevice_eq]
  · exact toDev_dev _ _
  · rw [toDev_datum, endBuild_datum]
    rfl
  · rw [toDev_tk, endBuild_tk]
  · rw [toDev_lc, endBuild_lc]
    rfl
  · intro p hp
    rw [toDev_parcel, endBuild_parcel (s := s.at at') hwf]
    exact if_pos hp

end Sys2Proof.Machine

/-! SUPPORT. The parcel orders (R75, R76, R118, R330 to R332, R342, R512, R513): how an order of a function is taken, how it ends,
and what each order makes of its parcel. -/

namespace Sys2Proof.Machine

open Sys2Proof.Safety

/-! What is read back in any list of parcels and windows. -/

/-- A parcel changed to one that is not absent is read back. -/
theorem parcel_modParcel_present {s : State} {p : Nat} {f : Parcel → Parcel} (h : (f (s.parcel p)).state ≠ .absent) :
    (s.modParcel p f).parcel p = f (s.parcel p) :=
  spGet_spPut_of_ne _ _ fun e => h (by rw [show f (s.parcel p) = Parcel.zero from e]; rfl)

/-- A window changed to one that is not as at reset is read back. -/
theorem ord_modOrd_of_ne {s : State} {a : Nat} {f : OrdSt → OrdSt} (h : f (s.ord a) ≠ OrdSt.zero) :
    (s.modOrd a f).ord a = f (s.ord a) := spGet_spPut_of_ne _ _ h

theorem spGet_spKeep {α : Type} (d : α) (g : Nat → Bool) (m : Sparse α) (k : Nat) :
    spGet d (spKeep g m) k = if g k then spGet d m k else d := by
  induction m with
  | nil => simp [spKeep]
  | cons e t ih =>
    obtain ⟨a, x⟩ := e
    have ih : spGet d (List.filter (fun e => g e.1) t) k = if g k then spGet d t k else d := ih
    by_cases ha : g a
    · rw [spKeep, List.filter_cons_of_pos (by exact ha), spGet, spGet, ih]
      by_cases hk : a = k
      · subst hk
        simp [ha]
      · simp [hk]
    · rw [spKeep, List.filter_cons_of_neg (by exact ha), ih]
      by_cases hk : a = k
      · subst hk
        simp [ha]
      · simp [spGet, hk]

/-! The result of a function's order (R118, R355). -/

/-- A window that shows DONE. -/
theorem ord_modOrd_done {s : State} {a : Nat} {f : OrdSt → OrdSt} (h : (f (s.ord a)).done = true) :
    (s.modOrd a f).ord a = f (s.ord a) := ord_modOrd_of_ne fun e => by rw [e] at h; cases h

/-- A window that shows BUSY. -/
theorem ord_modOrd_busy {s : State} {a : Nat} {f : OrdSt → OrdSt} (h : (f (s.ord a)).busy = true) :
    (s.modOrd a f).ord a = f (s.ord a) := ord_modOrd_of_ne fun e => by rw [e] at h; cases h

/-- R355: a function event leaves the result of an order alone. -/
theorem fnEvent_done {s : State} {a : Nat} (h : (s.ord a).done = true) (bit : Nat) :
    ((s.fnEvent a bit).ord a).done = true ∧ ((s.fnEvent a bit).ord a).busy = (s.ord a).busy ∧
      ((s.fnEvent a bit).ord a).result = (s.ord a).result := by
  unfold State.fnEvent State.callMsix
  split
  · exact ⟨h, rfl, rfl⟩
  · rw [ord_modOrd_done, ord_modOrd_done]
    · exact ⟨h, rfl, rfl⟩
    · exact h
    · rw [ord_modOrd_done] <;> exact h

/-- R118: the result of a function's order stands in its window. -/
theorem ord_orderResult_fn (s : State) (p : Nat) (f : Fin 8) (id : W64) (inc : Nat) (code detail : Byte) :
    let w := (s.orderResult p ⟨.fn f, id, inc⟩ code detail).ord (1 + f)
    w.done = true ∧ w.busy = false ∧ w.result = (id, code, detail) := by
  unfold State.orderResult
  dsimp only
  generalize State.trace s _ _ _ _ _ _ _ = u
  have hset := ord_modOrd_done (s := u) (a := 1 + f)
    (f := fun o => { o with done := true, busy := false, result := (id, code, detail) }) rfl
  obtain ⟨hdone, hbusy, hresult⟩ := fnEvent_done (by rw [hset]) 0
  exact ⟨hdone, hbusy.trans (by rw [hset]), hresult.trans (by rw [hset])⟩

/-- An order ends by its result: nothing but its own parcel differs, and no CONTROL request waits. -/
theorem ends_of_orderResult {i : Instr} {s u : State} {h : OrdHdr} {f : Fin 8} {p : Fin 16} {inc : Nat} {code detail : Byte}
    {q : State → Prop} (hexec : exec i s = .next (u.orderResult p ⟨.fn f, h.id, inc⟩ code detail).pump)
    (hidle : u.net.ctlOrder = []) (hother : ∀ k, k ≠ p.val → u.parcel k = s.parcel k)
    (hq : ∀ t : State, t.parcel p = u.parcel p → q t) : Ends i s h f p code detail q := by
  have hstill := still_orderResult u p ⟨.fn f, h.id, inc⟩ code detail
  rw [pump_quiet _ ((ctlOrder_of_still hstill).trans hidle)] at hexec
  obtain ⟨hdone, hbusy, hresult⟩ := ord_orderResult_fn u p f h.id inc code detail
  exact ⟨_, hexec, hdone, hbusy, hresult, fun k hk => (parcel_of_still hstill k).trans (hother k hk),
    hq _ (parcel_of_still hstill p)⟩

/-! How an order is taken (R117, R118, R143). -/

/-- u is s with the window of function f busy, as far as an order of parcel p sees. -/
structure Fronts (s u : State) (f : Fin 8) : Prop where
  parcel : ∀ k, u.parcel k = s.parcel k
  insts : u.insts = s.insts
  idle : u.net.ctlOrder = []
  busy : (u.ord (1 + f)).busy = true

/-- An order that goes on keeps its window busy. -/
theorem begins_of_busy {i : Instr} {s u : State} {f : Fin 8} {p : Fin 16} {q : State → Prop} (hexec : exec i s = .next u.pump)
    (hidle : u.net.ctlOrder = []) (hbusy : (u.ord (1 + f)).busy = true) (hother : ∀ k, k ≠ p.val → u.parcel k = s.parcel k)
    (hq : q u) : Begins i s f p q := by
  rw [pump_quiet _ hidle] at hexec
  exact ⟨u, hexec, hbusy, hother, hq⟩

theorem takes_present {s : State} {h : OrdHdr} {f : Fin 8} {p : Fin 16} {o : Order} (ht : Takes s h f p o) :
    (s.parcel p).ownedBy f = true ∧ (s.parcel p).state ≠ .absent := by
  have hown : (s.parcel p).ownedBy f = true := List.find?_some (p := fun p : Fin 16 => (s.parcel p).ownedBy f) ht.owns
  refine ⟨hown, fun habs => ?_⟩
  simp [Parcel.ownedBy, habs] at hown

/-- R143: the mark of an order of parcel p. -/
def Order.mark (o : Order) (p : Nat) : OrdMark :=
  { parcel := p, op := o.opcode, queue := o.names.1, slot := o.names.2.1, wide := o.names.2.2 }

/-- R143: the first order of a cycle, over the ingress of function f. -/
def State.cycled (s : State) (f : Fin 8) (m : OrdMark) : State := { s with cyc := { ings := [1 + f], orders := [m] } }

/-- R118, R143: an order of the parcel's owner that is well formed and not blocked is given effect; alone in its cycle, it meets
no other. -/
theorem takeOrder_gives {s : State} {f : Fin 8} {p : Fin 16} {o : Order} (id : W64) (hrun : s.dev ≠ .retired)
    (hop : s.orderParcel (.fn f) = some p) (hown : (s.parcel p).ownedBy f = true) (hwf : o.wellFormed = true)
    (hn : o.noEffect (s.parcel p) = false) (hblocked : (s.parcel p).orderBlocked o false = false)
    (hacc : o.accepted (s.parcel p) s.vectors = true) : s.takeOrder (.fn f) id 0 (some (o, true)) false =
      (s.cycled f (o.mark p)).giveOrder p ⟨.fn f, id, 0⟩ o := by
  have hop' (c : CycleSt) : State.orderParcel { s with cyc := c } (.fn f) = some p := hop
  have hparcel (c : CycleSt) : State.parcel { s with cyc := c } p = s.parcel p := rfl
  have hvectors (c : CycleSt) : State.vectors { s with cyc := c } = s.vectors := rfl
  have howner : (s.parcel p).isOwner (.fn f) = true := hown
  unfold State.takeOrder
  simp only [hop', hparcel, hvectors, howner, hrun, hwf, hn, hblocked, hacc, if_false, Bool.false_and, Bool.not_true, Bool.or_false, Bool.false_eq_true, if_true, List.nil_append, List.find?_nil]
  rfl

/-- R117: the window of function f is busy. -/
def State.holdWindow (s : State) (f : Fin 8) : State := s.modOrd (1 + f) (fun w => { w with busy := true })

/-- R118, R143: an order that is taken is given effect, in a state that shows its window busy. -/
theorem rowOrder_gives {s : State} {h : OrdHdr} {f : Fin 8} {p : Fin 16} {o : Order} (ht : Takes s h f p o)
    (hn : o.noEffect (s.parcel p) = false) :
    ∃ u, Fronts s u f ∧ s.rowOrder h o = (u.giveOrder p ⟨.fn f, h.id, 0⟩ o).pump := by
  have hblocked : (s.parcel p).orderBlocked o false = false := by
    have hdraining := ht.notDraining
    simp only [Parcel.orderBlocked, ht.notBuilding, ht.notResetting]
    cases hw : o.whileDraining <;> simp_all
  have hbusy : ((s.holdWindow f).ord (1 + f)).busy = true := by
    rw [State.holdWindow, ord_modOrd_busy rfl]
  have hawake : s.awake = true := by rw [State.awake, ht.runs]
  have htake := takeOrder_gives (s := s.holdWindow f) h.id
    (by rw [State.holdWindow, state_modOrd_dev, ht.runs]; simp) ht.owns (takes_present ht).1 ht.wellFormed hn hblocked ht.accepted
  have hrow : s.rowOrder h o = s.windowOrder (1 + f) (.fn f) h.id (some (o, true)) false := by
    rw [State.rowOrder, if_neg (by simp [hawake]), ht.fromFunction]
    rfl
  refine ⟨(s.holdWindow f).cycled f (o.mark p), ⟨fun _ => rfl, rfl, ht.noneWaits, hbusy⟩, ?_⟩
  rw [hrow, State.windowOrder, if_neg (by simp [ht.windowFree])]
  exact congrArg State.pump htake

end Sys2Proof.Machine

/-! SUPPORT. What each parcel order makes of its parcel (R75, R76, R330 to R332, R342, R512, R513). -/

namespace Sys2Proof.Machine

open Sys2Proof.Safety

section
variable {s u : State} {h : OrdHdr} {f : Fin 8} {p : Fin 16}

/-- A change of parcel p, seen from the state before the order. -/
theorem Fronts.modParcel_self (hu : Fronts s u f) {g : Parcel → Parcel} (hg : (g (s.parcel p)).state ≠ .absent) :
    (u.modParcel p g).parcel p = g (s.parcel p) := by
  rw [parcel_modParcel_present (by rw [hu.parcel]; exact hg), hu.parcel]

theorem Fronts.modParcel_ne (hu : Fronts s u f) (g : Parcel → Parcel) (k : Nat) (hk : k ≠ p.val) :
    (u.modParcel p g).parcel k = s.parcel k := (parcel_modParcel_ne u g hk).trans (hu.parcel k)

/-! QUIESCE and RESUME (R75, R76). -/

theorem quiesce_ends (ht : Takes s h f p .quiesce) (hx : (s.parcel p).state = .active) :
    Ends (.quiesce h) s h f p 0 0 (fun t => t.parcel p = { s.parcel p with state := .draining, drained := false }) := by
  obtain ⟨u, hu, hrow⟩ := rowOrder_gives ht (by simp [Order.noEffect, Order.opcode, hx])
  refine ends_of_orderResult (congrArg Host.Outcome.next hrow) hu.idle (hu.modParcel_ne _) fun t hpar => ?_
  rw [hpar, hu.modParcel_self] <;> simp [hx]

/-- R76: the instances that QUIESCE stopped go on. -/
theorem parcels_resumed (l : List (Nat × Inst)) (v : State) :
    (l.foldl (fun s e => if e.2.released then s.modInst e.1 (fun x => { x with released := false }) else s) v).parcels = v.parcels ∧
      (l.foldl (fun s e => if e.2.released then s.modInst e.1 (fun x => { x with released := false }) else s) v).net = v.net :=
  Prod.ext_iff.1 (view_foldl (fun s : State => (s.parcels, s.net)) l _ (fun s e _ => by split <;> rfl) v)

/-- R76: what RESUME makes of the state. -/
def State.resumed (s : State) (p : Nat) : State :=
  let s := s.modParcel p (fun x => if x.state = .quiet then { x with state := .active } else { x with noEffect := true })
  if (s.parcel p).state = .active then
    (s.instsOf p).foldl (fun s e => if e.2.released then s.modInst e.1 (fun x => { x with released := false }) else s) s
  else s

theorem orderResume_eq (s : State) (p : Nat) (r : OrdRef) : s.orderResume p r = (s.resumed p).orderResult p r ccOK 0 := rfl

theorem resumed_frame (s : State) (p : Nat) : (s.resumed p).net = s.net ∧ (s.resumed p).parcels = (s.modParcel p (fun x =>
    if x.state = .quiet then { x with state := .active } else { x with noEffect := true })).parcels := by
  unfold State.resumed
  dsimp only
  split
  · obtain ⟨hparcels, hnet⟩ := parcels_resumed (State.instsOf _ p) _
    exact ⟨hnet, hparcels⟩
  · exact ⟨rfl, rfl⟩

theorem resume_ends (ht : Takes s h f p .resume) (hx : (s.parcel p).state = .quiet) :
    Ends (.resume h) s h f p 0 0 (fun t => t.parcel p = { s.parcel p with state := .active }) := by
  obtain ⟨u, hu, hrow⟩ := rowOrder_gives ht (by simp [Order.noEffect, Order.opcode, hx])
  obtain ⟨hnet, hparcels⟩ := resumed_frame u p
  have hparcel (k : Nat) := congrArg (spGet Parcel.zero · k) hparcels
  refine ends_of_orderResult (u := u.resumed p) (congrArg Host.Outcome.next hrow) (by rw [hnet, hu.idle])
    (fun k hk => (hparcel k).trans (hu.modParcel_ne _ k hk)) fun t hpar => ?_
  rw [hpar]
  refine (hparcel p).trans ((hu.modParcel_self ?_).trans ?_) <;> simp [hx]

/-! Segments (R330 to R332). -/

theorem unreadAll_congr {t v : State} (hi : t.insts = v.insts) (hq : (t.parcel p).queues = (v.parcel p).queues) :
    t.unreadAll p = v.unreadAll p := by
  have hreqs (q : Nat) : t.unreadReqs p q = v.unreadReqs p q := by
    simp only [State.unreadReqs, State.instsOf, State.queue, Parcel.queue, hi, hq]
  simp only [State.unreadAll, hreqs]

/-- R332: a segment order takes effect at once; its result waits for the requests still unread. -/
theorem segDone_takes (hu : Fronts s u f) {i : Instr} {q : State → Prop} {g : Sparse (Option SegDesc) → Sparse (Option SegDesc)}
    (hpresent : (s.parcel p).state ≠ .absent)
    (hexec : exec i s = .next ((u.modParcel p (fun x => { x with segs := g x.segs })).segDone p ⟨.fn f, h.id, 0⟩).pump)
    (hq : ∀ t : State, (t.parcel p).segs = g (s.parcel p).segs → q t) :
    if s.unreadAll p = [] then Ends i s h f p 0 0 q else Begins i s f p q := by
  have hself : (u.modParcel p (fun x => { x with segs := g x.segs })).parcel p = { s.parcel p with segs := g (s.parcel p).segs } :=
    hu.modParcel_self hpresent
  have hunread : (u.modParcel p (fun x => { x with segs := g x.segs })).unreadAll p = s.unreadAll p :=
    unreadAll_congr hu.insts (by rw [hself])
  rw [State.segDone, State.awaitReads, hunread] at hexec
  by_cases hnone : s.unreadAll p = []
  · rw [if_pos hnone]
    rw [if_pos (by simp [hnone])] at hexec
    exact ends_of_orderResult hexec hu.idle (hu.modParcel_ne _) fun t hpar => hq t (by rw [hpar, hself])
  · rw [if_neg hnone]
    rw [if_neg (by simp [hnone])] at hexec
    refine begins_of_busy hexec hu.idle hu.busy (fun k hk => ?_) (hq _ ?_)
    · exact (parcel_modParcel_ne _ _ hk).trans (hu.modParcel_ne _ k hk)
    · rw [parcel_modParcel_present (by rw [hself]; exact hpresent), hself]

theorem Fronts.placeAnew (hu : Fronts s u f) (k lo hi stks gran : Nat) : Fronts s (u.placeAnew k lo hi stks gran) f :=
  ⟨hu.parcel, hu.insts, hu.idle, hu.busy⟩

theorem segSet_takes {ctx seg mode count vb tb lim : Nat} {i : Instr} (ht : Takes s h f p (.segSet ctx seg mode count vb tb lim))
    (hi : exec i s = .next (s.rowOrder h (.segSet ctx seg mode count vb tb lim)))
    (htarget : (s.parcel p).targetOk (segDescOf mode count vb tb lim) = true)
    (hplace : (s.parcel p).placementOk (segDescOf mode count vb tb lim) (ctx * 16 + seg) = true) :
    let q : State → Prop := fun t => (t.parcel p).seg ctx seg = some (segDescOf mode count vb tb lim) ∧
      ∀ k j, k * 16 + j ≠ ctx * 16 + seg → (t.parcel p).seg k j = (s.parcel p).seg k j
    if s.unreadAll p = [] then Ends i s h f p 0 0 q else Begins i s f p q := by
  have hform : ctx ≤ 15 ∧ seg ≤ 15 := by simpa [Order.wellFormed] using ht.wellFormed
  obtain ⟨u, hu, hrow⟩ := rowOrder_gives ht (by simp [Order.noEffect, Order.opcode])
  have htarget' : (u.parcel p).targetOk (segDescOf mode count vb tb lim) = true := by rw [hu.parcel, htarget]
  have hplace' : (u.parcel p).placementOk (segDescOf mode count vb tb lim) (ctx * 16 + seg) = true := by rw [hu.parcel, hplace]
  obtain ⟨v, hv, hgive⟩ : ∃ v, Fronts s v f ∧ u.giveOrder p ⟨.fn f, h.id, 0⟩ (.segSet ctx seg mode count vb tb lim) =
      (v.modParcel p (fun x => { x with segs := spPut none (some (segDescOf mode count vb tb lim)) (ctx * 16 + seg) x.segs })).segDone
        p ⟨.fn f, h.id, 0⟩ := by
    rw [State.giveOrder, State.orderSegSet, if_neg (by simp [htarget']), if_neg (by simp [hplace'])]
    dsimp only
    split
    · exact ⟨_, hu.placeAnew .., rfl⟩
    · exact ⟨_, hu, rfl⟩
  rw [hrow, hgive] at hi
  refine segDone_takes hv (takes_present ht).2 hi fun t hsegs => ⟨?_, fun k j hkj => ?_⟩
  · rw [Parcel.seg, if_neg (by omega), hsegs, spGet_spPut_of_ne _ _ (by simp)]
  · rw [Parcel.seg, Parcel.seg, hsegs, spGet_spPut_ne _ _ _ hkj]

/-- A segment order that clears what `gone` names. -/
theorem segClear_takes {o : Order} {i : Instr} {gone : Nat → Bool} {q : State → Prop} (ht : Takes s h f p o)
    (hn : o.noEffect (s.parcel p) = false) (hi : exec i s = .next (s.rowOrder h o))
    (hgive : ∀ v : State, v.giveOrder p ⟨.fn f, h.id, 0⟩ o = v.orderSegClear p ⟨.fn f, h.id, 0⟩ gone)
    (hq : ∀ t : State, (∀ k j, (t.parcel p).seg k j = if gone (k * 16 + j) then none else (s.parcel p).seg k j) → q t) :
    if s.unreadAll p = [] then Ends i s h f p 0 0 q else Begins i s f p q := by
  obtain ⟨u, hu, hrow⟩ := rowOrder_gives ht hn
  rw [hrow, hgive, State.orderSegClear] at hi
  refine segDone_takes hu (takes_present ht).2 hi fun t hsegs => hq t fun k j => ?_
  rw [Parcel.seg, Parcel.seg, hsegs, spGet_spKeep]
  cases gone (k * 16 + j) <;> simp

/-! SEG_FENCE (R342). -/

theorem segFence_begins {mode base len : Nat} {i : Instr} (ht : Takes s h f p (.segFence mode base len))
    (hi : exec i s = .next (s.rowOrder h (.segFence mode base len))) (hmode : mode < 4)
    (hfree : (s.parcel p).fenceConflict (mode % 4) base len = false) :
    Begins i s f p (fun t => t.parcel p = { s.parcel p with
      fences := (s.parcel p).fences ++ [{ ref := ⟨.fn f, h.id, 0⟩, target := mode % 4, base := base, len := len }] }) := by
  obtain ⟨u, hu, hrow⟩ := rowOrder_gives ht (by simp [Order.noEffect, Order.opcode])
  have hkind : mode / 4 % 2 = 0 := by omega
  have hgive : u.giveOrder p ⟨.fn f, h.id, 0⟩ (.segFence mode base len) = u.modParcel p (fun x => { x with
      fences := x.fences ++ [{ ref := ⟨.fn f, h.id, 0⟩, target := mode % 4, base := base, len := len }] }) := by
    rw [State.giveOrder, State.orderFence, if_neg (by simp [hu.parcel, hfree])]
    exact congrArg (State.modParcel · p _) (if_pos hkind)
  rw [hrow, hgive] at hi
  exact begins_of_busy hi hu.idle hu.busy (hu.modParcel_ne _) (hu.modParcel_self (takes_present ht).2)

/-- R342: a fence that no window meets any more ends. -/
theorem segFence_ends {e : Fence} {rest : List Fence} (hfences : (s.parcel p).fences = e :: rest)
    (href : e.ref = ⟨.fn f, h.id, 0⟩) (hidle : s.net.ctlOrder = []) (hpresent : (s.parcel p).state ≠ .absent)
    (hclear : ∀ w ∈ s.windowsOf p, w.meets e.target e.base e.len = false) :
    Ends (.segFenceComplete p) s h f p 0 0 (fun t => (t.parcel p).fences = rest) := by
  have hnone : (s.windowsOf p).any (fun w => w.meets e.target e.base e.len) = false := by
    rw [List.any_eq_false]
    exact fun w hw => by rw [hclear w hw]; decide
  have hdone : s.fenceComplete p =
      (s.modParcel p (fun x => { x with fences := x.fences.erase e })).orderResult p ⟨.fn f, h.id, 0⟩ ccOK 0 := by
    rw [State.fenceComplete, hfences, List.find?_cons_of_pos (by simp only [hnone, Bool.not_false]), ← href]
  refine ends_of_orderResult (congrArg (Host.Outcome.next ∘ State.pump) hdone) hidle
    (fun k hk => parcel_modParcel_ne s _ hk) fun t hpar => ?_
  rw [hpar, parcel_modParcel_present hpresent, hfences, List.erase_cons_head]

/-! PARCEL_RESET (R512, R513). -/

/-- Parcels, instances, windows and the network read alike. -/
structure Alike (s t : State) : Prop where
  parcel : ∀ k, t.parcel k = s.parcel k
  insts : t.insts = s.insts
  ords : t.ords = s.ords
  net : t.net = s.net

theorem Alike.refl (v : State) : Alike v v := ⟨fun _ => rfl, rfl, rfl, rfl⟩

theorem Alike.trans {v w z : State} (h : Alike v w) (h' : Alike w z) : Alike v z :=
  ⟨fun k => (h'.parcel k).trans (h.parcel k), h'.insts.trans h.insts, h'.ords.trans h.ords, h'.net.trans h.net⟩

/-- A change of a parcel that changes nothing. -/
theorem alike_modParcel {v : State} {p : Nat} {g : Parcel → Parcel} (hg : g (v.parcel p) = v.parcel p)
    (hpresent : (v.parcel p).state ≠ .absent) : Alike v (v.modParcel p g) := by
  refine ⟨fun k => ?_, rfl, rfl, rfl⟩
  by_cases hk : k = p
  · subst hk
    rw [parcel_modParcel_present (by rwa [hg]), hg]
  · exact parcel_modParcel_ne v g hk

/-- A fold of steps that leave all alike where parcel p reads x. -/
theorem alike_foldl {α : Type} (l : List α) (g : State → α → State) {p : Nat} {x : Parcel}
    (hg : ∀ v, ∀ a ∈ l, v.parcel p = x → Alike v (g v a)) {v : State} (hv : v.parcel p = x) : Alike v (l.foldl g v) := by
  induction l generalizing v with
  | nil => exact .refl v
  | cons a l ih =>
    have hstep := hg v a List.mem_cons_self hv
    exact hstep.trans (ih (fun v b hb => hg v b (List.mem_cons_of_mem a hb)) ((hstep.parcel p).trans hv))

theorem queue_emptied {y : Queue} (hready : y.ready = []) (hwaiting : y.waiting = []) :
    ({ y with ready := [], waiting := [] } : Queue) = y := by
  cases y
  cases hready
  cases hwaiting
  rfl

/-- A queue without requests is flushed to itself. -/
theorem flushQueue_alike {v : State} {p : Nat} {x : Parcel} (hv : v.parcel p = x) (hwf : spWf Queue.zero x.queues = true)
    (hpresent : x.state ≠ .absent) {q : Nat} (hready : (x.queue q).ready = []) (hwaiting : (x.queue q).waiting = [])
    (code detail : Byte) : Alike v (v.flushQueue p q code detail) := by
  have hnone : (v.queue p q).ready ++ (v.queue p q).waiting = [] := by
    rw [State.queue, hv, hready, hwaiting, List.append_nil]
  have hsame : x.setQueue q { x.queue q with ready := [], waiting := [] } = x := by
    rw [queue_emptied hready hwaiting, Parcel.setQueue, Parcel.queue, spPut_spGet hwf]
  unfold State.flushQueue
  dsimp only
  rw [hnone, List.foldl_nil]
  exact alike_modParcel (by rw [hv]; exact hsame) (by rwa [hv])

/-- A queue without requests, in a list of such queues. -/
theorem queue_idle {x : Parcel} (hq : ∀ e ∈ x.queues, e.2.waiting = [] ∧ e.2.ready = []) (q : Nat) :
    (x.queue q).ready = [] ∧ (x.queue q).waiting = [] := by
  by_cases hzero : x.queue q = Queue.zero
  · rw [hzero]
    exact ⟨rfl, rfl⟩
  · exact (hq _ (mem_of_spGet hzero)).symm

/-- R512: a parcel without instances and requests: the reset leaves its compute phase. -/
theorem abortParcel_alike {v : State} {p : Nat} {x : Parcel} (hv : v.parcel p = x) (hwf : spWf Queue.zero x.queues = true)
    (hpresent : x.state ≠ .absent) (hinsts : v.instsOf p = []) (hq : ∀ e ∈ x.queues, e.2.waiting = [] ∧ e.2.ready = [])
    (code detail : Byte) : Alike (v.modParcel p (fun x => { x with inCompute := false })) (v.abortParcel p code detail) := by
  have hself : (v.modParcel p (fun x => { x with inCompute := false })).parcel p = { x with inCompute := false } := by
    rw [parcel_modParcel_present (by rwa [hv]), hv]
  have hflush := alike_foldl (List.range 32) (fun s q => s.flushQueue p q code detail)
    (fun w q _ hw => flushQueue_alike (x := { x with inCompute := false }) hw hwf hpresent (queue_idle hq q).1 (queue_idle hq q).2 code detail) hself
  unfold State.abortParcel
  generalize List.range 32 = l at hflush
  dsimp only
  have hnone : State.instsOf (l.foldl (fun s q => s.flushQueue p q code detail)
      (v.modParcel p (fun x => { x with inCompute := false }))) p = [] := by
    rw [State.instsOf, hflush.insts]
    exact hinsts
  rw [hnone]
  exact hflush

theorem endLoads_idle {v : State} {p : Nat} (hslots : ∀ g ∈ (v.parcel p).slots, g.2.state ≠ .loading) : v.endLoads p = v := by
  refine foldl_stays fun g hg => ?_
  have hstate := hslots g hg
  split
  · next hloading _ => exact absurd hloading hstate
  · rfl

theorem ords_trace (s : State) (cls event : Nat) (parcel q : Option Nat) (unit aux : Nat) (arg : W64) :
    (s.trace cls event parcel q unit aux arg).ords = s.ords := by
  unfold State.trace; dsimp only; (repeat' split) <;> rfl

theorem ords_logP (s : State) (code p : Nat) (g : LogEntry → LogEntry) : (s.logP code p g).ords = s.ords := by
  unfold State.logP State.log; dsimp only; (repeat' split) <;> rfl

/-- What the end of an update window leaves of v, and what it makes of parcel p. -/
structure WindowEnded (v t : State) (p : Nat) : Prop where
  other : ∀ k, k ≠ p → t.parcel k = v.parcel k
  ords : t.ords = v.ords
  ctlOrder : t.net.ctlOrder = v.net.ctlOrder
  inWindow : (t.parcel p).inWindow = false
  state : (t.parcel p).state = (v.parcel p).state
  resetting : (t.parcel p).resetting = (v.parcel p).resetting
  inCompute : (t.parcel p).inCompute = (v.parcel p).inCompute

/-- R316: the end of an update window leaves no window open, and nothing else that an order sees. -/
theorem endWindow_ended {v : State} {p : Nat} (hpresent : (v.parcel p).state ≠ .absent) : WindowEnded v (v.endWindow p) p := by
  have hopen {t : State} {g : Parcel → Parcel} (hstill : t.still = (v.modParcel p g).still) (hords : t.ords = v.ords)
      (hwindow : (g (v.parcel p)).inWindow = false) (hstate : (g (v.parcel p)).state = (v.parcel p).state)
      (hresetting : (g (v.parcel p)).resetting = (v.parcel p).resetting)
      (hcompute : (g (v.parcel p)).inCompute = (v.parcel p).inCompute) : WindowEnded v t p := by
    have hself : t.parcel p = g (v.parcel p) := by
      rw [parcel_of_still hstill, parcel_modParcel_present (by rwa [hstate])]
    rw [← hself] at hwindow hstate hresetting hcompute
    exact ⟨fun k hk => (parcel_of_still hstill k).trans (parcel_modParcel_ne v g hk), hords, (ctlOrder_of_still hstill).trans rfl,
      hwindow, hstate, hresetting, hcompute⟩
  unfold State.endWindow
  dsimp only
  split
  · next hclosed => exact ⟨fun _ _ => rfl, rfl, rfl, by simpa using hclosed, rfl, rfl, rfl⟩
  · split
    · exact hopen (still_trace _ _ _ _ _ _ _ _) (ords_trace _ _ _ _ _ _ _ _) rfl rfl rfl rfl
    · exact hopen ((still_logP _ _ _ _).trans (still_trace _ _ _ _ _ _ _ _))
        ((ords_logP _ _ _ _).trans (ords_trace _ _ _ _ _ _ _ _)) rfl rfl rfl rfl

/-- R512: what a parcel reset of mode 0 makes of a parcel without instances, requests and loads in progress. -/
theorem parcelReset_begins {mode : Nat} {i : Instr} (ht : Takes s h f p (.parcelReset mode))
    (hi : exec i s = .next (s.rowOrder h (.parcelReset mode))) (hwf : ParcelWf (s.parcel p)) (hmode : mode = 0)
    (hinsts : s.instsOf p = []) (hq : ∀ q ∈ (s.parcel p).queues, q.2.waiting = [] ∧ q.2.ready = [])
    (hslots : ∀ g ∈ (s.parcel p).slots, g.2.state ≠ .loading) :
    Begins i s f p (fun t => (t.parcel p).resetting = [some ⟨.fn f, h.id, 0⟩] ∧ (t.parcel p).inCompute = false ∧
      (t.parcel p).inWindow = false) := by
  obtain ⟨u, hu, hrow⟩ := rowOrder_gives ht (by simp [Order.noEffect, Order.opcode])
  have hpresent := (takes_present ht).2
  rw [hrow, State.giveOrder, State.parcelReset] at hi
  have habort := abortParcel_alike (hu.parcel p) hwf.1 hpresent
    (by rw [State.instsOf, hu.insts]; exact hinsts) hq ccParcelReset 0
  have hself : (u.modParcel p (fun x => { x with inCompute := false })).parcel p = { s.parcel p with inCompute := false } :=
    hu.modParcel_self hpresent
  generalize u.abortParcel p ccParcelReset 0 = v at hi habort
  have hv : v.parcel p = { s.parcel p with inCompute := false } := (habort.parcel p).trans hself
  rw [endLoads_idle (by rw [hv]; exact hslots), if_neg (by omega), if_neg (by omega)] at hi
  have hended := endWindow_ended (v := v) (p := p) (by rw [hv]; exact hpresent)
  have hpresent' : ((v.endWindow p).parcel p).state ≠ .absent := by rw [hended.state, hv]; exact hpresent
  refine begins_of_busy hi ?_ ?_ (fun k hk => ?_) ?_
  · rw [ctlOrder_of_still (still_logP ..)]
    exact hended.ctlOrder.trans ((congrArg Net.ctlOrder habort.net).trans hu.idle)
  · rw [State.ord, ords_logP]
    exact (congrArg (fun m => (spGet OrdSt.zero m (1 + f)).busy) (hended.ords.trans habort.ords)).trans hu.busy
  · rw [parcel_of_still (still_logP ..), parcel_modParcel_ne _ _ hk, hended.other k hk, habort.parcel, hu.modParcel_ne _ k hk]
  · rw [parcel_of_still (still_logP ..), parcel_modParcel_present hpresent']
    exact ⟨by rw [hended.resetting, hv, ht.notResetting]; rfl, by rw [hended.inCompute, hv], hended.inWindow⟩

/-! PARCEL_RESET_COMPLETE (R513). -/

/-- R513: a queue is unbound and its rings go. -/
def State.clearQueue (s : State) (p q : Nat) : State :=
  let y := s.queue p q
  let s := (s.dropRings p q).modQueue p q (fun y => { y.unbound with timeout := 0 })
  match y.unbind with
  | some r => s.orderResult p r ccOK 0
  | none => s

/-- R513: a graph slot is emptied. -/
def State.clearSlot (s : State) (p : Nat) (e : Nat × GraphSlot) : State :=
  let s := (s.freeCells p e.1).emptySlot p e.1
  match e.2.state, e.2.order with
  | .unloading, some r => s.orderResult p r ccOK 0
  | _, _ => s

/-- R513: the queues and the graph slots of a parcel are cleared. -/
def State.clearQueues (s : State) (p : Nat) : State :=
  let s := (List.range 32).foldl (fun s q => s.clearQueue p q) s
  (s.parcel p).slots.foldl (fun s e => s.clearSlot p e) s

theorem clearParcel_eq (s : State) (p : Nat) : s.clearParcel p =
    (((s.clearQueues p).endWaits p).modParcel p (fun x => { x with segs := defaultSegs x.cfg })).placeSegs p 0 (2 ^ 48) := rfl

/-- A queue as at reset is cleared to itself. -/
theorem modQueue_zero_alike {v : State} {p q : Nat} {g : Queue → Queue} (hqueues : (v.parcel p).queues = [])
    (hpresent : (v.parcel p).state ≠ .absent) (hg : g Queue.zero = Queue.zero) : Alike v (v.modQueue p q g) := by
  refine alike_modParcel ?_ hpresent
  have hput : spPut Queue.zero Queue.zero q [] = [] := by simp [spPut]
  have hsame : (v.parcel p).setQueue q (g ((v.parcel p).queue q)) = { v.parcel p with queues := (v.parcel p).queues } := by
    rw [Parcel.setQueue, Parcel.queue, hqueues, spGet_nil, hg, hput]
  exact hsame

theorem clearQueue_alike {v : State} {p : Nat} (hqueues : (v.parcel p).queues = []) (hpresent : (v.parcel p).state ≠ .absent)
    (q : Nat) : Alike v (v.clearQueue p q) := by
  have hzero : v.queue p q = Queue.zero := by rw [State.queue, Parcel.queue, hqueues, spGet_nil]
  have hrings : Alike v (v.dropRings p q) := by
    unfold State.dropRings
    rw [hzero]
    obtain ⟨hparcel, hinsts, hords, hnet⟩ := modQueue_zero_alike (q := q)
      (g := fun y => { y with records := [], rings := none, sqUsed := 0, recAsked := false }) hqueues hpresent rfl
    exact ⟨hparcel, hinsts, hords, hnet⟩
  unfold State.clearQueue
  dsimp only
  rw [hzero]
  exact hrings.trans (modQueue_zero_alike (by rw [hrings.parcel, hqueues]) (by rwa [hrings.parcel]) rfl)

theorem clearQueues_alike {v : State} {p : Nat} (hqueues : (v.parcel p).queues = []) (hslots : (v.parcel p).slots = [])
    (hpresent : (v.parcel p).state ≠ .absent) : Alike v (v.clearQueues p) := by
  have hclear := alike_foldl (List.range 32) (fun s q => s.clearQueue p q) (x := v.parcel p)
    (fun w q _ hw => clearQueue_alike (by rw [hw, hqueues]) (by rwa [hw]) q) rfl
  unfold State.clearQueues
  generalize List.range 32 = l at hclear
  dsimp only
  rw [hclear.parcel, hslots]
  exact hclear

theorem endWaits_still (v : State) (p : Nat) :
    (v.endWaits p).still = (v.modParcel p (fun x => { x with waits := [] })).still :=
  view_foldl State.still _ _ (fun s w _ => still_endWait s p w) _

theorem net_placeSegs (v : State) (p lo hi : Nat) : (v.placeSegs p lo hi).net = v.net :=
  view_foldl State.net _ _ (fun s d _ => by split <;> rfl) v

/-- R513: what is left of a parcel without queues and slots. -/
theorem clearParcel_done {v : State} {p : Nat} (hqueues : (v.parcel p).queues = []) (hslots : (v.parcel p).slots = [])
    (hpresent : (v.parcel p).state ≠ .absent) :
    (v.clearParcel p).parcel p = { v.parcel p with waits := [], segs := defaultSegs (v.parcel p).cfg } ∧
      (∀ k, k ≠ p → (v.clearParcel p).parcel k = v.parcel k) ∧ (v.clearParcel p).net.ctlOrder = v.net.ctlOrder := by
  have hclear := clearQueues_alike hqueues hslots hpresent
  have hwaits (k : Nat) := parcel_of_still (endWaits_still (v.clearQueues p) p) k
  have hself : ((v.clearQueues p).endWaits p).parcel p = { v.parcel p with waits := [] } := by
    rw [hwaits, parcel_modParcel_present (by rwa [hclear.parcel]), hclear.parcel]
  rw [clearParcel_eq]
  refine ⟨?_, fun k hk => ?_, ?_⟩
  · rw [parcel_of_core (core_placeSegs ..), parcel_modParcel_present (by rwa [hself]), hself]
  · rw [parcel_of_core (core_placeSegs ..), parcel_modParcel_ne _ _ hk, hwaits, parcel_modParcel_ne _ _ hk, hclear.parcel]
  · rw [net_placeSegs, state_modParcel_net, ctlOrder_of_still (endWaits_still (v.clearQueues p) p), state_modParcel_net, hclear.net]

/-- R513: the control and status registers of the parcel's cells are cleared. -/
def State.clearCells (s : State) (p : Nat) : State := (List.range 128).foldl (fun s n =>
  if (s.parcel p).cfg.cells.getLsbD n then s.modCell n Cell.clearCs else s) s

theorem clearCells_frame (s : State) (p : Nat) : (s.clearCells p).parcels = s.parcels ∧ (s.clearCells p).net = s.net :=
  Prod.ext_iff.1 (view_foldl (fun s : State => (s.parcels, s.net)) _ _ (fun s n _ => by split <;> rfl) s)

theorem parcelReset_ends (hr : (s.parcel p).resetting = [some ⟨.fn f, h.id, 0⟩]) (hx : (s.parcel p).state = .active)
    (htest : s.cellsTested p = false) (hidle : s.net.ctlOrder = []) (hslots : (s.parcel p).slots = [])
    (hqueues : (s.parcel p).queues = []) : Ends (.parcelResetComplete p) s h f p 0 0 (fun t =>
      (t.parcel p).resetting = [] ∧ (t.parcel p).state = .active ∧ (t.parcel p).segs = defaultSegs (s.parcel p).cfg) := by
  have hexec : exec (.parcelResetComplete p) s = .next (s.resetComplete p).pump := if_neg (by simp [htest])
  have hdone : s.resetComplete p = (((s.clearParcel p).clearCells p).modParcel p (fun x => { x with
      resetting := [], state := if x.state = .draining then .quiet else x.state, drained := false })).orderResult p
        ⟨.fn f, h.id, 0⟩ ccOK 0 := by
    rw [State.resetComplete, hr]
    rfl
  obtain ⟨hself, hother, hctl⟩ := clearParcel_done hqueues hslots (by rw [hx]; decide)
  obtain ⟨hparcels, hnet⟩ := clearCells_frame (s.clearParcel p) p
  have hparcel (k : Nat) : ((s.clearParcel p).clearCells p).parcel k = (s.clearParcel p).parcel k :=
    congrArg (spGet Parcel.zero · k) hparcels
  rw [hdone] at hexec
  refine ends_of_orderResult hexec ?_ (fun k hk => ?_) fun t hpar => ?_
  · exact (congrArg Net.ctlOrder hnet).trans (hctl.trans hidle)
  · rw [parcel_modParcel_ne _ _ hk, hparcel, hother k hk]
  · rw [hpar, parcel_modParcel_present (by simp [hparcel, hself, hx]), hparcel, hself]
    simp [hx]

end

/-- Settles O30: each order is taken by the front end, and what it makes of its parcel is said by its own law. -/
theorem parcelOrdersComplete : Obligations.ParcelOrdersComplete := by
  intro s h f p hwf
  refine ⟨quiesce_ends, resume_ends, fun hquiet htest => if_pos (by simp [hquiet, htest]),
    fun ctx seg mode count vb tb lim ht htarget hplace => segSet_takes ht rfl htarget hplace, fun ctx seg ht => ?_,
    fun ctx ht => ?_, fun mode base len ht => segFence_begins ht rfl, fun e rest => segFence_ends,
    fun mode ht => parcelReset_begins ht rfl hwf, parcelReset_ends⟩
  · have hform : ctx.toNat ≤ 15 ∧ seg.toNat ≤ 15 := by simpa [Order.wellFormed] using ht.wellFormed
    refine segClear_takes ht (by simp [Order.noEffect, Order.opcode]) rfl (fun _ => rfl) fun t hseg => ⟨?_, fun k j hkj => ?_⟩
    · rw [hseg, if_pos (by simp)]
    · rw [hseg, if_neg (by simpa using hkj)]
  · refine segClear_takes ht (by simp [Order.noEffect, Order.opcode]) rfl (fun _ => rfl) fun t hseg => ⟨fun j => ?_, fun k j hk => ?_⟩
    · by_cases hj : 16 ≤ j
      · rw [Parcel.seg, if_pos hj]
      · rw [hseg, if_pos (by simp; omega)]
    · by_cases hj : 16 ≤ j
      · rw [Parcel.seg, Parcel.seg, if_pos hj, if_pos hj]
      · rw [hseg, if_neg (by simp; omega)]

end Sys2Proof.Machine

/-! SUPPORT. An image that passes its checks (R66, R71, R78): what the checks say of its target, and what it makes of the parcel or
of the device. -/

namespace Sys2Proof.Machine

open Sys2Proof.Safety

/-! The target of a parcel-local image (R66). -/

theorem imageStep123_push {key : Nat → KeySlot} {b : List Byte} : imageStep123 .push key b ≠ some 0 ∧
    (imageStep123 .push key b = none → field b 8 4 = b.length) := by
  unfold imageStep123
  dsimp only
  split_ifs <;> simp_all

theorem imageStep4_nonzero (s : State) (from' : ImageFrom) (b : List Byte) : imageStep4 s from' b ≠ some 0 := by
  unfold imageStep4
  dsimp only
  split_ifs <;> simp

/-- A check that answers with its own fault or goes on to the next never answers 0. -/
theorem fault_or_next {c : Prop} [Decidable c] {r : Nat} {o : Option Nat} (hr : r ≠ 0) (ho : o ≠ some 0) :
    (if c then some r else o) ≠ some 0 := by
  split
  · simpa using hr
  · exact ho

theorem imageStep5_nonzero (s : State) (b : List Byte) : imageStep5 s b ≠ some 0 := by
  unfold imageStep5
  iterate 10 refine fault_or_next (by decide) ?_
  simp

theorem imageStep5_target {s : State} {b : List Byte} (h : imageStep5 s b = none) : field b 0xF 1 ≤ 15 := by
  by_contra hlarge
  have hfault : imageStep5 s b = some 4 := if_pos (.inr (.inr (.inr (.inl (by omega)))))
  rw [hfault] at h
  cases h

/-- A list of checks that finds no fault: the first one, which never answers 0, found none. -/
theorem firstOf_cons_zero {o : Option Nat} {l : List (Option Nat)} (ho : o ≠ some 0) (h : (firstOf (o :: l)).getD 0 = 0) :
    o = none ∧ (firstOf l).getD 0 = 0 := by
  cases o with
  | none => exact ⟨rfl, h⟩
  | some r => exact absurd (congrArg some h) ho

theorem checkImage_push_passes {s : State} {b : List Byte} (h : s.checkImage .push b = 0) :
    imageStep5 s b = none ∧ (firstOf [imageStep6 s b, imageStep7 s b]).getD 0 = 0 := by
  unfold State.checkImage at h
  split at h
  · next r hr => exact absurd (h ▸ hr) imageStep123_push.1
  · next hnone =>
    rw [imageStep123_push.2 hnone, List.take_length] at h
    obtain ⟨-, h⟩ := firstOf_cons_zero (imageStep4_nonzero s .push b) h
    exact firstOf_cons_zero (imageStep5_nonzero s b) h

/-- R66, R71: a push that passes comes from one who may push it, and passes every check. -/
theorem pushImage_passes {s : State} {w : Pusher} {b : List Byte} (h : (s.pushImage w b).1 = 0) :
    s.mayPush w (field b 0xE 1) (field b 0xF 1) = true ∧ s.checkImage .push b = 0 := by
  unfold State.pushImage at h
  dsimp only at h
  generalize hcode : (if s.dev = .retired then 0x17 else _) = code at h
  have hzero : code = 0 := by
    by_contra hne
    simp [hne] at h
  subst hzero
  split_ifs at hcode with hretired hmeets hshort hmay
  · cases w with
    | mgmt e k => dsimp only at hcode; split_ifs at hcode
    | fn f => cases hcode
    | sess n => cases hcode
  · exact ⟨by simpa using hmay, hcode⟩

/-- R66: an image that passes names a parcel of the device. -/
theorem pushImage_target {s : State} {w : Pusher} {b : List Byte} (h : (s.pushImage w b).1 = 0) : field b 0xF 1 ≤ 15 :=
  imageStep5_target (checkImage_push_passes (pushImage_passes h).2).1

/-! The sessions of a parcel-local image (R71, R78). -/

theorem firstBroken_none {l : List ImageRule} (h : firstBroken l = none) : ∀ e ∈ l, e.1 = true := by
  induction l with
  | nil => simp
  | cons a l ih =>
    obtain ⟨ok, r⟩ := a
    cases ok with
    | false => cases h
    | true => simpa using ih h

theorem firstBroken_nonzero {l : List ImageRule} (h : ∀ e ∈ l, e.2 ≠ 0) : firstBroken l ≠ some 0 := by
  induction l with
  | nil => simp [firstBroken]
  | cons a l ih =>
    obtain ⟨ok, r⟩ := a
    cases ok with
    | false => simpa [firstBroken] using h (false, r) (by simp)
    | true => exact ih fun e he => h e (by simp [he])

/-- The parcels once a parcel-local image is in force. -/
def State.parcelsWith (s : State) (k : Nat) (c : ParcelCfg) : ParcelSet :=
  s.parcelSet.map (fun e => if e.1 = k then (k, c) else e)

/-- R66 step 6: a parcel-local image that passes keeps what its parcel holds, and every owner has its session. -/
theorem imageStep6_local {s : State} {b : List Byte} (hlocal : field b 0xE 1 = 1)
    (h : (firstOf [imageStep6 s b, imageStep7 s b]).getD 0 = 0) :
    keepsResources (s.parcel (field b 0xF 1)).cfg (parcelOf b (field b 0xF 1)) = true ∧
      ownersOk s.img.cfg (s.parcelsWith (field b 0xF 1) (parcelOf b (field b 0xF 1))) = true := by
  have hscope : ¬field b 0xE 1 = 0 := by omega
  unfold imageStep6 at h
  rw [if_neg hscope] at h
  obtain ⟨hnone, -⟩ := firstOf_cons_zero (firstBroken_nonzero (by simp [parcelRanges])) h
  have hall := firstBroken_none hnone
  exact ⟨hall (keepsResources (s.parcel (field b 0xF 1)).cfg (parcelOf b (field b 0xF 1)), 0x14) (by simp),
    hall (ownersOk s.img.cfg (s.parcelsWith (field b 0xF 1) (parcelOf b (field b 0xF 1))), 15) (by simp [State.parcelsWith])⟩

theorem keepsResources_owner {a c : ParcelCfg} (h : keepsResources a c = true) :
    a.ownerSess = c.ownerSess ∧ a.ownerId = c.ownerId := by
  simp only [keepsResources, Bool.and_eq_true, decide_eq_true_eq] at h
  tauto

/-- R66: the session that owns a parcel is among its sessions. -/
theorem ownersOk_owner {d : DevCfg} {all : ParcelSet} (h : ownersOk d all = true) {e : Nat × ParcelCfg} (he : e ∈ all)
    (howner : e.2.ownerSess = true) : e.2.sessions.any (fun c => decide (c.session = e.2.ownerId)) = true := by
  obtain ⟨hall, -⟩ := Bool.and_eq_true_iff.1 h
  have hmine := List.all_eq_true.1 hall e he
  rwa [if_pos howner] at hmine

theorem mem_parcelsWith {s : State} {k : Nat} {c : ParcelCfg} (h : (s.parcel k).state ≠ .absent) : (k, c) ∈ s.parcelsWith k c := by
  have hmem : (k, s.parcel k) ∈ s.parcels := mem_of_spGet fun e => h (by rw [show s.parcel k = Parcel.zero from e]; rfl)
  have hset : (k, (s.parcel k).cfg) ∈ s.parcelSet := List.mem_filterMap.2 ⟨_, hmem, if_neg h⟩
  exact List.mem_map.2 ⟨_, hset, if_pos rfl⟩

/-- R71, R78: the image that a session pushes is its own parcel's, and names the session. -/
theorem pushImage_sess_names {s : State} {n : Fin 256} {b : List Byte} (h : (s.pushImage (.sess n) b).1 = 0) :
    field b 0xE 1 = 1 ∧ (parcelOf b (field b 0xF 1)).sessions.any (fun k => decide (k.session = n)) = true := by
  obtain ⟨hmay, hcheck⟩ := pushImage_passes h
  have hmay : ((field b 0xE 1 = 1 ∧ field b 0xF 1 ≤ 15) ∧ (s.parcel (field b 0xF 1)).state ≠ .absent) ∧
      (s.parcel (field b 0xF 1)).ownerSess = some n.val := by
    simpa only [State.mayPush, Bool.and_eq_true, decide_eq_true_eq] using hmay
  obtain ⟨⟨⟨hlocal, -⟩, hpresent⟩, howner⟩ := hmay
  obtain ⟨hkeeps, howners⟩ := imageStep6_local hlocal (checkImage_push_passes hcheck).2
  obtain ⟨hsess, hid⟩ : (s.parcel (field b 0xF 1)).cfg.ownerSess = true ∧ (s.parcel (field b 0xF 1)).cfg.ownerId = n.val := by
    unfold Parcel.ownerSess at howner
    split_ifs at howner with hsess
    exact ⟨hsess, Option.some.inj howner⟩
  obtain ⟨hsame, hsameId⟩ := keepsResources_owner hkeeps
  have howned := ownersOk_owner howners (mem_parcelsWith hpresent) (hsame ▸ hsess)
  rw [← hsameId, hid] at howned
  exact ⟨hlocal, howned⟩

/-! What a parcel-local image makes of its parcel (R78). -/

/-- R78: the sessions that a parcel-local image leaves out or changes are closed. -/
def State.closeLeft (s : State) (old : List SessCfg) (c : ParcelCfg) : State :=
  old.foldl (fun s e => if c.sessions.contains e then s else s.closeSession e.session 2) s

/-- R78: the sessions that a parcel-local image leaves out are forgotten. -/
def State.forgetLeft (s : State) (old : List SessCfg) (c : ParcelCfg) : State :=
  old.foldl (fun s e => if c.sessions.any (fun k => decide (k.session = e.session)) then s
    else { s with net := { s.net with sess := spPut VgSess.zero VgSess.zero e.session s.net.sess } }) s

/-- R78: a parcel as a parcel-local image has it. -/
def Parcel.rebuilt (x : Parcel) (c : ParcelCfg) (b : List Byte) : Parcel := { x with
  state := .building, buildDone := false, cfg := c, segs := defaultSegs c, serial := BitVec.ofNat 64 (field b 0x10 8)
  digest := Config.sha384 (b.take (field b 8 4)) }

theorem rebuilt_queues (x : Parcel) (c : ParcelCfg) (b : List Byte) : (x.rebuilt c b).queues = x.queues := rfl
theorem rebuilt_slots (x : Parcel) (c : ParcelCfg) (b : List Byte) : (x.rebuilt c b).slots = x.slots := rfl

/-- R78: the parcel, its sessions and its cells as a parcel-local image has them. -/
def State.relaid (s : State) (p : Fin 16) (b : List Byte) : State :=
  let old := (s.parcel p).cfg
  ((((((s.emptyParcel p).closeLeft old.sessions (parcelOf b p)).modParcel p (·.rebuilt (parcelOf b p) b)).forgetLeft old.sessions
    (parcelOf b p)).configureCells p).placeSegs p 0 (2 ^ 48)).grantCredit p

/-- R143: a mark among the orders of this hub-die cycle. -/
def State.markOrder (s : State) (m : OrdMark) : State := { s with cyc := { s.cyc with orders := s.cyc.orders ++ [m] } }

theorem parcel_markOrder (s : State) (m : OrdMark) (k : Nat) : (s.markOrder m).parcel k = s.parcel k := rfl

theorem applyLocal_eq (s : State) (p : Fin 16) (b : List Byte) : s.applyLocal p b =
    (s.relaid p b).markOrder { parcel := p, op := 0, queue := none, slot := none, wide := true } := by
  unfold State.applyLocal State.relaid State.closeLeft State.forgetLeft State.markOrder Parcel.rebuilt
  dsimp only

theorem closeLeft_pwf_parcel {s : State} (h : s.pwf) (old : List SessCfg) (c : ParcelCfg) {k : Nat}
    (hk : (s.parcel k).queues = []) : (s.closeLeft old c).pwf ∧ (s.closeLeft old c).parcel k = s.parcel k := by
  unfold State.closeLeft
  induction old generalizing s with
  | nil => exact ⟨h, rfl⟩
  | cons e old ih =>
    rw [List.foldl_cons]
    split
    · exact ih h hk
    · have hclose := parcel_closeSession hk e.session 2
      obtain ⟨hpwf, hparcel⟩ := ih (pwf_closeSession h e.session 2) (by rw [hclose, hk])
      exact ⟨hpwf, hparcel.trans hclose⟩

theorem core_forgetLeft (s : State) (old : List SessCfg) (c : ParcelCfg) : (s.forgetLeft old c).core = s.core :=
  view_foldl State.core _ _ (fun s e _ => by split <;> rfl) s

/-- What a parcel-local image makes of its parcel (R78). -/
theorem applyLocal_parcel {s : State} (h : s.pwf) (p : Fin 16) (b : List Byte) : let x := (s.applyLocal p b).parcel p
    x.state = .building ∧ x.cfg = parcelOf b p ∧ x.queues = [] ∧ x.slots = [] ∧
      x.serial = BitVec.ofNat 64 (field b 0x10 8) := by
  obtain ⟨hempty, hqueues, hslots⟩ := emptyParcel_pwf_parcel h p
  obtain ⟨hclosed, hparcel⟩ := closeLeft_pwf_parcel hempty (s.parcel p).cfg.sessions (parcelOf b p) hqueues
  have hcore : (s.relaid p b).core = ((((s.emptyParcel p).closeLeft (s.parcel p).cfg.sessions (parcelOf b p)).modParcel p
      (·.rebuilt (parcelOf b p) b))).core := by
    unfold State.relaid
    rw [core_of_still (still_grantCredit _ _), core_placeSegs, core_configureCells, core_forgetLeft]
  have hself : (s.applyLocal p b).parcel p = ((s.emptyParcel p).parcel p).rebuilt (parcelOf b p) b := by
    rw [applyLocal_eq, parcel_markOrder, parcel_of_core hcore, parcel_modParcel_self hclosed, hparcel]
  rw [hself]
  exact ⟨rfl, rfl, (rebuilt_queues _ _ _).trans hqueues, (rebuilt_slots _ _ _).trans hslots, rfl⟩

/-! LAST_IMAGE_PUSH (R71, R78). -/

theorem pwf_judged {s : State} (h : s.pwf) (w : Pusher) (b : List Byte) : (s.judged w b).pwf := by
  obtain ⟨-, -, hparcels, -⟩ := judged_sameImage s w b
  exact (congrArg (spWf Parcel.zero ·) hparcels).trans h

/-- R78: a parcel-local image that passes rebuilds its parcel. -/
theorem pushImage_local {s : State} (h : s.pwf) {w : Pusher} {b : List Byte} (hcode : (s.pushImage w b).1 = 0)
    (hlocal : field b 0xE 1 = 1) : let x := (s.pushImage w b).2.parcel (field b 0xF 1)
    x.state = .building ∧ x.cfg = parcelOf b (Fin.ofNat 16 (field b 0xF 1)) ∧ x.queues = [] ∧ x.slots = [] ∧
      x.serial = BitVec.ofNat 64 (field b 0x10 8) := by
  have htarget : (Fin.ofNat 16 (field b 0xF 1)).val = field b 0xF 1 :=
    Nat.mod_eq_of_lt (Nat.lt_succ_of_le (pushImage_target hcode))
  have happly := applyLocal_parcel (pwf_judged h w b) (Fin.ofNat 16 (field b 0xF 1)) b
  rw [pushImage_snd, if_neg (by simp [hcode]), if_pos hlocal]
  rw [congrArg (State.parcel _) htarget.symm]
  exact happly

/-- R78: a whole-device image that passes rebuilds every parcel. -/
theorem pushImage_device {s : State} {w : Pusher} {b : List Byte} (hcode : (s.pushImage w b).1 = 0) (hdevice : field b 0xE 1 ≠ 1) :
    (s.pushImage w b).2 = (s.judged w b).applyDevice b 3 := by
  rw [pushImage_snd, if_neg (by simp [hcode]), if_neg hdevice]

end Sys2Proof.Machine

/-! SUPPORT. The push of an image over a session (R403, R410, R411, R416): how the next reliable message of a session reaches its
CONTROL request, and what the request's image leaves of the session. -/

namespace Sys2Proof.Machine

open Sys2Proof.Safety

/-! A session's entry, in any list of sessions. -/

/-- A session changed to one that is not as at reset is read back. -/
theorem vg_modVg_of_ne {s : State} {n : Nat} {f : VgSess → VgSess} (h : f (s.vg n) ≠ VgSess.zero) :
    (s.modVg n f).vg n = f (s.vg n) := spGet_spPut_of_ne _ _ h

theorem vg_modVg_open {s : State} {n : Nat} {f : VgSess → VgSess} (h : (f (s.vg n)).isOpen = true) :
    (s.modVg n f).vg n = f (s.vg n) := vg_modVg_of_ne fun e => by rw [e] at h; cases h

theorem vg_modVg_ne (s : State) (f : VgSess → VgSess) {n k : Nat} (h : k ≠ n) : (s.modVg n f).vg k = s.vg k :=
  spGet_spPut_ne _ _ _ h

theorem mem_spPut {α : Type} [DecidableEq α] {d v : α} {k : Nat} {m : Sparse α} {e : Nat × α} (h : e ∈ spPut d v k m) :
    e ∈ m ∨ e = (k, v) := by
  induction m with
  | nil =>
    rw [spPut] at h
    split at h
    · cases h
    · exact .inr (List.mem_singleton.1 h)
  | cons a m ih =>
    rw [spPut] at h
    split_ifs at h <;> simp only [List.mem_cons] at h ⊢ <;> tauto

/-! The next message of a session. -/

/-- u differs from s by its network alone: session n stands as v, and no session but those of s has a CONTROL request in progress. -/
structure SessAt (s u : State) (n : Nat) (v : VgSess) : Prop where
  rest : u = { s with net := u.net }
  entry : u.vg n = v
  order : u.net.ctlOrder = s.net.ctlOrder
  busy : ∀ e ∈ u.net.sess, e ∈ s.net.sess ∨ e.2.ctlBusy = false

theorem SessAt.start (s : State) (n : Nat) : SessAt s s n (s.vg n) := ⟨rfl, rfl, rfl, fun _ he => .inl he⟩

theorem SessAt.modVg {s u : State} {n : Nat} {v : VgSess} (hu : SessAt s u n v) {f : VgSess → VgSess}
    (hopen : (f v).isOpen = true) (hbusy : (f v).ctlBusy = false) : SessAt s (u.modVg n f) n (f v) := by
  obtain ⟨hrest, rfl, horder, hfree⟩ := hu
  refine ⟨congrArg (State.modVg · n f) hrest |>.trans rfl, vg_modVg_open hopen, horder, fun e he => ?_⟩
  rcases mem_spPut he with he | rfl
  · exact hfree e he
  · exact .inr hbusy

/-- R416: the ingress of a session that no other uses stays free. -/
theorem SessAt.ingressFree {s u : State} {n : Nat} {v : VgSess} (hu : SessAt s u n v) (h : s.ingressBusy n = false) :
    u.ingressBusy n = false := by
  have hing (k : Nat) : u.sessIngress k = s.sessIngress k := by rw [hu.rest]; rfl
  rw [State.ingressBusy, List.any_eq_false] at h ⊢
  intro e he
  rcases hu.busy e he with hs | hfree
  · simpa only [hing] using h e hs
  · simp [hfree]

theorem extendSeq_self (a : Nat) : extendSeq a (BitVec.ofNat 32 a) = a := by simp [extendSeq]

/-- R410: an acknowledgement of all that was sent, nothing of which is outstanding, leaves the session as it is. -/
theorem SessAt.acked {s u : State} {n : Nat} {v : VgSess} (hu : SessAt s u n v) (hopen : v.isOpen = true) (hbusy : v.ctlBusy = false)
    (hout : v.unacked = []) : SessAt s (u.vgAcked n (BitVec.ofNat 32 v.txNext) []) n v := by
  have hgood : v.ackBad (BitVec.ofNat 32 v.txNext) [] = false := by simp [VgSess.ackBad, extendSeq_self]
  have hsame := hu.modVg (f := fun v => v) hopen hbusy
  have hnone : (u.modVg n (fun v => v)).vgFast n = u.modVg n (fun v => v) := by
    rw [State.vgFast, hsame.entry, hout]
    rfl
  unfold State.vgAcked
  dsimp only
  rw [hu.entry, if_neg (by simp [hgood]), hout]
  rw [← hnone] at hsame
  exact hsame

/-- R416: a CONTROL request alone is taken at once where its ingress is free. -/
theorem pump_one {u : State} {n : Fin 256} (hidle : u.net.ctlOrder = []) (hfree : u.ingressBusy n = false) :
    (u.holdCtl n).pump = u.takeCtl n := by
  have hback : ({ u.holdCtl n with net := { (u.holdCtl n).net with ctlOrder := [] } } : State) = u := by
    have : ({ u.net with ctlOrder := [] } : Net) = u.net := by rw [← hidle]
    exact congrArg (fun w : Net => { u with net := w }) this
  have horder : (u.holdCtl n).net.ctlOrder = [n.val] := by
    rw [State.holdCtl]
    dsimp only
    rw [hidle, List.nil_append]
  rw [State.pump, horder, hback, List.foldl_cons, List.foldl_nil, if_neg (by simp [hfree]), Fin.ofNat_eq_cast, Fin.cast_val_eq_self]

/-- A held message waits for its turn: with none held, none is delivered. -/
theorem deliverHeld_none {s : State} {n : Fin 256} (h : (s.vg n).held = []) (fuel : Nat) : s.deliverHeld n fuel = s := by
  cases fuel with
  | zero => rfl
  | succ fuel =>
    unfold State.deliverHeld
    dsimp only
    rw [h, List.find?_nil]
    cases (s.vg n).isOpen <;> rfl

/-- R418: a message of the session came. -/
def VgSess.heard (now : Nat) (v : VgSess) : VgSess := { v with lastRx := now }

/-- R410, R422: the next message of the session is delivered. -/
def VgSess.counted (v : VgSess) : VgSess := { v with
  rxNext := v.rxNext + 1, owed := v.owed + 1, delivered := true, ackDue := true }

/-- R416: a CONTROL request of the session waits. -/
def VgSess.asked (q : W32 × VBody) (v : VgSess) : VgSess := { v with ctl := v.ctl ++ [q] }

/-- R411, R416: the session once its next message, a CONTROL request, is delivered. -/
def VgSess.received (v : VgSess) (now : Nat) (b : VBody) : VgSess :=
  (v.heard now).counted.asked (BitVec.ofNat 32 v.rxNext, b)

/-- A session that is open on a free ingress has no CONTROL request in progress. -/
theorem ctlBusy_of_ingressFree {s : State} {n : Nat} (hopen : (s.vg n).isOpen = true) (h : s.ingressBusy n = false) :
    (s.vg n).ctlBusy = false := by
  have hmem : (n, s.vg n) ∈ s.net.sess := mem_of_spGet fun e => by
    rw [show s.vg n = VgSess.zero from e] at hopen
    cases hopen
  rw [State.ingressBusy, List.any_eq_false] at h
  simpa using h _ hmem

theorem deliver_push {u : State} {n : Fin 256} {p : Nat} {c : SessCfg} (hcfg : u.sessCfg n = some (p, c)) (w : WinBody) (len : W32) :
    u.deliver n (.push w len) = (((u.modVg n VgSess.counted).modVg n
      (VgSess.asked (BitVec.ofNat 32 (u.vg n).rxNext, .push w len))).holdCtl n).pump := by
  unfold State.deliver
  rw [hcfg]
  rfl

section
variable {s : State} {h : VHdr} {p : Fin 16} {c : SessCfg} (hm : NextMessage s h p c)
include hm

/-- R403: a message of an open session whose header stands. -/
theorem vgRow_heard (b : VBody) : s.vgRow h (.body b) = (s.modVg h.sid (VgSess.heard s.datum)).vgReliableIn h.sid h b := by
  rw [State.vgRow, hm.listed]
  dsimp only
  rw [if_pos hm.receives]
  unfold State.vgReceive
  dsimp only
  rw [hm.listed]
  dsimp only
  rw [if_neg (by simp [hm.headerOk, hm.isOpen])]
  rfl

theorem heard_at : SessAt s (s.modVg h.sid (VgSess.heard s.datum)) h.sid ((s.vg h.sid).heard s.datum) :=
  (SessAt.start s h.sid).modVg hm.isOpen (ctlBusy_of_ingressFree hm.isOpen hm.ingressFree)

/-- R410: what the message acknowledges is all there is. -/
theorem acked_at : SessAt s ((s.modVg h.sid (VgSess.heard s.datum)).vgAcked h.sid h.ack []) h.sid
    ((s.vg h.sid).heard s.datum) := by
  rw [hm.ackIs]
  exact (heard_at hm).acked hm.isOpen (ctlBusy_of_ingressFree hm.isOpen hm.ingressFree) hm.nothingOut

/-- R410: the next message is delivered. -/
theorem vgReliableIn_next (b : VBody) : (s.modVg h.sid (VgSess.heard s.datum)).vgReliableIn h.sid h b =
    (((s.modVg h.sid (VgSess.heard s.datum)).vgAcked h.sid h.ack []).deliver h.sid b).deliverHeld h.sid 1024 := by
  have hack := acked_at hm
  have hopen : ((s.vg h.sid).heard s.datum).isOpen = true := hm.isOpen
  obtain ⟨hrest, hentry, -, -⟩ := heard_at hm
  have hroom : 0 < (s.modVg h.sid (VgSess.heard s.datum)).vgRoom h.sid := by
    rw [State.vgRoom, hentry]
    exact hm.room
  generalize s.modVg h.sid (VgSess.heard s.datum) = r at *
  have hnext : extendSeq (r.vg h.sid).rxNext h.seq = (r.vg h.sid).rxNext := by
    rw [hm.inOrder, hentry]
    exact extendSeq_self _
  unfold State.vgReliableIn
  dsimp only
  rw [hnext, if_neg (by omega), if_neg (by omega), if_neg (by simp [hack.entry, hopen]), if_neg (by omega)]

/-- R403, R410, R411, R416: the push that comes next on a session is its CONTROL request, taken at once. -/
theorem push_received (w : WinBody) (len : W32) :
    ∃ u, SessAt s u h.sid ((s.vg h.sid).received s.datum (.push w len)) ∧
      exec (.push h w len) s = .next ((u.takeCtl h.sid).deliverHeld h.sid 1024) := by
  have hbusy := ctlBusy_of_ingressFree hm.isOpen hm.ingressFree
  have hack := acked_at hm
  have hexec : exec (.push h w len) s = .next (s.vgRow h (.body (.push w len))) := rfl
  rw [hexec, vgRow_heard hm, vgReliableIn_next hm]
  generalize (s.modVg h.sid (VgSess.heard s.datum)).vgAcked h.sid h.ack [] = a at hack
  have hcfg : a.sessCfg h.sid = some (p.val, c) := by
    rw [hack.rest]
    exact hm.listed
  have hasked := (hack.modVg (f := VgSess.counted) hm.isOpen hbusy).modVg
    (f := VgSess.asked (BitVec.ofNat 32 (s.vg h.sid).rxNext, .push w len)) hm.isOpen hbusy
  have hrseq : (a.vg h.sid).rxNext = (s.vg h.sid).rxNext := by
    rw [hack.entry]
    rfl
  rw [deliver_push hcfg, hrseq, pump_one (hasked.order.trans hm.noneWaits) (hasked.ingressFree hm.ingressFree)]
  exact ⟨_, hasked, rfl⟩

end

/-! The request's image (R411, R416). -/

/-- R411: a push whose window reads. -/
theorem pushWindow_judged {u : State} {p : Fin 16} {n : Fin 256} {w : WinBody} {len : W32} {win : Window} {b : List Byte}
    (hgate : u.ctlGate p n w.resv = none)
    (hwin : (u.parcel p).orderWindow w.ctx.toNat w.seg.toNat w.off.toNat len.toNat true false [2] = .ok win)
    (hread : u.stackRead p win.stks win.gran win.base (min len.toNat 1048577) = (b, false))
    (hplace : u.misplaced p win.stks win.gran win.base (min len.toNat 1048577) = false) :
    u.pushWindow p n w len.toNat = ((ccOK, 0, (u.pushImage (.sess n) b).1), (u.pushImage (.sess n) b).2) := by
  unfold State.pushWindow
  rw [hgate]
  dsimp only
  rw [hwin]
  dsimp only
  rw [hread, State.countPlace, hplace]
  rfl

/-- R416: the CONTROL request of a session in progress, a push. -/
theorem takeCtl_push {u : State} {n : Fin 256} {p : Nat} {c : SessCfg} {rseq : W32} {w : WinBody} {len : W32}
    (hopen : (u.vg n).isOpen = true) (hctl : (u.vg n).ctl = [(rseq, .push w len)]) (hcfg : u.sessCfg n = some (p, c)) :
    ∃ body, u.takeCtl n = (((u.modVg n (fun v => { v with ctlBusy := true })).pushWindow p n w len.toNat).2).ctlReply n
      (u.vg n).inc 0x12 rseq body := by
  unfold State.takeCtl
  dsimp only
  rw [hopen, hctl, hcfg]
  exact ⟨_, rfl⟩

end Sys2Proof.Machine

/-! SUPPORT. What a parcel-local image leaves of a session that holds no message (R78, R426): a session whose messages were
delivered in order holds none after it either. -/

namespace Sys2Proof.Machine

/-- Session n has had a message delivered, and holds none that waits for its turn. -/
def State.calm (s : State) (n : Nat) : Prop := (s.vg n).delivered = true ∧ (s.vg n).held = []

variable {s : State} {n : Nat}

theorem calm_of_sess {t : State} (h : t.net.sess = s.net.sess) (hs : s.calm n) : t.calm n := by
  have hvg : t.vg n = s.vg n := by rw [State.vg, h]; rfl
  rw [State.calm, hvg]
  exact hs

theorem calm_of_net {t : State} (h : t.net = s.net) (hs : s.calm n) : t.calm n := calm_of_sess (congrArg Net.sess h) hs

/-- A change of a session that holds no message back and forgets no delivery. -/
theorem calm_modVg (h : s.calm n) (m : Nat) {f : VgSess → VgSess} (hd : ∀ v, v.delivered = true → (f v).delivered = true)
    (hh : ∀ v, v.held = [] → (f v).held = []) : (s.modVg m f).calm n := by
  obtain ⟨hdelivered, hheld⟩ := h
  by_cases hm : n = m
  · subst hm
    have hself : (s.modVg n f).vg n = f (s.vg n) := vg_modVg_of_ne fun e => by
      have hfd := hd _ hdelivered
      rw [e] at hfd
      cases hfd
    rw [State.calm, hself]
    exact ⟨hd _ hdelivered, hh _ hheld⟩
  · rw [State.calm, vg_modVg_ne s f hm]
    exact ⟨hdelivered, hheld⟩

theorem calm_modParcel (h : s.calm n) (p : Nat) (f : Parcel → Parcel) : (s.modParcel p f).calm n := h

theorem calm_foldl {α : Type} (l : List α) (g : State → α → State) (hg : ∀ s, ∀ a ∈ l, s.calm n → (g s a).calm n)
    (h : s.calm n) : (l.foldl g s).calm n :=
  List.foldlRecOn (motive := (State.calm · n)) l g h fun s hs a ha => hg s a ha hs

/-! Messages to a partner. -/

theorem net_countEvent (s : State) (ev unit : Nat) (parcel : Option Nat) (k : Nat) : (s.countEvent ev unit parcel k).net = s.net :=
  view_foldl State.net _ _ (fun s e _ => by dsimp only; (repeat' split) <;> rfl) s

theorem sess_vgTransmit (s : State) (m : Nat) (bytes : List Byte) : (s.vgTransmit m bytes).net.sess = s.net.sess := by
  unfold State.vgTransmit State.startResolve
  (repeat' split) <;> rfl

theorem calm_sent (h : s.calm n) (m : Nat) (bytes : List Byte) (ev unit : Nat) (parcel : Option Nat) (k : Nat) :
    ((s.vgTransmit m bytes).countEvent ev unit parcel k).calm n :=
  calm_of_sess (by rw [net_countEvent, sess_vgTransmit]) h

theorem calm_vgReliable (h : s.calm n) (m kind op : Nat) (rseq : W32) (body : List Byte) (answer : Bool) :
    (s.vgReliable m kind op rseq body answer).calm n := by
  unfold State.vgReliable
  dsimp only
  split
  · exact h
  · refine calm_sent (calm_modVg h m ?_ ?_) .. <;> exact fun _ hv => hv

theorem calm_vgUnreliable (h : s.calm n) (m op : Nat) (body : List Byte) : (s.vgUnreliable m op body).calm n := by
  refine calm_sent (calm_modVg h m ?_ ?_) .. <;> exact fun _ hv => hv

theorem calm_vgAnswer (h : s.calm n) (m inc kind op : Nat) (rseq : W32) (body : List Byte) :
    (s.vgAnswer m inc kind op rseq body).calm n := by
  unfold State.vgAnswer
  dsimp only
  split
  · exact calm_vgReliable h ..
  · exact calm_modVg h m (fun _ hv => hv) (fun _ hv => hv)

theorem calm_orderResult (h : s.calm n) (p : Nat) (r : OrdRef) (code detail : Byte) : (s.orderResult p r code detail).calm n := by
  unfold State.orderResult
  dsimp only
  generalize htrace : State.trace s _ _ _ _ _ _ _ = u
  have hu : u.calm n := calm_of_net (htrace ▸ state_trace_net ..) h
  have hput (a : Nat) (f : OrdSt → OrdSt) : ((u.modOrd a f).fnEvent a 0).calm n := by
    rw [fnEvent_frame]
    exact hu
  split
  · exact hput ..
  · exact hput ..
  · split
    · exact calm_modVg hu _ (fun _ hv => hv) (fun _ hv => hv)
    · split
      · refine calm_vgAnswer (calm_modVg hu _ ?_ ?_) .. <;> exact fun _ hv => hv
      · exact hu

theorem calm_grantCredit (h : s.calm n) (p : Nat) : (s.grantCredit p).calm n := by
  unfold State.grantCredit
  refine calm_foldl _ _ (fun s m _ hs => ?_) h
  dsimp only
  split
  · exact hs
  · exact calm_modVg hs m (fun _ hv => hv) (fun _ hv => hv)

/-! A session is closed (R425, R426). -/

theorem net_noteEnd (s : State) (p q : Nat) (r : Request) (code detail : Byte) : (s.noteEnd p q r code detail).net = s.net := by
  unfold State.noteEnd
  dsimp only
  split
  · rw [net_countEvent, state_trace_net, net_countEvent]
  · rw [net_countEvent]

theorem calm_refuse (h : s.calm n) (p q : Nat) (r : Request) (code detail : Byte) : (s.refuse p q r code detail).calm n := by
  have hnoted := calm_of_net (net_noteEnd s p q { r with windows := [] } code detail) h
  rw [State.refuse, complete_eq]
  dsimp only
  split
  · exact hnoted
  · exact calm_vgAnswer (calm_of_net (state_trace_net ..) hnoted) ..

theorem calm_dropWaiting (h : s.calm n) (p m : Nat) : (s.dropWaiting p m).calm n :=
  calm_foldl _ _ (fun _ _ _ hs => calm_foldl _ _ (fun _ _ _ hs => calm_refuse hs ..) hs) h

theorem calm_tellClose (h : s.calm n) (m code : Nat) : (s.tellClose m code).calm n := by
  rcases tellClose_cases s m code with hsame | htold
  · rwa [hsame]
  · rw [htold]
    exact calm_vgUnreliable h ..

theorem calm_shutSession (h : s.calm n) (m code : Nat) : (s.shutSession m code).calm n := by
  unfold State.shutSession
  dsimp only
  refine calm_of_net (state_trace_net ..) ?_
  exact calm_modVg (calm_tellClose h m code) m (f := fun v => { v with
    isOpen := false, close := BitVec.ofNat 8 code, disc := satAdd32 v.disc v.unacked.length
    unacked := [], held := [], ctl := [], ctlBusy := v.ctlBusy && decide (code ≠ 2), upd := [], ackDue := false })
    (fun _ hv => hv) (fun _ _ => rfl)

theorem calm_closeSession (h : s.calm n) (m code : Nat) : (s.closeSession m code).calm n := by
  rw [closeSession_eq]
  split
  · exact h
  · unfold State.recredit
    dsimp only
    have hdropped := calm_modVg (calm_dropWaiting (calm_shutSession h m code) ((s.shutSession m code).sessParcel m) m) m
      (f := fun w => { w with disc := satAdd32 (s.vg m).disc (s.vg m).unacked.length }) (fun _ hv => hv) (fun _ hv => hv)
    split
    · exact calm_grantCredit hdropped _
    · exact hdropped

/-! The parcel is emptied (R78). -/

theorem net_notePoison (s : State) (p addr : Nat) : (s.notePoison p addr).net = s.net := by
  unfold State.notePoison State.logP
  rw [state_modParcel_net, state_log_net]

theorem net_hostStore (s : State) (p addr : Nat) (bs : List Byte) : (s.hostStore p addr bs).net = s.net := by
  unfold State.hostStore
  split
  · exact net_notePoison s p addr
  · split
    · unfold State.storeLine
      split
      · have hpoison (l : WLine) : (if l.poison then s.notePoison p addr else s).net = s.net := by
          split
          · exact net_notePoison s p addr
          · rfl
        exact hpoison _
      · rfl
    · unfold State.hostQueue State.weltAsk
      dsimp only
      split <;> rfl

theorem net_writeRecord (s : State) (p q : Nat) : (s.writeRecord p q).net = s.net := by
  unfold State.writeRecord
  dsimp only
  split
  · split
    · split
      · rfl
      · split
        · rfl
        · have hwritten (addr : Nat) (bs : List Byte) (f : Queue → Queue) (o : Output) (r : Record) :
              ((((s.modQueue p q f).hostStore p addr bs).emit o).traceRecord p q r).net = s.net :=
            (state_trace_net ..).trans (net_hostStore (s.modQueue p q f) p addr bs)
          split <;> exact hwritten ..
    · rfl
  · rfl

theorem net_dropRings (s : State) (p q : Nat) : (s.dropRings p q).net = s.net :=
  (view_foldl State.net (List.range (s.queue p q).records.length) _ (fun s _ _ => net_writeRecord s p q) s : _)

theorem net_removeTask (s : State) (i : Nat) (x : Inst) : (s.removeTask i x).net = s.net :=
  view_foldl State.net x.cells _ (fun s n _ => state_modCell_net s n _) s

theorem net_freeCells (s : State) (p slot : Nat) : (s.freeCells p slot).net = s.net := by
  unfold State.freeCells
  exact view_foldl State.net _ _ (fun _ _ _ => by rfl) s

theorem net_configureCells (s : State) (p : Fin 16) : (s.configureCells p).net = s.net :=
  view_foldl State.net _ _ (fun _ _ _ => by split <;> rfl) s

theorem calm_endLoads (h : s.calm n) (p : Nat) : (s.endLoads p).calm n :=
  calm_foldl _ _ (fun s _ _ hs => by
    split
    · exact calm_orderResult (s := s.emptySlot p _) hs ..
    · exact hs) h

theorem calm_clearQueue (h : s.calm n) (p q : Nat) : (s.clearQueue p q).calm n := by
  have hrings : ((s.dropRings p q).modQueue p q fun y => { y.unbound with timeout := 0 }).calm n :=
    calm_of_net (net_dropRings s p q) h
  unfold State.clearQueue
  dsimp only
  split
  · exact calm_orderResult hrings ..
  · exact hrings

theorem calm_clearSlot (h : s.calm n) (p : Nat) (e : Nat × GraphSlot) : (s.clearSlot p e).calm n := by
  have hfreed : ((s.freeCells p e.1).emptySlot p e.1).calm n := calm_of_net (net_freeCells s p e.1) h
  unfold State.clearSlot
  dsimp only
  split
  · exact calm_orderResult hfreed ..
  · exact hfreed

theorem calm_endWaits (h : s.calm n) (p : Nat) : (s.endWaits p).calm n :=
  calm_foldl _ _ (fun s w _ hs => by
    unfold State.endWait
    split <;> exact calm_orderResult hs ..) h

theorem calm_clearQueues (h : s.calm n) (p : Nat) : (s.clearQueues p).calm n := by
  unfold State.clearQueues
  generalize List.range 32 = l
  exact calm_foldl _ _ (fun _ e _ hs => calm_clearSlot hs p e) (calm_foldl l _ (fun _ q _ hs => calm_clearQueue hs p q) h)

theorem calm_clearParcel (h : s.calm n) (p : Nat) : (s.clearParcel p).calm n := by
  rw [clearParcel_eq]
  exact calm_of_net (net_placeSegs _ p 0 (2 ^ 48)) (calm_modParcel (calm_endWaits (calm_clearQueues h p) p) ..)

theorem calm_emptyParcel (h : s.calm n) (p : Fin 16) : (s.emptyParcel p).calm n := by
  unfold State.emptyParcel
  exact calm_modParcel (calm_clearParcel (calm_foldl _ _ (fun s e _ hs => calm_of_net (net_removeTask s e.1 e.2) hs)
    (calm_endLoads h p)) p) ..

/-! The parcel's image comes into force (R78). -/

theorem calm_closeLeft (h : s.calm n) (old : List SessCfg) (c : ParcelCfg) : (s.closeLeft old c).calm n :=
  calm_foldl _ _ (fun _ _ _ hs => by
    split
    · exact hs
    · exact calm_closeSession hs ..) h

/-- A session that the image names is not forgotten. -/
theorem calm_forgetLeft (h : s.calm n) (old : List SessCfg) {c : ParcelCfg}
    (hn : c.sessions.any (fun k => decide (k.session = n)) = true) : (s.forgetLeft old c).calm n :=
  calm_foldl _ _ (fun s e _ hs => by
    split
    · exact hs
    · next hleft =>
      have hne : n ≠ e.session := fun he => hleft (he ▸ hn)
      have hvg : State.vg { s with net := { s.net with sess := spPut VgSess.zero VgSess.zero e.session s.net.sess } } n = s.vg n :=
        spGet_spPut_ne _ _ _ hne
      rw [State.calm, hvg]
      exact hs) h

theorem calm_markOrder (h : s.calm n) (m : OrdMark) : (s.markOrder m).calm n := h

theorem calm_applyLocal (h : s.calm n) (p : Fin 16) (b : List Byte)
    (hn : (parcelOf b p).sessions.any (fun k => decide (k.session = n)) = true) : (s.applyLocal p b).calm n := by
  have hclosed := calm_closeLeft (calm_emptyParcel h p) (s.parcel p).cfg.sessions (parcelOf b p)
  have hleft := calm_forgetLeft (calm_modParcel hclosed p (·.rebuilt (parcelOf b p) b)) (s.parcel p).cfg.sessions hn
  have hplaced := calm_of_net ((net_placeSegs _ p 0 (2 ^ 48)).trans (net_configureCells _ p)) hleft
  rw [applyLocal_eq]
  exact calm_markOrder (calm_grantCredit hplaced p) _

end Sys2Proof.Machine

/-! SUPPORT. Images pushed over a mailbox and over a session, and the ends of their builds (R66, R71, R78, R80, R411). -/

namespace Sys2Proof.Machine

open Sys2Proof.Safety

/-! The result of a push (R73). -/

theorem parcel_pushResult (s : State) (a code k : Nat) : (s.pushResult a code).parcel k = s.parcel k := by
  rw [pushResult_frame]
  rfl

theorem img_pushResult (s : State) (a code : Nat) : (s.pushResult a code).img = s.img := by rw [pushResult_frame]

theorem tk_pushResult (s : State) (a code : Nat) : (s.pushResult a code).tk = s.tk := by rw [pushResult_frame]

/-! A push over a session (R411). -/

/-- R66, R71 to R74: the code of a push. -/
def State.pushCode (s : State) (w : Pusher) (b : List Byte) : Nat :=
  if s.dev = .retired then 0x17
  else if s.pushMeets w then 0x15
  else if b.length < 64 then (match w with | .mgmt e k => if s.ownerAccess (.mgmt e k) then 3 else 0x16 | _ => 3)
  else if !s.mayPush w (field b 0xE 1) (field b 0xF 1) then 0x16
  else s.checkImage .push b

theorem pushImage_fst (s : State) (w : Pusher) (b : List Byte) : (s.pushImage w b).1 = s.pushCode w b := by
  have hif (code : Nat) (t u v : State) :
      (if code ≠ 0 then (code, t) else if field b 0xE 1 = 1 then (0, u) else (0, v) : Nat × State).1 = code := by
    split_ifs with hcode <;> simp_all
  exact hif (s.pushCode w b) _ _ _

/-- The judgement of a push does not read the network. -/
theorem pushCode_net (s : State) (w : Pusher) (b : List Byte) (net : Net) :
    ({ s with net := net } : State).pushCode w b = s.pushCode w b := rfl

@[simp] theorem still_ctlReply (s : State) (n inc op : Nat) (rseq : W32) (body : List Byte) :
    (s.ctlReply n inc op rseq body).still = s.still := by
  unfold State.ctlReply
  dsimp only
  split
  · exact still_modVg ..
  · rw [still_vgAnswer, still_modVg]

theorem calm_ctlReply {s : State} {n : Nat} (h : s.calm n) (m inc op : Nat) (rseq : W32) (body : List Byte) :
    (s.ctlReply m inc op rseq body).calm n := by
  unfold State.ctlReply
  dsimp only
  split
  · exact calm_modVg h m (fun _ hv => hv) (fun _ hv => hv)
  · refine calm_vgAnswer (calm_modVg h m ?_ ?_) .. <;> exact fun _ hv => hv

/-- A push over a session leaves no message of the session to deliver. -/
theorem calm_pushImage {s : State} {n : Fin 256} (h : s.calm n) (b : List Byte) : (s.pushImage (.sess n) b).2.calm n := by
  obtain ⟨-, -, -, -, -, hnet, -⟩ := judged_sameImage s (.sess n) b
  have hjudged := calm_of_net hnet h
  rw [pushImage_snd]
  by_cases hcode : (s.pushImage (.sess n) b).1 = 0
  · obtain ⟨hlocal, hnames⟩ := pushImage_sess_names hcode
    have htarget : (Fin.ofNat 16 (field b 0xF 1)).val = field b 0xF 1 :=
      Nat.mod_eq_of_lt (Nat.lt_succ_of_le (pushImage_target hcode))
    rw [if_neg (by simp [hcode]), if_pos hlocal]
    exact calm_applyLocal hjudged _ b (by rw [htarget]; exact hnames)
  · rw [if_pos hcode]
    exact hjudged

/-- R411: an image pushed over a session is judged, and comes into force where it passes. -/
theorem push_done {s : State} (hwf : s.pwf) {h : VHdr} {p : Fin 16} {c : SessCfg} (hm : NextMessage s h p c) {w : WinBody} {len : W32}
    {win : Window} {b : List Byte} (hgate : s.ctlGate p h.sid w.resv = none)
    (hwin : (s.parcel p).orderWindow w.ctx.toNat w.seg.toNat w.off.toNat len.toNat true false [2] = .ok win)
    (hread : s.stackRead p win.stks win.gran win.base (min len.toNat 1048577) = (b, false))
    (hplace : s.misplaced p win.stks win.gran win.base (min len.toNat 1048577) = false) :
    ∃ t, exec (.push h w len) s = .next t ∧
      if (s.pushImage (.sess h.sid) b).1 = 0 then (t.parcel (field b 0xF 1)).state = .building ∧
        (t.parcel (field b 0xF 1)).cfg = parcelOf b (Fin.ofNat 16 (field b 0xF 1))
      else t.img = s.img ∧ t.cells = s.cells := by
  obtain ⟨u, hu, hexec⟩ := push_received hm w len
  have hopen : (u.vg h.sid).isOpen = true := by rw [hu.entry]; exact hm.isOpen
  have hctl : (u.vg h.sid).ctl = [(BitVec.ofNat 32 (s.vg h.sid).rxNext, .push w len)] := by
    rw [hu.entry]
    exact congrArg (· ++ _) hm.ownFree
  have hcfg : u.sessCfg h.sid = some (p.val, c) := by rw [hu.rest]; exact hm.listed
  have hcalm : u.calm h.sid := by
    rw [State.calm, hu.entry]
    exact ⟨rfl, hm.nothingHeld⟩
  obtain ⟨body, htake⟩ := takeCtl_push hopen hctl hcfg
  have hbusy : (u.modVg h.sid (fun v => { v with ctlBusy := true })).calm h.sid :=
    calm_modVg hcalm _ (fun _ hv => hv) (fun _ hv => hv)
  have hrest : u.modVg h.sid (fun v => { v with ctlBusy := true }) =
      { s with net := (u.modVg h.sid (fun v => { v with ctlBusy := true })).net } := by
    rw [hu.rest]
    rfl
  generalize u.modVg h.sid (fun v => { v with ctlBusy := true }) = r at htake hbusy hrest
  obtain ⟨net, rfl⟩ : ∃ net, r = { s with net := net } := ⟨_, hrest⟩
  have hjudged := pushWindow_judged (u := { s with net := net }) (n := h.sid) hgate hwin hread hplace
  have hcode : (({ s with net := net } : State).pushImage (.sess h.sid) b).1 = (s.pushImage (.sess h.sid) b).1 := by
    rw [pushImage_fst, pushImage_fst, pushCode_net]
  rw [htake, hjudged, deliverHeld_none (calm_ctlReply (calm_pushImage hbusy b) _ _ _ _ _).2] at hexec
  refine ⟨_, hexec, ?_⟩
  by_cases hzero : (s.pushImage (.sess h.sid) b).1 = 0
  · rw [if_pos hzero]
    obtain ⟨hlocal, -⟩ := pushImage_sess_names hzero
    obtain ⟨hstate, hcfg', -⟩ := pushImage_local (s := { s with net := net }) hwf (hcode.trans hzero) hlocal
    rw [parcel_of_still (still_ctlReply ..)]
    exact ⟨hstate, hcfg'⟩
  · rw [if_neg hzero, img_of_still (still_ctlReply ..), cells_of_still (still_ctlReply ..),
      pushImage_refused (by rwa [hcode])]
    obtain ⟨himg, -, -, hcells, -⟩ := judged_sameImage { s with net := net } (.sess h.sid) b
    exact ⟨himg, hcells⟩

/-! The ends of builds (R80). -/

theorem dev_endBuild (s : State) : s.endBuild.dev = s.dev := by
  have hwake : (s.wake s.parcels).dev = s.dev := view_foldl State.dev _ _ (fun s e _ => by split <;> rfl) s
  have hdev : s.endBuild.dev = (s.wake s.parcels).freeMail.dev := by rw [endBuild_eq]
  rw [hdev, dev_of_still (still_freeMail _), hwake]

/-- R80: the end of a whole-device build: a device that runs, or is UNLASTED, runs. -/
theorem deviceBuildEnd_done {s : State} (hb : s.img.building = true) (htest : ∀ n, n < 128 → s.testing n = false)
    (hd : s.dev = .running ∨ s.dev = .unlasted) (at' : Nat) : let u := (s.at at').endBuild
    ∃ t, exec (.deviceBuildEnd at') s = .next t ∧ t.dev = .running ∧ t.datum = u.datum ∧ t.img = u.img ∧ t.tk = u.tk ∧
      t.lc = u.lc ∧ t.parcels = u.parcels := by
  have hnone : (List.range 128).any (s.at at').testing = false := by
    rw [List.any_eq_false]
    exact fun n hn => by
      rw [show (s.at at').testing n = s.testing n from rfl, htest n (List.mem_range.1 hn)]
      decide
  have hexec : exec (.deviceBuildEnd at') s = execDeviceBuildEnd at' s := rfl
  rw [hexec, execDeviceBuildEnd, hnone, show (s.at at').dev = s.dev from rfl, show (s.at at').img.building = true from hb]
  rcases hd with hrun | hunlasted
  · rw [hrun]
    exact ⟨_, rfl, (dev_endBuild _).trans hrun, rfl, rfl, rfl, rfl, rfl⟩
  · rw [hunlasted]
    exact ⟨_, rfl, toDev_dev _ _, toDev_datum _ _, toDev_img _ _, toDev_tk _ _, toDev_lc _ _, toDev_parcels _ _⟩

/-- Settles O37: an image that passes is in force in the parcel or in every one, and the ends of the builds start the tick. -/
theorem imagesComplete : Obligations.ImagesComplete := by
  intro s hwf
  refine ⟨fun who b hfree => ?_, fun h p c w len win b hm _ hgate hwin hread hplace => push_done hwf hm hgate hwin hread hplace,
    fun p hstate hdevice htest => if_neg (by simp [hstate, hdevice, htest]), fun at' hb htest hd => ?_⟩
  · intro code
    obtain ⟨hdone, hpushed⟩ := ord_pushResult (s.pushImage (pusherOf who) b).2 (accIndex who) code
    refine ⟨_, lastImagePush_free hfree b, hdone, hpushed, fun hcode hlocal => ?_, fun hcode hdevice => ?_⟩
    · dsimp only
      rw [parcel_pushResult]
      exact pushImage_local hwf hcode hlocal
    · obtain ⟨htk, hparcels⟩ := applyDevice_done (pwf_judged hwf (pusherOf who) b) b 3
      simp only [img_pushResult, tk_pushResult, parcel_pushResult, pushImage_device hcode hdevice]
      exact ⟨rfl, rfl, rfl, rfl, htk, hparcels⟩
  · obtain ⟨t, hexec, hdev, hdatum, himg, htk, hlc, hparcels⟩ := deviceBuildEnd_done hb htest hd at'
    rw [endBuild_datum] at hdatum
    rw [endBuild_img] at himg
    rw [endBuild_tk] at htk
    rw [endBuild_lc] at hlc
    refine ⟨t, hexec, hdev, hdatum, by rw [himg], htk, by rw [hlc], fun halign => ?_, fun p => ?_⟩
    · rw [hlc, hdatum]
      exact if_pos halign
    · rw [State.parcel, hparcels]
      exact endBuild_parcel (s := s.at at') hwf p

end Sys2Proof.Machine

/-! SUPPORT. What passes with time alone: a hub-die cycle with no command waiting (R31, R86, R168, R170, R391, R546). -/

namespace Sys2Proof.Machine

/-! One cycle at one cell. -/

/-- What a cycle of a cell leaves alone: the commands, the parcels, the cycle count of the hub die, the datum, the local time
counter and the survey. -/
def State.hubSide (s : State) : List Instr × Sparse Parcel × W64 × Nat × LocalClk × Sv :=
  (s.pending, s.parcels, s.ob.cycle, s.datum, s.lc, s.sv)

@[simp] theorem hubSide_countEvent (s : State) (ev unit : Nat) (parcel : Option Nat) (k : Nat) :
    (s.countEvent ev unit parcel k).hubSide = s.hubSide :=
  view_foldl State.hubSide _ _ (fun s e _ => by dsimp only; (repeat' split) <;> rfl) s

@[simp] theorem hubSide_setCell (s : State) (n : Nat) (c : Cell) : (s.setCell n c).hubSide = s.hubSide := rfl

@[simp] theorem cell_countEvent (s : State) (ev unit : Nat) (parcel : Option Nat) (k n : Nat) :
    (s.countEvent ev unit parcel k).cell n = s.cell n :=
  congrArg (spGet Cell.zero · n) (cells_of_still (still_countEvent s ev unit parcel k))

theorem hubSide_cellCycle (s : State) (n : Nat) : (s.cellCycle n).hubSide = s.hubSide := by
  unfold State.cellCycle
  dsimp only
  split
  · rfl
  · split
    · exact hubSide_setCell ..
    · split <;> simp only [hubSide_countEvent, hubSide_setCell]

/-- A cycle at cell n is none at another cell. -/
theorem cell_cellCycle_ne (s : State) {n k : Nat} (h : k ≠ n) : (s.cellCycle n).cell k = s.cell k := by
  unfold State.cellCycle
  dsimp only
  split
  · rfl
  · split
    · exact cell_setCell_ne _ _ h
    · split <;> simp only [cell_countEvent, cell_setCell_ne _ _ h]

/-- R170: a gated cell that is not under test stands still. -/
theorem cellCycle_gated {s : State} {n : Nat} (hgated : (s.cell n).gated = true) (htest : s.testing n = false) :
    s.cellCycle n = s := if_pos (by rw [hgated, htest]; rfl)

/-! One cycle of the device. -/

/-- The cycle at every cell. -/
def State.allCellCycles (s : State) : State := (List.range 128).foldl (fun s n => s.cellCycle n) s

theorem hubSide_allCellCycles (s : State) : s.allCellCycles.hubSide = s.hubSide :=
  view_foldl State.hubSide _ _ (fun s n _ => hubSide_cellCycle s n) s

theorem cell_allCellCycles {s : State} {n : Nat} (hgated : (s.cell n).gated = true) (htest : s.testing n = false) :
    s.allCellCycles.cell n = s.cell n := by
  have hstands : ∀ t : State, t.cell n = s.cell n ∧ t.sv = s.sv → ∀ k ∈ List.range 128,
      (t.cellCycle k).cell n = s.cell n ∧ (t.cellCycle k).sv = s.sv := by
    rintro t ⟨hcell, hsv⟩ k -
    have hkept : (t.cellCycle k).sv = t.sv := congrArg (·.2.2.2.2.2) (hubSide_cellCycle t k)
    refine ⟨?_, hkept.trans hsv⟩
    by_cases hk : n = k
    · subst hk
      rw [cellCycle_gated (by rwa [hcell]) (by rwa [State.testing, State.agent, hsv]), hcell]
    · rw [cell_cellCycle_ne t hk, hcell]
  exact (List.foldlRecOn (motive := fun t : State => t.cell n = s.cell n ∧ t.sv = s.sv) _ _ ⟨rfl, rfl⟩ hstands).1

theorem idle_on {s : State} (h : s.powered = true) :
    s.idle = ({ s with cyc := {} } : State).datumCycle.allCellCycles.countEvent 1 0 none 1 :=
  if_neg (by rw [show ({ s with cyc := {} } : State).powered = true from h]; decide)

theorem hubSide_idle {s : State} (h : s.powered = true) : s.idle.hubSide = ({ s with cyc := {} } : State).datumCycle.hubSide := by
  rw [idle_on h, hubSide_countEvent, hubSide_allCellCycles]

theorem idle_pending_parcels (s : State) : s.idle.pending = s.pending ∧ s.idle.parcels = s.parcels := by
  cases h : s.powered with
  | false => rw [idle_off h]; exact ⟨rfl, rfl⟩
  | true => exact ⟨congrArg (·.1) (hubSide_idle h), congrArg (·.2.1) (hubSide_idle h)⟩

/-- Settles O2: with the rails up only the cells' counters and the hub die's clocks move; without them the cycle just ends. -/
theorem idleStepIsOneCycle : Obligations.IdleStepIsOneCycle := by
  intro s hnone
  obtain ⟨hpending, hparcels⟩ := idle_pending_parcels s
  refine ⟨s.idle, step_nil s hnone, hpending.trans hnone, hparcels, fun hon => ?_, idle_off⟩
  have hclocks := hubSide_idle hon
  refine ⟨congrArg (·.2.2.1) hclocks, ⟨congrArg (·.2.2.2.1) hclocks, congrArg (·.2.2.2.2.1) hclocks⟩,
    fun n hgated htest => ?_⟩
  rw [idle_on hon, cell_countEvent]
  exact cell_allCellCycles (s := ({ s with cyc := {} } : State).datumCycle) hgated htest

end Sys2Proof.Machine

/-! SUPPORT. The phases of a parcel's tick (R90, R92, R93, R95, R105, R310): its update window and its compute phase. -/

namespace Sys2Proof.Machine

/-! The update window (R310). -/

/-- R310: the window of a parcel is over; what it had in due records and in work is shown. -/
def Parcel.closeWindow (x : Parcel) : Parcel :=
  { x with inWindow := false, upDue := BitVec.ofNat 32 x.due.length, upWin := BitVec.ofNat 32 ((x.winBusyNs + 999) / 1000) }

theorem endWindow_closed {s : State} {p : Nat} (h : (s.parcel p).inWindow = false) : s.endWindow p = s :=
  if_pos (by rw [h]; rfl)

/-- The end of an open window closes it, and reports it. -/
theorem endWindow_open {s : State} {p : Nat} (h : (s.parcel p).inWindow = true) :
    (s.endWindow p).still = (s.modParcel p Parcel.closeWindow).still := by
  unfold State.endWindow
  dsimp only
  rw [if_neg (by rw [h]; decide)]
  split
  · exact still_trace ..
  · exact (still_logP ..).trans (still_trace ..)

/-- The end of a window changes its parcel alone, but for reports. -/
theorem endWindow_cases (s : State) (p : Nat) :
    s.endWindow p = s ∨ (s.endWindow p).still = (s.modParcel p Parcel.closeWindow).still := by
  cases h : (s.parcel p).inWindow with
  | false => exact .inl (endWindow_closed h)
  | true => exact .inr (endWindow_open h)

theorem insts_endWindow (s : State) (p : Nat) : (s.endWindow p).insts = s.insts := by
  rcases endWindow_cases s p with hsame | hstill
  · rw [hsame]
  · exact (insts_of_still hstill).trans rfl

theorem instsOf_congr {s t : State} (h : t.insts = s.insts) (p : Nat) : t.instsOf p = s.instsOf p := by
  rw [State.instsOf, h, State.instsOf]

/-- R92, R310: the window of a parcel opens in the tick that began at local time `edge` and at boundary `b`. -/
def Parcel.openWindow (x : Parcel) (edge b : Nat) : Parcel :=
  { x with
    inWindow := true, windowRan := true, windowBad := 0, windowUid := 0, windowDone := 0, windowFirst := none
    winStart := edge + 3000, winBusyTo := 0, winBusyNs := 0
    log := x.log.map (fun r => if r.fenceTick = some b then { r with fenceRan := true } else r) }

/-- R90: when the update window of a parcel opens, `late` ns after the boundary. -/
def State.WindowOpens (s : State) (p late : Nat) : Prop :=
  (s.parcel p).state = .active ∧ s.tk.run = true ∧ s.tk.started = true ∧ (s.parcel p).windowRan = false ∧ 3000 ≤ late ∧
    late < (s.parcel p).cfg.computeFrom

theorem updateWindowStart_opens {s : State} {p : Fin 16} {at' : Nat} (h : s.WindowOpens p (s.at at').offset) :
    ∃ t, exec (.updateWindowStart p at') s = .next t ∧ t.datum = (s.at at').datum ∧
      t.parcel p = (s.parcel p).openWindow s.lc.edge s.tk.boundary ∧ ∀ k, k ≠ p.val → t.parcel k = s.parcel k := by
  obtain ⟨hstate, hrun, hstarted, hran, hfrom, hto⟩ := h
  have hactive : ((s.parcel p).openWindow s.lc.edge s.tk.boundary).state = .active := hstate
  refine ⟨(s.at at').modParcel p (·.openWindow s.lc.edge s.tk.boundary), if_neg ?_, rfl,
    parcel_modParcel_present (s := s.at at') (ne_of_eq_of_ne hactive (by decide)),
    fun k hk => parcel_modParcel_ne (s.at at') _ hk⟩
  rw [show (s.at at').parcel p = s.parcel p from rfl, show (s.at at').ticking = s.ticking from rfl, State.ticking, hstate, hrun,
    hstarted, hran]
  simp only [ne_eq, not_true_eq_false, Bool.and_self, Bool.not_true, Bool.false_eq_true, false_or]
  omega

theorem updateWindowStart_waits {s : State} {p : Fin 16} {at' : Nat} (h : ¬ s.WindowOpens p (s.at at').offset) :
    exec (.updateWindowStart p at') s = .next (s.at at') := by
  refine if_pos ?_
  by_contra hgoes
  simp only [not_or, not_not, Bool.not_eq_true', Bool.not_eq_true, Bool.not_eq_false, not_lt, not_le, State.ticking,
    Bool.and_eq_true] at hgoes
  obtain ⟨hstate, ⟨hrun, hstarted⟩, hran, hfrom, hto⟩ := hgoes
  exact h ⟨hstate, hrun, hstarted, hran, hfrom, hto⟩

/-- R90, R310: from 3 µs + W on, an open window of an ACTIVE parcel ends. -/
theorem updateWindowEnd_closes {s : State} {p : Fin 16} {at' : Nat} (hstate : (s.parcel p).state = .active)
    (hopen : (s.parcel p).inWindow = true) (hlate : (s.parcel p).cfg.computeFrom ≤ (s.at at').offset) :
    ∃ t, exec (.updateWindowEnd p at') s = .next t ∧ t.parcel p = (s.parcel p).closeWindow := by
  refine ⟨_, if_neg (Nat.not_lt.2 hlate), ?_⟩
  rw [parcel_of_still (endWindow_open (s := s.at at') hopen)]
  refine parcel_modParcel_present (s := s.at at') ?_
  have hactive : (s.parcel p).closeWindow.state = .active := hstate
  exact ne_of_eq_of_ne hactive (by decide)

/-! The compute phase (R93, R95, R105). -/

/-- R93: the compute phase of a parcel starts. -/
def Parcel.beginCompute (x : Parcel) : Parcel :=
  { x with inCompute := true, computeRan := true, phSect := [], phBank := [], phChan := [] }

/-- R95, R442: the compute phase of a parcel is over. -/
def Parcel.finishCompute (x : Parcel) : Parcel :=
  { x with
    inCompute := false, computeOver := true
    smHot := if x.inCompute && x.hotPhase then satAdd32 x.smHot 1 else x.smHot }

/-- R105: the entry of the list of instances that is launched, runs or holds a request overruns. -/
def State.markOverrun (s : State) (e : Nat × Inst) : State :=
  if e.2.launched || e.2.running || e.2.req.isSome then s.modInst e.1 (fun x => { x with overrun := true }) else s

theorem endCompute_over {s : State} {p : Nat} (h : (s.parcel p).computeOver = true) : s.endCompute p = s := if_pos h

theorem endCompute_marks {s : State} {p : Nat} (h : (s.parcel p).computeOver = false) :
    s.endCompute p = (s.instsOf p).foldl State.markOverrun (s.modParcel p Parcel.finishCompute) :=
  if_neg (by rw [h]; decide)

theorem parcels_markOverruns (l : List (Nat × Inst)) (s : State) : (l.foldl State.markOverrun s).parcels = s.parcels :=
  view_foldl State.parcels _ _ (fun s e _ => by unfold State.markOverrun; split <;> rfl) s

/-- Where number i has a value, it is read back changed, in any list of instances. -/
theorem inst_modInst_self {s : State} {i : Nat} {x : Inst} (h : s.inst i = some x) (f : Inst → Inst) :
    (s.modInst i f).inst i = some (f x) := by
  have hnew : (s.inst i).map f = some (f x) := by rw [h]; rfl
  exact (spGet_spPut_of_ne _ _ (by rw [hnew]; exact Option.some_ne_none _)).trans hnew

/-- Marking instances as overrunning takes none away, and no mark back. -/
theorem inst_markOverrun {s : State} {i : Nat} {x : Inst} (h : s.inst i = some x) (e : Nat × Inst) :
    (s.markOverrun e).inst i = some x ∨ (s.markOverrun e).inst i = some { x with overrun := true } := by
  unfold State.markOverrun
  split
  · by_cases hi : i = e.1
    · subst hi
      exact .inr (inst_modInst_self h _)
    · exact .inl ((inst_setInst_ne s _ hi).trans h)
  · exact .inl h

theorem overrun_markOverruns {s : State} {i : Nat} {x : Inst} (l : List (Nat × Inst)) (h : s.inst i = some x)
    (hover : x.overrun = true) : ((l.foldl State.markOverrun s).inst i).map (·.overrun) = some true := by
  induction l generalizing s x with
  | nil => rw [List.foldl_nil, h, Option.map_some, hover]
  | cons e l ih =>
    rcases inst_markOverrun h e with hsame | hmarked
    · exact ih hsame hover
    · exact ih hmarked rfl

/-- R105: those of the list that are launched, run or hold a request overrun. -/
theorem markOverruns_mem {s : State} {i : Nat} {x y : Inst} {l : List (Nat × Inst)} (h : s.inst i = some x) (hy : (i, y) ∈ l)
    (hbusy : (y.launched || y.running || y.req.isSome) = true) :
    ((l.foldl State.markOverrun s).inst i).map (·.overrun) = some true := by
  induction l generalizing s x with
  | nil => cases hy
  | cons e l ih =>
    rw [List.foldl_cons]
    rcases List.mem_cons.1 hy with rfl | hl
    · have hmarked : (s.markOverrun (i, y)).inst i = some { x with overrun := true } := by
        rw [State.markOverrun, if_pos hbusy]
        exact inst_modInst_self h _
      exact overrun_markOverruns l hmarked rfl
    · rcases inst_markOverrun h e with hsame | hmarked
      · exact ih hsame hl
      · exact ih hmarked hl

theorem mem_instsOf {s : State} {i : Nat} {y : Inst} {p : Fin 16} (h : s.inst i = some y) (hp : y.parcel = p) :
    (i, y) ∈ s.instsOf p := by
  have hmem : (i, s.inst i) ∈ s.insts := mem_of_spGet (h.trans_ne (Option.some_ne_none y))
  rw [h] at hmem
  exact List.mem_filterMap.2 ⟨_, hmem, if_pos (congrArg Fin.val hp)⟩

/-- R105: the end of a compute phase leaves no phase open, and all instances of the parcel that have work overrun. -/
theorem endCompute_ends {s : State} {p : Fin 16} (hopen : (s.parcel p).computeOver = false)
    (hpresent : (s.parcel p).state ≠ .absent) :
    (s.endCompute p).parcel p = (s.parcel p).finishCompute ∧
      ∀ i y, s.inst i = some y → y.parcel = p → (y.launched || y.running || y.req.isSome) = true →
        ((s.endCompute p).inst i).map (·.overrun) = some true := by
  rw [endCompute_marks hopen]
  refine ⟨?_, fun i y hi hp hbusy => markOverruns_mem hi (mem_instsOf hi hp) hbusy⟩
  rw [State.parcel, parcels_markOverruns]
  exact parcel_modParcel_present hpresent

/-- R90: when the compute phase of a parcel starts, `late` ns after the boundary. -/
def State.ComputeStarts (s : State) (p late : Nat) : Prop :=
  s.tk.run = true ∧ s.tk.started = true ∧ (s.parcel p).computeRan = false ∧ (s.parcel p).computeOver = false ∧
    (s.parcel p).cfg.computeFrom ≤ late ∧ late < s.img.cfg.computeEnd

/-- R93, R132, R133: at the start of the compute phase of parcel p its tasks start or go on, and its launched instances start;
`enters`: whether a task may start. -/
def State.startPhase (s : State) (p : Nat) (enters : Prop) [Decidable enters] : State :=
  let ids := (s.instsOf p).map (·.1)
  let s := if enters then ids.foldl (fun s i => s.enterTask i) s else s
  (ids.foldl (fun s i => s.tryResume i) s).startReady p

theorem startPhase_none {s : State} {p : Nat} (h : s.instsOf p = []) (enters : Prop) [Decidable enters] :
    s.startPhase p enters = s := by
  simp only [State.startPhase, State.startReady, h, List.map_nil, List.foldl_nil, ite_self]

/-- R93: the compute phase of an ACTIVE parcel without instances starts; its window is over by then. -/
theorem computePhaseStart_starts {s : State} {p : Fin 16} {at' : Nat} (h : s.ComputeStarts p (s.at at').offset)
    (hactive : (s.parcel p).state = .active) (hinsts : s.instsOf p = []) :
    exec (.computePhaseStart p at') s = .next (((s.at at').endWindow p).modParcel p Parcel.beginCompute) := by
  obtain ⟨hrun, hstarted, hran, hover, hfrom, hto⟩ := h
  have hnone : (((s.at at').endWindow p).modParcel p Parcel.beginCompute).instsOf p = [] :=
    (instsOf_congr (insts_endWindow _ _) p).trans hinsts
  have hgoes : ¬ (!s.ticking ∨ (s.at at').offset < (s.parcel p).cfg.computeFrom ∨
      s.img.cfg.computeEnd ≤ (s.at at').offset ∨ (s.parcel p).computeRan ∨ (s.parcel p).computeOver ∨
      ((s.parcel p).state ≠ .active ∧ (s.parcel p).state ≠ .draining)) := by
    rw [State.ticking, hrun, hstarted, hran, hover, hactive]
    simp only [Bool.and_self, Bool.not_true, Bool.false_eq_true, ne_eq, not_true_eq_false, false_and, or_false, false_or]
    omega
  refine (if_neg hgoes).trans (congrArg Host.Outcome.next ?_)
  exact startPhase_none hnone _

/-- R90: before its time and after it, and once it has run, no compute phase starts. -/
theorem computePhaseStart_waits {s : State} {p : Fin 16} {at' : Nat} (h : ¬ s.ComputeStarts p (s.at at').offset) :
    exec (.computePhaseStart p at') s = .next (s.at at') := by
  refine if_pos ?_
  by_contra hgoes
  simp only [not_or, Bool.not_eq_true', Bool.not_eq_true, Bool.not_eq_false, not_lt, not_le, State.ticking,
    Bool.and_eq_true] at hgoes
  obtain ⟨⟨hrun, hstarted⟩, hfrom, hto, hran, hover, -⟩ := hgoes
  exact h ⟨hrun, hstarted, hran, hover, hfrom, hto⟩

end Sys2Proof.Machine

/-! SUPPORT. A tick boundary of a device in which nothing runs or waits (R87, R88, R91, R111): its steps keep the clock, and
find nothing to abort, to admit and to hand out. -/

namespace Sys2Proof.Machine

/-! Nothing waits. -/

/-- No request and no task of a queue waits. -/
def Queue.Idle (y : Queue) : Prop := y.ready = [] ∧ y.waiting = [] ∧ y.unseated = []

/-- Every queue of a list is idle. -/
def QueuesIdle (m : Sparse Queue) : Prop := ∀ e ∈ m, e.2.Idle

theorem idle_zero : Queue.zero.Idle := ⟨rfl, rfl, rfl⟩

theorem QueuesIdle.get {m : Sparse Queue} (h : QueuesIdle m) (q : Nat) : (spGet Queue.zero m q).Idle := by
  by_cases hzero : spGet Queue.zero m q = Queue.zero
  · rw [hzero]
    exact idle_zero
  · exact h _ (mem_of_spGet hzero)

theorem QueuesIdle.put {m : Sparse Queue} (h : QueuesIdle m) {y : Queue} (hy : y.Idle) (q : Nat) :
    QueuesIdle (spPut Queue.zero y q m) := fun e he => by
  rcases mem_spPut he with hold | rfl
  · exact h e hold
  · exact hy

/-- R159: the latency that a queue has from the boundary on. -/
def Queue.nextLatency (y : Queue) : Queue := { y with lq := y.lqNext.getD y.lq, lqNext := none }

/-- R90, R159, R434: a parcel with the queues `qs` enters a new tick. -/
def Parcel.newTick (qs : List Nat) (x : Parcel) : Parcel :=
  { x with
    windowRan := false, computeRan := false, computeOver := false, smPlaceLogged := false
    queues := qs.foldl (fun m q => spMod Queue.zero m q Queue.nextLatency) x.queues }

theorem idle_newTick {x : Parcel} (h : QueuesIdle x.queues) (qs : List Nat) : QueuesIdle (x.newTick qs).queues :=
  List.foldlRecOn (motive := QueuesIdle) qs _ h fun _ hm q _ => hm.put (y := Queue.nextLatency _) (hm.get q) q

theorem boundaryParcel_eq (s : State) (p : Fin 16) : s.boundaryParcel p =
    let t := s.modParcel p (Parcel.newTick (List.range 32))
    match (s.parcel p).state with
    | .active => if (s.parcel p).resetting.isEmpty then (t.seatTasks p).admitParcel p else t
    | .draining => if (s.parcel p).drained then t else t.drainParcel p
    | .building => if (s.parcel p).buildDone then t.modParcel p (fun x => { x with state := .quiet, buildDone := false }) else t
    | _ => t := rfl

/-- The clock of the device, its tick, and the image in force. -/
def State.clockwork (s : State) : Nat × TickSt × LocalClk × ImgSt := (s.datum, s.tk, s.lc, s.img)

theorem clockwork_of_still {s t : State} (h : t.still = s.still) : t.clockwork = s.clockwork :=
  (congrArg State.clockwork h : _)

/-- t has the clock of s, and nothing runs or waits in it. -/
structure Rests (s t : State) : Prop where
  clock : t.clockwork = s.clockwork
  insts : t.insts = []
  queues : ∀ e ∈ t.parcels, QueuesIdle e.2.queues

/-- R547: what a snapshot gives a reader of the counters: what wrapped or was reselected since the one before. -/
def OrdSt.mergeSnap (ob : Ob) (o : OrdSt) : OrdSt :=
  { o with
    wraps := ob.wrapsNow.foldl (fun m x => spMod 0 m x.1 (fun w => min 127 (w + x.2))) o.wraps
    resel := ob.reselNow.foldl (fun m x => spPut false true x.1 m) o.resel }

/-- R547: the counters at the boundary at instant `b` of epoch `e` are shown. -/
def State.showSnap (s : State) (b : Nat) (e : W64) : State :=
  { s with ob := { s.ob with
      snap := some { epoch := e, datum := b, cycle := s.ob.cycle, counts := s.ob.cnt }
      wrapsNow := [], reselNow := [] } }

theorem snapshot_eq (s : State) (b : Nat) (e : W64) :
    s.snapshot b e = ((List.range 9).foldl (fun t a => t.modOrd a (OrdSt.mergeSnap s.ob)) s).showSnap b e := rfl

theorem still_showSnap (s : State) (b : Nat) (e : W64) : (s.showSnap b e).still = s.still := rfl

theorem still_snapshot (s : State) (b : Nat) (e : W64) : (s.snapshot b e).still = s.still := by
  rw [snapshot_eq, still_showSnap]
  exact view_foldl State.still _ _ (fun _ _ _ => still_modOrd ..) s

section
variable {s t u : State} (h : Rests s t)
include h

theorem Rests.datum : t.datum = s.datum := congrArg (·.1) h.clock
theorem Rests.tk : t.tk = s.tk := congrArg (·.2.1) h.clock
theorem Rests.lc : t.lc = s.lc := congrArg (·.2.2.1) h.clock
theorem Rests.img : t.img = s.img := congrArg (·.2.2.2) h.clock

theorem Rests.parcel (p : Nat) : QueuesIdle (t.parcel p).queues := by
  by_cases hzero : t.parcel p = Parcel.zero
  · rw [hzero]
    exact fun e he => by cases he
  · exact h.queues _ (mem_of_spGet hzero)

theorem Rests.queue (p q : Nat) : (t.queue p q).Idle := (h.parcel p).get q

theorem Rests.instsOf (p : Nat) : t.instsOf p = [] := by rw [State.instsOf, h.insts, List.filterMap_nil]

theorem Rests.of_still (hstill : u.still = t.still) : Rests s u where
  clock := (clockwork_of_still hstill).trans h.clock
  insts := (insts_of_still hstill).trans h.insts
  queues := by rw [parcels_of_still hstill]; exact h.queues

theorem Rests.modParcel {p : Nat} {f : Parcel → Parcel} (hf : QueuesIdle (f (t.parcel p)).queues) :
    Rests s (t.modParcel p f) where
  clock := h.clock
  insts := h.insts
  queues := fun e he => by
    rcases mem_spPut he with hold | rfl
    · exact h.queues e hold
    · exact hf

theorem Rests.modQueue {p q : Nat} {f : Queue → Queue} (hf : (t.queue p q).Idle → (f (t.queue p q)).Idle) :
    Rests s (t.modQueue p q f) := h.modParcel ((h.parcel p).put (hf (h.queue p q)) q)

theorem Rests.foldl {α : Type} (l : List α) {g : State → α → State}
    (hg : ∀ v, ∀ a ∈ l, Rests s v → Rests s (g v a)) : Rests s (l.foldl g t) :=
  List.foldlRecOn (motive := Rests s) l g h fun v hv a ha => hg v a ha hv

/-! The steps of a boundary. -/

theorem Rests.endWindow (p : Nat) : Rests s (t.endWindow p) := by
  rcases endWindow_cases t p with hsame | hstill
  · rwa [hsame]
  · exact (h.modParcel (f := Parcel.closeWindow) (h.parcel p)).of_still hstill

theorem Rests.endCompute (p : Nat) : Rests s (t.endCompute p) := by
  cases hover : (t.parcel p).computeOver with
  | true => rwa [endCompute_over hover]
  | false =>
    rw [endCompute_marks hover, h.instsOf]
    exact h.modParcel (f := Parcel.finishCompute) (h.parcel p)

theorem Rests.snapshot (b : Nat) (e : W64) : Rests s (t.snapshot b e) := h.of_still (still_snapshot t b e)

theorem Rests.abortLate (p : Nat) : Rests s (t.abortLate p) := by
  unfold State.abortLate
  rw [h.instsOf, List.foldl_nil]
  refine h.foldl _ fun v e he hv => ?_
  dsimp only
  rw [(h.parcel p e he).1, List.foldl_nil]
  exact hv.modQueue fun hy => ⟨rfl, hy.2⟩

theorem Rests.seatTasks (p : Fin 16) : t.seatTasks p = t :=
  foldl_stays fun q _ => by rw [(h.queue p q).2.2, List.foldl_nil]

theorem Rests.admitParcel (p : Fin 16) : Rests s (t.admitParcel p) := by
  refine h.foldl _ fun v c _ hv => ?_
  dsimp only
  rw [(hv.queue p c.q).2.1, State.admitQueue]
  exact hv.modQueue fun hy => ⟨hy.1, rfl, hy.2.2⟩

theorem Rests.drainParcel (p : Fin 16) : Rests s (t.drainParcel p) := by
  have hdrained : Rests s ((t.parcel p).queues.foldl (fun s e =>
      e.2.waiting.foldl (fun s r => s.refuse p e.1 r ccStateChanged scNotActive)
        (s.modQueue p e.1 (fun y => { y with waiting := [] }))) t) := by
    refine h.foldl _ fun v e he hv => ?_
    rw [(h.parcel p e he).2.1, List.foldl_nil]
    exact hv.modQueue fun hy => ⟨hy.1, rfl, hy.2.2⟩
  unfold State.drainParcel
  dsimp only
  rw [hdrained.instsOf, List.foldl_nil]
  exact hdrained.modParcel (hdrained.parcel p)

theorem Rests.boundaryParcel (p : Fin 16) : Rests s (t.boundaryParcel p) := by
  have hturned := h.modParcel (f := Parcel.newTick (List.range 32)) (idle_newTick (h.parcel p) _)
  rw [boundaryParcel_eq]
  dsimp only
  split
  · split
    · rw [hturned.seatTasks]
      exact hturned.admitParcel p
    · exact hturned
  · split
    · exact hturned
    · exact hturned.drainParcel p
  · split
    · exact hturned.modParcel (hturned.parcel p)
    · exact hturned
  · exact hturned

theorem Rests.handOut (p : Nat) : t.handOut p = t := by
  rw [State.handOut, h.instsOf, List.map_nil, List.foldl_nil]

end

/-! The boundary. -/

/-- R91, steps 1 to 4: the phases end, the snapshot of the boundary at instant `b` is taken, and what still runs is aborted. -/
def State.closeTick (s : State) (b : Nat) (epoch : W64) : State :=
  let all := List.range 16
  let s := (all.foldl (fun s p => (s.endWindow p).endCompute p) s).snapshot b epoch
  all.foldl (fun s p => s.abortLate p) s

/-- R87, R88: the tick of `T` ns that ends at local time `due` and instant `b` gives way to the next one. -/
def State.turnTick (s : State) (due b T : Nat) : State :=
  { s with
    lc := { s.lc with edge := due, len := T - s.img.cfg.shorten (b % T), surveyed := false, lastB := some b, below := 0 }
    tk := { s.tk with
      started := true, count := if s.tk.started then s.tk.count + 1 else 0, epoch := BitVec.ofNat 64 (b / T), boundary := b
      alignErr := if s.img.cfg.align then BitVec.ofNat 32 (b % T) else 0
      aligned := s.img.cfg.align && decide (b % T ≤ 20) } }

/-- R91, from step 5 on: fences come, every parcel admits, and ready requests are handed out. -/
def State.openTick (s : State) (b : Nat) (epoch : W64) : State :=
  let all := List.range 16
  let s := all.foldl (fun s p => s.modParcel p (fun x => x.reachFences b)) s
  let before := s.admitted
  let s := (List.finRange 16).foldl (fun s p => s.boundaryParcel p) s
  let n := s.admitted - before
  let s := all.foldl (fun s p => s.handOut p) s
  s.trace 1 1 none none 0 (min 0xFFFF n) epoch

theorem Rests.closeTick {s t : State} (h : Rests s t) (b : Nat) (epoch : W64) : Rests s (t.closeTick b epoch) := by
  unfold State.closeTick
  generalize List.range 16 = all
  have hended := h.foldl all (g := fun s p => (s.endWindow p).endCompute p) fun _ p _ hv => (hv.endWindow p).endCompute p
  exact (hended.snapshot b epoch).foldl all (g := fun s p => s.abortLate p) fun _ p _ hv => hv.abortLate p

theorem Rests.turnTick {s t : State} (h : Rests s t) (due b T : Nat) : Rests (s.turnTick due b T) (t.turnTick due b T) where
  clock := by simp only [State.clockwork, State.turnTick, h.datum, h.tk, h.lc, h.img]
  insts := h.insts
  queues := h.queues

theorem Rests.openTick {s t : State} (h : Rests s t) (b : Nat) (epoch : W64) : Rests s (t.openTick b epoch) := by
  unfold State.openTick
  generalize List.range 16 = all
  generalize List.finRange 16 = parcels
  have hfences := h.foldl all (g := fun s p => s.modParcel p (fun x => x.reachFences b))
    fun _ p _ hv => hv.modParcel (hv.parcel p)
  have hadmitted := hfences.foldl parcels (g := fun s p => s.boundaryParcel p) fun _ p _ hv => hv.boundaryParcel p
  have hhanded := hadmitted.foldl all (g := fun s p => s.handOut p) fun _ p _ hv => (hv.handOut p).symm ▸ hv
  exact hhanded.of_still (still_trace ..)

/-- R87, R88: where the counter has reached the end of the tick, the boundary falls at that end, however late the command. -/
theorem tickBoundary_falls {s : State} {at' : Nat} (hrun : s.tk.run = true) (hdue : s.lc.edge + s.lc.len ≤ (s.at at').lc.ctr) :
    let u := s.at at'
    let due := s.lc.edge + s.lc.len
    let b := u.datum - (u.lc.ctr - due)
    let T := max 1 s.img.cfg.tickNs
    exec (.tickBoundary at') s = .next (((u.closeTick b (BitVec.ofNat 64 (b / T))).turnTick due b T).openTick b
      (BitVec.ofNat 64 (b / T))) := by
  have hgoes : ¬ (!s.tk.run ∨ (s.at at').lc.ctr < s.lc.edge + s.lc.len) := by
    rw [hrun]
    exact not_or.2 ⟨by decide, Nat.not_lt.2 hdue⟩
  intro u due b T
  show execTickBoundary at' s = _
  unfold execTickBoundary State.closeTick State.turnTick State.openTick
  generalize List.range 16 = all
  generalize List.finRange 16 = parcels
  exact if_neg hgoes

theorem tickBoundary_waits {s : State} {at' : Nat} (h : s.tk.run = false ∨ (s.at at').lc.ctr < s.lc.edge + s.lc.len) :
    exec (.tickBoundary at') s = .next (s.at at') := by
  refine if_pos (h.imp_left fun hstopped => ?_)
  rw [show (s.at at').tk.run = false from hstopped]
  rfl

/-- R87, R88, R111: what a boundary leaves of a device in which nothing runs or waits. -/
theorem tickBoundary_rests {s : State} {at' : Nat} (hrun : s.tk.run = true)
    (hdue : s.lc.edge + s.lc.len ≤ (s.at at').lc.ctr) (hinsts : s.insts = [])
    (hidle : ∀ e ∈ s.parcels, ∀ q ∈ e.2.queues, q.2.ready = [] ∧ q.2.waiting = [] ∧ q.2.unseated = []) :
    let u := s.at at'
    let due := s.lc.edge + s.lc.len
    ∃ t, exec (.tickBoundary at') s = .next t ∧
      Rests (u.turnTick due (u.datum - (u.lc.ctr - due)) (max 1 s.img.cfg.tickNs)) t := by
  have hrests : Rests (s.at at') (s.at at') := ⟨rfl, hinsts, hidle⟩
  exact ⟨_, tickBoundary_falls hrun hdue, ((hrests.closeTick _ _).turnTick _ _ _).openTick _ _⟩

/-- Settles O23: each clause is the law of the phase that it names, at its instant or outside it. -/
theorem tickPhasesComplete : Obligations.TickPhasesComplete := by
  intro s p at'
  refine ⟨⟨rfl, rfl⟩, fun hrun hdue hinsts hidle => ?_, tickBoundary_waits, ⟨fun hopens => ?_, updateWindowStart_waits⟩,
    fun hactive hopen hlate => ?_, fun hearly => if_pos hearly, ⟨fun hstarts hactive hinsts => ?_, computePhaseStart_waits⟩,
    fun hactive hrun hstarted hlate hopen => ?_, fun hearly => if_pos (.inr hearly)⟩
  · obtain ⟨t, hexec, hrests⟩ := tickBoundary_rests hrun hdue hinsts hidle
    have htk := hrests.tk
    have hlc := hrests.lc
    refine ⟨t, hexec, hrests.datum, ?_⟩
    rw [htk, hlc]
    exact ⟨rfl, rfl, rfl, rfl, rfl, rfl, rfl, rfl, rfl, hrests.insts⟩
  · obtain ⟨t, hexec, hdatum, hself, hother⟩ := updateWindowStart_opens hopens
    exact ⟨t, hexec, hdatum, by rw [hself]; rfl, by rw [hself]; rfl, by rw [hself]; rfl, hother⟩
  · obtain ⟨t, hexec, hclosed⟩ := updateWindowEnd_closes hactive hopen hlate
    exact ⟨t, hexec, by rw [hclosed]; exact ⟨rfl, rfl⟩⟩
  · have hended := endWindow_ended (v := s.at at') (p := p) (ne_of_eq_of_ne hactive (by decide))
    refine ⟨_, computePhaseStart_starts hstarts hactive hinsts, ?_⟩
    rw [parcel_modParcel_present (f := Parcel.beginCompute) (ne_of_eq_of_ne (hended.state.trans hactive) (by decide))]
    exact ⟨rfl, rfl, hended.inWindow⟩
  · obtain ⟨hself, hmarks⟩ := endCompute_ends (s := s.at at') hopen (ne_of_eq_of_ne hactive (by decide))
    refine ⟨(s.at at').endCompute p, if_neg ?_, by rw [hself]; rfl, by rw [hself]; rfl,
      fun i y hi hp hbusy => hmarks i y hi hp ?_⟩
    · rw [show (s.at at').ticking = s.ticking from rfl, State.ticking, hrun, hstarted]
      exact not_or.2 ⟨by decide, Nat.not_lt.2 hlate⟩
    · rcases hbusy with htask | hruns | hholds
      · rw [Inst.launched, htask]; rfl
      · rw [hruns, Bool.or_true, Bool.true_or]
      · rw [hholds, Bool.or_true]

end Sys2Proof.Machine

/-! SUPPORT. Survey slices (R105, R482 to R486): a cell that one of the overrunning instances keeps starts no test. -/

namespace Sys2Proof.Machine

/-! An agent is left alone by the slices of the others. -/

/-- What the slices of other agents leave alone: the instances, the survey's control and agent a. -/
def State.slicedBut (s : State) (a : Nat) : Sparse (Option Inst) × W32 × SvAgent := (s.insts, s.sv.ctrl, s.agent a)

theorem slicedBut_modAgent (s : State) (f : SvAgent → SvAgent) {k a : Nat} (h : a ≠ k) :
    (s.modAgent k f).slicedBut a = s.slicedBut a :=
  congrArg (fun g => (s.insts, s.sv.ctrl, g)) (spGet_spPut_ne SvAgent.zero _ s.sv.agents h)

theorem slicedBut_passOver (s : State) {n a : Nat} (h : a ≠ n) : (s.passOver n).slicedBut a = s.slicedBut a := by
  unfold State.passOver
  dsimp only
  split
  · split
    · rfl
    · exact slicedBut_modAgent s _ h
  · split
    · rfl
    · exact slicedBut_modAgent s _ h

theorem slicedBut_cellSlice (s : State) {n a : Nat} (h : a ≠ n) : (s.cellSlice n).slicedBut a = s.slicedBut a := by
  have hpassed := slicedBut_passOver s h
  unfold State.cellSlice
  dsimp only
  split
  · rfl
  · split
    · exact hpassed
    · split
      · exact hpassed
      · split
        · exact (slicedBut_modAgent _ _ h).trans hpassed
        · split
          · exact hpassed
          · refine (slicedBut_modAgent _ _ h).trans (Eq.trans ?_ hpassed)
            split <;> rfl

theorem slicedBut_stackSlice (s : State) (k c : Nat) {a : Nat} (h : a < 128) :
    (s.stackSlice k c).slicedBut a = s.slicedBut a := by
  unfold State.stackSlice
  dsimp only
  split
  · rfl
  · split
    · rfl
    · exact slicedBut_modAgent s _ (by omega)

theorem slicedBut_weltSlice (s : State) {a : Nat} (h : a < 128) : s.weltSlice.slicedBut a = s.slicedBut a := by
  unfold State.weltSlice
  split
  · rfl
  · split
    · rfl
    · exact slicedBut_modAgent s _ (by omega)

/-! A cell kept by one of the overrunning instances (R105). -/

/-- Number i of the instances overruns and keeps cell n. -/
def State.KeepsCell (s : State) (i n : Nat) : Prop := ∃ x, s.inst i = some x ∧ x.overrun = true ∧ n ∈ x.cells

theorem overruns_of_keepsCell {s : State} {i n : Nat} (h : s.KeepsCell i n) : s.overruns n = true := by
  obtain ⟨x, hi, hover, hn⟩ := h
  have hmem : (i, s.inst i) ∈ s.insts := mem_of_spGet (hi.trans_ne (Option.some_ne_none x))
  rw [hi] at hmem
  exact List.any_eq_true.2 ⟨_, hmem, by simp [hover, hn]⟩

theorem keepsCell_markOverrun {s : State} {i n : Nat} (h : s.KeepsCell i n) (e : Nat × Inst) :
    (s.markOverrun e).KeepsCell i n := by
  obtain ⟨x, hi, hover, hn⟩ := h
  rcases inst_markOverrun hi e with hsame | hmarked
  · exact ⟨x, hsame, hover, hn⟩
  · exact ⟨_, hmarked, rfl, hn⟩

theorem keepsCell_endCompute {s : State} {i n : Nat} (h : s.KeepsCell i n) (p : Nat) : (s.endCompute p).KeepsCell i n := by
  cases hover : (s.parcel p).computeOver with
  | true => rwa [endCompute_over hover]
  | false =>
    rw [endCompute_marks hover]
    have hclosed : (s.modParcel p Parcel.finishCompute).KeepsCell i n := h
    exact List.foldlRecOn (motive := fun t : State => t.KeepsCell i n) _ _ hclosed fun _ ht e _ => keepsCell_markOverrun ht e

theorem sv_endCompute (s : State) (p : Nat) : (s.endCompute p).sv = s.sv := by
  cases hover : (s.parcel p).computeOver with
  | true => rw [endCompute_over hover]
  | false =>
    rw [endCompute_marks hover]
    exact view_foldl State.sv _ _ (fun t e _ => by unfold State.markOverrun; split <;> rfl) _

/-- Number i of the instances keeps cell n, whose agent stands as g before a bank of the store, and the store is surveyed. -/
structure HeldAgent (i n : Nat) (g : SvAgent) (s : State) : Prop where
  kept : s.KeepsCell i n
  enabled : s.svOn 0 = true
  agent : s.agent n = g
  bank : g.region < 256

section
variable {i n : Nat} {g : SvAgent} {s t : State}

theorem HeldAgent.of_slicedBut (h : HeldAgent i n g s) (hview : t.slicedBut n = s.slicedBut n) : HeldAgent i n g t := by
  obtain ⟨hinsts, hctrl, hagent⟩ : t.insts = s.insts ∧ t.sv.ctrl = s.sv.ctrl ∧ t.agent n = s.agent n := by
    simpa only [State.slicedBut, Prod.mk.injEq] using hview
  have hkept := h.kept
  have henabled := h.enabled
  rw [State.KeepsCell, State.inst, ← hinsts] at hkept
  rw [State.svOn, ← hctrl] at henabled
  exact ⟨hkept, henabled, hagent.trans h.agent, h.bank⟩

theorem HeldAgent.endCompute (h : HeldAgent i n g s) (p : Nat) : HeldAgent i n g (s.endCompute p) := by
  have hsv := sv_endCompute s p
  refine ⟨keepsCell_endCompute h.kept p, ?_, ?_, h.bank⟩
  · rw [State.svOn, hsv]
    exact h.enabled
  · rw [State.agent, hsv]
    exact h.agent

/-- R105: at its own slice the agent of the cell is skipped. -/
theorem HeldAgent.ownSlice (h : HeldAgent i n g s) : HeldAgent i n g (s.cellSlice n) := by
  have hpass : s.passOver n = s := by
    rw [State.passOver, if_pos (by rw [h.agent]; exact h.bank), if_pos h.enabled]
  have hskip : (s.cellSlice n).slicedBut n = s.slicedBut n := by
    unfold State.cellSlice
    dsimp only
    rw [hpass, if_pos (overruns_of_keepsCell h.kept)]
    split <;> rfl
  exact h.of_slicedBut hskip

theorem HeldAgent.cellSlice (h : HeldAgent i n g s) (k : Nat) : HeldAgent i n g (s.cellSlice k) := by
  by_cases hk : n = k
  · exact hk ▸ h.ownSlice
  · exact h.of_slicedBut (slicedBut_cellSlice s hk)

theorem HeldAgent.foldl {α : Type} (h : HeldAgent i n g s) (l : List α) {step : State → α → State}
    (hstep : ∀ t a, HeldAgent i n g t → HeldAgent i n g (step t a)) : HeldAgent i n g (l.foldl step s) :=
  List.foldlRecOn (motive := HeldAgent i n g) l step h fun t ht a _ => hstep t a ht

/-- R105, R482 to R486: what a slice does once it starts. -/
def State.startSlice (s : State) : State :=
  let s := { s with lc := { s.lc with surveyed := true } }
  let s := (List.range 16).foldl (fun s p => s.endCompute p) s
  let s := (List.range 128).foldl (fun s n => s.cellSlice n) s
  ((List.range 256).foldl (fun s j => s.stackSlice (j / 32) (j % 32)) s).weltSlice

theorem HeldAgent.startSlice (h : HeldAgent i n g s) (hn : n < 128) : HeldAgent i n g s.startSlice := by
  unfold State.startSlice
  generalize List.range 16 = parcels
  generalize List.range 128 = cells
  generalize List.range 256 = channels
  have hsurveyed : HeldAgent i n g { s with lc := { s.lc with surveyed := true } } := ⟨h.kept, h.enabled, h.agent, h.bank⟩
  have hended := hsurveyed.foldl parcels fun t p ht => ht.endCompute p
  have hcells := hended.foldl cells fun t k ht => ht.cellSlice k
  have hstacks := hcells.foldl channels fun t j ht => ht.of_slicedBut (slicedBut_stackSlice t (j / 32) (j % 32) hn)
  exact hstacks.of_slicedBut (slicedBut_weltSlice _ hn)

theorem surveySliceStart_cases (s : State) (at' : Nat) : exec (.surveySliceStart at') s = .next (s.at at') ∨
    exec (.surveySliceStart at') s = .next (s.at at').startSlice := by
  show execSurveySliceStart at' s = _ ∨ execSurveySliceStart at' s = _
  unfold execSurveySliceStart State.startSlice
  exact ite_eq_or_eq _ _ _

/-- R105: SURVEY_SLICE_START leaves the agent of a cell that one of the overrunning instances keeps as it stands. -/
theorem surveySliceStart_skips {at' : Nat} (h : HeldAgent i n g s) (hn : n < 128)
    (hexec : exec (.surveySliceStart at') s = .next t) : t.agent n = g := by
  have hlater : HeldAgent i n g (s.at at') := ⟨h.kept, h.enabled, h.agent, h.bank⟩
  rcases surveySliceStart_cases s at' with hwaits | hstarts
  · rw [hexec] at hwaits
    cases hwaits
    exact h.agent
  · rw [hexec] at hstarts
    cases hstarts
    exact (hlater.startSlice hn).agent

end

/-! The counterexample. -/

/-- A launched request of parcel 0 that runs on cell 5 past the end of the compute phase. -/
def lateInst : Inst :=
  { parcel := 0, q := 0, slot := 0, replica := 0, cells := [5], task := none, req := none, running := true, entry := false
    start := 0, lines := 0, sectors := [], excess := false, overrun := true, thermal := false, slowHost := false
    removing := false, released := false }

/-- 95 µs into a tick of 200 µs, at the start of its survey slice of 100 µs: number 0 of the instances overruns
and keeps cell 5, while the cell itself names none. -/
def lateDevice : State :=
  { dev := .running, tk := { run := true, started := true }, lc := { ctr := 95000 }, insts := [(0, some lateInst)]
    img := { cfg := { period := 20, survey := 100, drain := 5 } } }

/-- Refutes O38: the statement takes a cell for free where the cell names none of the instances, but what overruns keeps the
cells that its own entry names (R105). Where the two differ, as for cell 5 here, the agent of the cell starts no test. -/
theorem not_surveyAndWearComplete : ¬ Obligations.SurveyAndWearComplete := by
  rintro ⟨hsurvey, -⟩
  obtain ⟨-, hslice, -⟩ := hsurvey lateDevice 0 .welt ⟨[], 0, 0⟩ rfl
  obtain ⟨t, hexec, -, -, -, -, hcells⟩ := hslice (by decide) (fun e he => nomatch he)
  have htests : (t.agent 5).testing = some false :=
    hcells (by decide) 5 (by decide) (by decide) (by decide) (by decide) (by decide) (by decide) (by decide)
  have hheld : HeldAgent 0 5 SvAgent.zero lateDevice := ⟨⟨lateInst, rfl, rfl, by decide⟩, by decide, rfl, by decide⟩
  rw [surveySliceStart_skips hheld (by decide) hexec] at htests
  cases htests

end Sys2Proof.Machine

/-! SUPPORT. Queues (R122, R124, R139): what is read back of a queue that is changed, and the record of a request that ends. -/

namespace Sys2Proof.Machine

/-! What is read back. -/

/-- A parcel changed to one that is not as unlisted is read back, in any list. -/
theorem parcel_modParcel_of_ne {s : State} {p : Nat} {g : Parcel → Parcel} (h : g (s.parcel p) ≠ Parcel.zero) :
    (s.modParcel p g).parcel p = g (s.parcel p) := spGet_spPut_of_ne _ _ h

/-- A parcel that lists a queue is not as unlisted. -/
theorem parcel_ne_zero_of_queue {x : Parcel} {q : Nat} (h : x.queue q ≠ Queue.zero) : x ≠ Parcel.zero := fun e => h (by rw [e]; rfl)

theorem Parcel.queue_setQueue_of_ne (x : Parcel) (q : Nat) {y : Queue} (h : y ≠ Queue.zero) : (x.setQueue q y).queue q = y :=
  spGet_spPut_of_ne _ _ h

theorem Parcel.queue_setQueue_ne (x : Parcel) {q k : Nat} (h : k ≠ q) (y : Queue) : (x.setQueue q y).queue k = x.queue k :=
  spGet_spPut_ne _ _ _ h

/-- A queue changed to one that is not as unlisted is read back, in any lists of parcels and queues. -/
theorem parcel_modQueue_of_ne {s : State} {p q : Nat} {g : Queue → Queue} (h : g (s.queue p q) ≠ Queue.zero) :
    (s.modQueue p q g).parcel p = (s.parcel p).setQueue q (g (s.queue p q)) :=
  parcel_modParcel_of_ne (parcel_ne_zero_of_queue (q := q) ((Parcel.queue_setQueue_of_ne _ q h).trans_ne h))

theorem queue_modQueue_of_ne {s : State} {p q : Nat} {g : Queue → Queue} (h : g (s.queue p q) ≠ Queue.zero) :
    (s.modQueue p q g).queue p q = g (s.queue p q) := by
  rw [State.queue, parcel_modQueue_of_ne h, Parcel.queue_setQueue_of_ne _ _ h]

theorem queue_of_parcel {s t : State} {p : Nat} (h : t.parcel p = s.parcel p) (q : Nat) : t.queue p q = s.queue p q := by
  rw [State.queue, State.queue, h]

theorem queue_of_core {s t : State} (h : t.core = s.core) (p q : Nat) : t.queue p q = s.queue p q :=
  queue_of_parcel (parcel_of_core h p) q

theorem queue_of_still {s t : State} (h : t.still = s.still) (p q : Nat) : t.queue p q = s.queue p q :=
  queue_of_parcel (parcel_of_still h p) q

/-! A request ends (R139). -/

/-- A queue holds one record more. -/
def Queue.addRecord (y : Queue) (r : Record) : Queue := { y with records := y.records ++ [r] }

theorem addRecord_ne_zero (y : Queue) (r : Record) : y.addRecord r ≠ Queue.zero := fun h =>
  List.append_ne_nil_of_right_ne_nil y.records (List.cons_ne_nil r []) (congrArg Queue.records h)

/-- R139: the record of a doorbell's request waits in its queue. -/
theorem complete_bell {r : Request} {f : Fin 8} {k : W32} (h : r.src = .bell f k) (s : State) (p q : Nat) (code detail : Byte)
    (ret : W32) (overrun share : Bool) (payload : List Byte) (pstat cell : Nat) :
    s.complete p q r code detail ret overrun share payload pstat cell = (s.noteEnd p q r code detail).modQueue p q
      (Queue.addRecord · (r.record s.datum code detail ret overrun share cell)) := by
  rw [complete_eq]
  simp only [h]
  rfl

theorem queue_complete_bell {r : Request} {f : Fin 8} {k : W32} (h : r.src = .bell f k) (s : State) (p q : Nat)
    (code detail : Byte) (ret : W32) (overrun share : Bool) (payload : List Byte) (pstat cell : Nat) :
    (s.complete p q r code detail ret overrun share payload pstat cell).queue p q =
      (s.queue p q).addRecord (r.record s.datum code detail ret overrun share cell) := by
  rw [complete_bell h, queue_modQueue_of_ne (addRecord_ne_zero _ _), queue_of_still (still_noteEnd ..)]

/-! UNBOUND (R122). -/

/-- Settles O26: an unlisted queue is UNBOUND, and what is not bound refuses before a stamp is given. -/
theorem unboundQueueRefuses : Obligations.UnboundQueueRefuses := by
  refine ⟨fun _ _ => rfl, fun s p q hnone => ?_, fun s p q => ?_, fun s p q r hdev hserves hlaunched hpersistent => ?_⟩
  · rw [State.queue, Parcel.queue, hnone]
    rfl
  · cases (s.queue p q).state <;> simp
  · have hcode : s.arrivalCode p q = some (ccStateChanged, scNotBound) := by
      rw [State.queue] at hlaunched hpersistent
      rw [State.arrivalCode, if_neg hdev, hserves, if_neg (by decide)]
      cases hstate : ((s.parcel p).queue q).state <;> simp_all
    rw [State.arrive, hcode]
    rfl

end Sys2Proof.Machine

/-! SUPPORT. END and WAITQ (R132, R133, R211): how requests that instances hold complete, and what ended instances leave
alone. -/

namespace Sys2Proof.Machine

open Sys2Proof.Safety

/-! Requests held by instances complete (R107, R133). -/

theorem satAdd32_one_ne_zero (a : W32) : satAdd32 a 1 ≠ 0 := fun h => by
  have hzero := congrArg BitVec.toNat h
  rw [satAdd32, BitVec.toNat_ofNat] at hzero
  rw [show (0 : W32).toNat = 0 from rfl] at hzero
  omega

/-- R107: overruns of instances are counted in their parcels. -/
def Parcel.countOverrun (x : Parcel) : Parcel := { x with overruns := satAdd32 x.overruns 1 }

theorem parcel_reportOverrun (s : State) (x : Inst) (cause : Nat) :
    (s.reportOverrun x cause).parcel x.parcel = (s.parcel x.parcel).countOverrun := by
  have hcounted : ((s.parcel x.parcel).countOverrun) ≠ Parcel.zero := fun h =>
    satAdd32_one_ne_zero _ (congrArg Parcel.overruns h)
  have hparcel (e : LogEntry → LogEntry) := parcel_of_still (still_logP s 0x0101 x.parcel e) x.parcel
  unfold State.reportOverrun
  dsimp only
  rw [← hparcel] at hcounted
  exact (parcel_modParcel_of_ne (g := Parcel.countOverrun) hcounted).trans (by rw [← hparcel])

/-- R107: instances that overran report it before their requests end. -/
def State.noteOverrun (s : State) (x : Inst) : State := if x.overrun then s.reportOverrun x (s.causeOf x) else s

/-- What the report of an overrun leaves alone, as far as a queue and its cells see. -/
structure Reported (s t : State) (x : Inst) : Prop where
  queue : ∀ q, t.queue x.parcel q = s.queue x.parcel q
  inCompute : (t.parcel x.parcel).inCompute = (s.parcel x.parcel).inCompute
  insts : t.insts = s.insts
  cells : t.cells = s.cells
  datum : t.datum = s.datum

theorem noteOverrun_reported (s : State) (x : Inst) : Reported s (s.noteOverrun x) x := by
  unfold State.noteOverrun
  split
  · have hparcel := parcel_reportOverrun s x (s.causeOf x)
    refine ⟨fun q => ?_, ?_, ?_, ?_, ?_⟩
    · rw [State.queue, hparcel]
      rfl
    · rw [hparcel]
      rfl
    all_goals simp [State.reportOverrun, State.logP]
  · exact ⟨fun _ => rfl, rfl, rfl, rfl, rfl⟩

/-- R133: the record of the request r of the completing x: OK and the low 32 bits of g1 of its first cell. -/
def State.okRecord (s : State) (x : Inst) (r : Request) (first : Nat) : Record :=
  r.record s.datum ccOK 0 (((s.cell first).greg 1).setWidth 32) x.overrun x.launched first

/-- What the completion of request r, which x holds, makes of the device: a record more in its queue. -/
structure Finished (s t : State) (x : Inst) (r : Request) (first : Nat) : Prop where
  queue : t.queue x.parcel x.q = (s.queue x.parcel x.q).addRecord (s.okRecord x r first)
  inCompute : (t.parcel x.parcel).inCompute = (s.parcel x.parcel).inCompute
  insts : t.insts = s.insts

theorem finish_bell {x : Inst} {r : Request} {first : Nat} {more : List Nat} {f : Fin 8} {k : W32} (hreq : x.req = some r)
    (hcells : x.cells = first :: more) (hsrc : r.src = .bell f k) (s : State) : Finished s (s.finish x) x r first := by
  have hreport := noteOverrun_reported s x
  have hcell : (s.noteOverrun x).cell first = s.cell first := congrArg (spGet Cell.zero · first) hreport.cells
  have heq : s.finish x = (s.noteOverrun x).complete x.parcel x.q r ccOK 0 ((((s.noteOverrun x).cell first).greg 1).setWidth 32)
      x.overrun x.launched ((s.noteOverrun x).payload x).1 ((s.noteOverrun x).payload x).2 first := by
    rw [State.finish, hreq, hcells]
    rfl
  generalize s.noteOverrun x = u at *
  have hrecord : r.record u.datum ccOK 0 (((u.cell first).greg 1).setWidth 32) x.overrun x.launched first =
      s.okRecord x r first := by rw [hreport.datum, hcell]; rfl
  refine ⟨?_, ?_, ?_⟩
  · rw [heq, queue_complete_bell hsrc, hrecord, hreport.queue]
  · rw [heq, complete_bell hsrc, parcel_modQueue_of_ne (addRecord_ne_zero _ _)]
    exact (congrArg Parcel.inCompute (parcel_of_still (still_noteEnd ..) _)).trans hreport.inCompute
  · rw [heq, complete_bell hsrc]
    exact (insts_of_still (still_noteEnd ..)).trans hreport.insts

/-! The instances that start once cells are free (R93, R135). -/

theorem core_setInst (s : State) (i : Nat) (v : Option Inst) : (s.setInst i v).core = s.core := rfl

theorem core_modCells (l : List Nat) (g : Nat → Cell → Cell) (s : State) :
    (l.foldl (fun s n => s.modCell n (g n)) s).core = s.core := view_foldl State.core _ _ (fun s n _ => core_modCell s n _) s

theorem insts_modCells (l : List Nat) (g : Nat → Cell → Cell) (s : State) :
    (l.foldl (fun s n => s.modCell n (g n)) s).insts = s.insts := view_foldl State.insts l _ (fun s n _ => state_modCell_insts s n (g n)) s

/-- R131: the parameter block is placed in a cell. -/
theorem placePb_cases (s : State) (x : Inst) (pb : List Byte) : s.placePb x pb = s ∨ ∃ n g, s.placePb x pb = s.modCell n g := by
  unfold State.placePb
  split
  · exact .inr ⟨_, _, rfl⟩
  · exact .inl rfl

theorem core_placePb (s : State) (x : Inst) (pb : List Byte) : (s.placePb x pb).core = s.core := by
  rcases placePb_cases s x pb with h | ⟨n, g, h⟩ <;> rw [h]
  exact core_modCell ..

theorem insts_placePb (s : State) (x : Inst) (pb : List Byte) : (s.placePb x pb).insts = s.insts := by
  rcases placePb_cases s x pb with h | ⟨n, g, h⟩ <;> rw [h]
  rfl

/-- R93, R135: number i of the instances, which is x and holds request r, starts on replica k. -/
def State.startOn (s : State) (i : Nat) (x : Inst) (r : Request) (k : Nat) : State :=
  let cells := ((s.parcel x.parcel).gslot x.slot).replica k
  let x' := { x with replica := k, cells := cells, running := true }
  ((((s.setInst i (some x')).placePb x' r.pb).enterCells i cells).trace 3 1 (some x.parcel.val) (some x.q) (cells.headD 0) 0 r.tag)

theorem tryStart_cases (s : State) (i : Nat) :
    s.tryStart i = s ∨ ∃ x r k, s.inst i = some x ∧ s.tryStart i = s.startOn i x r k := by
  unfold State.tryStart
  split
  · next x hi =>
    dsimp only
    split
    · split
      · exact .inr ⟨x, _, _, hi, rfl⟩
      · exact .inl rfl
    · exact .inl rfl
  · exact .inl rfl

theorem core_startOn (s : State) (i : Nat) (x : Inst) (r : Request) (k : Nat) : (s.startOn i x r k).core = s.core := by
  unfold State.startOn
  dsimp only
  rw [core_of_still (still_trace ..), State.enterCells, core_modCells _ (fun _ c => c.enter i), core_placePb, core_setInst]

theorem insts_startOn (s : State) (i : Nat) (x : Inst) (r : Request) (k : Nat) :
    ∃ y, (s.startOn i x r k).insts = (s.setInst i (some y)).insts := by
  unfold State.startOn
  dsimp only
  rw [state_trace_insts, State.enterCells, insts_modCells _ (fun _ c => c.enter i), insts_placePb]
  exact ⟨_, rfl⟩

theorem core_startReady (s : State) (p : Nat) : (s.startReady p).core = s.core :=
  view_foldl State.core _ _ (fun s i _ => by
    rcases tryStart_cases s i with h | ⟨x, r, k, -, h⟩ <;> rw [h]
    exact core_startOn ..) s

/-- Instances that are gone stay gone. -/
theorem inst_startReady_none {s : State} {i : Nat} (h : s.inst i = none) (p : Nat) : (s.startReady p).inst i = none := by
  refine List.foldlRecOn (motive := fun t : State => t.inst i = none) _ _ h fun t ht j _ => ?_
  rcases tryStart_cases t j with hsame | ⟨x, r, k, hj, hstart⟩
  · rwa [hsame]
  · have hne : i ≠ j := fun e => by rw [e, hj] at ht; cases ht
    obtain ⟨y, hinsts⟩ := insts_startOn t j x r k
    rw [hstart, State.inst, hinsts]
    exact (inst_setInst_ne t _ hne).trans ht

theorem launched_of_none {x : Inst} (h : x.task = none) : x.launched = true := by rw [Inst.launched, h]; rfl

theorem launched_of_task {x : Inst} (h : x.task ≠ none) : x.launched = false := by
  rw [Inst.launched, Option.isNone_eq_false_iff, Option.isSome_iff_ne_none]
  exact h

/-! END (R211). -/

theorem run_go_ite (c : Prop) [Decidable c] (a b : State) (h : Hdr) (cell : Cell) (s : State) :
    (if c then Act.go a else .go b).run h cell s = if c then a else b := by split <;> rfl

section
variable {s : State} {h : Hdr} {i : Nat} {x : Inst}

/-- R211: a cell past an END. -/
def Cell.ended (c : Cell) : Cell := { c.retire 4 with wait := .atEnd }

/-- R211: END stops a quiet cell of what was launched, and ends that where the whole replica stands there. -/
theorem endI_stops (hr : Ready h 4 [] s) (hon : s.instOn h.cell = some (i, x)) (htask : x.task = none)
    (hquiet : (s.cell h.cell).quietForQueue = true) : exec (.endI h) s =
      let u := s.setCell h.cell (s.cell h.cell).ended
      .next (if x.cells.all (fun n => decide ((u.cell n).wait = .atEnd)) then u.endInst i x else u) := by
  show execEndI h s = _
  rw [execEndI, checkedOp_ready hr]
  simp only [hon, launched_of_none htask, hquiet, Bool.not_true, Bool.false_eq_true, if_false]
  exact congrArg Host.Outcome.next (run_go_ite ..)

theorem endInst_bell {r : Request} {first : Nat} {more : List Nat} {f : Fin 8} {k : W32} (hwf : spWf none s.insts = true)
    (hreq : x.req = some r) (hcells : x.cells = first :: more) (hsrc : r.src = .bell f k) : (s.endInst i x).inst i = none ∧
      (s.endInst i x).queue x.parcel x.q = (s.queue x.parcel x.q).addRecord (s.okRecord x r first) := by
  have hfinish := finish_bell hreq hcells hsrc s
  rw [State.endInst]
  constructor
  · refine inst_startReady_none (inst_setInst_self ?_ _ _) _
    rw [insts_modCells _ (fun _ c => { c with inst := none, wait := .run }), hfinish.insts]
    exact hwf
  · rw [queue_of_core (core_startReady ..), queue_of_core (core_setInst ..),
      queue_of_core (core_modCells _ (fun _ c => { c with inst := none, wait := .run }) _), hfinish.queue]

/-! WAITQ (R132, R211). -/

/-- R211: a cell that stands in WAITQ. -/
def Cell.waits (rd : Fin 32) (c : Cell) : Cell := { c with wait := .atWaitq rd, seq := c.seq + 1 }

theorem waitq_stops {rd : Fin 32} (hr : Ready h 4 [rd] s) (hon : s.instOn h.cell = some (i, x)) (htask : x.task ≠ none)
    (hquiet : (s.cell h.cell).quietForQueue = true) : exec (.waitq h rd) s =
      let u := s.setCell h.cell ((s.cell h.cell).waits rd)
      .next (if u.allAtWaitq x then u.atWaitq i x else u) := by
  show execWaitq h rd s = _
  rw [execWaitq, checkedOp_ready hr]
  simp only [hon, launched_of_task htask, hquiet, Bool.not_true, Bool.false_eq_true, if_false]
  exact congrArg Host.Outcome.next (run_go_ite ..)

theorem allAtWaitq_iff (s : State) (x : Inst) : s.allAtWaitq x = true ↔ ∀ n ∈ x.cells, ∃ r, (s.cell n).wait = .atWaitq r := by
  rw [State.allAtWaitq, List.all_eq_true]
  refine forall₂_congr fun n _ => ?_
  cases (s.cell n).wait <;> simp

/-- R132: a task whose request completes outside the compute phase waits without one. -/
theorem atWaitq_bell {r : Request} {first : Nat} {more : List Nat} {f : Fin 8} {k : W32}
    (hreq : x.req = some r) (hcells : x.cells = first :: more) (hsrc : r.src = .bell f k) (hstays : x.removing = false)
    (hphase : (s.parcel x.parcel).inCompute = false) : ((s.atWaitq i x).inst i).map (·.req) = some none ∧
      (s.atWaitq i x).queue x.parcel x.q = (s.queue x.parcel x.q).addRecord (s.okRecord x r first) := by
  have hfinish := finish_bell hreq hcells hsrc s
  have hcore := core_modCells x.cells (fun _ c => { c with qh := 0 }) (s.finish x)
  unfold State.atWaitq
  generalize x.cells.foldl (fun s n => s.modCell n fun c => { c with qh := 0 }) (s.finish x) = u at hcore ⊢
  have hidle : u.computing x.parcel = false := by
    rw [State.computing, parcel_of_core hcore, hfinish.inCompute, hphase, Bool.false_and]
  have hidle' (v : Option Inst) : (u.setInst i v).computing x.parcel = false := hidle
  simp only [hstays, hidle', Bool.false_eq_true, if_false]
  constructor
  · rw [State.inst, state_setInst_insts, spGet_spPut_of_ne _ _ (Option.some_ne_none _)]
    rfl
  · rw [queue_of_core (core_setInst ..), queue_of_core hcore, hfinish.queue]

theorem okRecord_setCell {n : Nat} {c : Cell} (hwf : spWf Cell.zero s.cells = true) (hg : c.g = (s.cell n).g)
    (r : Request) (first : Nat) : (s.setCell n c).okRecord x r first = s.okRecord x r first := by
  have hgreg : ((s.setCell n c).cell first).greg 1 = (s.cell first).greg 1 := by
    by_cases hfirst : first = n
    · rw [hfirst, cell_setCell_self hwf, Cell.greg, Cell.greg, hg]
    · rw [cell_setCell_ne s c hfirst]
  rw [State.okRecord, hgreg]
  rfl

end

/-- Settles O13: the cell stops, and in the last cell of the replica the request that it runs completes. -/
theorem endAndWaitqComplete : Obligations.EndAndWaitqComplete := by
  constructor
  · intro s h i x hr hon htask hquiet hcellsWf hinstsWf
    have hexec := endI_stops hr hon htask hquiet
    have hself := cell_setCell_self hcellsWf h.cell (s.cell h.cell).ended
    refine ⟨fun ⟨n, hn, hne, hwait⟩ => ?_, fun r first more f k hrest hreq hcells hsrc => ?_⟩
    · refine hexec.trans (congrArg Host.Outcome.next (if_neg fun hall => hwait ?_))
      rw [← cell_setCell_ne s (s.cell h.cell).ended hne]
      simpa using List.all_eq_true.1 hall n hn
    · refine ⟨_, hexec.trans (congrArg Host.Outcome.next (if_pos (List.all_eq_true.2 fun n hn => decide_eq_true ?_))), ?_⟩
      · by_cases hne : n = h.cell.val
        · rw [hne, hself]
          rfl
        · rw [cell_setCell_ne s _ hne, hrest n hn hne]
      · obtain ⟨hgone, hqueue⟩ := endInst_bell (s := s.setCell h.cell (s.cell h.cell).ended) (i := i) hinstsWf hreq hcells hsrc
        rw [okRecord_setCell (c := (s.cell h.cell).ended) hcellsWf rfl, State.okRecord, launched_of_none htask] at hqueue
        exact ⟨hgone, congrArg Queue.records hqueue⟩
  · intro s h rd i x hr hon htask hquiet hcellsWf hinstsWf
    have hexec := waitq_stops hr hon htask hquiet
    have hself := cell_setCell_self hcellsWf h.cell ((s.cell h.cell).waits rd)
    refine ⟨fun ⟨n, hn, hne, hwait⟩ => ?_, fun r first more f k hrest hreq hcells hsrc hstays hphase => ?_⟩
    · refine hexec.trans (congrArg Host.Outcome.next (if_neg fun hall => hwait ?_))
      rw [← cell_setCell_ne s ((s.cell h.cell).waits rd) hne]
      exact (allAtWaitq_iff _ _).1 hall n hn
    · refine ⟨_, hexec.trans (congrArg Host.Outcome.next (if_pos ((allAtWaitq_iff _ _).2 fun n hn => ?_))), ?_⟩
      · by_cases hne : n = h.cell.val
        · exact ⟨rd, by rw [hne, hself]; rfl⟩
        · rw [cell_setCell_ne s _ hne]
          exact hrest n hn hne
      · obtain ⟨hidle, hqueue⟩ := atWaitq_bell (s := s.setCell h.cell ((s.cell h.cell).waits rd)) (i := i) hreq hcells hsrc hstays hphase
        rw [okRecord_setCell (c := (s.cell h.cell).waits rd) hcellsWf rfl, State.okRecord, launched_of_task htask] at hqueue
        exact ⟨hidle, congrArg Queue.records hqueue⟩

end Sys2Proof.Machine

/-! SUPPORT. What a read through the Welt leaves alone (R348, R359 to R368): all but the host's side, what the device reports and,
in the parcel that reads, its counts of poisoned lines and of latency. -/

namespace Sys2Proof.Machine

/-- The state but for the host's side and what `still` leaves out. -/
def State.offHost (s : State) : State := { s.still with host := {} }

theorem offHost_of_still {s t : State} (h : t.still = s.still) : t.offHost = s.offHost := (congrArg State.offHost h : _)

theorem parcels_of_offHost {s t : State} (h : t.offHost = s.offHost) : t.parcels = s.parcels := congrArg (·.parcels) h

theorem offHost_modHost (s : State) (g : HostPort → HostPort) : (s.modHost g).offHost = s.offHost := rfl

theorem offHost_emit (s : State) (o : Output) : (s.emit o).offHost = s.offHost := rfl

theorem offHost_weltTouch (s : State) (addr : Nat) : (s.weltTouch addr).offHost = s.offHost := by
  unfold State.weltTouch; split <;> rfl

theorem offHost_weltAsk (s : State) (addr kind : Nat) : (s.weltAsk addr kind).offHost = s.offHost := by
  unfold State.weltAsk; split <;> rfl

theorem offHost_evict (s : State) (k : Nat) : (s.evict k).offHost = s.offHost := by
  unfold State.evict; dsimp only; (repeat' split) <;> rfl

theorem offHost_dropSpare (s : State) (k : Nat) : (s.dropSpare k).offHost = s.offHost := by
  unfold State.dropSpare
  split
  · split
    · exact offHost_evict s k
    · rfl
  · rfl

theorem offHost_allocWay (s : State) (p k : Nat) : (s.allocWay p k).2.offHost = s.offHost := by
  unfold State.allocWay
  dsimp only
  split
  · rfl
  · split
    · exact offHost_evict s _
    · rfl

theorem offHost_fill (s : State) (p k : Nat) (st : LineSt) (bytes : List Byte) (poison : Bool) :
    (s.fill p k st bytes poison).offHost = s.offHost := by
  have hcount := offHost_of_still (still_countEvent s 0x50 p (some p) 1)
  have hway := offHost_allocWay (s.countEvent 0x50 p (some p) 1) p k
  unfold State.fill
  dsimp only
  split
  · split <;> exact hcount
  · split <;> next heq =>
      rw [heq] at hway
      exact hway.trans hcount

theorem offHost_weltReadLine (s : State) (p addr n : Nat) (bs : List Byte) (poison : Bool) :
    (s.weltReadLine p addr n bs poison).2.offHost = s.offHost := by
  unfold State.weltReadLine
  split
  · exact offHost_weltTouch s addr
  · dsimp only
    split
    · rw [offHost_dropSpare, offHost_fill, offHost_weltAsk]
    · exact offHost_weltAsk s addr 0

theorem offHost_weltReadGo (p : Nat) (poison : Bool) (fuel : Nat) (s : State) (addr n : Nat) (bs : List Byte) :
    (s.weltReadGo p poison fuel addr n bs).2.offHost = s.offHost := by
  induction fuel generalizing s addr n bs with
  | zero => rfl
  | succ fuel ih =>
    unfold State.weltReadGo
    split
    · rfl
    · exact (ih _ _ _ _).trans (offHost_weltReadLine ..)

/-! The parcel that reads. -/

/-- The state but for its parcels, the host's side and what `still` leaves out. -/
def State.offParcels (s : State) : State := { s.offHost with parcels := [] }

/-- t is s but for the host's side, the reports, and in parcel p the counts that the Welt keeps. -/
structure WeltRan (s t : State) (p : Nat) : Prop where
  rest : t.offParcels = s.offParcels
  other : ∀ k, k ≠ p → t.parcel k = s.parcel k
  own : ∃ poison lat, t.parcel p = { s.parcel p with wlPoison := poison, wlLatMax := lat }

section
variable {s t u : State} {p : Nat}

theorem WeltRan.refl (s : State) (p : Nat) : WeltRan s s p := ⟨rfl, fun _ _ => rfl, _, _, rfl⟩

theorem WeltRan.trans (h : WeltRan s t p) (h' : WeltRan t u p) : WeltRan s u p := by
  obtain ⟨_, _, ht⟩ := h.own
  obtain ⟨a, b, hu⟩ := h'.own
  exact ⟨h'.rest.trans h.rest, fun k hk => (h'.other k hk).trans (h.other k hk), a, b, by rw [hu, ht]⟩

theorem weltRan_of_offHost (h : t.offHost = s.offHost) (p : Nat) : WeltRan s t p := by
  have hparcel (k : Nat) : t.parcel k = s.parcel k := congrArg (spGet Parcel.zero · k) (parcels_of_offHost h)
  exact ⟨(congrArg State.offParcels h : _), fun k _ => hparcel k, _, _, hparcel p⟩

theorem WeltRan.state (h : WeltRan s t p) : (t.parcel p).state = (s.parcel p).state := by
  obtain ⟨_, _, ht⟩ := h.own
  rw [ht]

/-- A count of the Welt changes in a parcel that is there. -/
theorem weltRan_modParcel (hpresent : (s.parcel p).state ≠ .absent) {g : Parcel → Parcel}
    (hg : ∃ poison lat, g (s.parcel p) = { s.parcel p with wlPoison := poison, wlLatMax := lat }) :
    WeltRan s (s.modParcel p g) p := by
  obtain ⟨poison, lat, hg⟩ := hg
  exact ⟨rfl, fun k hk => parcel_modParcel_ne s g hk, poison, lat, (parcel_modParcel_present (by rwa [hg])).trans hg⟩

theorem weltRan_noteTook (hpresent : (s.parcel p).state ≠ .absent) (took : Nat) : WeltRan s (s.noteTook p took) p :=
  weltRan_modParcel hpresent ⟨_, _, rfl⟩

theorem weltRan_notePoison (hpresent : (s.parcel p).state ≠ .absent) (addr : Nat) : WeltRan s (s.notePoison p addr) p := by
  have hlog := weltRan_of_offHost (offHost_of_still (still_logP s 0x0604 p (fun e => { e with cls := 2, arg := BitVec.ofNat 64 addr }))) p
  exact hlog.trans (weltRan_modParcel (g := fun x => { x with wlPoison := satAdd32 x.wlPoison 1 }) (by rwa [hlog.state]) ⟨_, _, rfl⟩)

/-- R348, R367: a read of parcel p through the Welt. -/
theorem weltRan_weltRead (hpresent : (s.parcel p).state ≠ .absent) (addr n : Nat) (bs : List Byte) (poison : Bool) :
    WeltRan s (s.weltRead p addr n bs poison).2 p := by
  unfold State.weltRead
  extract_lets bs' r
  have hread : WeltRan s r.2 p := by
    simp only [r]
    split
    · exact .refl s p
    · split
      · exact .refl s p
      · exact weltRan_of_offHost (offHost_weltReadGo ..) p
  dsimp only
  split
  · exact hread.trans (weltRan_notePoison (by rwa [hread.state]) addr)
  · exact hread

end

end Sys2Proof.Machine

/-! SUPPORT. The graph orders (R119, R121, R151, R160, R221): how a load and an unload begin, and what their ends make of the slot
and of the cells. -/

namespace Sys2Proof.Machine

open Sys2Proof.Safety

/-! Slots and cells. -/

theorem Parcel.gslot_setSlot_of_ne (x : Parcel) (g : Nat) {v : GraphSlot} (h : v ≠ GraphSlot.zero) : (x.setSlot g v).gslot g = v :=
  spGet_spPut_of_ne _ _ h

theorem Parcel.gslot_setSlot_self {x : Parcel} (h : spWf GraphSlot.zero x.slots = true) (g : Nat) (v : GraphSlot) :
    (x.setSlot g v).gslot g = v := spGet_spPut_self h _ _

/-- A cell changed to one that is not as unlisted is read back, in any list. -/
theorem cell_modCell_of_ne {s : State} {n : Nat} {g : Cell → Cell} (h : g (s.cell n) ≠ Cell.zero) :
    (s.modCell n g).cell n = g (s.cell n) := spGet_spPut_of_ne _ _ h

/-- Each step of a fold brings about its own P, and keeps what is so already: after the fold, every P holds. -/
theorem foldl_establishes {σ α : Type} {inv : σ → Prop} {P : α → σ → Prop} {g : σ → α → σ} (hinv : ∀ s a, inv s → inv (g s a))
    (hset : ∀ s a, inv s → P a (g s a)) (hkeep : ∀ s a b, inv s → P b s → P b (g s a)) (l : List α) {t : σ}
    (ht : inv t) : ∀ a ∈ l, P a (l.foldl g t) := by
  induction l generalizing t with
  | nil => exact fun a ha => nomatch ha
  | cons b l ih =>
    intro a ha
    rcases List.mem_cons.1 ha with rfl | hl
    · exact (List.foldlRecOn (motive := fun u => inv u ∧ P a u) l g ⟨hinv t a ht, hset t a ht⟩
        fun u hu c _ => ⟨hinv u c hu.1, hkeep u c a hu.1 hu.2⟩).2
    · exact ih (hinv t b ht) a hl

/-! The result of an order. -/

/-- An order ends by its result: nothing but its own parcel differs, and beside the result only reports are made. -/
theorem ends_of_still {i : Instr} {s u : State} {h : OrdHdr} {f : Fin 8} {p : Fin 16} {inc : Nat} {code detail : Byte}
    {q : State → Prop} (hexec : exec i s = .next (u.orderResult p ⟨.fn f, h.id, inc⟩ code detail).pump)
    (hidle : u.net.ctlOrder = []) (hother : ∀ k, k ≠ p.val → u.parcel k = s.parcel k)
    (hq : ∀ t : State, t.still = u.still → q t) : Ends i s h f p code detail q := by
  have hstill := still_orderResult u p ⟨.fn f, h.id, inc⟩ code detail
  rw [pump_quiet _ ((ctlOrder_of_still hstill).trans hidle)] at hexec
  obtain ⟨hdone, hbusy, hresult⟩ := ord_orderResult_fn u p f h.id inc code detail
  exact ⟨_, hexec, hdone, hbusy, hresult, fun k hk => (parcel_of_still hstill k).trans (hother k hk), hq _ hstill⟩

/-! The slot of a load that fails, and of an unload (R119, R121, R160). -/

/-- u is s with slot g of parcel p EMPTY, as far as an order sees. -/
structure SlotEmptied (s u : State) (p g : Nat) : Prop where
  slot : (u.parcel p).gslot g = GraphSlot.zero
  present : (u.parcel p).state ≠ .absent
  other : ∀ k, k ≠ p → u.parcel k = s.parcel k
  ctlOrder : u.net.ctlOrder = s.net.ctlOrder

section
variable {s u v : State} {h : OrdHdr} {f : Fin 8} {p : Fin 16} {g : Nat}

theorem emptySlot_emptied (hwf : spWf GraphSlot.zero (v.parcel p).slots = true) (hpresent : (v.parcel p).state ≠ .absent)
    (hother : ∀ k, k ≠ p.val → v.parcel k = s.parcel k) (hctl : v.net.ctlOrder = s.net.ctlOrder) :
    SlotEmptied s (v.emptySlot p g) p g := by
  have hself : (v.emptySlot p g).parcel p = (v.parcel p).setSlot g GraphSlot.zero := parcel_modParcel_present hpresent
  refine ⟨?_, ?_, fun k hk => (parcel_modParcel_ne v _ hk).trans (hother k hk), hctl⟩
  · rw [hself, Parcel.gslot_setSlot_self hwf]
  · rw [hself]
    exact hpresent

theorem SlotEmptied.loadRefused (hu : SlotEmptied s u p g) (slot reason need : Nat) (bind : Option Nat) (label : List Byte) :
    SlotEmptied s (u.loadRefused p slot reason need bind label) p g := by
  obtain ⟨hslot, hpresent, hother, hctl⟩ := hu
  unfold State.loadRefused
  dsimp only
  generalize hlog : u.logP _ _ _ = w
  have hstill : w.still = u.still := hlog ▸ still_logP ..
  rw [← parcel_of_still hstill] at hslot hpresent
  refine ⟨?_, ?_, fun k hk => ?_, (ctlOrder_of_still hstill).trans hctl⟩
  · rw [parcel_modParcel_present hpresent]
    exact hslot
  · rw [parcel_modParcel_present hpresent]
    exact hpresent
  · rw [parcel_modParcel_ne _ _ hk, parcel_of_still hstill, hother k hk]

theorem SlotEmptied.ends (hu : SlotEmptied s u p g) {i : Instr} {code detail : Byte} {q : State → Prop} (hidle : s.net.ctlOrder = [])
    (hexec : exec i s = .next (u.orderResult p ⟨.fn f, h.id, 0⟩ code detail).pump)
    (hq : ∀ t : State, t.cells = u.cells → ((t.parcel p).gslot g).state = .empty → q t) : Ends i s h f p code detail q :=
  ends_of_still hexec (hu.ctlOrder.trans hidle) hu.other fun t ht => hq t (cells_of_still ht) (by rw [parcel_of_still ht, hu.slot]; rfl)

/-! GRAPH_LOAD and GRAPH_UNLOAD begin (R119, R121). -/

/-- A slot of parcel p changes, seen from the state before the order. -/
theorem Fronts.gslot_modSlot (hu : Fronts s u f) (hpresent : (s.parcel p).state ≠ .absent) {w : GraphSlot → GraphSlot}
    (hw : w ((s.parcel p).gslot g) ≠ GraphSlot.zero) :
    ((u.modSlot p g w).parcel p).gslot g = w ((s.parcel p).gslot g) := by
  rw [State.modSlot, hu.modParcel_self (g := fun x => x.setSlot g (w (x.gslot g))) hpresent, Parcel.gslot_setSlot_of_ne _ _ hw]

theorem graphLoad_begins {slot ctx seg off len : Nat} {i : Instr} {w : Window} (ht : Takes s h f p (.graphLoad slot ctx seg off len))
    (hi : exec i s = .next (s.rowOrder h (.graphLoad slot ctx seg off len))) (hempty : ((s.parcel p).gslot slot).state = .empty)
    (hwindow : (s.parcel p).orderWindow ctx seg off len true false [1, 2, 3] = .ok w) (hmin : 280 ≤ len) (hmax : len ≤ 16777216)
    (halign : len % 8 = 0) : Begins i s f p (fun t => (t.parcel p).gslot slot =
      { (s.parcel p).gslot slot with state := .loading, window := some w, order := some ⟨.fn f, h.id, 0⟩ }) := by
  obtain ⟨u, hu, hrow⟩ := rowOrder_gives ht (by simp [Order.noEffect, Order.opcode])
  have hgive : u.giveOrder p ⟨.fn f, h.id, 0⟩ (.graphLoad slot ctx seg off len) = u.modSlot p slot (fun g =>
      { g with state := .loading, window := some w, order := some ⟨.fn f, h.id, 0⟩ }) := by
    rw [State.giveOrder, State.orderLoad]
    simp only [hu.parcel, hempty, hwindow, ne_eq, not_true_eq_false, if_false]
    exact if_neg (by omega)
  rw [hrow, hgive] at hi
  exact begins_of_busy hi hu.idle hu.busy (hu.modParcel_ne _)
    (hu.gslot_modSlot (takes_present ht).2 fun e => nomatch congrArg GraphSlot.state e)

theorem graphUnload_begins {slot : Nat} {i : Instr} (ht : Takes s h f p (.graphUnload slot))
    (hi : exec i s = .next (s.rowOrder h (.graphUnload slot))) (hloaded : ((s.parcel p).gslot slot).state = .loaded)
    (hfree : (s.parcel p).slotHeld slot = false) : Begins i s f p (fun t => (t.parcel p).gslot slot =
      { (s.parcel p).gslot slot with state := .unloading, order := some ⟨.fn f, h.id, 0⟩ }) := by
  obtain ⟨u, hu, hrow⟩ := rowOrder_gives ht (by simp [Order.noEffect, Order.opcode])
  have hgive : u.giveOrder p ⟨.fn f, h.id, 0⟩ (.graphUnload slot) = u.modSlot p slot (fun g =>
      { g with state := .unloading, order := some ⟨.fn f, h.id, 0⟩ }) := by
    rw [State.giveOrder, State.orderUnload]
    simp only [hu.parcel, hfree, hloaded, Bool.false_eq_true, if_false]
  rw [hrow, hgive] at hi
  exact begins_of_busy hi hu.idle hu.busy (hu.modParcel_ne _)
    (hu.gslot_modSlot (takes_present ht).2 fun e => nomatch congrArg GraphSlot.state e)

/-! GRAPH_UNLOAD_COMPLETE (R121). -/

/-- The state but for its cells, the rails of the dies and the free values used. -/
def State.offCells (s : State) : State := { s with cells := [], th := {}, fresh := 0 }

theorem parcel_of_offCells (he : u.offCells = s.offCells) (k : Nat) : u.parcel k = s.parcel k := congrArg (·.parcel k) he

theorem ctlOrder_of_offCells (he : u.offCells = s.offCells) : u.net.ctlOrder = s.net.ctlOrder := congrArg (·.net.ctlOrder) he

theorem offCells_modCell (s : State) (n : Nat) (c : Cell → Cell) : (s.modCell n c).offCells = s.offCells := rfl

theorem offCells_unsettleStores (s : State) (p g : Nat) : (s.unsettleStores p g).offCells = s.offCells := by
  unfold State.unsettleStores
  dsimp only
  split
  · rfl
  · exact view_foldl State.offCells _ _ (fun t n _ => offCells_modCell t n _) s

theorem cellsWf_unsettleStores (hwf : spWf Cell.zero s.cells = true) (p g : Nat) :
    spWf Cell.zero (s.unsettleStores p g).cells = true := by
  unfold State.unsettleStores
  dsimp only
  split
  · exact hwf
  · exact List.foldlRecOn (motive := fun t : State => spWf Cell.zero t.cells = true) _ _ hwf fun t ht n _ => spWf_spPut ht _ _

/-- R121: a cell of an unloaded graph. -/
def Cell.freed (c : Cell) : Cell := { c with graph := none, inst := none, clk := 0 }
def State.freeCell (s : State) (n : Nat) : State := (s.modCell n Cell.freed).fallDie (n / 32)

theorem offCells_freeCell (s : State) (n : Nat) : (s.freeCell n).offCells = s.offCells := rfl

theorem freeCells_eq (s : State) (p g : Nat) : s.freeCells p g = ((s.parcel p).gslot g).cells.foldl State.freeCell s := rfl

theorem offCells_freeCells (s : State) (p g : Nat) : (s.freeCells p g).offCells = s.offCells := by
  rw [freeCells_eq]
  exact view_foldl State.offCells _ _ (fun t n _ => offCells_freeCell t n) s

/-- R121: the cells of an unloaded graph hold no graph. -/
theorem graph_freeCells (hwf : spWf Cell.zero s.cells = true) (p g : Nat) :
    ∀ n ∈ ((s.parcel p).gslot g).cells, ((s.freeCells p g).cell n).graph = none := by
  rw [freeCells_eq]
  refine foldl_establishes (inv := fun t : State => spWf Cell.zero t.cells = true) (P := fun n t => (t.cell n).graph = none)
    (fun t n ht => spWf_spPut ht _ _) (fun t n ht => ?_) (fun t n k ht hk => ?_) _ hwf
  · exact congrArg Cell.graph (cell_modCell_self ht n Cell.freed)
  · by_cases hkn : k = n
    · rw [hkn]
      exact congrArg Cell.graph (cell_modCell_self ht n Cell.freed)
    · exact (congrArg Cell.graph (cell_modCell_ne t Cell.freed hkn)).trans hk

theorem graphUnload_ends {k : Fin 64} (hwf : spWf GraphSlot.zero (s.parcel p).slots = true)
    (hstate : ((s.parcel p).gslot k).state = .unloading) (horder : ((s.parcel p).gslot k).order = some ⟨.fn f, h.id, 0⟩)
    (htest : s.cellsTested p = false) (hcells : spWf Cell.zero s.cells = true) (hpresent : (s.parcel p).state ≠ .absent)
    (hidle : s.net.ctlOrder = []) : Ends (.graphUnloadComplete p k) s h f p 0 0 (fun t =>
      ((t.parcel p).gslot k).state = .empty ∧ ∀ n ∈ ((s.parcel p).gslot k).cells, (t.cell n).graph = none) := by
  have hexec : exec (.graphUnloadComplete p k) s = .next (s.unloadComplete p k).pump := if_neg (by simp [htest])
  rw [State.unloadComplete] at hexec
  simp only [hstate, horder] at hexec
  have hunsettled := offCells_unsettleStores s p k
  have hfreed := (offCells_freeCells (s.unsettleStores p k) p k).trans hunsettled
  have hgraph := graph_freeCells (cellsWf_unsettleStores hcells p k) p k
  rw [parcel_of_offCells hunsettled] at hgraph
  generalize (s.unsettleStores p k).freeCells p k = v at hexec hfreed hgraph
  have hparcel := parcel_of_offCells hfreed
  have hemptied : SlotEmptied s (v.emptySlot p k) p k :=
    emptySlot_emptied (by rwa [hparcel]) (by rwa [hparcel]) (fun j _ => hparcel j) (ctlOrder_of_offCells hfreed)
  refine hemptied.ends hidle hexec fun t ht hslot => ⟨hslot, fun n hn => ?_⟩
  rw [State.cell, ht]
  exact hgraph n hn

end

end Sys2Proof.Machine

/-! SUPPORT. The end of a graph load (R119, R151, R154, R160, R221): the image is read, checked, and placed on cells. -/

namespace Sys2Proof.Machine

open Sys2Proof.Safety

/-! What the end of a load does. -/

/-- R119, R348, R364: the bytes of an image in host memory, read through the Welt, and the state after; none for another image. -/
def State.readImage (s : State) (p : Nat) (w : Window) (img : HostImage) : (List Byte × Bool) × State :=
  if w.target = 1 then (s.noteTook p img.took).weltRead p w.base w.len img.bytes false else (([], false), s)

/-- R160: how a load ends that its checks do not place; `logged`: the poison of the image has been logged. -/
def State.endLoad (s : State) (p slot : Nat) (w : Window) (img : HostImage) (r : OrdRef) (b : List Byte) (logged : Bool) :
    LoadEnd → State
  | .poison dev => ((if dev || logged then s else s.notePoison p (w.base + img.poison.getD 0)).emptySlot p slot).orderResult p r
      ccHostPoison (if dev then 2 else 1)
  | .refused reason need => ((s.emptySlot p slot).loadRefused p slot reason need none ((b.drop 0x70).take 16)).orderResult p r
      ccRefusedLoad (BitVec.ofNat 8 reason)
  | .loaded cells => (s.placeGraph p slot b cells).orderResult p r ccOK 0

/-- R151, R153: the parcel as the load checks see it, without the cells that are fenced off. -/
def Parcel.fenced (x : Parcel) (fences : BitVec 128) : Parcel := { x with cfg := { x.cfg with cells := x.cfg.cells &&& ~~~fences } }

/-- R151: what the checks of an image say. -/
def State.imageChecks (s : State) (x : Parcel) (len : Nat) (m : List Byte × Bool × (Nat → Nat → Bool)) : LoadEnd :=
  loadChecks s.img.cfg (x.fenced s.we.fences) (fun k => spGet {} s.mg.slots k) m.1 len m.2.1 m.2.2

theorem loadComplete_eq {s : State} {p slot : Nat} {w : Window} {r : OrdRef} (hstate : ((s.parcel p).gslot slot).state = .loading)
    (hwindow : ((s.parcel p).gslot slot).window = some w) (horder : ((s.parcel p).gslot slot).order = some r) (img : HostImage) :
    s.loadComplete p slot img =
      let host := s.readImage p w img
      let m := host.2.imageBytes p w img host.1
      host.2.endLoad p slot w img r m.1 host.1.2 (host.2.imageChecks (s.parcel p) w.len m) := by
  unfold State.loadComplete State.imageChecks
  simp only [hstate, hwindow, horder]
  unfold State.readImage State.endLoad
  rfl

/-! The graph is placed (R154, R221). -/

/-- R119: the slot of a graph that is placed on cells. -/
def GraphSlot.placed (b : List Byte) (cells : List Nat) (g : GraphSlot) : GraphSlot :=
  { g with
    state := .loaded, hdr := graphHdrOf b, ptrs := ptrMap b, pb := (b.drop (field b 0x58 4)).take (graphHdrOf b).pbSize
    cells := cells, label := (b.drop 0x70).take 16, window := none, order := none }

/-- R154, R221: a cell takes its part of a graph, number k in the order of placement, at clock code clk. -/
def Cell.placed (p slot : Nat) (b : List Byte) (cells : List Nat) (k clk : Nat) (cl : Cell) : Cell :=
  let g := graphHdrOf b
  let c := (codeDir b).getD (k % g.ncell) ⟨0, 0, 0, 0⟩
  { cl with
    tiles := [], acc := [], tilePoison := [], accPoison := [], parcel := some (Fin.ofNat 16 p), rt := !g.be, clk := clk
    graph := some { slot := slot, replica := k / g.ncell, index := k % g.ncell, ncell := g.ncell
                    first := cells.getD (k / g.ncell * g.ncell) 0, entry := c.entry, size := c.size
                    storeBytes := g.storeBytes, tileMask := g.tiles, code := (b.drop c.off).take c.size } }

/-- R154, R581: cell e.2 takes part e.1 of a graph, and its rail rises for the clock that parcel x gives it. -/
def State.placeCell (p slot : Nat) (b : List Byte) (cells : List Nat) (x : Parcel) (s : State) (e : Nat × Nat) : State :=
  let clk := if 760 ≤ s.cellTemp e.2 then x.cfg.floorClk else x.cfg.targetClk
  (s.raiseDie e.2 clk).modCell e.2 (Cell.placed p slot b cells e.1 clk)

theorem placeGraph_eq (s : State) (p slot : Nat) (b : List Byte) (cells : List Nat) : s.placeGraph p slot b cells =
    let t := s.modSlot p slot (GraphSlot.placed b cells)
    ((List.range cells.length).zip cells).foldl (State.placeCell p slot b cells (t.parcel p)) t := rfl

theorem offCells_placeCell (p slot : Nat) (b : List Byte) (cells : List Nat) (x : Parcel) (s : State) (e : Nat × Nat) :
    (s.placeCell p slot b cells x e).offCells = s.offCells := rfl

theorem offCells_placeGraph (s : State) (p slot : Nat) (b : List Byte) (cells : List Nat) :
    (s.placeGraph p slot b cells).offCells = (s.modSlot p slot (GraphSlot.placed b cells)).offCells := by
  rw [placeGraph_eq]
  exact view_foldl State.offCells _ _ (fun t e _ => offCells_placeCell p slot b cells _ t e) _

/-- R221: a cell of parcel p holds a part of the graph of a slot, its tiles and accumulator zero. -/
def Cell.Holds (c : Cell) (p : Fin 16) (slot : Nat) : Prop :=
  c.graph.map (·.slot) = some slot ∧ c.parcel = some p ∧ c.tiles = [] ∧ c.acc = []

theorem holds_placeCell (p : Fin 16) (slot : Nat) (b : List Byte) (cells : List Nat) (x : Parcel) (s : State) (e : Nat × Nat) :
    ((s.placeCell p slot b cells x e).cell e.2).Holds p slot := by
  have hself : (s.placeCell p slot b cells x e).cell e.2 = _ := cell_modCell_of_ne fun h => nomatch congrArg Cell.graph h
  rw [hself]
  exact ⟨rfl, congrArg some (Fin.ext (Nat.mod_eq_of_lt p.isLt)), rfl, rfl⟩

theorem holds_placeGraph (s : State) (p : Fin 16) (slot : Nat) (b : List Byte) (cells : List Nat) :
    ∀ n ∈ cells, ((s.placeGraph p slot b cells).cell n).Holds p slot := by
  have hall := foldl_establishes (inv := fun _ => True) (P := fun e (t : State) => (t.cell e.2).Holds p slot)
    (g := State.placeCell p slot b cells ((s.modSlot p slot (GraphSlot.placed b cells)).parcel p)) (fun _ _ _ => trivial)
    (fun t e _ => holds_placeCell ..) (fun t e d _ hd => ?_) ((List.range cells.length).zip cells)
    (t := s.modSlot p slot (GraphSlot.placed b cells)) trivial
  · intro n hn
    have hsnd : ((List.range cells.length).zip cells).map Prod.snd = cells := List.map_snd_zip (by simp)
    obtain ⟨e, he, rfl⟩ := List.mem_map.1 (hsnd.symm ▸ hn)
    rw [placeGraph_eq]
    exact hall e he
  · by_cases hde : d.2 = e.2
    · rw [hde]
      exact holds_placeCell ..
    · rwa [show (State.placeCell p slot b cells _ t e).cell d.2 = t.cell d.2 from cell_modCell_ne _ _ hde]

/-! GRAPH_LOAD_COMPLETE (R119, R151, R160). -/

section
variable {s v : State} {h : OrdHdr} {f : Fin 8} {p : Fin 16} {k : Fin 64} {w : Window}

theorem weltRan_readImage (hpresent : (s.parcel p).state ≠ .absent) (w : Window) (img : HostImage) :
    WeltRan s (s.readImage p w img).2 p := by
  unfold State.readImage
  split
  · have htook := weltRan_noteTook hpresent img.took
    exact htook.trans (weltRan_weltRead (by rwa [htook.state]) ..)
  · exact .refl s p

theorem imageChecks_of_weltRan (hv : WeltRan s v p) (x : Parcel) (len : Nat) (m : List Byte × Bool × (Nat → Nat → Bool)) :
    v.imageChecks x len m = s.imageChecks x len m := by
  have hview := congrArg (fun t : State => (t.img.cfg, t.we.fences, t.mg.slots)) hv.rest
  obtain ⟨hcfg, hfences, hslots⟩ : v.img.cfg = s.img.cfg ∧ v.we.fences = s.we.fences ∧ v.mg.slots = s.mg.slots := by
    simpa only [State.offParcels, State.offHost, State.still, Prod.mk.injEq] using hview
  rw [State.imageChecks, State.imageChecks, hcfg, hfences, hslots]

/-- The slot of a load that has read its image and fails is emptied. -/
theorem emptied_of_weltRan (hv : WeltRan s v p) (hwf : spWf GraphSlot.zero (s.parcel p).slots = true)
    (hpresent : (s.parcel p).state ≠ .absent) (g : Nat) : SlotEmptied s (v.emptySlot p g) p g := by
  obtain ⟨_, _, hself⟩ := hv.own
  exact emptySlot_emptied (by rwa [hself]) (by rwa [hself]) hv.other (congrArg (·.net.ctlOrder) hv.rest)

theorem cells_of_weltRan (hv : WeltRan s v p) : v.cells = s.cells := congrArg (·.cells) hv.rest

/-- What the end of a load says of its result: the code and the detail, and what it makes of slot k and of the cells. -/
def LoadEnds (i : Instr) (s : State) (h : OrdHdr) (f : Fin 8) (p : Fin 16) (k : Nat) : LoadEnd → Prop
  | .loaded cells => Ends i s h f p 0 0 (fun t =>
      ((t.parcel p).gslot k).state = .loaded ∧ ((t.parcel p).gslot k).cells = cells ∧ ((t.parcel p).gslot k).window = none ∧
        ∀ n ∈ cells, (t.cell n).Holds p k)
  | .refused reason _ => Ends i s h f p 4 (BitVec.ofNat 8 reason) (fun t => ((t.parcel p).gslot k).state = .empty ∧ t.cells = s.cells)
  | .poison dev => Ends i s h f p 7 (if dev then 2 else 1) (fun t => ((t.parcel p).gslot k).state = .empty ∧ t.cells = s.cells)

theorem endLoad_ends {i : Instr} {img : HostImage} {b : List Byte} {logged : Bool} {e : LoadEnd} (hv : WeltRan s v p)
    (hwf : spWf GraphSlot.zero (s.parcel p).slots = true) (hpresent : (s.parcel p).state ≠ .absent) (hidle : s.net.ctlOrder = [])
    (hexec : exec i s = .next (v.endLoad p k w img ⟨.fn f, h.id, 0⟩ b logged e).pump) : LoadEnds i s h f p k e := by
  have hpresent' : (v.parcel p).state ≠ .absent := by rwa [hv.state]
  cases e with
  | poison dev =>
    obtain ⟨u, hu, hdone⟩ : ∃ u, WeltRan s u p ∧ v.endLoad p k w img ⟨.fn f, h.id, 0⟩ b logged (.poison dev) =
        (u.emptySlot p k).orderResult p ⟨.fn f, h.id, 0⟩ ccHostPoison (if dev then 2 else 1) := by
      cases hlogged : dev || logged with
      | true => exact ⟨v, hv, by rw [State.endLoad, if_pos hlogged]⟩
      | false =>
        exact ⟨_, hv.trans (weltRan_notePoison hpresent' _), by rw [State.endLoad, if_neg (by rw [hlogged]; decide)]⟩
    rw [hdone] at hexec
    exact (emptied_of_weltRan hu hwf hpresent k).ends hidle hexec fun t ht hslot =>
      ⟨hslot, ht.trans ((cells_of_weltRan hu :))⟩
  | refused reason need =>
    refine ((emptied_of_weltRan hv hwf hpresent k).loadRefused k reason need none _).ends hidle hexec
      fun t ht hslot => ⟨hslot, ht.trans ?_⟩
    exact (cells_of_still (still_logP (v.emptySlot p k) ..)).trans (cells_of_weltRan hv :)
  | loaded cells =>
    have hplaced := offCells_placeGraph v p k b cells
    have hself : (v.modSlot p k (GraphSlot.placed b cells)).parcel p =
        (v.parcel p).setSlot k (GraphSlot.placed b cells ((v.parcel p).gslot k)) := parcel_modParcel_present hpresent'
    refine ends_of_still hexec ((ctlOrder_of_offCells hplaced).trans ((congrArg (·.net.ctlOrder) hv.rest).trans hidle))
      (fun j hj => ?_) fun t ht => ?_
    · rw [parcel_of_offCells hplaced, State.modSlot, parcel_modParcel_ne _ _ hj, hv.other j hj]
    · rw [parcel_of_still ht, parcel_of_offCells hplaced, hself,
        Parcel.gslot_setSlot_of_ne _ _ fun (e : GraphSlot.placed b cells ((v.parcel p).gslot k) = GraphSlot.zero) =>
          nomatch congrArg GraphSlot.state e]
      refine ⟨rfl, rfl, rfl, fun n hn => ?_⟩
      rw [State.cell, cells_of_still ht]
      exact holds_placeGraph v p k b cells n hn

theorem graphLoad_ends {img : HostImage} (hwf : spWf GraphSlot.zero (s.parcel p).slots = true)
    (hstate : ((s.parcel p).gslot k).state = .loading) (hwindow : ((s.parcel p).gslot k).window = some w)
    (horder : ((s.parcel p).gslot k).order = some ⟨.fn f, h.id, 0⟩) (htest : s.cellsTested p = false)
    (hpresent : (s.parcel p).state ≠ .absent) (hidle : s.net.ctlOrder = [])
    (hhost : w.target = 1 → s.host.disabled = false ∧ s.host.flushing = false) :
    let host := s.readImage p w img
    LoadEnds (.graphLoadComplete p k img) s h f p k
      (s.imageChecks (s.parcel p) w.len (host.2.imageBytes p w img host.1)) := by
  have hexec : exec (.graphLoadComplete p k img) s = .next (s.loadComplete p k img).pump := by
    refine if_neg ?_
    rw [htest, hwindow]
    rintro (hfalse | ⟨htarget, hheld⟩)
    · cases hfalse
    · obtain ⟨hdisabled, hflushing⟩ := hhost (of_decide_eq_true htarget)
      rw [hdisabled, hflushing] at hheld
      exact hheld.elim Bool.false_ne_true Bool.false_ne_true
  have hread := weltRan_readImage hpresent w img
  rw [loadComplete_eq hstate hwindow horder] at hexec
  dsimp only at hexec
  rw [imageChecks_of_weltRan hread] at hexec
  exact endLoad_ends hread hwf hpresent hidle hexec

end

/-- Settles O29: each order and each end is said by its own law. -/
theorem graphOrdersComplete : Obligations.GraphOrdersComplete := by
  intro s h f p slot hparcel
  obtain ⟨-, hwf, -, -⟩ := hparcel
  refine ⟨fun ctx seg off len w ht hempty hwindow => graphLoad_begins ht rfl hempty hwindow, ?_,
    fun ht => graphUnload_begins ht rfl, ?_⟩
  · intro k w img hk hstate hwindow horder htest hpresent hidle hhost
    rw [← hk] at hstate hwindow horder ⊢
    exact graphLoad_ends hwf hstate hwindow horder htest hpresent hidle hhost (img := img)
  · intro k hk hstate horder htest hcells hpresent hidle
    rw [← hk] at hstate horder ⊢
    exact graphUnload_ends hwf hstate horder htest hcells hpresent hidle

end Sys2Proof.Machine

/-! SUPPORT. A CANCEL in a parcel whose queues stand out of order (R142). -/

namespace Sys2Proof.Machine

open Sys2Proof.Safety

/-! A list of queues that is not in canonical form: number 0 stands there twice. The first entry holds one ready request; when
that is cancelled, nothing is left of the entry and it goes, so from there on queue 0 is read from the second. -/

/-- A request of function 0 whose descriptor has been read, with TAG 7. -/
def readRequest : Request :=
  { src := .bell 0 0, tag := 7, stamp := 0, ctx := 0, noirq := false, ready := true, pb := [], windows := [], carried := 0
    timeout := 0, segs := [], unbound := false }

/-- Parcel 0, owned by function 0: the queue read has the request ready, and the entry behind it has one waiting. -/
def twiceListedParcel : Parcel :=
  { state := .active, queues := [(0, { ready := [readRequest] }), (0, { waiting := [readRequest] })]
    cfg := { Parcel.zero.cfg with queues := [⟨0, 0, false, 0, 1⟩] } }

/-- A running device with that parcel. -/
def twiceListedDevice : State := { dev := .running, parcels := [(0, twiceListedParcel)] }

/-- A CANCEL of queue 0 by function 0, with TAG 7. -/
def cancelHdr : OrdHdr := { src := .fn 0, id := 0, resv := false, same := false }

theorem twiceListedDevice_takes : Takes twiceListedDevice cancelHdr 0 0 (.cancel 0 7) where
  fromFunction := rfl
  runs := rfl
  windowFree := rfl
  owns := by decide
  notBuilding := by decide
  notResetting := rfl
  notDraining := fun h => absurd h (by decide)
  wellFormed := rfl
  accepted := by decide
  noneWaits := rfl

/-- After the CANCEL, a request waits in queue 0. -/
theorem twiceListedDevice_cancel : ∃ t, exec (.cancel cancelHdr 0 7) twiceListedDevice = .next t ∧ (t.queue 0 0).waiting ≠ [] :=
  ⟨_, rfl, by decide +kernel⟩

/-- Refutes O28: what is said of QUEUE_RESET and CANCEL asks nothing of the list of queues. Where a number stands there twice, a
CANCEL can uncover the second entry: in `twiceListedDevice`, queue 0 has no request waiting, and has one after the CANCEL. -/
theorem not_queueOrdersComplete : ¬ Obligations.QueueOrdersComplete := by
  rintro ⟨-, hcancels⟩
  have hbells : ∀ r ∈ [readRequest], ∃ k, r.src = .bell 0 k := List.forall_mem_singleton.2 ⟨0, rfl⟩
  obtain ⟨-, hcancel⟩ := hcancels twiceListedDevice cancelHdr 0 0 0 ⟨0, 0, false, 0, 1⟩ (by decide) rfl hbells
  obtain ⟨hhit, -, -⟩ := hcancel 7 twiceListedDevice_takes
  obtain ⟨t, ht, -, -, -, -, hwaiting, -, -⟩ := hhit (by decide +kernel) (by decide +kernel)
  obtain ⟨u, hu, hwaits⟩ := twiceListedDevice_cancel
  obtain rfl : t = u := Host.Outcome.next.inj (ht.symm.trans hu)
  exact hwaits hwaiting

end Sys2Proof.Machine

/-! SUPPORT. Doorbells (R96 to R98, R128, R129, R571): a request that arrives is seated or refused, and so is each new descriptor
of a doorbell. -/

namespace Sys2Proof.Machine

open Sys2Proof.Safety

/-! One queue changes. -/

/-- u is s with queue q of parcel p changed to y, as far as a doorbell sees. -/
structure Queued (s u : State) (p q : Nat) (y : Queue) : Prop where
  own : ∃ l, u.parcel p = { s.parcel p with queues := l }
  wf : spWf Queue.zero (u.parcel p).queues = true
  queue : u.queue p q = y
  other : ∀ k, k ≠ p → u.parcel k = s.parcel k
  dev : u.dev = s.dev
  datum : u.datum = s.datum

section
variable {s u v : State} {p q : Nat} {y : Queue}

theorem Queued.refl (hwf : spWf Queue.zero (s.parcel p).queues = true) (q : Nat) : Queued s s p q (s.queue p q) :=
  ⟨⟨_, rfl⟩, hwf, rfl, fun _ _ => rfl, rfl, rfl⟩

theorem Queued.of_same (h : Queued s u p q y) (hparcels : v.parcels = u.parcels) (hdev : v.dev = u.dev) (hdatum : v.datum = u.datum) :
    Queued s v p q y := by
  have hparcel (k : Nat) : v.parcel k = u.parcel k := congrArg (spGet Parcel.zero · k) hparcels
  obtain ⟨hown, hwf, hqueue, hother, hd, hdat⟩ := h
  exact ⟨by rwa [hparcel], by rwa [hparcel], (queue_of_parcel (hparcel p) q).trans hqueue, fun k hk => (hparcel k).trans (hother k hk),
    hdev.trans hd, hdatum.trans hdat⟩

theorem Queued.of_still (h : Queued s u p q y) (hstill : v.still = u.still) : Queued s v p q y :=
  h.of_same (parcels_of_still hstill) (dev_of_still hstill) (datum_of_still hstill)

theorem Queued.modQueue (h : Queued s u p q y) (hpresent : (s.parcel p).state ≠ .absent) (g : Queue → Queue) :
    Queued s (u.modQueue p q g) p q (g y) := by
  obtain ⟨⟨l, hown⟩, hwf, hqueue, hother, hdev, hdatum⟩ := h
  have hself : (u.modQueue p q g).parcel p = (u.parcel p).setQueue q (g (u.queue p q)) :=
    parcel_modParcel_present (f := fun x => x.setQueue q (g (x.queue q))) (by rw [hown]; exact hpresent)
  refine ⟨⟨spPut Queue.zero (g (u.queue p q)) q l, by rw [hself, hown]; rfl⟩, ?_, ?_, fun k hk => ?_, hdev, hdatum⟩
  · rw [hself]
    exact spWf_spPut hwf _ _
  · rw [State.queue, hself, ← hqueue]
    exact spGet_spPut_self hwf _ _
  · exact (parcel_modParcel_ne u _ hk).trans (hother k hk)

theorem Queued.arrivalCode (h : Queued s u p q y) (hstate : y.state = (s.queue p q).state) : u.arrivalCode p q = s.arrivalCode p q := by
  obtain ⟨l, hown⟩ := h.own
  have hserves : (u.parcel p).serves = (s.parcel p).serves := by rw [hown]; rfl
  have hqueue : ((u.parcel p).queue q).state = ((s.parcel p).queue q).state := (congrArg Queue.state h.queue).trans hstate
  rw [State.arrivalCode, State.arrivalCode, h.dev, hserves, hqueue]

theorem Queued.bellRequest_eq (h : Queued s u p q y) (f : Fin 8) (i : W32) :
    bellRequest (u.parcel p) f i = bellRequest (s.parcel p) f i := by
  obtain ⟨l, hown⟩ := h.own
  rw [hown]
  rfl

theorem Queued.qcfg (h : Queued s u p q y) : (u.parcel p).qcfg q = (s.parcel p).qcfg q := by
  obtain ⟨l, hown⟩ := h.own
  rw [hown]
  rfl

/-! A request arrives (R96 to R98). -/

/-- R98: a request waits in a queue. -/
def Queue.addWaiting (y : Queue) (r : Request) : Queue := { y with waiting := y.waiting ++ [r] }

theorem Queued.present (h : Queued s u p q y) (g : Nat) : Queued s (u.presentRequest g) p q y := h.of_same rfl rfl rfl

theorem refuse_bell {r : Request} {f : Fin 8} {i : W32} (hsrc : r.src = .bell f i) (u : State) (p q : Nat) (code detail : Byte) :
    u.refuse p q r code detail = (u.noteEnd p q { r with windows := [] } code detail).modQueue p q
      (Queue.addRecord · ({ r with windows := [] }.record u.datum code detail 0 false false 0)) :=
  complete_bell (r := { r with windows := [] }) hsrc ..

theorem Queued.refuse (h : Queued s u p q y) (hpresent : (s.parcel p).state ≠ .absent) {r : Request} {f : Fin 8} {i : W32}
    (hsrc : r.src = .bell f i) (code detail : Byte) : Queued s (u.refuse p q r code detail) p q
      (y.addRecord ({ r with windows := [] }.record s.datum code detail 0 false false 0)) := by
  rw [refuse_bell hsrc, h.datum]
  exact (h.of_still (still_noteEnd ..)).modQueue hpresent _

variable {c : QueueCfg} {r : Request} {f : Fin 8} {i : W32}

/-- R98: a request is seated in a queue that has room. -/
theorem Queued.arrive_seated (h : Queued s u p q y) (hpresent : (s.parcel p).state ≠ .absent)
    (hcode : u.arrivalCode p q = none) (hqcfg : (s.parcel p).qcfg q = some c) (hroom : y.waiting.length < c.depth) :
    Queued s (u.arrive p q r) p q (y.addWaiting { r with stamp := s.datum }) := by
  have hp := h.present (u.ingressOf r.src)
  rw [State.arrive, hcode]
  simp only [h.qcfg, hqcfg]
  rw [State.seat, if_pos (by rwa [hp.queue]), h.datum]
  exact (hp.modQueue hpresent (·.addWaiting { r with stamp := s.datum })).of_same rfl rfl rfl

/-- No request of this hub-die cycle gives up its place where none has been seated. -/
theorem yields_of_reqs_nil (h : u.cyc.reqs = []) (p q g : Nat) : u.yields p q g = none := by
  rw [State.yields, h]
  rfl

theorem reqs_presentRequest (h : u.cyc.reqs = []) (g : Nat) : (u.presentRequest g).cyc.reqs = [] := by
  unfold State.presentRequest
  dsimp only
  split
  · rfl
  · exact h

theorem reqs_refuse (u : State) (p q : Nat) {r : Request} (hsrc : r.src = .bell f i) (code detail : Byte) :
    (u.refuse p q r code detail).cyc = u.cyc := by
  rw [refuse_bell hsrc]
  exact (congrArg State.cyc (still_noteEnd u p q { r with windows := [] } code detail) :)

theorem arrive_full (hcode : u.arrivalCode p q = none) (hqcfg : (u.parcel p).qcfg q = some c)
    (hfull : c.depth ≤ (u.queue p q).waiting.length) (hreqs : u.cyc.reqs = []) (r : Request) :
    u.arrive p q r = (u.presentRequest (u.ingressOf r.src)).refuse p q { r with stamp := u.datum } ccTickFull 0 := by
  rw [State.arrive, hcode]
  simp only [hqcfg]
  have hnoroom : ¬ ((u.presentRequest (u.ingressOf r.src)).queue p q).waiting.length < c.depth := Nat.not_lt.2 hfull
  rw [State.seat, if_neg hnoroom, yields_of_reqs_nil (reqs_presentRequest hreqs _)]

theorem arrive_refused {code detail : Byte} (hcode : u.arrivalCode p q = some (code, detail)) (r : Request) :
    u.arrive p q r = u.refuse p q { r with stamp := 0 } code detail := by
  rw [State.arrive, hcode]

/-! The new descriptors of a doorbell (R128). -/

/-- R128: n descriptors from index i arrive. -/
def State.arriveBells (s : State) (p q : Nat) (f : Fin 8) (i : W32) (n : Nat) : State :=
  (List.range n).foldl (fun s k => s.arrive p q (bellRequest (s.parcel p) f (i + BitVec.ofNat 32 k))) s

theorem arriveBells_succ (s : State) (p q : Nat) (f : Fin 8) (i : W32) (n : Nat) : s.arriveBells p q f i (n + 1) =
    let t := s.arriveBells p q f i n
    t.arrive p q (bellRequest (t.parcel p) f (i + BitVec.ofNat 32 n)) := by
  rw [State.arriveBells, List.range_succ, List.foldl_append]
  rfl

theorem bellRecords_succ (x : Parcel) (f : Fin 8) (i : W32) (n stamp now : Nat) (code detail : Byte) :
    bellRecords x f i (n + 1) stamp now code detail = bellRecords x f i n stamp now code detail ++
      [{ bellRequest x f (i + BitVec.ofNat 32 n) with stamp := stamp }.record now code detail 0 false false 0] := by
  rw [bellRecords, List.range_succ, List.map_append]
  rfl

/-- R98: they all wait where there is room for them. -/
theorem Queued.arriveBells_seated (h : Queued s u p q y) (hpresent : (s.parcel p).state ≠ .absent)
    (hstate : y.state = (s.queue p q).state) (hcode : s.arrivalCode p q = none) (hqcfg : (s.parcel p).qcfg q = some c)
    (f : Fin 8) (i : W32) (n : Nat) (hroom : y.waiting.length + n ≤ c.depth) : Queued s (u.arriveBells p q f i n) p q
      { y with waiting := y.waiting ++ (List.range n).map fun k =>
        { bellRequest (s.parcel p) f (i + BitVec.ofNat 32 k) with stamp := s.datum } } := by
  induction n with
  | zero => simpa [State.arriveBells] using h
  | succ n ih =>
    have hn := ih (by omega)
    rw [arriveBells_succ]
    dsimp only
    rw [hn.bellRequest_eq]
    rw [List.range_succ, List.map_append, ← List.append_assoc]
    refine hn.arrive_seated hpresent ((hn.arrivalCode hstate).trans hcode) hqcfg ?_
    rw [List.length_append, List.length_map, List.length_range]
    omega

/-- R98: each ends with TICK_FULL in a full queue whose places were all taken in earlier hub-die cycles. -/
theorem Queued.arriveBells_full (h : Queued s u p q y) (hpresent : (s.parcel p).state ≠ .absent)
    (hstate : y.state = (s.queue p q).state) (hcode : s.arrivalCode p q = none) (hqcfg : (s.parcel p).qcfg q = some c)
    (hfull : c.depth ≤ y.waiting.length) (hreqs : u.cyc.reqs = []) (f : Fin 8) (i : W32) (n : Nat) :
    Queued s (u.arriveBells p q f i n) p q
      { y with records := y.records ++ bellRecords (s.parcel p) f i n s.datum s.datum ccTickFull 0 } ∧
    (u.arriveBells p q f i n).cyc.reqs = [] := by
  induction n with
  | zero => simpa [State.arriveBells, bellRecords] using ⟨h, hreqs⟩
  | succ n ih =>
    obtain ⟨hn, hreqs⟩ := ih
    rw [arriveBells_succ]
    dsimp only
    rw [arrive_full ((hn.arrivalCode hstate).trans hcode) (hn.qcfg.trans hqcfg) (by rwa [hn.queue]) hreqs, hn.bellRequest_eq, hn.datum]
    refine ⟨?_, by rw [reqs_refuse (f := f) (hsrc := rfl)]; exact reqs_presentRequest hreqs _⟩
    rw [bellRecords_succ, ← List.append_assoc]
    exact (hn.present _).refuse hpresent rfl ccTickFull 0

/-- R96, R122: each ends unstamped where its parcel or queue takes none. -/
theorem Queued.arriveBells_refused (h : Queued s u p q y) (hpresent : (s.parcel p).state ≠ .absent)
    (hstate : y.state = (s.queue p q).state) {code detail : Byte} (hcode : s.arrivalCode p q = some (code, detail))
    (f : Fin 8) (i : W32) (n : Nat) : Queued s (u.arriveBells p q f i n) p q
      { y with records := y.records ++ bellRecords (s.parcel p) f i n 0 s.datum code detail } := by
  induction n with
  | zero => simpa [State.arriveBells, bellRecords] using h
  | succ n ih =>
    rw [arriveBells_succ]
    dsimp only
    rw [arrive_refused ((ih.arrivalCode hstate).trans hcode), ih.bellRequest_eq]
    rw [bellRecords_succ, ← List.append_assoc]
    exact ih.refuse hpresent rfl code detail

end

end Sys2Proof.Machine

/-! SUPPORT. SQ_TAIL and CQ_HEAD (R128, R129, R571): what a doorbell makes of its queue, and how it is refused. -/

namespace Sys2Proof.Machine

open Sys2Proof.Safety

section
variable {s : State} {f : Fin 8} {g : Fin 256} {v : W32} {p q : Nat}

theorem present_of_ownedBy {x : Parcel} (h : x.ownedBy f = true) : x.state ≠ .absent := by
  simp only [Parcel.ownedBy, Bool.and_eq_true, decide_eq_true_eq] at h
  exact h.1.1

/-- R128: SQ_TAIL rises by n. -/
def Queue.raiseTail (v : W32) (n : Nat) (y : Queue) : Queue := { y with sqTail := v, sqUsed := y.sqUsed + n }

theorem sqTail_bell (hbell : Bell s f g p q) (hsize : (s.queue p q).sqUsed + (v - (s.queue p q).sqTail).toNat ≤ (s.queue p q).sqSize) :
    let n := (v - (s.queue p q).sqTail).toNat
    exec (.sqTail f g v false) s = .next ((s.modQueue p q (Queue.raiseTail v n)).arriveBells p q f (s.queue p q).sqTail n) := by
  obtain ⟨hqueue, howned, hd3⟩ := hbell
  have hfits : ¬ (false = true ∨ ((s.parcel p).queue q).sqSize < ((s.parcel p).queue q).sqUsed +
      (v - ((s.parcel p).queue q).sqTail).toNat) := by
    rintro (h | h)
    · cases h
    · exact Nat.not_lt.2 hsize h
  change execSqTail f g v false s = _
  rw [execSqTail, hd3, if_neg Bool.false_ne_true, hqueue]
  dsimp only
  rw [howned, if_neg (by decide), if_neg hfits]
  rfl

theorem queued_raiseTail (hbell : Bell s f g p q) (hwf : spWf Queue.zero (s.parcel p).queues = true) (n : Nat) :
    Queued s (s.modQueue p q (Queue.raiseTail v n)) p q ((s.queue p q).raiseTail v n) :=
  (Queued.refl hwf q).modQueue (present_of_ownedBy hbell.2.1) _

theorem sqTail_raises (hbell : Bell s f g p q) (hwf : spWf Queue.zero (s.parcel p).queues = true) {c : QueueCfg}
    (hqcfg : (s.parcel p).qcfg q = some c) :
    let x := s.parcel p
    let y := s.queue p q
    let n := (v - y.sqTail).toNat
    let moved : Queue := { y with sqTail := v, sqUsed := y.sqUsed + n }
    let asked (k : Nat) : Request := { bellRequest x f (y.sqTail + BitVec.ofNat 32 k) with stamp := s.datum }
    y.sqUsed + n ≤ y.sqSize →
    (s.arrivalCode p q = none → y.waiting.length + n ≤ c.depth → ∃ t, exec (.sqTail f g v false) s = .next t ∧
      t.queue p q = { moved with waiting := y.waiting ++ (List.range n).map asked } ∧ ∀ k, k ≠ p → t.parcel k = s.parcel k) ∧
    (s.arrivalCode p q = none → c.depth ≤ y.waiting.length → s.cyc.reqs = [] → ∃ t, exec (.sqTail f g v false) s = .next t ∧
      t.queue p q = { moved with records := y.records ++ bellRecords x f y.sqTail n s.datum s.datum 1 0 } ∧
        ∀ k, k ≠ p → t.parcel k = s.parcel k) ∧
    (∀ code detail, s.arrivalCode p q = some (code, detail) → ∃ t, exec (.sqTail f g v false) s = .next t ∧
      t.queue p q = { moved with records := y.records ++ bellRecords x f y.sqTail n 0 s.datum code detail } ∧
      ∀ k, k ≠ p → t.parcel k = s.parcel k) := by
  intro x y n moved asked hsize
  have hpresent := present_of_ownedBy hbell.2.1
  have hraised := queued_raiseTail (v := v) hbell hwf n
  refine ⟨fun hcode hroom => ?_, fun hcode hfull hreqs => ?_, fun code detail hcode => ?_⟩
  · have hdone := hraised.arriveBells_seated hpresent rfl hcode hqcfg f y.sqTail n hroom
    exact ⟨_, sqTail_bell hbell hsize, hdone.queue, hdone.other⟩
  · obtain ⟨hdone, -⟩ := hraised.arriveBells_full hpresent rfl hcode hqcfg hfull hreqs f y.sqTail n
    exact ⟨_, sqTail_bell hbell hsize, hdone.queue, hdone.other⟩
  · have hdone := hraised.arriveBells_refused hpresent rfl hcode f y.sqTail n
    exact ⟨_, sqTail_bell hbell hsize, hdone.queue, hdone.other⟩

/-! Doorbells that change no queue, or CQ_HEAD alone. -/

theorem sqTail_malformed (hbell : Bell s f g p q) {w : Bool}
    (hbad : w = true ∨ (s.queue p q).sqSize < (s.queue p q).sqUsed + (v - (s.queue p q).sqTail).toNat) :
    exec (.sqTail f g v w) s = .next (s.bellRefused f (some (p, q)) 2) := by
  obtain ⟨hqueue, howned, hd3⟩ := hbell
  change execSqTail f g v w s = _
  rw [execSqTail, hd3, if_neg Bool.false_ne_true, hqueue]
  dsimp only
  rw [howned, if_neg (by decide)]
  exact if_pos hbad

theorem cqHead_bell (hbell : Bell s f g p q) (w : Bool) : exec (.cqHead f g v w) s =
    if w = true ∨ ((s.queue p q).cqTail - (s.queue p q).cqHead).toNat < (v - (s.queue p q).cqHead).toNat then
      .next (s.bellRefused f (some (p, q)) 2)
    else .next (s.modQueue p q (fun y => { y with cqHead := v })) := by
  obtain ⟨hqueue, howned, hd3⟩ := hbell
  change execCqHead f g v w s = _
  rw [execCqHead, hd3, if_neg Bool.false_ne_true, hqueue]
  dsimp only
  rw [howned, if_neg (by decide)]
  rfl

theorem cqHead_moves (hbell : Bell s f g p q)
    (hwritten : (v - (s.queue p q).cqHead).toNat ≤ ((s.queue p q).cqTail - (s.queue p q).cqHead).toNat) :
    exec (.cqHead f g v false) s = .next (s.modQueue p q (fun y => { y with cqHead := v })) := by
  rw [cqHead_bell hbell, if_neg]
  rintro (h | h)
  · cases h
  · exact Nat.not_lt.2 hwritten h

theorem cqHead_malformed (hbell : Bell s f g p q) {w : Bool}
    (hbad : w = true ∨ ((s.queue p q).cqTail - (s.queue p q).cqHead).toNat < (v - (s.queue p q).cqHead).toNat) :
    exec (.cqHead f g v w) s = .next (s.bellRefused f (some (p, q)) 2) := by
  rw [cqHead_bell hbell, if_pos hbad]

/-- R354: a doorbell of a queue that another accessor owns. -/
theorem bells_foreign (hd3 : (s.ord (1 + f)).d3 = false) (hqueue : s.gqueue g = some (p, q)) (hforeign : (s.parcel p).ownedBy f = false)
    (w : Bool) : exec (.sqTail f g v w) s = .next (s.bellRefused f (some (p, q)) 1) ∧
      exec (.cqHead f g v w) s = .next (s.bellRefused f (some (p, q)) 1) := by
  constructor
  · change execSqTail f g v w s = _
    rw [execSqTail, hd3, if_neg Bool.false_ne_true, hqueue]
    exact if_pos (by rw [hforeign]; rfl)
  · change execCqHead f g v w s = _
    rw [execCqHead, hd3, if_neg Bool.false_ne_true, hqueue]
    exact if_pos (by rw [hforeign]; rfl)

/-- R354: a doorbell of a number that no queue has. -/
theorem bells_unlisted (hd3 : (s.ord (1 + f)).d3 = false) (hqueue : s.gqueue g = none) (w : Bool) :
    exec (.sqTail f g v w) s = .next (s.bellRefused f none 1) ∧ exec (.cqHead f g v w) s = .next (s.bellRefused f none 1) := by
  constructor
  · change execSqTail f g v w s = _
    rw [execSqTail, hd3, if_neg Bool.false_ne_true, hqueue]
  · change execCqHead f g v w s = _
    rw [execCqHead, hd3, if_neg Bool.false_ne_true, hqueue]

theorem bells_d3 (hd3 : (s.ord (1 + f)).d3 = true) (w : Bool) :
    exec (.sqTail f g v w) s = .next s ∧ exec (.cqHead f g v w) s = .next s := ⟨if_pos hd3, if_pos hd3⟩

end

end Sys2Proof.Machine

/-! SUPPORT. MSI-X messages (R355 to R357): called for, issued, pending while their vector is masked, and unmasked. -/

namespace Sys2Proof.Machine

/-- A list of numbers with a value put under one of them is not as unlisted. -/
theorem spPut_ne_nil {α : Type} [DecidableEq α] {d v : α} (hv : v ≠ d) (m : Sparse α) (k : Nat) : spPut d v k m ≠ [] := fun h =>
  hv (by rw [← spGet_spPut_of_ne m k hv, h]; rfl)

/-- R355: a message is called for. -/
theorem msixDue_callMsix (s : State) (a v : Nat) : spGet 0 ((s.callMsix a v).ord a).msixDue v ≠ 0 := by
  have hcalled : (if v = 0 then spGet 0 (s.ord a).msixDue v + 1 else 1) ≠ 0 := by split <;> omega
  rw [State.callMsix, ord_modOrd_of_ne fun h => spPut_ne_nil hcalled _ _ (congrArg OrdSt.msixDue h)]
  rwa [spMod, spGet_spPut_of_ne _ _ hcalled]

/-! MSIX_MESSAGE and MSIX_VECTOR_UNMASK (R356). -/

/-- R355: a message called for on a vector is taken. -/
def OrdSt.tookMsix (k : Nat) (o : OrdSt) : OrdSt := { o with msixDue := spMod 0 o.msixDue k (· - 1) }

/-- R356: the pending bit of a vector is set. -/
def OrdSt.pendMsix (k : Nat) (o : OrdSt) : OrdSt := { o with msixPending := spPut false true k o.msixPending }

section
variable {s : State} {f : Fin 8} {k : Nat}

theorem msixMessage_due (hk : k < s.vectors) (hd3 : (s.ord (1 + f)).d3 = false) (hdue : spGet 0 (s.ord (1 + f)).msixDue k ≠ 0) :
    exec (.msixMessage f k) s = if (s.ord (1 + f)).masked k then
      .next ((s.modOrd (1 + f) (OrdSt.tookMsix k)).modOrd (1 + f) (OrdSt.pendMsix k))
    else .next ((s.modOrd (1 + f) (OrdSt.tookMsix k)).emit (.msix f k)) := by
  refine if_neg ?_
  rintro (h | h | h)
  · exact hdue h
  · exact Nat.not_le.2 hk h
  · rw [hd3] at h
    cases h

theorem msixMessage_issues (hk : k < s.vectors) (hd3 : (s.ord (1 + f)).d3 = false) (hdue : spGet 0 (s.ord (1 + f)).msixDue k ≠ 0)
    (hopen : (s.ord (1 + f)).masked k = false) : ∃ t, exec (.msixMessage f k) s = .next t ∧ t.out = .msix f k :: s.out := by
  have hissues := msixMessage_due hk hd3 hdue
  rw [hopen, if_neg Bool.false_ne_true] at hissues
  exact ⟨_, hissues, rfl⟩

theorem msixMessage_pends (hk : k < s.vectors) (hd3 : (s.ord (1 + f)).d3 = false) (hdue : spGet 0 (s.ord (1 + f)).msixDue k ≠ 0)
    (hmasked : (s.ord (1 + f)).masked k = true) : ∃ t, exec (.msixMessage f k) s = .next t ∧
      spGet false (t.ord (1 + f)).msixPending k = true ∧ t.out = s.out := by
  refine ⟨_, (msixMessage_due hk hd3 hdue).trans (if_pos hmasked), ?_, rfl⟩
  have hpending : true ≠ false := Bool.true_eq_false_eq_False
  rw [ord_modOrd_of_ne fun h => spPut_ne_nil hpending _ _ (congrArg OrdSt.msixPending h)]
  exact spGet_spPut_of_ne _ _ hpending

theorem msixMessage_none (hdue : spGet 0 (s.ord (1 + f)).msixDue k = 0) : exec (.msixMessage f k) s = .next s := if_pos (.inl hdue)

/-- R356: a vector is unmasked in its table. -/
def OrdSt.unmask (k : Nat) (o : OrdSt) : OrdSt :=
  { o.setMsix (16 * k + 12) (o.msixByte (16 * k + 12) &&& 0xFE) with msixPending := spPut false false k o.msixPending }

theorem masked_unmask {o : OrdSt} (h : spWf 0 o.msix = true) (k : Nat) : (o.unmask k).masked k = false := by
  have hbyte : (o.unmask k).msixByte (16 * k + 12) = o.msixByte (16 * k + 12) &&& 0xFE := by
    rw [OrdSt.msixByte, OrdSt.unmask, OrdSt.setMsix, spGet_spPut_self h, BitVec.xor_assoc, BitVec.xor_self, BitVec.xor_zero]
  rw [OrdSt.masked, hbyte, BitVec.getLsbD_and]
  exact Bool.and_false _

theorem unmaskVector_eq (s : State) (f : Fin 8) (k : Nat) : s.unmaskVector f k =
    if spGet false (s.ord (1 + f)).msixPending k then (s.modOrd (1 + f) (OrdSt.unmask k)).emit (.msix f k)
    else s.modOrd (1 + f) (OrdSt.unmask k) := rfl

theorem msixVectorUnmask_unmasks (hk : k < s.vectors) (hd3 : (s.ord (1 + f)).d3 = false) (hmsix : spWf 0 (s.ord (1 + f)).msix = true)
    (hords : spWf OrdSt.zero s.ords = true) : ∃ t, exec (.msixVectorUnmask f k) s = .next t ∧
      t.out = (if spGet false (s.ord (1 + f)).msixPending k then [.msix f k] else []) ++ s.out ∧ (t.ord (1 + f)).masked k = false := by
  have hexec : exec (.msixVectorUnmask f k) s = .next (s.unmaskVector f k) := by
    refine if_neg ?_
    rintro (h | h)
    · exact Nat.not_le.2 hk h
    · rw [hd3] at h
      cases h
  have hord : (s.modOrd (1 + f) (OrdSt.unmask k)).ord (1 + f) = (s.ord (1 + f)).unmask k := spGet_spPut_self hords _ _
  have hmasked : ((s.modOrd (1 + f) (OrdSt.unmask k)).ord (1 + f)).masked k = false := by rw [hord, masked_unmask hmsix]
  refine ⟨_, hexec, ?_⟩
  rw [unmaskVector_eq]
  split
  · exact ⟨rfl, hmasked⟩
  · exact ⟨rfl, hmasked⟩

end

end Sys2Proof.Machine

/-! SUPPORT. COMPLETION_RECORD_WRITE (R139, R140, R341, R357, R360 to R362): the record enters the CQ, its line is asked for, or the
ring has no room. -/

namespace Sys2Proof.Machine

section
variable {s : State} {p q : Nat} {f : Fin 8} {i : W32} {r : Record} {ring : Rings}

/-! A store to a line that the Welt owns (R360). -/

/-- The state after poison of the line of an address has been noted, where the line has some. -/
def State.notedLine (s : State) (p addr : Nat) (l : WLine) : State := if l.poison then s.notePoison p addr else s

theorem weltRan_notedLine (hpresent : (s.parcel p).state ≠ .absent) (addr : Nat) (l : WLine) :
    WeltRan s (s.notedLine p addr l) p := by
  unfold State.notedLine
  split
  · exact weltRan_notePoison hpresent addr
  · exact .refl s p

theorem queue_of_weltRan {t : State} (h : WeltRan s t p) (q : Nat) : t.queue p q = s.queue p q := by
  obtain ⟨_, _, hown⟩ := h.own
  rw [State.queue, State.queue, hown]
  rfl

/-- R360: a store to an owned line leaves the queues as they are, and the line in M. -/
theorem hostStore_owned {addr : Nat} {bs : List Byte} (hpresent : (s.parcel p).state ≠ .absent) (haddr : addr < 2 ^ 52)
    (hdead : s.host.dead = false) (hdisabled : s.host.disabled = false) (hflushing : s.host.flushing = false)
    (howned : s.lineOwned addr = true) (hstores : ∀ e ∈ s.host.stores, e.addr / 64 ≠ addr / 64) :
    (∀ q, (s.hostStore p addr bs).queue p q = s.queue p q) ∧ ((s.hostStore p addr bs).line (addr / 64)).map (·.st) = some .m := by
  have hnone : s.host.stores.any (fun e => decide (e.addr / 64 = addr / 64)) = false := by simpa using hstores
  have hstore : s.hostStore p addr bs = s.storeLine p addr bs := by
    rw [State.hostStore, if_neg (by rw [hdead]; simpa using haddr), howned, hnone, hdisabled, hflushing]
    exact if_pos (by decide)
  rw [hstore, State.storeLine]
  unfold State.lineOwned at howned
  split at howned
  · next l _ =>
    refine ⟨fun q => queue_of_weltRan (weltRan_notedLine hpresent addr l) q, ?_⟩
    exact congrArg (Option.map WLine.st) (spGet_spPut_of_ne _ _ (Option.some_ne_none _))
  · cases howned

/-! The record is written (R139, R357). -/

/-- R139, R140: a queue whose record r is written. -/
def Queue.wrote (r : Record) (y : Queue) : Queue :=
  { y with records := y.records.erase r, sqUsed := y.sqUsed - 1, cqTail := y.cqTail + 1 }

/-- R357: the message of a record that is written is called for. -/
def State.notifyRecord (s : State) (f : Fin 8) (ring : Rings) (r : Record) : State :=
  match r.noirq, ring.vector with
  | false, some v => s.callMsix (1 + f) v
  | _, _ => s

theorem still_notifyRecord (s : State) (f : Fin 8) (ring : Rings) (r : Record) : (s.notifyRecord f ring r).still = s.still := by
  unfold State.notifyRecord
  split <;> rfl

theorem out_notifyRecord (s : State) (f : Fin 8) (ring : Rings) (r : Record) : (s.notifyRecord f ring r).out = s.out := by
  unfold State.notifyRecord
  split <;> rfl

theorem msixDue_notifyRecord (s : State) (f : Fin 8) (hirq : r.noirq = false) {v : Nat} (hvector : ring.vector = some v) :
    spGet 0 ((s.notifyRecord f ring r).ord (1 + f)).msixDue v ≠ 0 := by
  rw [State.notifyRecord, hirq, hvector]
  exact msixDue_callMsix s (1 + f) v

/-- The host address of the next entry of a queue's CQ. -/
def Queue.entryAddr (y : Queue) (ring : Rings) : Nat := ring.cqBase + 32 * (y.cqTail.toNat % y.cqSize)

/-- The bytes of a record in the next entry of a queue's CQ. -/
def Queue.entryBytes (y : Queue) (q : Nat) (r : Record) : List Byte := r.bytes q (decide (y.cqTail.toNat / y.cqSize % 2 = 0))

/-- R139, R140, R361: r is the next record of queue q, whose CQ has room for it, and the host takes it. -/
structure NextRecord (s : State) (p q : Nat) (r : Record) (ring : Rings) : Prop where
  find : (s.queue p q).records.find? (fun r => !r.unread) = some r
  rings : (s.queue p q).rings = some ring
  room : ((s.queue p q).cqTail - (s.queue p q).cqHead).toNat < (s.queue p q).cqSize
  disabled : s.host.disabled = false
  flushing : s.host.flushing = false
  dead : s.host.dead = false
  addr : (s.queue p q).entryAddr ring < 2 ^ 52

theorem writeRecord_eq (hnext : NextRecord s p q r ring) (hsrc : r.src = .bell f i) : s.writeRecord p q =
    let a := (s.queue p q).entryAddr ring
    let bytes := (s.queue p q).entryBytes q r
    (((((s.modQueue p q (Queue.wrote r)).hostStore p a bytes).emit (.cqWrite f a bytes)).traceRecord p q r).notifyRecord f ring
      r) := by
  rw [State.writeRecord]
  simp only [hnext.find, hnext.rings, hsrc]
  rw [if_neg (Nat.not_le.2 hnext.room), hnext.dead, if_neg Bool.false_ne_true]
  rfl

theorem recordAddr_eq {y : Queue} (hrings : y.rings = some ring) :
    y.recordAddr = if y.cqSize ≤ (y.cqTail - y.cqHead).toNat then none else some (y.entryAddr ring) := by
  rw [Queue.recordAddr, hrings]
  rfl

theorem NextRecord.not_allUnread (hnext : NextRecord s p q r ring) : (s.queue p q).records.all (·.unread) = false := by
  have hread := List.find?_some hnext.find
  exact List.all_eq_false.2 ⟨r, List.mem_of_find?_eq_some hnext.find, by simpa using hread⟩

/-- R361: RdOwn has asked for the line of the next record, or not. -/
def Queue.asks (b : Bool) (y : Queue) : Queue := { y with recAsked := b }

/-- R357, R361: the next record of a queue waits for nothing but its line. -/
theorem tryRecord_eq (hnext : NextRecord s p q r ring) (hstores : ∀ e ∈ s.host.stores, e.parcel ≠ p) : s.tryRecord p q =
    if s.lineOwned ((s.queue p q).entryAddr ring) then (s.modQueue p q (Queue.asks false)).writeRecord p q
    else if (s.queue p q).recAsked then s
    else (s.weltAsk ((s.queue p q).entryAddr ring) 1).modQueue p q (Queue.asks true) := by
  have hnone : s.host.stores.any (fun e => decide (e.parcel = p)) = false := by simpa using hstores
  rw [State.tryRecord]
  simp only [recordAddr_eq hnext.rings, if_neg (Nat.not_le.2 hnext.room)]
  rw [if_neg (by rw [hnext.dead]; simpa using hnext.addr), if_neg (by rw [hnext.not_allUnread, hnone]; decide)]
  rfl

theorem tryRecord_full (hrings : (s.queue p q).rings = some ring)
    (hfull : ¬ ((s.queue p q).cqTail - (s.queue p q).cqHead).toNat < (s.queue p q).cqSize) : s.tryRecord p q = s := by
  rw [State.tryRecord]
  simp only [recordAddr_eq hrings, if_pos (Nat.not_lt.1 hfull)]

/-- A queue with rings is not as unlisted. -/
theorem ne_zero_of_rings {y : Queue} (h : y.rings = some ring) : y ≠ Queue.zero := fun e => by
  rw [e] at h
  cases h

theorem queue_asks (hrings : (s.queue p q).rings = some ring) (b : Bool) :
    (s.modQueue p q (Queue.asks b)).queue p q = (s.queue p q).asks b :=
  queue_modQueue_of_ne (g := Queue.asks b) (ne_zero_of_rings (ring := ring) hrings)

theorem NextRecord.asks (hnext : NextRecord s p q r ring) (b : Bool) : NextRecord (s.modQueue p q (Queue.asks b)) p q r ring := by
  obtain ⟨hfind, hrings, hroom, hdisabled, hflushing, hdead, haddr⟩ := hnext
  have hasks := queue_asks hrings b
  exact ⟨by rw [hasks]; exact hfind, by rw [hasks]; exact hrings, by rw [hasks]; exact hroom, hdisabled, hflushing, hdead,
    by rw [hasks]; exact haddr⟩

theorem present_modQueue (hpresent : (s.parcel p).state ≠ .absent) (g : Queue → Queue) :
    ((s.modQueue p q g).parcel p).state ≠ .absent := by
  rw [State.modQueue, parcel_modParcel_present (f := fun x => x.setQueue q (g (x.queue q))) hpresent]
  exact hpresent

/-- R139, R140, R357: in t, the record r is written to the CQ of queue q, which was y, and its message is called for. -/
structure RecordWritten (t : State) (p q : Nat) (y : Queue) (r : Record) (f : Fin 8) (ring : Rings) : Prop where
  queue : t.queue p q = y.wrote r
  out : t.out.head? = some (.cqWrite f (y.entryAddr ring) (y.entryBytes q r))
  line : (t.line (y.entryAddr ring / 64)).map (·.st) = some .m
  message : r.noirq = false → ∀ v, ring.vector = some v → spGet 0 (t.ord (1 + f)).msixDue v ≠ 0

/-- The record is written to the CQ in a line that the Welt owns. -/
theorem writeRecord_writes (hnext : NextRecord s p q r ring) (hsrc : r.src = .bell f i) (hpresent : (s.parcel p).state ≠ .absent)
    (howned : s.lineOwned ((s.queue p q).entryAddr ring) = true)
    (hline : ∀ e ∈ s.host.stores, e.addr / 64 ≠ (s.queue p q).entryAddr ring / 64) :
    RecordWritten (s.writeRecord p q) p q (s.queue p q) r f ring := by
  obtain ⟨hqueues, hstored⟩ := hostStore_owned (s := s.modQueue p q (Queue.wrote r)) (bs := (s.queue p q).entryBytes q r)
    (present_modQueue hpresent _) hnext.addr hnext.dead hnext.disabled hnext.flushing howned hline
  have hwrote : (s.modQueue p q (Queue.wrote r)).queue p q = (s.queue p q).wrote r :=
    queue_modQueue_of_ne (ne_zero_of_rings (ring := ring) hnext.rings)
  have hrun := writeRecord_eq hnext hsrc
  dsimp only at hrun
  generalize (s.modQueue p q (Queue.wrote r)).hostStore p _ _ = u at hrun hqueues hstored
  have hstill : (s.writeRecord p q).still = u.still := by
    rw [hrun, still_notifyRecord, still_traceRecord, still_emit]
  refine ⟨(queue_of_still hstill p q).trans ((hqueues q).trans hwrote), ?_, ?_, fun hirq v hvector => ?_⟩
  · rw [hrun, out_notifyRecord, State.traceRecord, state_trace_out]
    rfl
  · rw [State.line, show (s.writeRecord p q).host = u.host from congrArg (·.host) hstill]
    exact hstored
  · rw [hrun]
    exact msixDue_notifyRecord _ f hirq hvector

/-- R357: the record is written once the Welt owns its line. -/
theorem tryRecord_writes (hnext : NextRecord s p q r ring) (hsrc : r.src = .bell f i) (hpresent : (s.parcel p).state ≠ .absent)
    (hstores : ∀ e ∈ s.host.stores, e.parcel ≠ p) (howned : s.lineOwned ((s.queue p q).entryAddr ring) = true)
    (hline : ∀ e ∈ s.host.stores, e.addr / 64 ≠ (s.queue p q).entryAddr ring / 64) :
    RecordWritten (s.tryRecord p q) p q ((s.queue p q).asks false) r f ring := by
  have hasked := queue_asks hnext.rings false
  have hwritten := writeRecord_writes (f := f) (i := i) (hnext.asks false) hsrc (present_modQueue hpresent _)
  rw [hasked] at hwritten
  rw [tryRecord_eq hnext hstores, if_pos howned]
  exact hwritten howned hline

/-- Before that, RdOwn asks for the line (R361). -/
theorem tryRecord_asks (hnext : NextRecord s p q r ring) (hstores : ∀ e ∈ s.host.stores, e.parcel ≠ p)
    (howned : s.lineOwned ((s.queue p q).entryAddr ring) = false) (hasked : (s.queue p q).recAsked = false) :
    (s.tryRecord p q).out = .weltReq 1 ((s.queue p q).entryAddr ring / 64 * 64) :: s.out ∧
      (s.tryRecord p q).queue p q = (s.queue p q).asks true := by
  have hsent : s.weltAsk ((s.queue p q).entryAddr ring) 1 = s.emit (.weltReq 1 ((s.queue p q).entryAddr ring / 64 * 64)) := by
    rw [State.weltAsk, if_neg]
    rw [hnext.disabled, hnext.flushing]
    exact fun h => h.elim Bool.false_ne_true Bool.false_ne_true
  rw [tryRecord_eq hnext hstores, howned, hasked, if_neg Bool.false_ne_true, if_neg Bool.false_ne_true, hsent]
  exact ⟨rfl, queue_asks (s := s.emit _) hnext.rings true⟩

theorem completionRecordWrite_eq {p : Fin 16} {q : Fin 32} (hdisabled : s.host.disabled = false)
    (hflushing : s.host.flushing = false) : exec (.completionRecordWrite p q) s = .next (s.tryRecord p q) := by
  refine if_neg ?_
  rw [hdisabled, hflushing]
  exact fun h => h.elim Bool.false_ne_true Bool.false_ne_true

end

end Sys2Proof.Machine

/-! SUPPORT. LAUNCH_DESCRIPTOR_READ (R127, R130, R139, R348, R361): what the read of the oldest descriptor makes of its queue. -/

namespace Sys2Proof.Machine

/-! Translation looks at the configuration and the segments alone (R333, R334). -/

section
variable {x x' : Parcel} (hcfg : x'.cfg = x.cfg) (hsegs : x'.segs = x.segs)
include hcfg hsegs

omit hcfg in
theorem pointerWindow_congr (ctx i : Nat) (e : PtrEntry) (v len : Nat) :
    x'.pointerWindow ctx i e v len = x.pointerWindow ctx i e v len := by
  simp only [Parcel.pointerWindow, Parcel.seg, hsegs]

theorem orderWindow_congr (ctx seg off len : Nat) (needR needW : Bool) (targets : List Nat) :
    x'.orderWindow ctx seg off len needR needW targets = x.orderWindow ctx seg off len needR needW targets := by
  simp only [Parcel.orderWindow, Parcel.seg, hcfg, hsegs]

omit hcfg in
theorem translateAll_congr (ctx : Nat) (l : List PtrEntry) (i : Nat) (pb : List Byte) (ws : List Window) :
    x'.translateAll ctx l i pb ws = x.translateAll ctx l i pb ws := by
  induction l generalizing i pb ws with
  | nil => rfl
  | cons e l ih => simp only [Parcel.translateAll, pointerWindow_congr hsegs, ih]

theorem translate_congr (g : GraphSlot) (ctx pbOff pbLen : Nat) (patchWin : Option (Nat × Nat)) (patch : List Byte) :
    x'.translate g ctx pbOff pbLen patchWin patch = x.translate g ctx pbOff pbLen patchWin patch := by
  simp only [Parcel.translate, orderWindow_congr hcfg hsegs, translateAll_congr hsegs, hcfg]

end

theorem fetch_congr {x x' : Parcel} (hcfg : x'.cfg = x.cfg) (r : Request) (g : GraphSlot) (d patch : List Byte) (poison : Bool) :
    x'.fetch r g d patch poison = x.fetch r g d patch poison := by
  simp only [Parcel.fetch]
  rw [translate_congr (x := { x with segs := r.segs }) (x' := { x' with segs := r.segs }) hcfg rfl]

/-! The state while a descriptor is read. -/

/-- What is left of a parcel as the read of a descriptor sees it, beside its queues: all but the counts of the Welt and of faults. -/
def Parcel.readView (x : Parcel) : Parcel := { x with queues := [], wlPoison := 0, wlLatMax := 0, sgFaults := 0, sgLast := 0 }

/-- What the read of a descriptor sees beside the parcel. -/
def State.readView (s : State) : Sparse (Option Inst) × Nat × List Nat := (s.insts, s.datum, s.net.ctlOrder)

/-- u is s with queue q of parcel p, which is there, changed to y, as far as the read of a descriptor sees. -/
structure Reading (s u : State) (p q : Nat) (y : Queue) : Prop where
  present : (s.parcel p).state ≠ .absent
  own : (u.parcel p).readView = (s.parcel p).readView
  wf : spWf Queue.zero (u.parcel p).queues = true
  queue : u.queue p q = y
  rest : u.readView = s.readView

section
variable {s u v : State} {p q : Nat} {y : Queue}

theorem reading_of_weltRan (hpresent : (s.parcel p).state ≠ .absent) (hwf : spWf Queue.zero (s.parcel p).queues = true)
    (h : WeltRan s u p) (q : Nat) : Reading s u p q (s.queue p q) := by
  obtain ⟨_, _, hown⟩ := h.own
  exact ⟨hpresent, by rw [hown]; rfl, by rwa [hown], queue_of_weltRan h q,
    (congrArg (fun t : State => (t.insts, t.datum, t.net.ctlOrder)) h.rest :)⟩

section
variable (h : Reading s u p q y)
include h

theorem Reading.state : (u.parcel p).state = (s.parcel p).state := (congrArg Parcel.state h.own :)
theorem Reading.waits : (u.parcel p).waits = (s.parcel p).waits := (congrArg Parcel.waits h.own :)
theorem Reading.cfg : (u.parcel p).cfg = (s.parcel p).cfg := (congrArg Parcel.cfg h.own :)
theorem Reading.slots : (u.parcel p).slots = (s.parcel p).slots := (congrArg Parcel.slots h.own :)
theorem Reading.insts : u.insts = s.insts := congrArg Prod.fst h.rest
theorem Reading.datum : u.datum = s.datum := congrArg (·.2.1) h.rest
theorem Reading.ctlOrder : u.net.ctlOrder = s.net.ctlOrder := congrArg (·.2.2) h.rest

/-- A change of what is not seen. -/
theorem Reading.unseen (hown : (v.parcel p).readView = (u.parcel p).readView) (hqueues : (v.parcel p).queues = (u.parcel p).queues)
    (hrest : v.readView = u.readView) : Reading s v p q y :=
  ⟨h.present, hown.trans h.own, by rw [hqueues]; exact h.wf, by rw [State.queue, Parcel.queue, hqueues]; exact h.queue,
    hrest.trans h.rest⟩

theorem Reading.of_still (hstill : v.still = u.still) : Reading s v p q y :=
  h.unseen (by rw [parcel_of_still hstill]) (by rw [parcel_of_still hstill])
    (congrArg (fun t : State => (t.insts, t.datum, t.net.ctlOrder)) hstill :)

theorem Reading.segFault (win entry ctx seg : Nat) (cause : SgCause) : Reading s (u.segFault p win entry ctx seg cause) p q y := by
  have hself : (u.segFault p win entry ctx seg cause).parcel p = _ := parcel_modParcel_present (h.state.trans_ne h.present)
  exact h.unseen (by rw [hself]; rfl) (by rw [hself]) rfl

theorem Reading.modQueue (g : Queue → Queue) : Reading s (u.modQueue p q g) p q (g y) := by
  have hself : (u.modQueue p q g).parcel p = (u.parcel p).setQueue q (g (u.queue p q)) :=
    parcel_modParcel_present (f := fun x => x.setQueue q (g (x.queue q))) (h.state.trans_ne h.present)
  refine ⟨h.present, ?_, ?_, ?_, h.rest⟩
  · rw [hself]
    exact h.own
  · rw [hself]
    exact spWf_spPut h.wf _ _
  · rw [State.queue, hself, ← h.queue]
    exact spGet_spPut_self h.wf _ _

theorem Reading.instOf (src : ReqSrc) : u.instOf p q src = s.instOf p q src := by
  rw [State.instOf, State.instOf, State.instsOf, State.instsOf, h.insts]

end

theorem Reading.oldestUnread (h : Reading s u p q (s.queue p q)) : u.oldestUnread p q = s.oldestUnread p q := by
  simp only [State.oldestUnread, State.unreadReqs, State.instsOf, h.insts, h.queue]

theorem Reading.bellReq (h : Reading s u p q (s.queue p q)) (i : W32) : u.bellReq p q i = s.bellReq p q i := by
  simp only [State.bellReq, State.instsOf, h.insts, h.queue]

/-! What the descriptor gives its request (R130). -/

/-- R127: a request takes its tag, flags and context from its descriptor. -/
def Request.read (r : Request) (d : List Byte) : Request :=
  { r with
    tag := BitVec.ofNat 64 (field d 0 8), noirq := decide (field d 0x0D 1 % 2 = 1), ready := true, ctx := field d 0x0C 1 % 16 }

/-- R130, R139: the request of src, read as r, leaves its queue with a record. -/
def Queue.ended (y : Queue) (src : ReqSrc) (r : Request) (now : Nat) (code detail : Byte) : Queue :=
  (y.dropReq src).addRecord (r.record now code detail 0 false false 0)

/-- R130: what the fetch makes of the queue of the request of src, read as r. -/
def Queue.fetched (y : Queue) (src : ReqSrc) (r : Request) (now : Nat) : Fetched → Queue
  | .ok ws pb => y.mapReq src fun _ => { r with windows := ws, pb := pb, segs := [] }
  | .bad code detail => y.ended src r now code detail
  | .fault _ ctx seg _ => y.ended src r now ccSegFault (BitVec.ofNat 8 (ctx % 16 * 16 + seg % 16))

theorem Reading.ended (h : Reading s u p q y) {f : Fin 8} {k : W32} {src : ReqSrc} {r : Request} (hsrc : r.src = .bell f k)
    (hinst : s.instOf p q src = none) (code detail : Byte) :
    Reading s ((u.dropRequest p q src).complete p q r code detail 0 false false [] 0 0) p q (y.ended src r s.datum code detail) := by
  have hdropped := h.modQueue (·.dropReq src)
  rw [State.dropRequest]
  simp only [hdropped.instOf, hinst]
  rw [complete_bell hsrc, hdropped.datum]
  exact (hdropped.of_still (still_noteEnd ..)).modQueue _

theorem Reading.fetched (h : Reading s u p q y) {f : Fin 8} {k : W32} {r : Request} (hsrc : r.src = .bell f k)
    (hinst : s.instOf p q r.src = none) (hwaits : (s.parcel p).waits = []) (i : W32) (d patch : List Byte) (poison : Bool) :
    Reading s (u.fetched p q i r d patch poison) p q (y.fetched r.src (r.read d) s.datum
      ((s.parcel p).fetch (r.read d) ((s.parcel p).gslot y.slot) d patch poison)) := by
  have hcancelled (tag : W64) : (u.parcel p).cancelled q i tag = false := by rw [Parcel.cancelled, h.waits, hwaits]; rfl
  have hslot : (u.parcel p).gslot ((u.parcel p).queue q).slot = (s.parcel p).gslot y.slot := by
    rw [Parcel.gslot, Parcel.gslot, h.slots, show (u.parcel p).queue q = y from h.queue]
  have hfetch := fetch_congr h.cfg (r.read d) ((s.parcel p).gslot y.slot) d patch poison
  rw [State.fetched]
  simp only [hcancelled, Bool.false_and, Bool.false_eq_true, if_false, h.instOf, hinst, hslot]
  rw [← hfetch]
  change Reading s (match (u.parcel p).fetch (r.read d) ((s.parcel p).gslot y.slot) d patch poison with
    | .bad .. => _ | .fault .. => _ | .ok .. => _) p q _
  cases (u.parcel p).fetch (r.read d) ((s.parcel p).gslot y.slot) d patch poison with
  | bad code detail => exact h.ended (r := r.read d) hsrc hinst code detail
  | fault entry ctx seg cause => exact (h.segFault 0 entry ctx seg cause).ended (r := r.read d) hsrc hinst _ _
  | ok ws pb =>
    have hmapped := h.modQueue (·.mapReq r.src fun _ => { r.read d with windows := ws, pb := pb, segs := [] })
    dsimp only
    split
    · next hsome => cases ((hmapped.instOf r.src).trans hinst).symm.trans hsome
    · exact hmapped

/-- R142: where no order waits, the read of a descriptor ends none. -/
theorem Reading.readDone (h : Reading s u p q y) (hwaits : (s.parcel p).waits = []) (i : W32) (tag : Option W64) :
    Reading s (u.readDone p q i tag) p q y := by
  have hnone := h.waits.trans hwaits
  have hdone : u.readDone p q i tag = u.modParcel p fun x => { x with waits := [] } := by
    rw [State.readDone, hnone]
    rfl
  have hself : (u.readDone p q i tag).parcel p = u.parcel p := by
    rw [hdone, parcel_modParcel_present (f := fun x : Parcel => { x with waits := [] }) (h.state.trans_ne h.present), ← hnone]
  exact h.unseen (by rw [hself]) (by rw [hself]) (by rw [hdone]; rfl)

/-! LAUNCH_DESCRIPTOR_READ. -/

/-- R127, R333, R348: the patch that a read descriptor names, through the Welt: its bytes and poison, and the state after. -/
def State.readPatch (s u : State) (p : Nat) (r : Request) (d : List Byte × Bool) (patch : List Byte) (poison : Bool) :
    (List Byte × Bool) × State :=
  match (if d.2 then none else (s.parcel p).patchAt r.segs d.1) with
  | some (a, n) => u.weltRead p a n patch poison
  | none => ((patch, false), u)

theorem weltRan_readPatch (hpresent : (u.parcel p).state ≠ .absent) (s : State) (r : Request) (d : List Byte × Bool)
    (patch : List Byte) (poison : Bool) : WeltRan u (s.readPatch u p r d patch poison).2 p := by
  unfold State.readPatch
  split
  · exact weltRan_weltRead hpresent ..
  · exact .refl u p

variable {i : W32} {r : Request} {desc patch : List Byte} {poison : Bool}

theorem readDescriptor_eq (hunread : s.oldestUnread p q = some (i, false)) (hreq : s.bellReq p q i = some r) :
    s.readDescriptor p q desc patch poison =
      let d := s.weltRead p ((s.queue p q).descAddr i) 64 desc poison
      let w := s.readPatch d.2 p r d.1 patch poison
      (w.2.fetched p q i r d.1.1 w.1.1 (d.1.2 || w.1.2)).readDone p q i
        (if d.1.2 then none else some (BitVec.ofNat 64 (field d.1.1 0 8))) := by
  rw [State.readDescriptor, hunread]
  simp only [hreq, Bool.false_eq_true, if_false]
  rfl

theorem launchDescriptorRead_reads {p : Fin 16} {q : Fin 32} {took : Nat} {f : Fin 8} {k : W32}
    (hdisabled : s.host.disabled = false) (hflushing : s.host.flushing = false) (hwaits : (s.parcel p).waits = [])
    (hidle : s.net.ctlOrder = []) (hunread : s.oldestUnread p q = some (i, false)) (hreq : s.bellReq p q i = some r)
    (hinst : s.instOf p q r.src = none) (hwf : spWf Queue.zero (s.parcel p).queues = true)
    (hpresent : (s.parcel p).state ≠ .absent) (hsrc : r.src = .bell f k) :
    let u := s.noteTook p took
    let d := u.weltRead p ((s.queue p q).descAddr i) 64 desc poison
    let w := u.readPatch d.2 p r d.1 patch poison
    ∃ t, exec (.launchDescriptorRead p q desc patch ⟨poison, took⟩) s = .next t ∧
      t.queue p q = (s.queue p q).fetched r.src (r.read d.1.1) s.datum
        ((s.parcel p).fetch (r.read d.1.1) ((s.parcel p).gslot (s.queue p q).slot) d.1.1 w.1.1 (d.1.2 || w.1.2)) := by
  intro u d w
  have htook : WeltRan s u p := weltRan_noteTook hpresent took
  have hread : WeltRan s d.2 p := htook.trans (weltRan_weltRead (by rwa [htook.state]) ..)
  have hpatch : WeltRan s w.2 p := hread.trans (weltRan_readPatch (by rwa [hread.state]) ..)
  have hu := reading_of_weltRan hpresent hwf htook q
  have hexec : exec (.launchDescriptorRead p q desc patch ⟨poison, took⟩) s =
      .next (u.readDescriptor p q desc patch poison).pump := by
    refine if_neg ?_
    rw [hdisabled, hflushing, hunread]
    simp
  have hdone := ((reading_of_weltRan hpresent hwf hpatch q).fetched hsrc hinst hwaits i d.1.1 w.1.1 (d.1.2 || w.1.2)).readDone hwaits i
    (if d.1.2 then none else some (BitVec.ofNat 64 (field d.1.1 0 8)))
  rw [readDescriptor_eq (hu.oldestUnread.trans hunread) ((hu.bellReq i).trans hreq), hu.queue,
    pump_quiet _ (hdone.ctlOrder.trans hidle)] at hexec
  exact ⟨_, hexec, hdone.queue⟩

end

end Sys2Proof.Machine

/-! SUPPORT. Doorbells, descriptor reads, completion records and messages, put together. -/

namespace Sys2Proof.Machine

open Sys2Proof.Safety

/-- Settles O27: the doorbells, the descriptor read, the record write and the messages are each said by their own law. -/
theorem doorbellsAndRecordsComplete : Obligations.DoorbellsAndRecordsComplete := by
  intro s f g v p q
  refine ⟨fun hbell hwf c hqcfg => sqTail_raises hbell hwf hqcfg, cqHead_moves,
    fun hbell => ⟨fun w => sqTail_malformed hbell, fun w => cqHead_malformed hbell⟩,
    fun hd3 w => ⟨fun hqueue hforeign => bells_foreign hd3 hqueue hforeign w, fun hqueue => bells_unlisted hd3 hqueue w⟩,
    fun hd3 w => bells_d3 hd3 w, ?_, ?_, ?_, ?_⟩
  · intro i r desc patch poison took hdisabled hflushing hwaits hidle hunread hreq hinst hwf hpresent u d w r' ended hbell
    obtain ⟨k, j, hsrc⟩ := hbell
    obtain ⟨t, ht, hqueue⟩ := launchDescriptorRead_reads (desc := desc) (patch := patch) (poison := poison) (took := took)
      hdisabled hflushing hwaits hidle hunread hreq hinst hwf hpresent hsrc
    refine ⟨t, ht, ?_⟩
    have hfetched : t.queue p q = (s.queue p q).fetched r.src r' s.datum
        ((s.parcel p).fetch r' ((s.parcel p).gslot (s.queue p q).slot) d.1.1 w.1.1 (d.1.2 || w.1.2)) := hqueue
    generalize (s.parcel p).fetch r' _ d.1.1 w.1.1 _ = e at hfetched ⊢
    cases e with
    | ok ws pb =>
      dsimp only
      rw [hfetched]
      exact ⟨rfl, rfl, rfl⟩
    | bad code detail => exact ⟨by rw [hfetched]; rfl, by rw [hfetched]; rfl, by rw [hfetched]; rfl⟩
    | fault entry ctx seg cause => exact ⟨by rw [hfetched]; rfl, by rw [hfetched]; rfl, by rw [hfetched]; rfl⟩
  · intro desc patch poison took hstopped
    refine if_pos (hstopped.imp_right (Or.imp_right fun h => ?_))
    rw [h]
    rfl
  · intro r i ring hfind hsrc hrings hpresent a run room hdisabled hflushing hdead haddr
    have hexec : exec run s = .next (s.tryRecord p q) := completionRecordWrite_eq hdisabled hflushing
    have hnext (hroom : room) : NextRecord s p q r ring := ⟨hfind, hrings, hroom, hdisabled, hflushing, hdead, haddr⟩
    refine ⟨fun hroom hstores howned hline => ?_, fun hroom hstores howned hasked => ?_, fun hfull => ?_⟩
    · obtain ⟨hqueue, hout, hheld, hmessage⟩ := tryRecord_writes (hnext hroom) hsrc hpresent hstores howned hline
      exact ⟨_, hexec, by rw [hqueue]; rfl, by rw [hqueue]; rfl, by rw [hqueue]; rfl, hout, hheld, hmessage⟩
    · obtain ⟨hout, hqueue⟩ := tryRecord_asks (hnext hroom) hstores howned hasked
      exact ⟨_, hexec, hout, by rw [hqueue]; rfl, by rw [hqueue]; rfl⟩
    · rw [hexec, tryRecord_full hrings hfull]
  · intro k o hk hd3
    exact ⟨msixMessage_issues hk hd3, msixMessage_pends hk hd3, msixMessage_none, msixVectorUnmask_unmasks hk hd3⟩

end Sys2Proof.Machine

/-! SUPPORT. The instructions of the tiles and of the array (R225 to R245): what issue checks of their operands, and the command
that each hands to its unit. -/

namespace Sys2Proof.Machine

open Sys2Proof.Safety

/-! What issue checks of the operands (R225, R226, R230, R336). -/

theorem groupOk_of_group {c : Cell} {t n : Nat} (h : Group c t n) : c.groupOk t n = true := by
  obtain ⟨haligned, hmask⟩ := h
  exact Bool.and_eq_true_iff.2
    ⟨decide_eq_true haligned, List.all_eq_true.2 fun k hk => decide_eq_true (hmask k (List.mem_range.1 hk))⟩

theorem ownRange_of_own {c : Cell} {a : W64} {n : Nat} (h : OwnRange c a n) : c.ownRange a n = some a.toNat :=
  if_pos ⟨Nat.div_eq_of_lt h.1, h.2⟩

theorem rowsIn_of_own {c : Cell} {a : W64} {stride rows bytes : Nat} (hrow : OwnRange c a bytes)
    (hlast : OwnRange c a ((rows - 1) * stride + bytes)) : c.rowsIn a stride rows bytes = true := by
  obtain ⟨hwindow, hend⟩ := hlast
  rw [← Nat.add_assoc] at hend
  rw [Cell.rowsIn, ownRange_of_own hrow, Nat.div_eq_of_lt hwindow]
  exact decide_eq_true hend

/-- R225: in FIXED mode the rows and the row bytes stand in nine bits of cs.tshape. -/
theorem shapeOf_of_shapeIs {c : Cell} {t : Fin 16} {shape : Option Shape} {rows rb len : Nat}
    (h : ShapeIs c t shape rows rb len) : c.shapeOf t shape = some (rows, rb) ∧ shapeLen shape = len := by
  rcases h with ⟨hmode, sh, rfl, rfl, rfl, rfl⟩ | ⟨hmode, rfl, rfl, rfl, rfl⟩
  · exact ⟨by simp only [Cell.shapeOf, hmode], rfl⟩
  · simp only [Cell.shapeOf, hmode]
    refine ⟨congrArg some (Prod.ext ?_ ?_), rfl⟩
    · show bits _ _ 9 % 2 ^ 6 + 1 = bits _ _ 6 + 1
      rw [bits, bits, show 2 ^ 9 = 2 ^ 6 * 8 by rfl, Nat.mod_mul_right_mod]
    · show bits _ _ 9 / 2 ^ 6 + 1 = bits _ _ 3 + 1
      rw [bits, bits, show 2 ^ 9 = 2 ^ 6 * 2 ^ 3 by rfl, Nat.mod_mul_right_div_self, Nat.div_div_eq_div_mul, Nat.pow_add]

/-- R233, R234: a pair of formats that the array allows is of two formats. -/
theorem fmts_of_pair {afmt wfmt : BitVec 4} (h : (pairOf afmt wfmt).isSome = true) :
    (fmtOf afmt).isNone = false ∧ (fmtOf wfmt).isNone = false := by
  unfold pairOf at h
  split at h
  · next ha hw => exact ⟨by rw [ha]; rfl, by rw [hw]; rfl⟩
  · cases h

/-! A unit takes a command (R180, R181). -/

theorem enqueue_free {c : Cell} {u : UnitId} {cmd : UnitCmd} (h : UnitFree c u cmd) (n len : Nat) (s : State) :
    enqueue n u len cmd c s = .go (s.setCell n ((c.setQueue u (c.queue u ++ [⟨cmd, c.pc, c.seq⟩])).retire len)) := by
  obtain ⟨htiles, hroom⟩ := h
  rw [enqueue, htiles, decide_eq_false (Nat.not_le.2 hroom)]
  rfl

section
variable {i : Instr} {h : Hdr} {len : Nat} {ill : Bool} {uses : List (Fin 32)} {f : Cell → State → Act} {s : State}

/-- A ready instruction whose operands pass their checks retires with its effect on its cell. -/
theorem retires_of_checkedOp {c : Cell} (hexec : exec i s = checkedOp h len ill uses f s) (hlegal : ill = false)
    (hr : Ready h len uses s) (hgoes : f (s.cell h.cell) s = .go (s.setCell h.cell (past (s.cell h.cell) len c))) :
    Retires i h len s c := by
  subst hlegal
  rw [Retires, hexec, checkedOp_ready hr, hgoes]
  rfl

/-- R181: with room in the unit, it enters the queue. -/
theorem enqueues_of_checkedOp {u : UnitId} {cmd : UnitCmd} (hexec : exec i s = checkedOp h len ill uses f s)
    (hlegal : ill = false) (hr : Ready h len uses s)
    (hpasses : f (s.cell h.cell) s = enqueue h.cell u len cmd (s.cell h.cell) s)
    (hfree : UnitFree (s.cell h.cell) u cmd) : Enqueues i h len s u cmd :=
  retires_of_checkedOp hexec hlegal hr (hpasses.trans (enqueue_free hfree ..))

end

/-! The instructions of the tiles (R230, R232). -/

section
variable {s : State} {h : Hdr} {c : Cell} {t ts tw : Fin 16} {rs1 rs2 : Fin 32} (hc : c = s.cell h.cell)
include hc

/-- R230: TLD and TST hand the addresses and the shape of their rows to the tile move unit. -/
theorem tileMove_enqueues {i : Instr} {mk : Nat → Nat → Nat → Nat → UnitCmd} {shape : Option Shape} {rows rb len : Nat}
    (hexec : exec i s = tileMove mk h t rs1 rs2 shape s) (hshape : ShapeIs c t shape rows rb len)
    (hr : Ready h len [rs1, rs2] s) (hgroup : Group c t 1) (hbase : (c.greg rs1).toNat % 32 = 0)
    (hstride : (c.greg rs2).toNat % 32 = 0) (hrow : OwnRange c (c.greg rs1) (32 * rb))
    (hlast : OwnRange c (c.greg rs1) ((rows - 1) * (c.greg rs2).toNat + 32 * rb))
    (hfree : UnitFree c .tmove (mk (c.greg rs1).toNat (c.greg rs2).toNat rows rb)) :
    Enqueues i h len s .tmove (mk (c.greg rs1).toNat (c.greg rs2).toNat rows rb) := by
  obtain ⟨hrows, rfl⟩ := shapeOf_of_shapeIs hshape
  subst hc
  refine enqueues_of_checkedOp hexec (by rw [hrows]; rfl) hr ?_ hfree
  simp [hrows, groupOk_of_group hgroup, hbase, hstride, rowsIn_of_own hrow hlast]

theorem tzero_enqueues (hr : Ready h 4 [] s) (hgroup : Group c t 1) (hfree : UnitFree c .tmove (.tzero t)) :
    Enqueues (.tzero h t) h 4 s .tmove (.tzero t) := by
  subst hc
  refine enqueues_of_checkedOp (execTzero.eq_def ..) rfl hr ?_ hfree
  simp [groupOk_of_group hgroup]

theorem tcopy_enqueues (hr : Ready h 4 [] s) (hgroup : Group c t 1) (hne : t ≠ ts) (hsource : Group c ts 1)
    (hfree : UnitFree c .tmove (.tcopy t ts)) : Enqueues (.tcopy h t ts) h 4 s .tmove (.tcopy t ts) := by
  subst hc
  refine enqueues_of_checkedOp (execTcopy.eq_def ..) rfl hr ?_ hfree
  simp [hne, groupOk_of_group hgroup, groupOk_of_group hsource]

/-- R232: TFREE clears at issue the flags of tiles that nothing holds. -/
theorem tfree_retires {mask : BitVec 17} (hr : Ready h 4 [] s) (hgroups : ∀ k, k < 16 → mask.getLsbD k = true → Group c k 1)
    (hfree : c.tilesFree 0 mask.toNat = true) : Retires (.tfree h mask) h 4 s { c with tuse := c.tuse &&& ~~~mask } := by
  subst hc
  refine retires_of_checkedOp (execTfree.eq_def ..) rfl hr ((if_neg fun hbad => ?_).trans (if_neg (by rw [hfree]; decide)))
  obtain ⟨k, hk, hbad⟩ := List.any_eq_true.1 hbad
  obtain ⟨hbit, hout⟩ := Bool.and_eq_true_iff.1 hbad
  have hin := (hgroups k (List.mem_range.1 hk) hbit).2 0 Nat.one_pos
  exact Nat.one_ne_zero (hin.symm.trans (of_decide_eq_true hout))

/-! The instructions of the array, of the address generator and of the matrix-vector path (R232 to R244). -/

theorem accz_enqueues (hr : Ready h 4 [] s) (hfree : UnitFree c .array .accz) : Enqueues (.accz h) h 4 s .array .accz := by
  subst hc
  exact enqueues_of_checkedOp (execAccz.eq_def ..) rfl hr rfl hfree

/-- R252: ARR changes cs.tcfg.ARR at issue, and holds no tile. -/
theorem arr_retires {a : BitVec 2} (hr : Ready h 4 [] s) (ha : a ≠ 3) (hroom : (c.queue .array).length < 4) :
    Retires (.arr h a) h 4 s (({ c with arr := a } : Cell).setQueue .array (c.queue .array ++ [⟨.arr, c.pc, c.seq⟩])) := by
  have hfree : UnitFree { c with arr := a } .array .arr :=
    ⟨List.all_eq_true.2 fun u _ => by simp [UnitCmd.reads, UnitCmd.writes], hroom⟩
  subst hc
  exact retires_of_checkedOp (execArr.eq_def ..) (beq_false_of_ne ha) hr (enqueue_free hfree ..)

theorem mma_enqueues {afmt wfmt : BitVec 4} {acol : BitVec 2} {acc : Bool} {shape : Option Shape} {rows rb len : Nat}
    (hshape : ShapeIs c t shape rows rb len) (hr : Ready h len [] s) (hreserved : ∀ sh, shape = some sh → sh.rb = 0)
    (hpair : (pairOf afmt wfmt).isSome = true) (hacol : acol.toNat < arrGroup c.arr) (hacts : Group c t (arrGroup c.arr))
    (hweights : Group c tw 4) (hfree : UnitFree c .array (.mma t tw afmt wfmt acol acc rows c.arr)) :
    Enqueues (.mma h t tw afmt wfmt acol acc shape) h len s .array (.mma t tw afmt wfmt acol acc rows c.arr) := by
  obtain ⟨hrows, rfl⟩ := shapeOf_of_shapeIs hshape
  obtain ⟨hafmt, hwfmt⟩ := fmts_of_pair hpair
  subst hc
  refine enqueues_of_checkedOp (execMma.eq_def ..) ?_ hr ?_ hfree
  · rw [hrows, hafmt, hwfmt]
    cases shape with
    | none => rfl
    | some sh => simp [hreserved sh rfl]
  · have hallowed : (pairOf afmt wfmt).isNone = false := by simpa using hpair
    simp [hrows, hallowed, acolOk, hacol, groupOk_of_group hacts, groupOk_of_group hweights]

theorem accmv_enqueues {fmt : BitVec 4} {rnd : BitVec 2} {nrows : BitVec 6} {f : Fmt} {cmd : UnitCmd}
    (hcmd : cmd = .accmv t fmt rnd (if rs1 = 0 then none else some ((c.greg rs1).setWidth 32)) (nrows.toNat + 1))
    (hr : Ready h 4 [rs1] s) (hfmt : fmtOf fmt = some f) (hrnd : (rndOf rnd).isSome = true) (hgroup : Group c t (fmtTiles f))
    (hfree : UnitFree c .array cmd) : Enqueues (.accmv h t fmt rnd rs1 nrows) h 4 s .array cmd := by
  subst hcmd hc
  have hmode : (rndOf rnd).isNone = false := by simpa using hrnd
  refine enqueues_of_checkedOp (execAccmv.eq_def ..) (by rw [hfmt, hmode]; rfl) hr ?_ hfree
  simp [hfmt, groupOk_of_group hgroup, lowW]

theorem cagset_enqueues (hr : Ready h 4 [rs1] s) (haligned : (c.greg rs1).toNat % 64 = 0) (hown : OwnRange c (c.greg rs1) 64)
    (hfree : UnitFree c .cag (.cagset (c.greg rs1).toNat)) :
    Enqueues (.cagset h rs1) h 4 s .cag (.cagset (c.greg rs1).toNat) := by
  subst hc
  refine enqueues_of_checkedOp (execCagset.eq_def ..) rfl hr ?_ hfree
  simp [haligned, ownRange_of_own hown]

/-- R241: a window descriptor is set, or stands in the queue of the address generator before the CONV. -/
theorem conv_enqueues {acol : BitVec 2} {acc : Bool} {v m : Nat} (hv : v = (c.greg rs1).toNat) (hm : m = (c.greg rs2).toNat)
    (hr : Ready h 4 [rs1, rs2] s) (hweights : Group c tw 4) (hacol : acol.toNat < arrGroup c.arr)
    (htaps : 1 ≤ bits v 40 8 ∧ bits v 40 8 ≤ 225) (hchannel : bits v 48 16 % 32 = 0) (hrows : 1 ≤ m ∧ m ≤ 64)
    (hwindow : c.cagv = true ∨ c.queue .cag ≠ [])
    (hfree : UnitFree c .array (.conv tw (bits v 0 32) (bits v 32 8) (bits v 40 8) (bits v 48 16) m acol acc c.arr)) :
    Enqueues (.conv h tw rs1 rs2 acol acc) h 4 s .array
      (.conv tw (bits v 0 32) (bits v 32 8) (bits v 40 8) (bits v 48 16) m acol acc c.arr) := by
  have hset : (!c.cagv && (c.queue .cag).isEmpty) = false := by
    rcases hwindow with hcagv | hqueue
    · rw [hcagv]
      rfl
    · rw [List.isEmpty_eq_false_iff.2 hqueue, Bool.and_false]
  subst hv hm hc
  refine enqueues_of_checkedOp (execConv.eq_def ..) rfl hr (if_neg ?_) hfree
  rw [hset, groupOk_of_group hweights, acolOk, decide_eq_true hacol]
  simp only [Bool.not_true, Bool.false_or, Bool.or_false, Bool.or_eq_true, decide_eq_true_eq]
  omega

/-- R244: the rows of both vectors lie in the 64 of the group. -/
theorem mvm_enqueues {batch xfmt wfmt : Bool} {kq : Byte} {nblk : BitVec 7} {k nb vecs : Nat} (hk : k = kq.toNat)
    (hnb : nb = nblk.toNat) (hvecs : vecs = if batch then 2 else 1) (hr : Ready h 8 [rs1, rs2] s) (hgroup : Group c t 4)
    (hdepth : 1 ≤ k ∧ k ≤ 128) (heven : wfmt = false → k % 2 = 0) (hblocks : 1 ≤ nb) (hrows : nb * vecs ≤ 64)
    (hweights : (c.greg rs1).toNat % 32768 = 0) (hvectors : (c.greg rs2).toNat % 128 = 0)
    (hweightsIn : OwnRange c (c.greg rs1) (nb * (if wfmt then k else k / 2) * 32768))
    (hvectorsIn : OwnRange c (c.greg rs2) (vecs * 128 * k))
    (hfree : UnitFree c .mv (.mvm t (c.greg rs1).toNat (c.greg rs2).toNat batch xfmt wfmt k nb)) :
    Enqueues (.mvm h t rs1 rs2 batch xfmt wfmt kq nblk) h 8 s .mv
      (.mvm t (c.greg rs1).toNat (c.greg rs2).toNat batch xfmt wfmt k nb) := by
  have hone : nb ≤ nb * vecs := Nat.le_mul_of_pos_right nb (by rw [hvecs]; split <;> decide)
  have hodd : ¬(wfmt = false ∧ k % 2 = 1) := fun ⟨hfour, hbad⟩ => by simp [heven hfour] at hbad
  have hlegal : ¬(k = 0 ∨ 128 < k ∨ (wfmt = false ∧ k % 2 = 1) ∨ nb = 0 ∨ 64 < nb ∨ 64 < nb * vecs ∨
      c.groupOk t 4 = false) := by
    simp only [groupOk_of_group hgroup, hodd, Bool.true_eq_false, or_false, false_or]
    omega
  subst hk hnb hvecs hc
  refine enqueues_of_checkedOp (execMvm.eq_def ..) rfl hr
    ((if_neg hlegal).trans ((if_neg (not_or.2 ⟨not_not.2 hweights, not_not.2 hvectors⟩)).trans ?_)) hfree
  rw [ownRange_of_own hweightsIn, ownRange_of_own hvectorsIn]

end

/-- Settles O18: each instruction whose operands pass their checks enters the queue of its unit, as its own law says. -/
theorem unitInstructionsComplete : Obligations.UnitInstructionsComplete := by
  intro s h t ts tw rs1 rs2
  refine ⟨?_, ?_, ?_, accz_enqueues rfl, fun a hr ha hroom => arr_retires rfl hr ha hroom, ?_, ?_, ?_, ?_, ?_⟩
  · intro shape rows rb len hshape hr hgroup hbase hstride hrow hlast
    exact ⟨tileMove_enqueues rfl rfl hshape hr hgroup hbase hstride hrow hlast,
      tileMove_enqueues rfl rfl hshape hr hgroup hbase hstride hrow hlast⟩
  · exact fun hr hgroup => ⟨tzero_enqueues rfl hr hgroup, tcopy_enqueues rfl hr hgroup⟩
  · exact fun hr mask hgroups hfree => tfree_retires rfl hr hgroups hfree
  · intro afmt wfmt acol acc shape rows rb len hshape hr hreserved hpair hacol hacts hweights
    exact mma_enqueues rfl hshape hr hreserved hpair hacol hacts hweights
  · exact fun fmt rnd nrows f hr hfmt hrnd hgroup => accmv_enqueues rfl rfl hr hfmt hrnd hgroup
  · exact fun hr haligned hown => cagset_enqueues rfl hr haligned hown
  · intro acol acc hr hweights hacol nt choff hsome hmax hchannel hrow hrows hwindow
    exact conv_enqueues rfl rfl rfl hr hweights hacol ⟨hsome, hmax⟩ hchannel ⟨hrow, hrows⟩ hwindow
  · intro batch xfmt wfmt kq nblk hr hgroup k nb vecs hk hkmax heven hblocks hrows hweights hvectors hweightsIn hvectorsIn
    exact mvm_enqueues rfl rfl rfl rfl hr hgroup ⟨hk, hkmax⟩ heven hblocks hrows hweights hvectors hweightsIn hvectorsIn

end Sys2Proof.Machine

/-! SUPPORT. Cell faults (R216): what their record changes, and what the abort of cells at which nothing waits leaves alone (R137,
R185). -/

namespace Sys2Proof.Machine

/-! Counters (R544). -/

/-- R544: an event changes what is observed, and nothing else. -/
theorem countEvent_frame (s : State) (ev unit : Nat) (parcel : Option Nat) (k : Nat) :
    s.countEvent ev unit parcel k = { s with ob := (s.countEvent ev unit parcel k).ob } := by
  have hrest : ({ s.countEvent ev unit parcel k with ob := {} } : State) = { s with ob := {} } :=
    view_foldl (fun s : State => ({ s with ob := {} } : State)) _ _ (fun s e _ => by dsimp only; (repeat' split) <;> rfl) s
  exact congrArg (fun t : State => { t with ob := (s.countEvent ev unit parcel k).ob }) hrest

/-! A doorbell's request ends with a code other than TICK_FULL (R139, R141). -/

theorem queue_modQueue_other (s : State) {p q p' q' : Nat} {g : Queue → Queue} (hg : g (s.queue p q) ≠ Queue.zero)
    (h : (p', q') ≠ (p, q)) : (s.modQueue p q g).queue p' q' = s.queue p' q' := by
  by_cases hp : p' = p
  · subst hp
    rw [State.queue, parcel_modQueue_of_ne hg, Parcel.queue_setQueue_ne _ fun hq => h (by rw [hq])]
    rfl
  · exact queue_of_parcel (parcel_modParcel_ne _ _ hp) _

/-- A record more waits in queue q of parcel p; the other queues, the cells, the instances and the log are left alone. -/
structure RecordAdded (s t : State) (p q : Nat) (d : Record) : Prop where
  queue : t.queue p q = (s.queue p q).addRecord d
  others : ∀ p' q', (p', q') ≠ (p, q) → t.queue p' q' = s.queue p' q'
  cells : t.cells = s.cells
  insts : t.insts = s.insts
  er : t.er = s.er

theorem complete_bell_added {r : Request} {f : Fin 8} {k : W32} (hsrc : r.src = .bell f k) {code : Byte}
    (hcode : code ≠ ccTickFull) (s : State) (p q : Nat) (detail : Byte) (ret : W32) (overrun share : Bool) (payload : List Byte)
    (pstat cell : Nat) : RecordAdded s (s.complete p q r code detail ret overrun share payload pstat cell) p q
      (r.record s.datum code detail ret overrun share cell) := by
  have hstill := still_noteEnd s p q r code detail
  refine ⟨queue_complete_bell hsrc .., fun p' q' hother => ?_, ?_, ?_, ?_⟩ <;> rw [complete_bell hsrc]
  · rw [queue_modQueue_other _ (addRecord_ne_zero _ _) hother, queue_of_still hstill]
  · exact (cells_of_still hstill :)
  · exact (insts_of_still hstill :)
  · rw [state_modQueue_er, State.noteEnd, if_neg hcode, countEvent_frame]

/-! The abort of quiet cells (R185). -/

/-- Neither a store nor a gather of the cell waits. -/
def Cell.Quiet (c : Cell) : Prop := c.sbuf = [] ∧ c.gather = []

@[simp] theorem writeResume_sbuf (c : Cell) : c.writeResume.sbuf = c.sbuf := by
  unfold Cell.writeResume; dsimp only; (repeat' split) <;> rfl
@[simp] theorem writeResume_faultPc (c : Cell) : c.writeResume.faultPc = c.faultPc := by
  unfold Cell.writeResume; dsimp only; (repeat' split) <;> rfl
@[simp] theorem writeResume_faultCause (c : Cell) : c.writeResume.faultCause = c.faultCause := by
  unfold Cell.writeResume; dsimp only; (repeat' split) <;> rfl

/-- R185: with nothing to drain and no gather to report, the abort changes the cell alone. -/
theorem abortCell_quiet {s : State} (hwf : spWf Cell.zero s.cells = true) {n : Nat} (hquiet : (s.cell n).Quiet) :
    s.abortCell n = s.modCell n Cell.abort := by
  obtain ⟨hsbuf, hgather⟩ := hquiet
  have hdrained : s.drainAll n = s := by
    rw [State.drainAll, hsbuf]
    exact modCell_same hwf (by rw [← hsbuf])
  rw [State.abortCell, hdrained, foldl_stays fun k _ => ?_]
  rw [hgather]
  rfl

/-- What the abort of some cells makes of a device: every other cell, and all that is no cell, is left alone. -/
structure Aborted (s t : State) (cells : List Nat) : Prop where
  frame : t = { s with cells := t.cells }
  others : ∀ n, n ∉ cells → t.cell n = s.cell n
  fault : ∀ n, (t.cell n).faultPc = (s.cell n).faultPc ∧ (t.cell n).faultCause = (s.cell n).faultCause
  gone : ∀ n ∈ cells, (t.cell n).inst = none

theorem abortCells_quiet {s : State} {cells : List Nat} (hwf : spWf Cell.zero s.cells = true)
    (hquiet : ∀ n ∈ cells, (s.cell n).Quiet) : Aborted s (cells.foldl (fun s n => s.abortCell n) s) cells := by
  induction cells generalizing s with
  | nil => exact ⟨rfl, fun _ _ => rfl, fun _ => ⟨rfl, rfl⟩, fun _ h => nomatch h⟩
  | cons a l ih =>
    rw [List.foldl_cons, abortCell_quiet hwf (hquiet a List.mem_cons_self)]
    have hself := cell_modCell_self hwf a Cell.abort
    have hother {n : Nat} (hne : n ≠ a) := cell_modCell_ne s Cell.abort hne
    have hnext : Aborted (s.modCell a Cell.abort) _ l := ih (spWf_spPut hwf _ _) fun n hn => by
      by_cases hne : n = a
      · rw [hne, hself]
        exact ⟨(writeResume_sbuf _).trans (hquiet a List.mem_cons_self).1, rfl⟩
      · rw [hother hne]
        exact hquiet n (List.mem_cons_of_mem _ hn)
    refine ⟨hnext.frame, fun n hn => ?_, fun n => ?_, fun n hn => ?_⟩
    · obtain ⟨hne, hl⟩ := not_or.1 (List.mem_cons.not.1 hn)
      rw [hnext.others n hl, hother hne]
    · rw [(hnext.fault n).1, (hnext.fault n).2]
      by_cases hne : n = a
      · rw [hne, hself]
        exact ⟨writeResume_faultPc _, writeResume_faultCause _⟩
      · rw [hother hne]
        exact ⟨rfl, rfl⟩
    · by_cases hl : n ∈ l
      · exact hnext.gone n hl
      · obtain rfl : n = a := (List.mem_cons.1 hn).resolve_right hl
        rw [hnext.others n hl, hself]
        rfl

/-! The abort of a launched request (R137, R185). -/

theorem startReady_noInsts {s : State} (h : s.insts = []) (p : Nat) : s.startReady p = s := by
  rw [State.startReady, State.instsOf, h]
  rfl

/-- R185: what runs alone ends, and nothing else can start: its request is all that completes. -/
theorem abortInst_alone {s : State} {i : Nat} {x : Inst} {r : Request} (hinsts : s.insts = [(i, some x)]) (htask : x.task = none)
    (hover : x.overrun = false) (hreq : x.req = some r) (hrun : x.running = true) (hwf : spWf Cell.zero s.cells = true)
    (hquiet : ∀ n ∈ x.cells, (s.cell n).Quiet) {f : Fin 8} {k : W32} (hsrc : r.src = .bell f k) {code : Byte}
    (hcode : code ≠ ccTickFull) (detail : Byte) : ∃ u v, Aborted s u x.cells ∧
      RecordAdded u v x.parcel x.q (r.record s.datum code detail 0 false true (x.cells.headD 0)) ∧
      s.abortInst i code detail = v.setInst i none ∧ (v.setInst i none).insts = [] := by
  have habort := abortCells_quiet hwf hquiet
  have hi : s.inst i = some x := by simp [State.inst, hinsts, spGet]
  generalize hu : x.cells.foldl (fun s n => s.abortCell n) s = u at habort
  have hdatum : u.datum = s.datum := (congrArg State.datum habort.frame :)
  have hadded := complete_bell_added hsrc hcode u x.parcel x.q detail 0 false true [] 0 (x.cells.headD 0)
  have hempty : ((u.complete x.parcel x.q r code detail 0 false true [] 0 (x.cells.headD 0)).setInst i none).insts = [] := by
    rw [state_setInst_insts, hadded.insts, (congrArg State.insts habort.frame :), hinsts]
    simp [spPut]
  refine ⟨u, _, habort, hdatum ▸ hadded, ?_, hempty⟩
  rw [State.abortInst, hi]
  simp only [hu, hover, hreq, State.endRequest, hrun, htask, launched_of_none htask, Bool.false_eq_true, if_false, if_true,
    Option.isNone_none]
  exact startReady_noInsts hempty _

/-! The record of a fault (R216). -/

theorem markFaulted_frame (s : State) (n : Nat) : s.markFaulted n = { s with cyc := (s.markFaulted n).cyc } := by
  unfold State.markFaulted
  split <;> rfl

/-- R216: a fault shows in cs.fault of the cell. -/
def Cell.faulted (pc cause : Nat) (c : Cell) : Cell :=
  { c with faultPc := BitVec.ofNat 16 pc, faultCause := BitVec.ofNat 8 cause }

/-- R216: the log entry of a fault. -/
def State.faultEntry (s : State) (n pc cause : Nat) : LogEntry := { logEntry s 0x0206 with
  parcel := BitVec.ofNat 8 (s.cell n).par, unit := BitVec.ofNat 16 n, aux := BitVec.ofNat 8 cause, arg := BitVec.ofNat 64 pc }

theorem noteFault_logged {s : State} (hlost : s.er.lost = false) (hqueue : s.er.queue = []) (n pc cause : Nat) :
    s.noteFault n pc cause =
      { s.modCell n (Cell.faulted pc cause) with er := { s.er with queue := [s.faultEntry n pc cause] } } := by
  have hroom : ((s.modCell n (Cell.faulted pc cause)).er.queue.foldl (fun n x => n + if x.cont.isSome then 2 else 1) 0) < 64 := by
    rw [state_modCell_er, hqueue]
    decide
  refine (log_room (s := s.modCell n (Cell.faulted pc cause)) (e := s.faultEntry n pc cause) hlost rfl hroom).trans ?_
  rw [state_modCell_er, hqueue]
  rfl

/-- What the record of a fault makes of a device. -/
structure Noted (s u : State) (n pc cause : Nat) : Prop where
  cell : ∀ m, u.cell m = (s.modCell n (Cell.faulted pc cause)).cell m
  wf : spWf Cell.zero u.cells = true
  logged : u.er.queue = [s.faultEntry n pc cause]
  insts : u.insts = s.insts
  parcels : u.parcels = s.parcels
  datum : u.datum = s.datum

theorem cellFault_noted {s : State} (hwf : spWf Cell.zero s.cells = true) (hlost : s.er.lost = false) (hqueue : s.er.queue = [])
    (n pc cause : Nat) :
    ∃ u, Noted s u n pc cause ∧ s.cellFault n pc cause = u.abortOn n ccAborted abMalformed := by
  refine ⟨(s.markFaulted n).noteFault n pc cause, ?_, rfl⟩
  rw [markFaulted_frame]
  generalize (s.markFaulted n).cyc = y
  rw [noteFault_logged (s := { s with cyc := y }) hlost hqueue]
  exact ⟨fun _ => rfl, spWf_spPut hwf _ _, rfl, rfl, rfl, rfl⟩

theorem Noted.quiet {s u : State} {n pc cause : Nat} (h : Noted s u n pc cause) (hwf : spWf Cell.zero s.cells = true) {m : Nat}
    (hquiet : (s.cell m).Quiet) : (u.cell m).Quiet := by
  rw [h.cell]
  by_cases hm : m = n
  · subst hm
    rw [cell_modCell_self hwf]
    exact hquiet
  · rwa [cell_modCell_ne _ _ hm]

/-- Settles O33: the fault is noted, and the abort of what runs alone completes its request. -/
theorem faultEndsTheRequest : Obligations.FaultEndsTheRequest := by
  intro s cell pc cause i x r f k hon hi htask hreq hsrc hrun hover hinsts hquiet hlost hqueue hwf hpc hcause
  obtain ⟨u, hu, hfault⟩ := cellFault_noted hwf hlost hqueue cell pc cause
  have hself : u.cell cell = (s.cell cell).faulted pc cause := (hu.cell _).trans (cell_modCell_self hwf ..)
  have honFault : (u.cell cell).inst = some i := by rw [hself]; exact hon
  obtain ⟨v, w, hv, hw, habort, hempty⟩ := abortInst_alone (hu.insts.trans hinsts) htask hover hreq hrun hu.wf
    (fun n hn => hu.quiet hwf (hquiet n hn)) hsrc (code := ccAborted) (by decide) abMalformed
  have hend : s.cellFault cell pc cause = w.setInst i none := by rw [hfault, State.abortOn, honFault]; exact habort
  have hcells (n : Nat) : (w.setInst i none).cell n = v.cell n := congrArg (spGet Cell.zero · n) hw.cells
  have hqueues (p q : Nat) : v.queue p q = s.queue p q :=
    queue_of_parcel (congrArg (spGet Parcel.zero · p) ((congrArg State.parcels hv.frame :).trans hu.parcels)) q
  obtain ⟨hpcKept, hcauseKept⟩ := hv.fault cell
  rw [hend]
  refine ⟨?_, ?_, ?_, ?_, fun n hn => ?_, ?_, fun p q hother => ?_⟩
  · rw [hcells, hpcKept, hself]
    exact Nat.mod_eq_of_lt hpc
  · rw [hcells, hcauseKept, hself]
    exact Nat.mod_eq_of_lt hcause
  · rw [state_setInst_er, hw.er, (congrArg State.er hv.frame :)]
    exact hu.logged
  · rw [State.inst, hempty]
    rfl
  · rw [hcells]
    exact hv.gone n hn
  · have hrecords := congrArg Queue.records hw.queue
    rw [hqueues, hu.datum] at hrecords
    exact hrecords
  · exact congrArg Queue.records ((hw.others p q hother).trans (hqueues p q))

end Sys2Proof.Machine

/-! SUPPORT. The counters of R544 in the completion of an external access and at the commit point of a unit command: two devices
that count them. -/

namespace Sys2Proof.Machine

/-! An access that another cell serves (R173, R544). -/

/-- A load of 8 bytes through a STORE window over the store of cell 5. -/
def farLoad : ExtAcc := { kind := .load 1 8 false, target := .storeSeg 5, addr := 0, pc := 0, seq := 0 }

/-- Cell 0 has sent that load, and counter 0 counts the foreign accesses that cell 5 serves: event 0x15 of unit 5. -/
def servingDevice : State := { cells := [(0, { ext := [farLoad] })], ob := { csel := [(0, 0x80005015)] } }

theorem servingDevice_counts :
    ∃ t, exec (.externalAccessComplete 0 .clean) servingDevice = .next t ∧ t.ob.cnt = [(0, 1)] :=
  ⟨_, rfl, by decide +kernel⟩

/-- Refutes O11: the statement lets a load change its own cell alone, but the cell that serves it counts it where a counter
selects that event (R544). In `servingDevice`, counter 0 reads 1 once the load has completed. -/
theorem not_externalAccessesComplete : ¬ Obligations.ExternalAccessesComplete := by
  intro h
  obtain ⟨hload, -⟩ := h servingDevice 0 5 .clean farLoad [] [] rfl (List.forall_mem_nil _) (List.forall_mem_nil _)
    (by decide) (.inr rfl) rfl (by decide)
  obtain ⟨t, ht, hcounts⟩ := servingDevice_counts
  cases ht.symm.trans (hload 1 8 false rfl rfl)
  cases hcounts

/-! A command that streams rows through the array (R242, R544). -/

/-- An MMA of one row: the activations in tile 0, the weights in tiles 4 to 7, both int8. -/
def oneRowMma : QCmd := { cmd := .mma 0 4 3 3 0 false 1 0, pc := 0, seq := 0 }

/-- The MMA is all that the array of cell 0 holds, and counter 0 counts the rows that this array streams: event 0x12 of unit 0. -/
def streamingDevice : State := { cells := [(0, { queues := [(0, [oneRowMma])] })], ob := { csel := [(0, 0x80000012)] } }

theorem streamingDevice_counts :
    ∃ t, exec (.unitCommandCommit 0 .array) streamingDevice = .next t ∧ t.ob.cnt = [(0, 1)] :=
  ⟨_, rfl, by decide +kernel⟩

/-- Refutes O19: the statement lets every command other than VCOPY change its own cell alone, but one that streams rows or
weight blocks is counted where a counter selects that event (R544). In `streamingDevice`, counter 0 reads 1 once the MMA has
committed. -/
theorem not_unitCommandsCommit : ¬ Obligations.UnitCommandsCommit := by
  intro h
  obtain ⟨-, -, -, -, -, hdone⟩ := h streamingDevice 0 .array oneRowMma [] (by decide) rfl (by decide) (by decide)
  obtain ⟨t, ht, hcounts⟩ := streamingDevice_counts
  cases ht.symm.trans (hdone _ nofun rfl)
  cases hcounts

end Sys2Proof.Machine

/-! SUPPORT. The moves between vector registers and lanes, general registers, the own store and the tiles, the reductions and
the conversion (R246, R249 to R251): what issue checks of their operands, and what each leaves in its cell. -/

namespace Sys2Proof.Machine

open Sys2Proof.Safety

/-! Lanes, folded (R246, R250). -/

@[simp] theorem length_lanesOf (r : Row) : (lanesOf r).length = 64 := by simp [lanesOf]

@[simp] theorem getElem_lanesOf (r : Row) (i : Nat) (hi : i < (lanesOf r).length) : (lanesOf r)[i] = laneOf r i := by
  simp [lanesOf]

theorem mem_lanesOf {r : Row} {x : W32} : x ∈ lanesOf r ↔ ∃ i, i < 64 ∧ x = laneOf r i := by
  simp [lanesOf, eq_comm]

/-- The larger of two lanes read as signed, the first where they are equal. -/
def maxSigned (a x : W32) : W32 := if a.slt x then x else a

theorem maxSigned_mem (a x : W32) : maxSigned a x = a ∨ maxSigned a x = x := by
  unfold maxSigned
  split <;> simp

theorem le_maxSigned (a x : W32) : a.toInt ≤ (maxSigned a x).toInt ∧ x.toInt ≤ (maxSigned a x).toInt := by
  unfold maxSigned
  split
  · next h => exact ⟨Int.le_of_lt (BitVec.slt_iff_toInt_lt.1 h), Int.le_refl _⟩
  · next h => exact ⟨Int.le_refl _, Int.not_lt.1 (mt BitVec.slt_iff_toInt_lt.2 h)⟩

theorem foldl_maxSigned_mem (l : List W32) (a : W32) : l.foldl maxSigned a ∈ a :: l := by
  induction l generalizing a with
  | nil => simp
  | cons x t ih =>
    rw [List.foldl_cons]
    rcases List.mem_cons.1 (ih (maxSigned a x)) with h | h
    · rw [h]
      rcases maxSigned_mem a x with e | e <;> simp [e]
    · simp [h]

theorem le_foldl_maxSigned (l : List W32) (a : W32) : ∀ x ∈ a :: l, x.toInt ≤ (l.foldl maxSigned a).toInt := by
  induction l generalizing a with
  | nil => simp
  | cons y t ih =>
    obtain ⟨ha, hy⟩ := le_maxSigned a y
    have hstart := ih (maxSigned a y) _ List.mem_cons_self
    simp only [List.foldl_cons, List.forall_mem_cons]
    exact ⟨ha.trans hstart, hy.trans hstart, fun x hx => ih _ x (List.mem_cons_of_mem _ hx)⟩

/-- Started at the most negative number, the largest lane is one of the lanes. -/
theorem foldl_maxSigned_lanes (r : Row) :
    (∃ i, i < 64 ∧ (lanesOf r).foldl maxSigned (BitVec.intMin 32) = laneOf r i) ∧
      ∀ i, i < 64 → (laneOf r i).toInt ≤ ((lanesOf r).foldl maxSigned (BitVec.intMin 32)).toInt := by
  have hle : ∀ i, i < 64 → (laneOf r i).toInt ≤ ((lanesOf r).foldl maxSigned (BitVec.intMin 32)).toInt := fun i hi =>
    le_foldl_maxSigned _ _ _ (List.mem_cons_of_mem _ (mem_lanesOf.2 ⟨i, hi, rfl⟩))
  refine ⟨?_, hle⟩
  rcases List.mem_cons.1 (foldl_maxSigned_mem (lanesOf r) (BitVec.intMin 32)) with h | h
  · refine ⟨0, by decide, BitVec.toInt_inj.1 (Int.le_antisymm ?_ (hle 0 (by decide)))⟩
    rw [h, BitVec.toInt_intMin]
    exact BitVec.le_toInt _
  · exact mem_lanesOf.1 h

/-! What the checks of VLD see (R203, R209, R246). -/

theorem vecAddr_eq (c : Cell) (rs1 : Fin 32) (imm : Byte) :
    vecAddr c rs1 imm = c.greg rs1 + BitVec.ofInt 64 (imm.toInt * 256) := by
  rw [vecAddr, BitVec.ofInt_mul]
  rfl

/-- R209: where no buffered store overlaps, a load reads memory. -/
theorem forward_of_noOverlap {c : Cell} {n : Nat} {t : Option ExtTarget} {a len : Nat} (h : NoOverlap c n t a len) :
    c.forward n t a len = .memory := by
  have hnone : c.youngest n t a len = none :=
    List.find?_eq_none.2 fun e he => by simp [h e (List.mem_reverse.1 he)]
  rw [Cell.forward, hnone]

/-! An effect that leaves PC and the place in program order (R197). -/

theorem retire_eq_past {old c : Cell} (hpc : c.pc = old.pc) (hseq : c.seq = old.seq) (len : Nat) :
    c.retire len = past old len c := by
  rw [Cell.retire, past, hpc, hseq]

/-- A ready instruction on its cell alone retires with its effect. -/
theorem retires_of_cellOp {i : Instr} {h : Hdr} {len : Nat} {uses : List (Fin 32)} {s : State} {f : Cell → Cell} {c : Cell}
    (hexec : exec i s = cellOp h len false uses f s) (hr : Ready h len uses s) (heffect : f (s.cell h.cell) = c)
    (hpc : c.pc = (s.cell h.cell).pc) (hseq : c.seq = (s.cell h.cell).seq) : Retires i h len s c := by
  rw [Retires, hexec, cellOp_ready hr, heffect, retire_eq_past hpc hseq]

/-- A ready instruction whose operands pass their checks retires with its effect on its cell. -/
theorem retires_of_passes {i : Instr} {h : Hdr} {len : Nat} {ill : Bool} {uses : List (Fin 32)} {s : State}
    {f : Cell → State → Act} {c : Cell} (hexec : exec i s = checkedOp h len ill uses f s) (hlegal : ill = false)
    (hr : Ready h len uses s) (hpc : c.pc = (s.cell h.cell).pc) (hseq : c.seq = (s.cell h.cell).seq)
    (hgoes : f (s.cell h.cell) s = .go (s.setCell h.cell (c.retire len))) : Retires i h len s c :=
  retires_of_checkedOp hexec hlegal hr (by rw [hgoes, retire_eq_past hpc hseq])

section
variable {s : State} {h : Hdr} {c : Cell} {rd vs vd rs1 : Fin 32} (hc : c = s.cell h.cell)
include hc

/-! Conversion and the own store (R246, R249, R262). -/

theorem vcvt_retires {sfmt dfmt : BitVec 4} {rnd : BitVec 2} {part : BitVec 3} {sf df : Fmt} {mode : Rnd}
    {r : Row × FpFlags × Bool × W64} (hres : r = vcvtRow sf df mode part.toNat h.cell (c.vreg vs) (c.vreg vd) c.rng)
    (hr : Ready h 8 [] s) (hsf : fmtOf sfmt = some sf) (hdf : fmtOf dfmt = some df) (hmode : rndOf rnd = some mode)
    (hpart : part.toNat < 2048 / (64 * max sf.bits df.bits)) :
    Retires (.vcvt h vd vs sfmt dfmt rnd part) h 8 s { c.setV vd r.1 with
      rng := r.2.2.2, status := c.status ||| (r.2.1.mask ||| (if r.2.2.1 then 8 else 0)) } := by
  subst hres hc
  refine retires_of_passes (execVcvt.eq_def ..) (by rw [hsf, hdf, hmode]; rfl) hr rfl rfl ?_
  simp [hsf, hdf, hmode, vcvtPartOk, hpart, Cell.orStatus, stVSAT]

theorem vld_retires {imm : Byte} {a : W64} (ha : a = c.greg rs1 + BitVec.ofInt 64 (imm.toInt * 256)) (hr : Ready h 4 [rs1] s)
    (haligned : a.toNat % 128 = 0) (hown : OwnRange c a 256) (hload : c.loadOut = false)
    (hbuf : NoOverlap c h.cell none a.toNat 256) (hclean : c.storeBad a.toNat 256 = false) :
    Retires (.vld h vd rs1 imm) h 4 s (c.setV vd (BitVec.ofNat 2048 (leNat (c.loadOwn a.toNat 256)))) := by
  rw [← vecAddr_eq] at ha
  subst ha hc
  refine retires_of_passes (execVld.eq_def ..) rfl hr rfl rfl ?_
  simp [haligned, ownRange_of_own hown, hload, forward_of_noOverlap hbuf, hclean, rowOfBytes]

theorem vst_retires {imm : Byte} {a : W64} (ha : a = c.greg rs1 + BitVec.ofInt 64 (imm.toInt * 256)) (hr : Ready h 4 [rs1] s)
    (haligned : a.toNat % 128 = 0) (hown : OwnRange c a 256) (hload : c.loadOut = false) (hbuf : c.sbuf = []) :
    Retires (.vst h vs rs1 imm) h 4 s (c.storeOwn a.toNat (leBytes 256 (c.vreg vs).toNat)) := by
  rw [← vecAddr_eq] at ha
  subst ha hc
  refine retires_of_passes (execVst.eq_def ..) rfl hr (cell_storeOwn_pc ..) (cell_storeOwn_seq ..) ?_
  simp [haligned, ownRange_of_own hown, hload, hbuf, rowBytes]

/-! Lanes written and read (R250). -/

theorem vbcast_retires (hr : Ready h 4 [rs1] s) : ∃ r : Row, (∀ i, i < 64 → laneOf r i = (c.greg rs1).setWidth 32) ∧
    Retires (.vbcast h vd rs1) h 4 s (c.setV vd r) := by
  subst hc
  refine ⟨_, fun i hi => ?_, retires_of_cellOp (execVbcast.eq_def ..) hr rfl rfl rfl⟩
  rw [laneOf_rowOfLanes _ (by simp) i hi, List.getElem_replicate, lowW]

theorem vins_retires (hr : Ready h 4 [rs1] s) (k : Fin 64) : ∃ r : Row,
    (∀ i, i < 64 → laneOf r i = if i = k.val then (c.greg rs1).setWidth 32 else laneOf (c.vreg vd) i) ∧
    Retires (.vins h vd rs1 k) h 4 s (c.setV vd r) := by
  subst hc
  refine ⟨_, fun i hi => ?_, retires_of_cellOp (execVins.eq_def ..) hr rfl rfl rfl⟩
  rw [laneOf_rowOfLanes _ (by simp) i hi, List.getElem_set, getElem_lanesOf, lowW]
  simp only [eq_comm]

theorem vmvg_retires (hr : Ready h 4 [rd] s) (k : Fin 64) :
    Retires (.vmvg h rd vs k) h 4 s (c.setG rd (BitVec.ofInt 64 (laneOf (c.vreg vs) k).toInt)) := by
  subst hc
  exact retires_of_cellOp (execVmvg.eq_def ..) hr rfl (cell_setG_pc ..) (cell_setG_seq ..)

/-! Reductions (R250, R268). -/

theorem vrsum_retires (hr : Ready h 4 [rd] s) : Retires (.vrsum h rd vs) h 4 s
    (c.setG rd (BitVec.ofInt 64 ((List.range 64).foldl (fun t i => t + (laneOf (c.vreg vs) i).toInt) 0))) := by
  subst hc
  refine retires_of_cellOp (execVrsum.eq_def ..) hr ?_ (cell_setG_pc ..) (cell_setG_seq ..)
  rw [lanesOf, List.foldl_map]

theorem vrmax_retires (hr : Ready h 4 [rd] s) : ∃ m : W32, (∃ i, i < 64 ∧ m = laneOf (c.vreg vs) i) ∧
    (∀ i, i < 64 → (laneOf (c.vreg vs) i).toInt ≤ m.toInt) ∧
    Retires (.vrmax h rd vs) h 4 s (c.setG rd (BitVec.ofInt 64 m.toInt)) := by
  obtain ⟨hlane, hle⟩ := foldl_maxSigned_lanes (c.vreg vs)
  subst hc
  exact ⟨_, hlane, hle, retires_of_cellOp (execVrmax.eq_def ..) hr rfl (cell_setG_pc ..) (cell_setG_seq ..)⟩

/-- R250, R268: an fp32 reduction by the pairwise tree writes its value and sets its flags. -/
theorem fpReduction_retires {i : Instr} {f : W32 → W32 → F32Res} {t : F32Res} (ht : t = f32Tree f (c.vreg vs))
    (hexec : exec i s = cellOp h 4 false [rd] (fun c => let r := f32Tree f (c.vreg vs)
      (c.setG rd (r.1.setWidth 64)).orStatus r.2.mask) s) (hr : Ready h 4 [rd] s) :
    Retires i h 4 s { c.setG rd (t.1.setWidth 64) with status := c.status ||| t.2.mask } := by
  subst ht hc
  refine retires_of_cellOp hexec hr ?_ (cell_setG_pc ..) (cell_setG_seq ..)
  rw [Cell.orStatus, cell_setG_status]

/-! Tile rows (R251). -/

theorem vtr_retires {t : Fin 16} {row : Fin 64} (hr : Ready h 4 [] s) (hgroup : Group c t 1)
    (hfree : c.tilesFree (2 ^ t.val) 0 = true) (hclean : c.tileBad t row 1 32 = false) :
    Retires (.vtr h vd t row) h 4 s (c.setV vd (c.tileRow t row)) := by
  subst hc
  refine retires_of_passes (execVtr.eq_def ..) rfl hr rfl rfl ?_
  simp [groupOk_of_group hgroup, hfree, hclean]

theorem vtw_retires {t : Fin 16} {row : Fin 64} (hr : Ready h 4 [] s) (hgroup : Group c t 1)
    (hfree : c.tilesFree 0 (2 ^ t.val) = true) :
    Retires (.vtw h vs t row) h 4 s { c.setTileRow t row (c.vreg vs) with
      tuse := c.tuse ||| BitVec.ofNat 17 (2 ^ t.val)
      latches := c.latches.filter (fun l => decide (l.tw + 4 ≤ t.val) || decide (t.val + 1 ≤ l.tw)) } := by
  subst hc
  refine retires_of_passes (execVtw.eq_def ..) rfl hr rfl rfl ?_
  simp [groupOk_of_group hgroup, hfree, Cell.useTiles, Cell.dropLatches]

end

/-- Settles O17: each instruction leaves in its cell what its own law says. -/
theorem vectorMovesComplete : Obligations.VectorMovesComplete := by
  intro s h rd vs vd rs1
  refine ⟨?_, ?_, vbcast_retires rfl, fun k hr => vins_retires rfl hr k, fun hr => ?_, ?_⟩
  · exact fun sfmt dfmt rnd part sf df mode hr hsf hdf hmode hpart => vcvt_retires rfl rfl hr hsf hdf hmode hpart
  · intro imm hr a haligned hown hload
    exact ⟨vld_retires rfl rfl hr haligned hown hload, vst_retires rfl rfl hr haligned hown hload⟩
  · exact ⟨vmvg_retires rfl hr, vrsum_retires rfl hr, vrmax_retires rfl hr,
      fpReduction_retires rfl rfl (execVrfsum.eq_def ..) hr, fpReduction_retires rfl rfl (execVrfmax.eq_def ..) hr⟩
  · exact fun t row hr hgroup => ⟨vtr_retires rfl hr hgroup, vtw_retires rfl hr hgroup⟩

end Sys2Proof.Machine

/-! SUPPORT. Integer array operations (R233 to R236, R264): the bits and the words of an accumulator row of which one block is
written, and the accumulator rows that an array operation writes. -/

namespace Sys2Proof.Machine

open Sys2Proof.Safety

/-! Bits of a number (R235, R264). -/

theorem testBit_bits (v lo w i : Nat) : (bits v lo w).testBit i = (decide (i < w) && v.testBit (lo + i)) := by
  rw [bits, Nat.testBit_mod_two_pow, Nat.testBit_div_two_pow, Nat.add_comm]

/-- A number with a field replaced, written as its three parts. -/
theorem setBits_eq (v lo w x : Nat) :
    setBits v lo w x = 2 ^ lo * (2 ^ w * (v / 2 ^ lo / 2 ^ w) + x % 2 ^ w) + v % 2 ^ lo := by
  have hlow := Nat.div_add_mod v (2 ^ lo)
  have hmid := congrArg (2 ^ lo * ·) (Nat.div_add_mod (v / 2 ^ lo) (2 ^ w))
  simp only [Nat.mul_add] at hmid
  rw [setBits, bits, Nat.mul_add, Nat.mul_comm (v / 2 ^ lo % 2 ^ w), Nat.mul_comm (x % 2 ^ w)]
  omega

theorem testBit_setBits (v lo w x i : Nat) :
    (setBits v lo w x).testBit i = if lo ≤ i ∧ i < lo + w then x.testBit (i - lo) else v.testBit i := by
  rw [setBits_eq, Nat.testBit_two_pow_mul_add _ (Nat.mod_lt _ (Nat.two_pow_pos lo)),
    Nat.testBit_two_pow_mul_add _ (Nat.mod_lt _ (Nat.two_pow_pos w)), Nat.testBit_mod_two_pow, Nat.testBit_mod_two_pow,
    Nat.testBit_div_two_pow, Nat.testBit_div_two_pow]
  by_cases hlow : i < lo
  · rw [if_pos hlow, if_neg (by omega), decide_eq_true hlow, Bool.true_and]
  · by_cases hmid : i - lo < w
    · rw [if_neg hlow, if_pos hmid, if_pos (by omega), decide_eq_true hmid, Bool.true_and]
    · rw [if_neg hlow, if_neg hmid, if_neg (by omega)]
      congr 1
      omega

/-- A field inside the one replaced reads the new value. -/
theorem bits_setBits_inside (v x : Nat) {lo w i n : Nat} (hlo : lo ≤ i) (hhi : i + n ≤ lo + w) :
    bits (setBits v lo w x) i n = bits x (i - lo) n := by
  refine Nat.eq_of_testBit_eq fun k => ?_
  rw [testBit_bits, testBit_bits, testBit_setBits, ← Nat.sub_add_comm hlo]
  by_cases hk : k < n
  · rw [if_pos (by omega)]
  · rw [decide_eq_false hk, Bool.false_and, Bool.false_and]

/-- A field that meets no bit of the one replaced reads as before. -/
theorem bits_setBits_outside (v x : Nat) {lo w i n : Nat} (hout : i + n ≤ lo ∨ lo + w ≤ i) :
    bits (setBits v lo w x) i n = bits v i n := by
  refine Nat.eq_of_testBit_eq fun k => ?_
  rw [testBit_bits, testBit_bits, testBit_setBits]
  by_cases hk : k < n
  · rw [if_neg (by omega)]
  · rw [decide_eq_false hk, Bool.false_and, Bool.false_and]

/-- A field of a number is one of a bit vector made of it, where that reaches. -/
theorem bits_toNat_ofNat (v : Nat) {i n w : Nat} (h : i + n ≤ w) : bits (BitVec.ofNat w v).toNat i n = bits v i n := by
  refine Nat.eq_of_testBit_eq fun k => ?_
  rw [testBit_bits, testBit_bits, BitVec.toNat_ofNat, Nat.testBit_mod_two_pow]
  by_cases hk : k < n
  · rw [decide_eq_true (show i + k < w by omega), Bool.true_and]
  · rw [decide_eq_false hk, Bool.false_and, Bool.false_and]

/-! Words of an accumulator row (R221). -/

theorem toNat_accWord (a : AccRow) (k : Nat) : (accWord a k).toNat = bits a.toNat (32 * k) 32 := by
  rw [accWord, BitVec.extractLsb'_toNat, Nat.shiftRight_eq_div_pow, bits]

/-- An accumulator row whose words from `lo` on are the given ones. -/
def putWords (old : AccRow) (lo : Nat) (ws : List W32) : AccRow :=
  BitVec.ofNat 8192 (setBits old.toNat (lo * 32) (ws.length * 32) (packNat 32 (ws.map (·.toNat))))

theorem toNat_accWord_putWords (old : AccRow) (lo : Nat) (ws : List W32) {k : Nat} (hk : k < 256) :
    (accWord (putWords old lo ws) k).toNat =
      bits (setBits old.toNat (lo * 32) (ws.length * 32) (packNat 32 (ws.map (·.toNat)))) (32 * k) 32 := by
  rw [toNat_accWord, putWords, bits_toNat_ofNat _ (by omega)]

theorem accWord_putWords_inside (old : AccRow) (lo : Nat) (ws : List W32) {j : Nat} (hj : j < ws.length) (hk : lo + j < 256) :
    accWord (putWords old lo ws) (lo + j) = ws[j] := by
  have hword : packNat 32 (ws.map (·.toNat)) / 2 ^ (32 * j) % 2 ^ 32 = ws[j].toNat := by
    rw [packNat_word _ _ _ (by simpa using hj), List.getElem_map, Nat.mod_eq_of_lt ws[j].isLt]
  refine BitVec.eq_of_toNat_eq ?_
  rw [toNat_accWord_putWords _ _ _ hk, bits_setBits_inside _ _ (by omega) (by omega), bits,
    show 32 * (lo + j) - lo * 32 = 32 * j by omega, hword]

theorem accWord_putWords_outside (old : AccRow) (lo : Nat) (ws : List W32) {k : Nat} (hk : k < 256)
    (hout : k < lo ∨ lo + ws.length ≤ k) : accWord (putWords old lo ws) k = accWord old k := by
  refine BitVec.eq_of_toNat_eq ?_
  rw [toNat_accWord_putWords _ _ _ hk, bits_setBits_outside _ _ (by omega), toNat_accWord]

/-! One word (R264). -/

theorem intAccumulate_word (old : W32) (sum : Int) :
    (intAccumulate old sum).1 = BitVec.ofInt 32 (clamp32 (old.toInt + sum)) := by
  unfold intAccumulate clamp32
  dsimp only
  split
  · rw [show max (-2147483648) (min 2147483647 (old.toInt + sum)) = -2147483648 by omega]
    rfl
  · split
    · rw [show max (-2147483648) (min 2147483647 (old.toInt + sum)) = 2147483647 by omega]
      rfl
    · rw [show max (-2147483648) (min 2147483647 (old.toInt + sum)) = old.toInt + sum by omega]

/-- R233: the blocks of an arrangement fill the 256 words of a row. -/
theorem arrGroup_mul_arrN (arr : BitVec 2) : arrGroup arr * arrN arr = 256 := by
  revert arr
  decide

theorem block_in_row {arr : BitVec 2} {acol : Nat} (h : acol < arrGroup arr) : acol * arrN arr + arrN arr ≤ 256 := by
  have := Nat.mul_le_mul_right (arrN arr) (Nat.succ_le_of_lt h)
  rwa [Nat.succ_mul, arrGroup_mul_arrN] at this

/-! Accumulator rows written in order (R236). -/

/-- A step that writes the next accumulator row and leaves cs.tuse as it is: `new` gives its row number, its operand and the old
row the new row. -/
structure WritesNextRow (new : Nat → Nat → AccRow → AccRow) (step : Cell × Nat → Nat → Cell × Nat) : Prop where
  next : ∀ st a, (step st a).2 = st.2 + 1
  acc : ∀ st a, (step st a).1.acc = spPut 0 (new st.2 a (st.1.accRow st.2)) st.2 st.1.acc
  tuse : ∀ st a, (step st a).1.tuse = st.1.tuse

namespace WritesNextRow

variable {new : Nat → Nat → AccRow → AccRow} {step : Cell × Nat → Nat → Cell × Nat} (hstep : WritesNextRow new step)
include hstep

theorem accRow_ne (st : Cell × Nat) (a : Nat) {m : Nat} (h : m ≠ st.2) : (step st a).1.accRow m = st.1.accRow m := by
  rw [Cell.accRow, hstep.acc]
  exact spGet_spPut_ne _ _ _ h

theorem accRow_self {st : Cell × Nat} (hw : spWf 0 st.1.acc = true) (a : Nat) :
    (step st a).1.accRow st.2 = new st.2 a (st.1.accRow st.2) := by
  rw [Cell.accRow, hstep.acc]
  exact spGet_spPut_self hw _ _

theorem canonical {st : Cell × Nat} (hw : spWf 0 st.1.acc = true) (a : Nat) : spWf 0 (step st a).1.acc = true := by
  rw [hstep.acc]
  exact spWf_spPut hw _ _

theorem foldl_tuse (acts : List Nat) (st : Cell × Nat) : (acts.foldl step st).1.tuse = st.1.tuse := by
  induction acts generalizing st with
  | nil => rfl
  | cons a t ih => rw [List.foldl_cons, ih, hstep.tuse]

theorem foldl_accRow_out (acts : List Nat) (st : Cell × Nat) {m : Nat} (h : m < st.2 ∨ st.2 + acts.length ≤ m) :
    (acts.foldl step st).1.accRow m = st.1.accRow m := by
  induction acts generalizing st with
  | nil => rfl
  | cons a t ih =>
    simp only [List.length_cons] at h
    rw [List.foldl_cons, ih _ (by rw [hstep.next]; omega), hstep.accRow_ne st a (by omega)]

theorem foldl_accRow_in (acts : List Nat) {st : Cell × Nat} (hw : spWf 0 st.1.acc = true) {i : Nat} (hi : i < acts.length) :
    (acts.foldl step st).1.accRow (st.2 + i) = new (st.2 + i) acts[i] (st.1.accRow (st.2 + i)) := by
  induction acts generalizing st i with
  | nil => cases hi
  | cons a t ih =>
    rw [List.foldl_cons]
    cases i with
    | zero => exact (hstep.foldl_accRow_out t _ (.inl (by rw [hstep.next]; omega))).trans (hstep.accRow_self hw a)
    | succ i =>
      have hrest := ih (hstep.canonical hw a) (Nat.lt_of_succ_lt_succ hi)
      rw [hstep.next, Nat.add_right_comm, Nat.add_assoc] at hrest
      rw [hrest, hstep.accRow_ne st a (by omega), List.getElem_cons_succ]

end WritesNextRow

/-! Integer array operations (R236, R264). -/

/-- The block that an integer array operation writes in row `m`, of activation row `a`. -/
def arrayBlock (fa fw : Fmt) (arr : BitVec 2) (tw w acol : Nat) (accum : Bool) (c : Cell) (m a : Nat) : List W32 :=
  ((List.range (arrN arr)).map (fun j => arrayWord fa fw false (arrRowBytes arr * 8 / w) (fun k => bits a (k * w) w)
    (fun k => blockElem c tw w (k * arrN arr + j))
    (if accum then accWord (c.accRow m) (acol * arrN arr + j) else 0))).map (·.1)

@[simp] theorem length_arrayBlock (fa fw : Fmt) (arr : BitVec 2) (tw w acol : Nat) (accum : Bool) (c : Cell) (m a : Nat) :
    (arrayBlock fa fw arr tw w acol accum c m a).length = arrN arr := by
  simp [arrayBlock]

/-- R264: a word is the old one plus the exact sum, clamped once. -/
theorem getElem_arrayBlock (fa fw : Fmt) (arr : BitVec 2) (tw w acol : Nat) (accum : Bool) (c : Cell) (m a j : Nat)
    (hj : j < (arrayBlock fa fw arr tw w acol accum c m a).length) :
    (arrayBlock fa fw arr tw w acol accum c m a)[j] = BitVec.ofInt 32 (clamp32
      ((if accum then (accWord (c.accRow m) (acol * arrN arr + j)).toInt else 0) +
        (List.range (arrRowBytes arr * 8 / w)).foldl (fun t k =>
          t + intValue fa (bits a (k * w) w) * intValue fw (blockElem c tw w (k * arrN arr + j))) 0)) := by
  simp [arrayBlock, arrayWord, intAccumulate_word, apply_ite BitVec.toInt]

section
variable {afmt wfmt : BitVec 4} {fa fw : Fmt} {w : Nat} (hpair : pairOf afmt wfmt = some (w, false))
  (hfa : fmtOf afmt = some fa) (hfw : fmtOf wfmt = some fw) (arr : BitVec 2) (tw acol : Nat) (accum : Bool) (acts : List Nat) (c : Cell)
include hpair hfa hfw

/-- R236: an integer array operation writes its rows in order, in each the block of its column. -/
theorem arrayOp_rows : ∃ step,
    WritesNextRow (fun m a old => putWords old (acol * arrN arr) (arrayBlock fa fw arr tw w acol accum c m a)) step ∧
      arrayOp afmt wfmt arr tw acol accum acts c = ({ (acts.foldl step (c, 0)).1 with acct := false } : Cell).useAcc := by
  rw [arrayOp, hpair, hfa, hfw]
  refine ⟨_, ?_, rfl⟩
  refine ⟨fun _ _ => rfl, fun st a => ?_, fun _ _ => rfl⟩
  simp only [putWords, length_arrayBlock]
  rfl

theorem arrayOp_acct : (arrayOp afmt wfmt arr tw acol accum acts c).acct = false := by
  obtain ⟨step, -, hop⟩ := arrayOp_rows hpair hfa hfw arr tw acol accum acts c
  rw [hop]
  rfl

theorem arrayOp_tuse : (arrayOp afmt wfmt arr tw acol accum acts c).tuse = c.tuse ||| 0x10000 := by
  obtain ⟨step, hstep, hop⟩ := arrayOp_rows hpair hfa hfw arr tw acol accum acts c
  rw [hop]
  exact congrArg (· ||| 0x10000) (hstep.foldl_tuse acts (c, 0))

theorem accRow_arrayOp_above {m : Nat} (hm : acts.length ≤ m) :
    (arrayOp afmt wfmt arr tw acol accum acts c).accRow m = c.accRow m := by
  obtain ⟨step, hstep, hop⟩ := arrayOp_rows hpair hfa hfw arr tw acol accum acts c
  rw [hop]
  exact hstep.foldl_accRow_out acts (c, 0) (.inr (by omega))

variable {c}

theorem accRow_arrayOp (hw : spWf 0 c.acc = true) {m : Nat} (hm : m < acts.length) :
    (arrayOp afmt wfmt arr tw acol accum acts c).accRow m =
      putWords (c.accRow m) (acol * arrN arr) (arrayBlock fa fw arr tw w acol accum c m acts[m]) := by
  obtain ⟨step, hstep, hop⟩ := arrayOp_rows hpair hfa hfw arr tw acol accum acts c
  have hrow := hstep.foldl_accRow_in acts (st := (c, 0)) hw hm
  rw [Nat.zero_add] at hrow
  rw [hop]
  exact hrow

end

/-- Settles O20: each word of the block is the old one plus the exact sum, clamped once, and the other words stay. -/
theorem arraySumsAreExact : Obligations.ArraySumsAreExact := by
  intro c afmt wfmt arr acol tw accum acts w fa fw hw hpair hfa hfw hacol _
  have hblock := block_in_row hacol
  refine ⟨fun m j hm hj => ?_, fun m k hk hout => ?_, arrayOp_acct hpair hfa hfw .., arrayOp_tuse hpair hfa hfw ..⟩
  · have hj' : j < arrN arr := hj
    rw [accRow_arrayOp hpair hfa hfw arr tw acol.toNat accum acts hw hm,
      accWord_putWords_inside _ _ _ (by simpa using hj') (by omega), getElem_arrayBlock, List.getD_eq_getElem _ _ hm]
  · by_cases hm : m < acts.length
    · rw [accRow_arrayOp hpair hfa hfw arr tw acol.toNat accum acts hw hm]
      exact accWord_putWords_outside _ _ _ hk (by simpa using hout hm)
    · rw [accRow_arrayOp_above hpair hfa hfw arr tw acol.toNat accum acts c (Nat.not_lt.1 hm)]

end Sys2Proof.Machine

/-! SUPPORT. The matrix-vector path (R243, R244, R266): the bound of its sums, and the tile rows that an MVM writes. -/

namespace Sys2Proof.Machine

/-! The integer formats in two's complement and in plain binary (R257). -/

theorem intValue_of_ofInt {f : Fmt} {raw : Nat} {v : Int} (h : f.value raw = .ofInt v) : intValue f raw = v := by
  simp only [intValue, h, Num.ofInt, decide_eq_true_eq]
  split <;> omega

theorem intValue_int4 (raw : Nat) :
    intValue .int4 raw = if 8 ≤ raw % 16 then ((raw % 16 : Nat) : Int) - 16 else (raw % 16 : Nat) :=
  intValue_of_ofInt (by simp [Fmt.value, Fmt.kind, Fmt.bits, apply_ite Num.ofInt])

theorem intValue_int8 (raw : Nat) :
    intValue .int8 raw = if 128 ≤ raw % 256 then ((raw % 256 : Nat) : Int) - 256 else (raw % 256 : Nat) :=
  intValue_of_ofInt (by simp [Fmt.value, Fmt.kind, Fmt.bits, apply_ite Num.ofInt])

theorem intValue_uint8 (raw : Nat) : intValue .uint8 raw = (raw % 256 : Nat) :=
  intValue_of_ofInt (by simp [Fmt.value, Fmt.kind, Fmt.bits])

/-! The sums (R244, R266). -/

theorem natAbs_foldl_add_le {g : Nat → Int} {bound : Nat} (h : ∀ i, (g i).natAbs ≤ bound) (k : Nat) :
    ((List.range k).foldl (fun t i => t + g i) 0).natAbs ≤ k * bound := by
  induction k with
  | zero => simp
  | succ k ih =>
    rw [List.range_succ, List.foldl_append, List.foldl_cons, List.foldl_nil, Nat.succ_mul]
    exact (Int.natAbs_add_le _ _).trans (Nat.add_le_add ih (h k))

theorem natAbs_mvmWeight_le (c : Cell) (wbase kb kblk : Nat) (w8 : Bool) (j n k : Nat) :
    (mvmWeight c wbase kb kblk w8 j n k).natAbs ≤ 128 := by
  unfold mvmWeight
  dsimp only
  split
  · rw [intValue_int8]
    split <;> omega
  · rw [intValue_int4]
    split <;> omega

theorem natAbs_mvmVector_le (xu8 : Bool) (raw : Nat) : (intValue (if xu8 then .uint8 else .int8) raw).natAbs ≤ 255 := by
  cases xu8
  · rw [if_neg Bool.false_ne_true, intValue_int8]
    split <;> omega
  · rw [if_pos rfl, intValue_uint8]
    omega

/-- R266: 16,384 products of at most 255 × 128. -/
theorem natAbs_mvmSum_le (c : Cell) (wbase xbase : Nat) {kq : Nat} (w8 xu8 : Bool) (j b n : Nat) (hkq : kq ≤ 128) :
    (mvmSum c wbase xbase kq w8 xu8 j b n).natAbs ≤ 534773760 := by
  have hsum : (mvmSum c wbase xbase kq w8 xu8 j b n).natAbs ≤ 128 * kq * (255 * 128) :=
    natAbs_foldl_add_le (fun i => by
      rw [Int.natAbs_mul]
      exact Nat.mul_le_mul (natAbs_mvmVector_le ..) (natAbs_mvmWeight_le ..)) _
  omega

/-- R244: so a word of 32 bits holds the exact sum. -/
theorem toInt_ofInt_mvmSum (c : Cell) (wbase xbase : Nat) {kq : Nat} (w8 xu8 : Bool) (j b n : Nat) (hkq : kq ≤ 128) :
    (BitVec.ofInt 32 (mvmSum c wbase xbase kq w8 xu8 j b n)).toInt = mvmSum c wbase xbase kq w8 xu8 j b n := by
  have hbound := natAbs_mvmSum_le c wbase xbase w8 xu8 j b n hkq
  exact BitVec.toInt_ofInt_eq_self (by decide) (by norm_num; omega) (by norm_num; omega)

/-! Rows of a tile group (R226, R244). -/

/-- Row `r` of tiles `td` to `td + n − 1`. -/
def Cell.setGroupRow (c : Cell) (td n r : Nat) (row : Nat → Row) : Cell :=
  (List.range n).foldl (fun c q => c.setTileRow (td + q) r (row q)) c

/-- Rows 0 to `m − 1` of tiles `td` to `td + n − 1`. -/
def Cell.setGroupRows (c : Cell) (td n m : Nat) (row : Nat → Nat → Row) : Cell :=
  (List.range m).foldl (fun c r => c.setGroupRow td n r (row r)) c

theorem setGroupRow_succ (c : Cell) (td n r : Nat) (row : Nat → Row) :
    c.setGroupRow td (n + 1) r row = (c.setGroupRow td n r row).setTileRow (td + n) r (row n) := by
  simp [Cell.setGroupRow, List.range_succ]

theorem setGroupRows_succ (c : Cell) (td n m : Nat) (row : Nat → Nat → Row) :
    c.setGroupRows td n (m + 1) row = (c.setGroupRows td n m row).setGroupRow td n m (row m) := by
  simp [Cell.setGroupRows, List.range_succ]

section
variable (c : Cell) (td n : Nat)

@[simp] theorem setGroupRow_status (r : Nat) (row : Nat → Row) : (c.setGroupRow td n r row).status = c.status := by
  induction n with
  | zero => rfl
  | succ n ih => rw [setGroupRow_succ, cell_setTileRow_status, ih]

@[simp] theorem setGroupRow_tsat (r : Nat) (row : Nat → Row) : (c.setGroupRow td n r row).tsat = c.tsat := by
  induction n with
  | zero => rfl
  | succ n ih => rw [setGroupRow_succ, cell_setTileRow_tsat, ih]

@[simp] theorem setGroupRows_status (m : Nat) (row : Nat → Nat → Row) : (c.setGroupRows td n m row).status = c.status := by
  induction m with
  | zero => rfl
  | succ m ih => rw [setGroupRows_succ, setGroupRow_status, ih]

@[simp] theorem setGroupRows_tsat (m : Nat) (row : Nat → Nat → Row) : (c.setGroupRows td n m row).tsat = c.tsat := by
  induction m with
  | zero => rfl
  | succ m ih => rw [setGroupRows_succ, setGroupRow_tsat, ih]

variable {c}

theorem setGroupRow_canonical (hw : spWf 0 c.tiles = true) (r : Nat) (row : Nat → Row) :
    spWf 0 (c.setGroupRow td n r row).tiles = true := by
  induction n with
  | zero => exact hw
  | succ n ih =>
    rw [setGroupRow_succ]
    exact spWf_spPut ih _ _

theorem setGroupRows_canonical (hw : spWf 0 c.tiles = true) (m : Nat) (row : Nat → Nat → Row) :
    spWf 0 (c.setGroupRows td n m row).tiles = true := by
  induction m with
  | zero => exact hw
  | succ m ih =>
    rw [setGroupRows_succ]
    exact setGroupRow_canonical td n ih m _

/-- What every tile row reads after a row of a group is written. -/
theorem tileRow_setGroupRow (hw : spWf 0 c.tiles = true) {r r' : Nat} (hr : r < 64) (hr' : r' < 64) (row : Nat → Row)
    (t : Nat) :
    (c.setGroupRow td n r row).tileRow t r' =
      if td ≤ t ∧ t < td + n ∧ r' = r then row (t - td) else c.tileRow t r' := by
  induction n with
  | zero => rw [if_neg (by omega)]; rfl
  | succ n ih =>
    rw [setGroupRow_succ]
    by_cases hlast : t = td + n ∧ r' = r
    · obtain ⟨rfl, rfl⟩ := hlast
      rw [tileRow_setTileRow_self (setGroupRow_canonical td n hw _ _), if_pos (by omega), Nat.add_sub_cancel_left]
    · rw [tileRow_setTileRow_ne _ _ (by omega), ih]
      exact if_congr (by omega) rfl rfl

/-- What every tile row reads after the first rows of a group are written. -/
theorem tileRow_setGroupRows (hw : spWf 0 c.tiles = true) {m r : Nat} (hm : m ≤ 64) (hr : r < 64) (row : Nat → Nat → Row)
    (t : Nat) :
    (c.setGroupRows td n m row).tileRow t r =
      if td ≤ t ∧ t < td + n ∧ r < m then row r (t - td) else c.tileRow t r := by
  induction m with
  | zero => rw [if_neg (by omega)]; rfl
  | succ m ih =>
    rw [setGroupRows_succ, tileRow_setGroupRow td n (setGroupRows_canonical td n hw m row) (by omega) hr, ih (by omega)]
    by_cases hlast : r = m
    · subst hlast
      simp
    · rw [if_neg (by omega)]
      exact if_congr (by omega) rfl rfl

end

/-! MVM (R244). -/

/-- Tile `q` of row `r` of an MVM: 64 sums of block `r / vecs` and vector `r % vecs`. -/
def mvmRow (c : Cell) (wbase xbase kq vecs : Nat) (w8 xu8 : Bool) (r q : Nat) : Row :=
  rowOfLanes ((List.range 64).map (fun i =>
    BitVec.ofInt 32 (mvmSum c wbase xbase kq w8 xu8 (r / vecs) (r % vecs) (64 * q + i))))

theorem laneOf_mvmRow (c : Cell) (wbase xbase kq vecs : Nat) (w8 xu8 : Bool) (r q : Nat) {i : Nat} (hi : i < 64) :
    laneOf (mvmRow c wbase xbase kq vecs w8 xu8 r q) i =
      BitVec.ofInt 32 (mvmSum c wbase xbase kq w8 xu8 (r / vecs) (r % vecs) (64 * q + i)) := by
  rw [mvmRow, laneOf_rowOfLanes _ (by simp) i hi]
  simp

theorem unitMvm_eq (td : Fin 16) (wbase xbase kq nblk : Nat) (batch xu8 w8 : Bool) (c : Cell) :
    unitMvm td wbase xbase batch xu8 w8 kq nblk c =
      let vecs := if batch then 2 else 1
      ((c.setGroupRows td 4 (nblk * vecs) (mvmRow c wbase xbase kq vecs w8 xu8)).useTiles td 4).dropLatches td 4 := by
  simp only [unitMvm, Cell.setGroupRows, Cell.setGroupRow, mvmRow, rowOfLanes, List.map_map]
  rfl

section
variable {td : Fin 16} {wbase xbase kq nblk vecs : Nat} {batch xu8 w8 : Bool} {c : Cell}

/-- What every tile row reads after an MVM. -/
theorem tileRow_unitMvm (hvecs : vecs = if batch then 2 else 1) (hw : spWf 0 c.tiles = true) (hrows : nblk * vecs ≤ 64)
    {r : Nat} (hr : r < 64) (t : Nat) :
    (unitMvm td wbase xbase batch xu8 w8 kq nblk c).tileRow t r =
      if td.val ≤ t ∧ t < td.val + 4 ∧ r < nblk * vecs then mvmRow c wbase xbase kq vecs w8 xu8 r (t - td)
      else c.tileRow t r := by
  subst hvecs
  rw [unitMvm_eq]
  exact tileRow_setGroupRows td 4 hw hrows hr _ t

/-- R243, R244: output n of block j and vector b. -/
theorem output_unitMvm (hvecs : vecs = if batch then 2 else 1) (hw : spWf 0 c.tiles = true) (hkq : kq ≤ 128)
    (hrows : nblk * vecs ≤ 64) {j b n : Nat} (hj : j < nblk) (hb : b < vecs) (hn : n < 256) :
    (laneOf ((unitMvm td wbase xbase batch xu8 w8 kq nblk c).tileRow (td + n / 64) (j * vecs + b)) (n % 64)).toInt =
      mvmSum c wbase xbase kq w8 xu8 j b n := by
  have hrow : j * vecs + b < nblk * vecs := by
    have := Nat.mul_le_mul_right vecs (Nat.succ_le_of_lt hj)
    rw [Nat.succ_mul] at this
    omega
  have hblock : (j * vecs + b) / vecs = j := by
    rw [Nat.add_comm, Nat.add_mul_div_right _ _ (by omega), Nat.div_eq_of_lt hb, Nat.zero_add]
  have hvector : (j * vecs + b) % vecs = b := by rw [Nat.mul_add_mod', Nat.mod_eq_of_lt hb]
  rw [tileRow_unitMvm hvecs hw hrows (by omega), if_pos (by omega), Nat.add_sub_cancel_left,
    laneOf_mvmRow _ _ _ _ _ _ _ _ _ (Nat.mod_lt _ (by decide)), hblock, hvector, Nat.div_add_mod]
  exact toInt_ofInt_mvmSum c wbase xbase w8 xu8 j b n hkq

end

/-- Settles O21: the bound of R266 lets each word hold its exact sum. -/
theorem matrixVectorNeverSaturates : Obligations.MatrixVectorNeverSaturates := by
  refine ⟨fun c wbase xbase kq w8 xu8 j b n hkq => natAbs_mvmSum_le c wbase xbase w8 xu8 j b n hkq, ?_⟩
  intro td wb xb kq nblk batch xf wf c vecs c' hw hkq hrows
  refine ⟨?_, ?_, fun j b n hj hb hn => output_unitMvm rfl hw hkq hrows hj hb hn, fun t r hr hout => ?_⟩
  · exact (congrArg Cell.status (unitMvm_eq ..)).trans (setGroupRows_status ..)
  · exact (congrArg Cell.tsat (unitMvm_eq ..)).trans (setGroupRows_tsat ..)
  · exact (tileRow_unitMvm (vecs := vecs) rfl hw hrows hr t).trans (if_neg (by omega))

end Sys2Proof.Machine

/-! SUPPORT. The values of the integer formats (R257): every encoding stands for an integer, read at the format's own width. -/

namespace Sys2Proof.Machine

theorem fmt_bits_pos (f : Fmt) : 0 < f.bits := by cases f <;> decide

theorem value_of_signed {f : Fmt} {lo hi : Int} (hkind : f.kind = .int lo hi) (hlo : lo < 0) (raw : Nat) :
    f.value raw = .ofInt (BitVec.ofNat f.bits raw).toInt := by
  have hhalf := Nat.two_pow_pred_mul_two (fmt_bits_pos f)
  simp only [Fmt.value, hkind, hlo, true_and, BitVec.toInt_eq_toNat_cond, BitVec.toNat_ofNat]
  by_cases hneg : 2 ^ (f.bits - 1) ≤ raw % 2 ^ f.bits
  · rw [if_pos hneg, if_neg (by omega)]
    simp
  · rw [if_neg hneg, if_pos (by omega)]

theorem value_of_unsigned {f : Fmt} {hi : Int} (hkind : f.kind = .int 0 hi) {raw : Nat} (hraw : raw < 2 ^ f.bits) :
    f.value raw = .ofInt raw := by
  simp [Fmt.value, hkind, Nat.mod_eq_of_lt hraw]

/-- An encoding that stands for an integer: its value as an integer, and as a number that is neither infinite nor a NaN. -/
theorem integer_of_value {f : Fmt} {raw : Nat} {v : Int} (h : f.value raw = .ofInt v) :
    intValue f raw = v ∧ ∃ n m, f.value raw = .fin n m 0 := ⟨intValue_of_ofInt h, _, _, h⟩

/-- Settles O22: the kind of each format says how its encodings are read. -/
theorem integerFormats : Obligations.IntegerFormats := by
  refine ⟨fun f w hf raw _ => ?_, fun f w hf raw hraw => ?_⟩
  · simp only [List.mem_cons, List.not_mem_nil, or_false, Prod.mk.injEq] at hf
    obtain ⟨rfl, rfl⟩ | ⟨rfl, rfl⟩ | ⟨rfl, rfl⟩ := hf
    · exact integer_of_value (value_of_signed (f := .int4) rfl (by decide) raw)
    · exact integer_of_value (value_of_signed (f := .int8) rfl (by decide) raw)
    · exact integer_of_value (value_of_signed (f := .int32) rfl (by decide) raw)
  · simp only [List.mem_cons, List.not_mem_nil, or_false, Prod.mk.injEq] at hf
    obtain ⟨rfl, rfl⟩ | ⟨rfl, rfl⟩ := hf
    · exact integer_of_value (value_of_unsigned (f := .uint4) rfl hraw)
    · exact integer_of_value (value_of_unsigned (f := .uint8) rfl hraw)

end Sys2Proof.Machine

/-! SUPPORT. The lane instructions (R247, R248, R267): what every lane of their result holds and the bits that their lanes set
together, and the integer operations on one lane. -/

namespace Sys2Proof.Machine

open Sys2Proof.Safety

/-! Every lane (R246, R247, R269). -/

/-- What a lane operation gives for lane i of its operands. -/
def laneResult (c : Cell) (sc : Bool) (rd rs1 rs2 : Fin 32) (f : W32 → W32 → W32 → LaneRes) (i : Nat) : LaneRes :=
  f (laneOf (c.vreg rs1) i) (if sc then (c.greg rs2).setWidth 32 else laneOf (c.vreg rs2) i) (laneOf (c.vreg rd) i)

theorem laneB_eq (c : Cell) (sc : Bool) (rs2 : Fin 32) :
    laneB c sc rs2 = (List.range 64).map (fun i => if sc then (c.greg rs2).setWidth 32 else laneOf (c.vreg rs2) i) := by
  cases sc <;> simp [laneB, lanesOf, lowW]

/-- The three operands, taken lane by lane. -/
theorem zipWith_lanes (c : Cell) (sc : Bool) (rd rs1 rs2 : Fin 32) (f : W32 → W32 → W32 → LaneRes) :
    List.zipWith (fun (ab : W32 × W32) d => f ab.1 ab.2 d) ((lanesOf (c.vreg rs1)).zip (laneB c sc rs2))
        (lanesOf (c.vreg rd)) =
      (List.range 64).map (laneResult c sc rd rs1 rs2 f) := by
  rw [laneB_eq, lanesOf, lanesOf, List.zip_map', List.zipWith_map, List.zipWith_self]
  rfl

theorem lanesAre_laneResult (c : Cell) (sc : Bool) (rd rs1 rs2 : Fin 32) (f : W32 → W32 → W32 → LaneRes) :
    let rs := (List.range 64).map (laneResult c sc rd rs1 rs2 f)
    LanesAre c sc rd rs1 rs2 f (rowOfLanes (rs.map (·.1))) (rs.foldl (fun m r => m ||| r.2) 0) := by
  refine ⟨fun i hi => ?_, List.foldl_map⟩
  rw [laneOf_rowOfLanes _ (by simp) i hi, List.getElem_map, List.getElem_map, List.getElem_range]
  rfl

/-- R247: an instruction whose result register holds `f` in every lane and that sets the bits of its lanes together. -/
def LanesRetire (i : Hdr → Bool → Fin 32 → Fin 32 → Fin 32 → Instr) (f : W32 → W32 → W32 → LaneRes) : Prop :=
  ∀ (s : State) (h : Hdr) (sc : Bool) (rd rs1 rs2 : Fin 32), Ready h 4 (if sc then [rs2] else []) s →
    let c := s.cell h.cell
    ∃ (r : Row) (fl : W64), LanesAre c sc rd rs1 rs2 f r fl ∧
      Retires (i h sc rd rs1 rs2) h 4 s { c.setV rd r with status := c.status ||| fl }

theorem laneOp_retires {i : Instr} {s : State} {h : Hdr} {sc : Bool} {rd rs1 rs2 : Fin 32} {f : W32 → W32 → W32 → LaneRes}
    (hexec : exec i s = laneOp h sc rd rs1 rs2 f s) (hr : Ready h 4 (if sc then [rs2] else []) s) :
    let c := s.cell h.cell
    ∃ (r : Row) (fl : W64), LanesAre c sc rd rs1 rs2 f r fl ∧
      Retires i h 4 s { c.setV rd r with status := c.status ||| fl } := by
  refine ⟨_, _, lanesAre_laneResult .., retires_of_cellOp (hexec.trans (laneOp.eq_def ..)) hr ?_ rfl rfl⟩
  dsimp only
  rw [zipWith_lanes, Cell.orStatus, cell_setV_status]

section
variable {i : Hdr → Bool → Fin 32 → Fin 32 → Fin 32 → Instr}

theorem lanesRetire_of_laneOp {f g : W32 → W32 → W32 → LaneRes}
    (hexec : ∀ h sc rd rs1 rs2 s, exec (i h sc rd rs1 rs2) s = laneOp h sc rd rs1 rs2 f s)
    (hf : ∀ a b d, f a b d = g a b d) : LanesRetire i g := by
  obtain rfl : f = g := funext fun a => funext fun b => funext fun d => hf a b d
  exact fun s h sc rd rs1 rs2 hr => laneOp_retires (hexec h sc rd rs1 rs2 s) hr

/-- An operation that sets no bits. -/
theorem lanesRetire_of_plain {f g : W32 → W32 → W32}
    (hexec : ∀ h sc rd rs1 rs2 s, exec (i h sc rd rs1 rs2) s = lanePlain h sc rd rs1 rs2 f s)
    (hf : ∀ a b, f a b = g a b) : LanesRetire i (fun a b _ => (g a b, 0)) :=
  lanesRetire_of_laneOp hexec fun a b _ => congrArg (·, 0) (hf a b)

/-- R269: an fp32 operation gives its result and the bits of cs.status.FPF for its flags. -/
def fpLane (f : W32 → W32 → W32 → F32Res) (a b d : W32) : LaneRes := ((f a b d).1, (f a b d).2.mask)

theorem lanesRetire_of_f32 {f : W32 → W32 → F32Res}
    (hexec : ∀ h sc rd rs1 rs2 s, exec (i h sc rd rs1 rs2) s = laneF32 h sc rd rs1 rs2 f s) :
    LanesRetire i (fpLane fun a b _ => f a b) := lanesRetire_of_laneOp hexec fun _ _ _ => rfl

/-- An operation of one operand has no second one for SC to choose. -/
theorem lanesRetire_of_unary {f g : W32 → LaneRes}
    (hexec : ∀ h sc rd rs1 rs2 s, exec (i h sc rd rs1 rs2) s = laneOp h false rd rs1 0 (fun a _ _ => f a) s)
    (hf : ∀ a, f a = g a) : LanesRetire i (fun a _ _ => g a) := by
  obtain rfl : f = g := funext hf
  intro s h sc rd rs1 rs2 hr
  exact laneOp_retires (sc := false) (hexec h sc rd rs1 rs2 s) { hr with regsFree := nofun }

end

/-! One integer lane (R200, R247, R267). -/

section
variable (a b : W32)

theorem add_eq_ofInt : a + b = BitVec.ofInt 32 (a.toInt + b.toInt) := by
  rw [BitVec.ofInt_add, BitVec.ofInt_toInt, BitVec.ofInt_toInt]

theorem sub_eq_ofInt : a - b = BitVec.ofInt 32 (a.toInt - b.toInt) := by
  rw [Int.sub_eq_add_neg, BitVec.ofInt_add, BitVec.ofInt_neg, BitVec.ofInt_toInt, BitVec.ofInt_toInt, BitVec.sub_eq_add_neg]

theorem mul_eq_ofInt : a * b = BitVec.ofInt 32 (a.toInt * b.toInt) := by
  rw [BitVec.ofInt_mul, BitVec.ofInt_toInt, BitVec.ofInt_toInt]

theorem laneShl_eq : laneShl a b = if 32 ≤ b.toNat then 0 else BitVec.ofNat 32 (a.toNat * 2 ^ b.toNat) := by
  rw [laneShl]
  congr 1
  refine BitVec.eq_of_toNat_eq ?_
  rw [BitVec.toNat_shiftLeft, Nat.shiftLeft_eq, BitVec.toNat_ofNat]

theorem laneShr_eq : laneShr a b = if 32 ≤ b.toNat then 0 else BitVec.ofNat 32 (a.toNat / 2 ^ b.toNat) := by
  rw [laneShr]
  congr 1
  refine BitVec.eq_of_toNat_eq ?_
  rw [BitVec.toNat_ushiftRight, Nat.shiftRight_eq_div_pow, BitVec.toNat_ofNat,
    Nat.mod_eq_of_lt ((Nat.div_le_self _ _).trans_lt a.isLt)]

/-- A shift by 31 leaves the sign bit alone, and so does every longer one (R200). -/
theorem laneSar_eq : laneSar a b =
    if 32 ≤ b.toNat then (if a.toInt < 0 then -1 else 0) else BitVec.ofInt 32 (a.toInt / 2 ^ b.toNat) := by
  rw [laneSar, BitVec.sshiftRight_eq, Int.shiftRight_eq_div_pow]
  by_cases hlong : 32 ≤ b.toNat
  · have hlow := BitVec.le_toInt a
    have hhigh := a.toInt_lt
    rw [if_pos hlong, Nat.min_eq_right (by omega)]
    by_cases hneg : a.toInt < 0
    · rw [if_pos hneg, show a.toInt / ((2 ^ 31 : Nat) : Int) = -1 by omega]
      rfl
    · rw [if_neg hneg, show a.toInt / ((2 ^ 31 : Nat) : Int) = 0 by omega]
      rfl
  · rw [if_neg hlong, Nat.min_eq_left (by omega), Nat.cast_pow]
    rfl

theorem eq_intMin_iff : a = BitVec.intMin 32 ↔ a.toInt = -2147483648 := by
  rw [← BitVec.toInt_inj, BitVec.toInt_intMin]
  rfl

theorem laneNeg_eq : laneNeg a = (BitVec.ofInt 32 (-a.toInt), if a.toInt = -2147483648 then 4 else 0) := by
  simp only [laneNeg, eq_intMin_iff, BitVec.ofInt_neg, BitVec.ofInt_toInt, stVOV]
  rfl

theorem laneAbs_eq : laneAbs a = (BitVec.ofInt 32 a.toInt.natAbs, if a.toInt = -2147483648 then 4 else 0) := by
  have habs : (if a.msb then -a else a) = BitVec.ofInt 32 a.toInt.natAbs := by
    rw [BitVec.msb_eq_toInt]
    by_cases hneg : a.toInt < 0
    · rw [if_pos (decide_eq_true hneg), Int.ofNat_natAbs_of_nonpos hneg.le, BitVec.ofInt_neg, BitVec.ofInt_toInt]
    · rw [if_neg (by simpa using hneg), Int.natAbs_of_nonneg (Int.not_lt.1 hneg), BitVec.ofInt_toInt]
  simp only [laneAbs, habs, eq_intMin_iff, stVOV]
  rfl

/-- The smaller of two lanes by an order of their values: the first where they are equal. -/
theorem ite_gt_eq_ite_le {α : Type} [LinearOrder α] (value : W32 → α) :
    (if value b < value a then b else a) = if value a ≤ value b then a else b := by
  simp only [← not_lt, ite_not]

/-- The larger of two lanes by an order of their values: where the values are equal, so are the lanes. -/
theorem ite_lt_eq_ite_le {α : Type} [LinearOrder α] {value : W32 → α} (hinj : value.Injective) :
    (if value a < value b then b else a) = if value a ≤ value b then b else a := by
  rcases lt_trichotomy (value a) (value b) with hlt | heq | hgt
  · rw [if_pos hlt, if_pos hlt.le]
  · rw [hinj heq, ite_self, ite_self]
  · rw [if_neg hgt.asymm, if_neg hgt.not_ge]

theorem laneMask_eq (c : Bool) : laneMask c = if c then -1 else 0 := rfl

theorem laneSat_eq (v : Int) : laneSat v = (BitVec.ofInt 32 (clamp32 v), if clamp32 v = v then 0 else 8) := by
  unfold laneSat
  split
  · rw [show clamp32 v = -2147483648 by unfold clamp32; omega, if_neg (by omega)]
    rfl
  · split
    · rw [show clamp32 v = 2147483647 by unfold clamp32; omega, if_neg (by omega)]
      rfl
    · rw [show clamp32 v = v by unfold clamp32; omega, if_pos rfl]

end

/-! The instructions (R247, R248). -/

theorem lanesRetire_of_intLanes : ∀ op ∈ intLanes, LanesRetire op.1 op.2 := by
  simp only [intLanes, List.forall_mem_cons]
  refine ⟨lanesRetire_of_plain execVadd.eq_def add_eq_ofInt, lanesRetire_of_plain execVsub.eq_def sub_eq_ofInt,
    lanesRetire_of_plain execVmul.eq_def mul_eq_ofInt, lanesRetire_of_plain execVmulh.eq_def fun _ _ => rfl,
    lanesRetire_of_plain execVand.eq_def fun _ _ => rfl, lanesRetire_of_plain execVor.eq_def fun _ _ => rfl,
    lanesRetire_of_plain execVxor.eq_def fun _ _ => rfl, lanesRetire_of_plain execVsll.eq_def laneShl_eq,
    lanesRetire_of_plain execVsrl.eq_def laneShr_eq, lanesRetire_of_plain execVsra.eq_def laneSar_eq,
    lanesRetire_of_unary (fun h _ rd rs1 _ => execVneg.eq_def h rd rs1) laneNeg_eq,
    lanesRetire_of_unary (fun h _ rd rs1 _ => execVabs.eq_def h rd rs1) laneAbs_eq,
    lanesRetire_of_plain execVmin.eq_def ?_, lanesRetire_of_plain execVmax.eq_def ?_,
    lanesRetire_of_plain execVminu.eq_def ?_, lanesRetire_of_plain execVmaxu.eq_def ?_,
    lanesRetire_of_laneOp execVadds.eq_def fun _ _ _ => laneSat_eq _,
    lanesRetire_of_laneOp execVsubs.eq_def fun _ _ _ => laneSat_eq _,
    lanesRetire_of_laneOp execVmuls.eq_def fun _ _ _ => laneSat_eq _,
    lanesRetire_of_plain execVceq.eq_def fun _ _ => laneMask_eq _,
    lanesRetire_of_plain execVclt.eq_def fun _ _ => laneMask_eq _,
    lanesRetire_of_plain execVcltu.eq_def fun _ _ => laneMask_eq _,
    lanesRetire_of_laneOp execVsel.eq_def fun _ _ _ => rfl, nofun⟩
  · simpa [BitVec.slt_iff_toInt_lt] using fun a b => ite_gt_eq_ite_le a b BitVec.toInt
  · simpa [BitVec.slt_iff_toInt_lt] using fun a b => ite_lt_eq_ite_le a b fun _ _ => BitVec.toInt_inj.1
  · simpa [BitVec.ult_iff_toNat_lt] using fun a b => ite_gt_eq_ite_le a b BitVec.toNat
  · simpa [BitVec.ult_iff_toNat_lt] using fun a b => ite_lt_eq_ite_le a b fun _ _ => BitVec.eq_of_toNat_eq

theorem lanesRetire_of_fpLanes : ∀ op ∈ fpLanes, LanesRetire op.1 (fpLane op.2) := by
  simp only [fpLanes, List.forall_mem_cons]
  exact ⟨lanesRetire_of_f32 execVfadd.eq_def, lanesRetire_of_f32 execVfsub.eq_def, lanesRetire_of_f32 execVfmul.eq_def,
    lanesRetire_of_laneOp execVfma.eq_def fun _ _ _ => rfl, lanesRetire_of_f32 execVfmin.eq_def,
    lanesRetire_of_f32 execVfmax.eq_def, lanesRetire_of_unary (fun h _ rd rs1 _ => execVfneg.eq_def h rd rs1) fun _ => rfl,
    lanesRetire_of_unary (fun h _ rd rs1 _ => execVfabs.eq_def h rd rs1) fun _ => rfl,
    lanesRetire_of_f32 execVfceq.eq_def, lanesRetire_of_f32 execVfclt.eq_def, lanesRetire_of_f32 execVfcle.eq_def, nofun⟩

/-- Settles O16: every instruction of the two lists fills all lanes with its own operation and sets their bits together. -/
theorem lanesComplete : Obligations.LanesComplete := ⟨lanesRetire_of_intLanes, lanesRetire_of_fpLanes⟩

end Sys2Proof.Machine

/-! SUPPORT. The own store (R121, R171): what is read of it after bytes are written, bytes of it read in parts, and rows written
at a stride. -/

namespace Sys2Proof.Machine

open Sys2Proof.Safety

/-! Ranges of undefined bytes (R121). -/

theorem markAt_append (l m : List (Nat × Nat × Nat)) (a : Nat) : markAt (l ++ m) a = (markAt l a).or (markAt m a) := by
  rw [markAt, List.find?_append, Option.map_or]
  rfl

theorem settleRange_cons (r : Nat × Nat × Nat) (rs : List (Nat × Nat × Nat)) (lo hi : Nat) :
    settleRange (r :: rs) lo hi = settleRange [r] lo hi ++ settleRange rs lo hi := by
  simp [settleRange]

/-- An address of the range taken out has no mark. -/
theorem markAt_settleRange_in (rs : List (Nat × Nat × Nat)) {lo hi a : Nat} (hlo : lo ≤ a) (hhi : a < hi) :
    markAt (settleRange rs lo hi) a = none := by
  rw [markAt, Option.map_eq_none_iff, List.find?_eq_none]
  intro q hq
  obtain ⟨r, -, hq⟩ := List.mem_flatMap.1 hq
  rcases List.mem_pair.1 (List.mem_of_mem_filter hq) with rfl | rfl <;> simp <;> omega

/-- An address outside the range taken out keeps its mark. -/
theorem markAt_settleRange_out (rs : List (Nat × Nat × Nat)) {lo hi a : Nat} (h : a < lo ∨ hi ≤ a) :
    markAt (settleRange rs lo hi) a = markAt rs a := by
  have hone (r : Nat × Nat × Nat) : markAt (settleRange [r] lo hi) a = markAt [r] a := by
    simp only [settleRange, List.flatMap_singleton, markAt, List.find?_filter, List.find?_cons, List.find?_nil]
    grind
  induction rs with
  | nil => rfl
  | cons r rs ih =>
    rw [settleRange_cons, markAt_append, hone, ih, ← markAt_append]
    rfl

/-! Bytes written (R171). -/

/-- A byte outside the written range reads as before. -/
theorem storeByte_storeOwn_out (c : Cell) {a b : Nat} {bs : List Byte} (h : b < a ∨ a + bs.length ≤ b) :
    (c.storeOwn a bs).storeByte b = c.storeByte b := by
  rw [Cell.storeByte, Cell.storeByte, Cell.storeOwn, markAt_settleRange_out _ h, spGet_writeBytes_out _ _ _ _ h]

/-- A byte of the written range reads as written. -/
theorem storeByte_storeOwn_in {c : Cell} (hw : spWf 0 c.store = true) (a : Nat) {bs : List Byte} {i : Nat}
    (hi : i < bs.length) : (c.storeOwn a bs).storeByte (a + i) = bs[i] := by
  rw [Cell.storeByte, Cell.storeOwn, markAt_settleRange_in _ (Nat.le_add_right a i) (Nat.add_lt_add_left hi a)]
  exact spGet_writeBytes_in hw a bs i hi

theorem length_loadOwn (c : Cell) (a n : Nat) : (c.loadOwn a n).length = n := by simp [Cell.loadOwn]

/-- Reading a part of the written bytes. -/
theorem loadOwn_storeOwn_in {c : Cell} (hw : spWf 0 c.store = true) (a : Nat) {bs : List Byte} {i n : Nat}
    (h : i + n ≤ bs.length) : (c.storeOwn a bs).loadOwn (a + i) n = (bs.drop i).take n := by
  refine List.ext_getElem (by simp [Cell.loadOwn]; omega) fun j hj _ => ?_
  rw [length_loadOwn] at hj
  simp [Cell.loadOwn, Nat.add_assoc, storeByte_storeOwn_in hw a (i := i + j) (bs := bs) (by omega)]

/-- Reading all the written bytes. -/
theorem loadOwn_storeOwn_self {c : Cell} (hw : spWf 0 c.store = true) (a : Nat) {bs : List Byte} {n : Nat}
    (h : bs.length = n) : (c.storeOwn a bs).loadOwn a n = bs := by
  subst h
  simpa using loadOwn_storeOwn_in hw a (i := 0) (n := bs.length) (bs := bs) (by omega)

/-- Bytes that all read the same in two cells. -/
theorem loadOwn_congr {c c' : Cell} {a n : Nat} (h : ∀ b, a ≤ b → b < a + n → c'.storeByte b = c.storeByte b) :
    c'.loadOwn a n = c.loadOwn a n :=
  List.map_congr_left fun i hi => h _ (Nat.le_add_right a i) (Nat.add_lt_add_left (List.mem_range.1 hi) a)

/-- Bytes outside the written range read as before. -/
theorem loadOwn_storeOwn_out (c : Cell) {a b n : Nat} {bs : List Byte} (h : b + n ≤ a ∨ a + bs.length ≤ b) :
    (c.storeOwn a bs).loadOwn b n = c.loadOwn b n :=
  loadOwn_congr fun _ _ _ => storeByte_storeOwn_out c (by omega)

/-- Bytes are read in two parts. -/
theorem loadOwn_add (c : Cell) (a m n : Nat) : c.loadOwn a (m + n) = c.loadOwn a m ++ c.loadOwn (a + m) n := by
  simp [Cell.loadOwn, List.range_add, Nat.add_assoc]

/-- R288: the words of a list in the own store. -/
theorem wordsOf_loadOwn (c : Cell) (w a n : Nat) :
    wordsOf w (c.loadOwn a (w * n)) n = (List.range n).map (fun j => leNat (c.loadOwn (a + w * j) w)) := by
  induction n generalizing a with
  | zero => rfl
  | succ n ih =>
    rw [Nat.mul_succ, Nat.add_comm, loadOwn_add, wordsOf, List.take_left' (length_loadOwn ..),
      List.drop_left' (length_loadOwn ..), ih, List.range_succ_eq_map]
    simp [Nat.mul_succ, Nat.add_assoc, Nat.add_comm w]

/-- A shorter read touches no poisoned word where a longer one touches none (R523). -/
theorem storeBad_mono {c : Cell} {a m n : Nat} (h : m ≤ n) (hn : c.storeBad a n = false) : c.storeBad a m = false := by
  simp only [Cell.storeBad, List.any_eq_false, Bool.and_eq_true, decide_eq_true_eq] at hn ⊢
  exact fun e he hm => hn e he ⟨by omega, hm.2⟩

/-- A buffered store that overlaps a part of an access overlaps the access (R209). -/
theorem noOverlap_part {c : Cell} {n : Nat} {t : Option ExtTarget} {a len b m : Nat} (h : NoOverlap c n t a len)
    (hb : a ≤ b) (hm : b + m ≤ a + len) : NoOverlap c n t b m := by
  intro e he
  have hall := h e he
  simp only [SbEntry.overlaps, Bool.and_eq_false_iff, decide_eq_false_iff_not] at hall ⊢
  omega

/-! Rows written at a stride (R289). -/

/-- The cell once rows 0 to n − 1 are written, each of them at its place. -/
def Cell.storeRows (c : Cell) (base stride : Nat) (row : Nat → List Byte) (n : Nat) : Cell :=
  (List.range n).foldl (fun c j => c.storeOwn (base + j * stride) (row j)) c

section
variable (c : Cell) {base stride width : Nat} {row : Nat → List Byte}

theorem storeRows_succ (n : Nat) :
    c.storeRows base stride row (n + 1) = (c.storeRows base stride row n).storeOwn (base + n * stride) (row n) := by
  rw [Cell.storeRows, List.range_succ, List.foldl_append]
  rfl

theorem gather_storeRows (n : Nat) : (c.storeRows base stride row n).gather = c.gather :=
  view_foldl Cell.gather _ (fun c j => c.storeOwn (base + j * stride) (row j)) (fun _ _ _ => rfl) c

theorem wf_storeRows {c : Cell} (hw : spWf 0 c.store = true) (n : Nat) :
    spWf 0 (c.storeRows base stride row n).store = true :=
  List.foldlRecOn (motive := fun c : Cell => spWf 0 c.store = true) _ _ hw fun c hc _ _ => wf_storeOwn c _ _ hc

/-- A byte of no row reads as before. -/
theorem storeByte_storeRows_out {n b : Nat} (hrow : ∀ j, j < n → (row j).length = width)
    (h : ∀ j, j < n → b < base + j * stride ∨ base + j * stride + width ≤ b) :
    (c.storeRows base stride row n).storeByte b = c.storeByte b := by
  refine List.foldlRecOn (motive := fun u : Cell => u.storeByte b = c.storeByte b) _ _ rfl fun u hu j hj => ?_
  have hj := List.mem_range.1 hj
  rw [storeByte_storeOwn_out u (by rw [hrow j hj]; exact h j hj), hu]

/-- Rows no longer than the stride do not meet: each reads as written. -/
theorem loadOwn_storeRows {c : Cell} (hw : spWf 0 c.store = true) {n : Nat} (hrow : ∀ j, j < n → (row j).length = width)
    (hfits : width ≤ stride) {j : Nat} (hj : j < n) :
    (c.storeRows base stride row n).loadOwn (base + j * stride) width = row j := by
  induction n with
  | zero => cases hj
  | succ n ih =>
    rw [storeRows_succ]
    rcases Nat.lt_succ_iff_lt_or_eq.1 hj with hlt | rfl
    · have hnext : (j + 1) * stride ≤ n * stride := Nat.mul_le_mul_right _ hlt
      rw [Nat.succ_mul] at hnext
      rw [loadOwn_storeOwn_out _ (by omega), ih (fun i hi => hrow i (by omega)) hlt]
    · exact loadOwn_storeOwn_self (wf_storeRows hw j) _ (hrow j hj)

end

end Sys2Proof.Machine

/-! SUPPORT. The instructions of the Awl (R280, R285, R286, R304 to R307): what each finds at the address of its descriptor, and
what it makes of its cell, of the table directory and of the update log. -/

namespace Sys2Proof.Machine

open Sys2Proof.Safety

/-- A state that lists the same cells has the same cells. -/
theorem cell_of_cells {s t : State} (h : t.cells = s.cells) (n : Nat) : t.cell n = s.cell n := congrArg (spGet Cell.zero · n) h

/-- R285: where a descriptor can be read, the instruction goes on with its bytes. -/
theorem withDesc_passes {h : Hdr} {c : Cell} {a : W64} (hd : DescAt c h.cell a 64) (k : List Byte → Act) :
    withDesc h c a k = k (c.loadOwn a.toNat 64) := by
  obtain ⟨haligned, hown, hload, hbuf, hclean⟩ := hd
  simp [withDesc, haligned, ownRange_of_own hown, hload, forward_of_noOverlap hbuf, hclean]

/-- R285: a longer read at the same address covers the first 64 bytes. -/
theorem descAt_head {c : Cell} {n : Nat} {a : W64} {len : Nat} (hlen : 64 ≤ len) (hd : DescAt c n a len) :
    DescAt c n a 64 where
  aligned := hd.aligned
  inStore := ⟨hd.inStore.1, le_trans (Nat.add_le_add_left hlen _) hd.inStore.2⟩
  noLoad := hd.noLoad
  noStore := noOverlap_part hd.noStore le_rfl (by omega)
  clean := storeBad_mono hlen hd.clean

/-- The slots that AWAIT names, as the model tests them. -/
theorem awaits_iff (c : Cell) (arg : Byte) :
    ((arg.getLsbD 0 && decide ((c.slot 0).phase ≠ .idle)) || (arg.getLsbD 1 && decide ((c.slot 1).phase ≠ .idle))) = true ↔
      ∃ k : Fin 2, arg.getLsbD k = true ∧ (c.slot k).phase ≠ .idle := by
  simp [Fin.exists_fin_two]

section
variable {s : State} {h : Hdr} {c : Cell} {rd rs1 : Fin 32} (hc : c = s.cell h.cell)
include hc

/-! AGATH and AWAIT (R286, R289). -/

theorem agath_retires {k : Fin 2} {b : List Byte} {d : GatherDesc} (hb : b = c.loadOwn (c.greg rs1).toNat 64)
    (hdesc : d = gatherDescOf b) (hr : Ready h 4 [rs1] s) (hd : DescAt c h.cell (c.greg rs1) 64)
    (hidle : (c.slot k).phase = .idle)
    (hlegal : s.gatherLegal h.cell b (match c.graph with | some g => g.storeBytes | none => 0) = true)
    (haligned : d.aligned = true)
    (hlists : ∀ e ∈ [(d.idx, d.listBytes.1), (d.offs, d.listBytes.2.1), (d.wgt, d.listBytes.2.2)], e.2 ≠ 0 →
      s.winKind h.cell e.1 ≠ .undefined ∧ s.reachable h.cell e.1 e.2 true false = true) :
    Retires (.agath h rs1 (BitVec.ofNat 8 k)) h 4 s
      (c.setSlot k { GatherSlot.none with phase := .issued, desc := d, pc := c.pc }) := by
  have hslot : (if (BitVec.ofNat 8 k).getLsbD 0 then 1 else 0 : Fin 2) = k := by fin_cases k <;> rfl
  have hnone : decide (2 ≤ (BitVec.ofNat 8 k).toNat) = false := by fin_cases k <;> rfl
  have hgood : ∀ e ∈ [(d.idx, d.listBytes.1), (d.offs, d.listBytes.2.1), (d.wgt, d.listBytes.2.2)],
      (decide (e.2 ≠ 0) && (s.winKind h.cell e.1 == .undefined || !s.reachable h.cell e.1 e.2 true false)) = false := by
    intro e he
    by_cases hlen : e.2 = 0
    · simp [hlen]
    · simp [hlists e he hlen]
  obtain ⟨hidx, hgood⟩ := List.forall_mem_cons.1 hgood
  obtain ⟨hoffs, hgood⟩ := List.forall_mem_cons.1 hgood
  have hwgt := List.forall_mem_singleton.1 hgood
  subst hc hb hdesc
  refine retires_of_passes (execAgath.eq_def ..) hnone hr rfl rfl ?_
  dsimp only
  rw [hslot, if_neg (not_not.2 hidle), withDesc_passes hd, if_neg (by rw [Bool.not_eq_true', Bool.not_eq_false]; exact hlegal),
    if_neg (by rw [haligned]; decide), if_neg (by rw [hidx]; decide), if_neg (by rw [hoffs]; decide),
    if_neg (by rw [hwgt]; decide)]

theorem await_retires {arg : Byte} (hr : Ready h 4 [] s) (harg : arg.toNat < 4)
    (hidle : ¬ ∃ k : Fin 2, arg.getLsbD k = true ∧ (c.slot k).phase ≠ .idle) : Retires (.await h arg) h 4 s c := by
  subst hc
  refine retires_of_passes (execAwait.eq_def ..) (decide_eq_false (by omega)) hr rfl rfl ?_
  exact if_neg (mt (awaits_iff _ arg).1 hidle)

/-- R286: an AWAIT whose slots are not all idle waits at issue. -/
theorem await_waits {arg : Byte} (hr : Ready h 4 [] s) (harg : arg.toNat < 4)
    (hbusy : ∃ k : Fin 2, arg.getLsbD k = true ∧ (c.slot k).phase ≠ .idle) : exec (.await h arg) s = .next s := by
  subst hc
  rw [show exec (.await h arg) s = execAwait h arg s from rfl, execAwait, decide_eq_false (by omega), checkedOp_ready hr,
    if_pos ((awaits_iff _ arg).2 hbusy)]
  rfl

end

/-! ATAB (R279, R280). -/

theorem atab_refused {s : State} {p : Nat} {b : List Byte} (h : (s.parcel p).tableCode b ≠ 0) :
    s.atab p b = ((s.parcel p).tableCode b, s) := if_pos h

/-- What changes bytes of stacked memory lists the same cells and parcels. -/
@[simp] theorem cells_placeAnew (s : State) (p lo hi stks gran : Nat) : (s.placeAnew p lo hi stks gran).cells = s.cells := rfl
@[simp] theorem parcels_placeAnew (s : State) (p lo hi stks gran : Nat) :
    (s.placeAnew p lo hi stks gran).parcels = s.parcels := rfl
@[simp] theorem cells_placeSegs (s : State) (p lo hi : Nat) : (s.placeSegs p lo hi).cells = s.cells :=
  view_foldl State.cells _ _ (fun s d _ => by split <;> rfl) s
@[simp] theorem parcels_placeSegs (s : State) (p lo hi : Nat) : (s.placeSegs p lo hi).parcels = s.parcels :=
  parcels_of_core (core_placeSegs ..)

/-- R280: what ATAB writes into the entry of its table. -/
def tableEntryOf (b : List Byte) : Option TableDesc := if field b 2 1 % 2 = 1 then some (tableDescOf b) else none

/-- R280: the parcel whose directory has the entry that ATAB writes. -/
def Parcel.takeEntry (x : Parcel) (b : List Byte) : Parcel :=
  { x with tables := spPut none (tableEntryOf b) (field b 0 2) x.tables }

/-- R280, R284: an ATAB that is taken writes its entry, and bytes of stacked memory are placed anew. -/
theorem atab_taken {s : State} {p : Nat} {b : List Byte} (h : (s.parcel p).tableCode b = 0) :
    (s.atab p b).1 = 0 ∧ (s.atab p b).2.cells = s.cells ∧
      (s.atab p b).2.parcels = (s.modParcel p (·.takeEntry b)).parcels := by
  have hentry : (if field b 2 1 % 2 = 0 then none else some (tableDescOf b)) = tableEntryOf b := by
    unfold tableEntryOf
    split
    · rw [if_neg (by omega)]
    · rw [if_pos (by omega)]
  rw [State.atab]
  dsimp only
  rw [if_neg (not_not.2 h), hentry]
  refine ⟨rfl, ?_, ?_⟩
  all_goals
    dsimp only
    split <;> split <;> simp [Parcel.takeEntry]

/-- A register written, and the instruction past, on a cell of a list in canonical form. -/
theorem cell_setCell_setG {s t : State} {h : Hdr} (hw : spWf Cell.zero s.cells = true) (hcells : t.cells = s.cells)
    (rd : Fin 32) (v : W64) (len : Nat) :
    (t.setCell h.cell (((s.cell h.cell).setG rd v).retire len)).cell h.cell =
      past (s.cell h.cell) len ((s.cell h.cell).setG rd v) := by
  rw [cell_setCell_self (hcells ▸ hw), retire_eq_past (cell_setG_pc ..) (cell_setG_seq ..)]

section
variable {s : State} {h : Hdr} {c : Cell} {rd rs1 : Fin 32} (hc : c = s.cell h.cell)
include hc

theorem atab_returns_code {b : List Byte} (hb : b = c.loadOwn (c.greg rs1).toNat 64) (hr : Ready h 4 [rd, rs1] s)
    (hd : DescAt c h.cell (c.greg rs1) 64) (hcode : (s.parcel c.par).tableCode b ≠ 0) :
    Retires (.atab h rd rs1) h 4 s (c.setG rd (BitVec.ofNat 64 ((s.parcel c.par).tableCode b))) := by
  subst hc hb
  refine retires_of_passes (execAtab.eq_def ..) rfl hr (cell_setG_pc ..) (cell_setG_seq ..) ?_
  rw [withDesc_passes hd, atab_refused hcode]

theorem atab_writes_entry {b : List Byte} (hb : b = c.loadOwn (c.greg rs1).toNat 64) (hr : Ready h 4 [rd, rs1] s)
    (hd : DescAt c h.cell (c.greg rs1) 64) (hcells : spWf Cell.zero s.cells = true)
    (htables : spWf none (s.parcel c.par).tables = true) (hparcels : spWf Parcel.zero s.parcels = true)
    (hcode : (s.parcel c.par).tableCode b = 0) :
    ∃ t, exec (.atab h rd rs1) s = .next t ∧ t.cell h.cell = past c 4 (c.setG rd 0) ∧
      (t.parcel c.par).table (field b 0 2) = tableEntryOf b ∧
      ∀ tid, tid ≠ field b 0 2 → (t.parcel c.par).table tid = (s.parcel c.par).table tid := by
  obtain ⟨hret, hsame, hdir⟩ := atab_taken hcode
  have hparcel : (s.atab c.par b).2.parcel c.par = (s.parcel c.par).takeEntry b :=
    (congrArg (spGet Parcel.zero · c.par) hdir).trans (parcel_modParcel_self hparcels ..)
  refine ⟨(s.atab c.par b).2.setCell h.cell ((c.setG rd 0).retire 4), ?_, ?_, ?_, fun tid htid => ?_⟩
  · subst hc hb
    rw [show exec (.atab h rd rs1) s = execAtab h rd rs1 s from rfl, execAtab, checkedOp_ready hr, withDesc_passes hd]
    dsimp only
    rw [hret]
    rfl
  · subst hc
    exact cell_setCell_setG hcells hsame ..
  · show ((s.atab c.par b).2.parcel c.par).table _ = _
    rw [hparcel]
    exact spGet_spPut_self htables ..
  · show ((s.atab c.par b).2.parcel c.par).table _ = _
    rw [hparcel]
    exact spGet_spPut_ne _ _ _ htid

end

/-! AUPD (R304 to R307). -/

@[simp] theorem cells_stackWrite (s : State) (p stks gran a : Nat) (bs : List Byte) :
    (s.stackWrite p stks gran a bs).cells = s.cells := rfl
@[simp] theorem cells_countWrites (s : State) (p stks gran a n : Nat) : (s.countWrites p stks gran a n).cells = s.cells :=
  view_foldl State.cells _ _ (fun _ _ _ => cells_of_still (still_countEvent ..)) s
@[simp] theorem cells_writeLines (s : State) (p : Nat) (l : List Nat) (b : List Byte) :
    (s.writeLines p l b).cells = s.cells := by
  induction l generalizing s b with
  | nil => rfl
  | cons j l ih => rw [State.writeLines, ih, cells_stackWrite, cells_countWrites]

theorem acceptUpd_refused {s : State} {p free : Nat} {b : List Byte} (sess : Option (Fin 256 × Nat × W32 × Nat))
    (h : (s.parcel p).updCode free b ≠ 0) : s.acceptUpd p free sess b = ((s.parcel p).updCode free b,
      s.modParcel p (fun x => { x with upReject := satAdd32 x.upReject 1 })) := if_pos h

/-- R304: a record that is taken stands last in the log of its parcel, its bytes up to its LEN, and is written to lines. -/
theorem acceptUpd_taken {s : State} {p free : Nat} {b : List Byte} (sess : Option (Fin 256 × Nat × W32 × Nat))
    (h : (s.parcel p).updCode free b = 0) : ∃ (f : Parcel → Parcel) (lines : List Nat),
      s.acceptUpd p free sess b = (0, (s.modParcel p f).writeLines p lines (b.take (updLen b))) ∧
      (f (s.parcel p)).log.map (·.bytes) = (s.parcel p).log.map (·.bytes) ++ [b.take (updLen b)] ∧
      (f (s.parcel p)).upReject = (s.parcel p).upReject :=
  ⟨_, _, if_neg (not_not.2 h), List.map_append, rfl⟩

/-- R304 to R307: the code of a record, and what it leaves of the log and of the count of refused records. -/
theorem acceptUpd_spec (s : State) (p free : Nat) (sess : Option (Fin 256 × Nat × W32 × Nat)) (b : List Byte) :
    let code := (s.parcel p).updCode free b
    let u := (s.acceptUpd p free sess b).2
    (s.acceptUpd p free sess b).1 = code ∧ u.cells = s.cells ∧
      (u.parcel p).log.map (·.bytes) = (s.parcel p).log.map (·.bytes) ++ (if code = 0 then [b.take (updLen b)] else []) ∧
      (u.parcel p).upReject = if code = 0 then (s.parcel p).upReject else satAdd32 (s.parcel p).upReject 1 := by
  dsimp only
  by_cases h : (s.parcel p).updCode free b = 0
  · obtain ⟨f, lines, htaken, hlog, hcount⟩ := acceptUpd_taken sess h
    have hlisted : f (s.parcel p) ≠ Parcel.zero := fun e => by simp [e, Parcel.zero] at hlog
    rw [htaken, if_pos h, if_pos h, h, parcel_of_core (core_writeLines ..), parcel_modParcel_of_ne hlisted]
    exact ⟨rfl, cells_writeLines .., hlog, hcount⟩
  · rw [acceptUpd_refused sess h, if_neg h, if_neg h, parcel_modParcel_of_ne fun e =>
      satAdd32_one_ne_zero _ (congrArg Parcel.upReject e)]
    exact ⟨rfl, rfl, (List.append_nil _).symm, rfl⟩

theorem aupd_appends {s : State} {h : Hdr} {c : Cell} {rd rs1 : Fin 32} {len : Nat} (hc : c = s.cell h.cell)
    (hlen : len = max 64 (updLen (c.loadOwn (c.greg rs1).toNat 64))) (hr : Ready h 4 [rd, rs1] s)
    (hd : DescAt c h.cell (c.greg rs1) len) (hcells : spWf Cell.zero s.cells = true) {b : List Byte} {code : Nat}
    (hb : b = c.loadOwn (c.greg rs1).toNat len) (hcode : code = (s.parcel c.par).updCode (s.updFree c.par) b) :
    ∃ t, exec (.aupd h rd rs1) s = .next t ∧ t.cell h.cell = past c 4 (c.setG rd (BitVec.ofNat 64 code)) ∧
      (t.parcel c.par).log.map (·.bytes) =
        (s.parcel c.par).log.map (·.bytes) ++ (if code = 0 then [b.take (updLen b)] else []) ∧
      (t.parcel c.par).upReject =
        if code = 0 then (s.parcel c.par).upReject else satAdd32 (s.parcel c.par).upReject 1 := by
  have hhead : 64 ≤ len := hlen ▸ le_max_left ..
  have hrest : NoOverlap c h.cell none ((c.greg rs1).toNat + 64) (len - 64) :=
    noOverlap_part hd.noStore (Nat.le_add_right ..) (by omega)
  obtain ⟨hret, hsame, hlog, hcount⟩ := acceptUpd_spec s c.par (s.updFree c.par) none b
  rw [← hcode] at hret hlog hcount
  refine ⟨(s.acceptUpd c.par (s.updFree c.par) none b).2.setCell h.cell ((c.setG rd (BitVec.ofNat 64 code)).retire 4), ?_, ?_,
    hlog, hcount⟩
  · subst hc hb
    rw [show exec (.aupd h rd rs1) s = execAupd h rd rs1 s from rfl, execAupd, checkedOp_ready hr,
      withDesc_passes (descAt_head hhead hd)]
    dsimp only
    rw [← hlen, ownRange_of_own hd.inStore]
    dsimp only
    rw [forward_of_noOverlap hrest]
    dsimp only
    rw [hd.clean, hret]
    rfl
  · subst hc
    exact cell_setCell_setG hcells hsame ..

/-- Settles O34: AGATH and AWAIT meet the slots, ATAB the directory, AUPD the update log, as each one's own law says. -/
theorem awlInstructionsComplete : Obligations.AwlInstructionsComplete := by
  intro s h rd rs1
  refine ⟨fun k hr hd hidle hlegal haligned hlists => ?_, fun arg hr harg => ?_, fun hr hd hcells htables hparcels => ?_,
    fun len hlen hr hd hcells => ?_⟩
  · exact agath_retires rfl rfl rfl hr hd hidle hlegal haligned hlists
  · exact ⟨await_retires rfl hr harg, await_waits rfl hr harg⟩
  · exact ⟨atab_returns_code rfl rfl hr hd, atab_writes_entry rfl rfl hr hd hcells htables hparcels⟩
  · exact aupd_appends rfl hlen hr hd hcells rfl rfl

end Sys2Proof.Machine

/-! SUPPORT. Gathers at the Awl (R280, R284, R288 to R298): a gather is accepted or refused, a sector of a row comes, and the
output rows and the status record are written. -/

namespace Sys2Proof.Machine

open Sys2Proof.Safety

/-! Gather slots. -/

/-- The gather slot written is read back. -/
theorem slot_setSlot_self {c : Cell} (hw : spWf GatherSlot.none c.gather = true) (k : Fin 2) (g : GatherSlot) :
    (c.setSlot k g).slot k = g := spGet_spPut_self hw _ _

/-- A gather slot does not hold what the store reads. -/
@[simp] theorem storeByte_setSlot (c : Cell) (k : Fin 2) (g : GatherSlot) (a : Nat) :
    (c.setSlot k g).storeByte a = c.storeByte a := rfl
@[simp] theorem loadOwn_setSlot (c : Cell) (k : Fin 2) (g : GatherSlot) (a n : Nat) :
    (c.setSlot k g).loadOwn a n = c.loadOwn a n := rfl

/-- A cell changed in a state that lists the same cells is read back. -/
theorem cell_of_cells_modCell {s t : State} {n : Nat} {f : Cell → Cell} (hw : spWf Cell.zero s.cells = true)
    (h : t.cells = (s.modCell n f).cells) : t.cell n = f (s.cell n) :=
  (cell_of_cells h n).trans (cell_modCell_self hw n f)

theorem cells_modCell_of_cells {s t : State} (n : Nat) (f : Cell → Cell) (h : t.cells = s.cells) :
    (t.modCell n f).cells = (s.modCell n f).cells := by
  rw [state_modCell_cells, state_modCell_cells, cell_of_cells h, h]

/-! A gather ends at once (R289, R292). -/

theorem length_statusRecord (code flags rowsRead badIdx poison sat firstBad done : Nat) :
    (statusRecord code flags rowsRead badIdx poison sat firstBad done).length = 32 := by simp [statusRecord]

/-- R292: a refused gather leaves an idle slot and its status record. -/
theorem gatherRefused_spec {s : State} {n : Nat} {k : Fin 2} (g : GatherSlot) (code rowsRead : Nat)
    (hcells : spWf Cell.zero s.cells = true) (hgather : spWf GatherSlot.none (s.cell n).gather = true)
    (hstore : spWf 0 (s.cell n).store = true) :
    (((s.gatherRefused n k g code rowsRead).cell n).slot k).phase = .idle ∧
      ((s.gatherRefused n k g code rowsRead).cell n).loadOwn g.desc.status 32 =
        statusRecord code 0 rowsRead 0 0 0 0 s.datum := by
  have hcell : (s.gatherRefused n k g code rowsRead).cell n = ((s.cell n).storeOwn g.desc.status
      (statusRecord code 0 rowsRead 0 0 0 0 s.datum)).setSlot k .none :=
    cell_of_cells_modCell hcells (state_trace_cells ..)
  rw [hcell, slot_setSlot_self (c := (s.cell n).storeOwn ..) hgather, loadOwn_setSlot,
    loadOwn_storeOwn_self hstore _ (length_statusRecord ..)]
  exact ⟨rfl, rfl⟩

theorem gatherAccept_noTable {s : State} {cell : Fin 128} {k : Fin 2} {g : GatherSlot} (hg : g = (s.cell cell).slot k)
    (host : HostLists) (hphase : g.phase = .issued) (htable : (s.parcel (s.cell cell).par).table g.desc.tid = none) :
    exec (.gatherAccept cell k host) s = .next (s.gatherRefused cell k g 1 0) := by
  subst hg
  rw [show exec (.gatherAccept cell k host) s = execGatherAccept cell k host s from rfl, execGatherAccept]
  dsimp only
  rw [if_neg (not_not.2 hphase), htable]

/-! The lists of a gather in the own store (R286, R288). -/

section
variable {s : State} {n : Nat} {addr : W64} (hown : addr.toNat < 2 ^ 52)
include hown

/-- R202: window 0 is the own store, within its limit or not. -/
theorem resolve_own (len : Nat) (needR needW : Bool) :
    s.resolve n addr len needR needW = .own addr.toNat ∨ s.resolve n addr len needR needW = .outside := by
  have hwin : addr.toNat / 2 ^ 52 = 0 := Nat.div_eq_of_lt hown
  unfold State.resolve
  dsimp only
  rw [if_pos hwin, Nat.mod_eq_of_lt hown]
  exact ite_eq_or_eq ..

theorem listLines_own (len : Nat) : s.listLines n addr len = 0 := by
  have hhost : s.listHost n addr len = none := by
    unfold State.listHost
    rcases resolve_own hown (s := s) (n := n) len true false with h | h <;> simp [h]
  rw [State.listLines, hhost]

/-- A list of the own store without poison is read as it stands. -/
theorem withList_own {len : Nat} (hclean : len = 0 ∨ (s.cell n).storeBad addr.toNat len = false) (host : List Byte)
    (poison : Bool) (k : List Byte → State → Out) :
    s.withList n addr len host poison k = k ((s.cell n).loadOwn addr.toNat len) s := by
  have hgood : (decide (0 < len) && (s.cell n).storeBad addr.toNat len) = false := by
    rcases hclean with h | h <;> simp [h]
  have hread : s.readList n addr len host poison = (.bytes ((s.cell n).loadOwn addr.toNat len), s) := by
    unfold State.readList
    rcases resolve_own hown (s := s) (n := n) len true false with h | h <;> simp [h, hgood]
  rw [State.withList, hread]

end

/-! The rows of an accepted gather (R289, R293). -/

/-- R293: the good rows are those of the indices below ROWS, in list order. -/
theorem gatherRows_good (rows : Nat) (l : List Nat) (pos : Nat) :
    (gatherRows rows l pos).1 = ((List.range l.length).filter (fun j => decide (l.getD j 0 < rows))).map
      (fun j => ⟨pos + j, l.getD j 0, [], none, false⟩) := by
  induction l generalizing pos with
  | nil => rfl
  | cons i l ih =>
    have hrest : ((List.range l.length).map Nat.succ).filter (fun j => decide ((i :: l).getD j 0 < rows)) =
        ((List.range l.length).filter (fun j => decide (l.getD j 0 < rows))).map Nat.succ := by
      rw [List.filter_map]
      rfl
    rw [gatherRows, List.length_cons, List.range_succ_eq_map, List.filter_cons, List.getD_cons_zero, hrest]
    dsimp only
    by_cases hi : i < rows <;> simp [hi, ih, Nat.add_assoc, Nat.add_comm 1]

/-- Every index is good or bad. -/
theorem length_gatherRows (rows : Nat) (l : List Nat) (pos : Nat) :
    (gatherRows rows l pos).1.length + (gatherRows rows l pos).2.length = l.length := by
  induction l generalizing pos with
  | nil => rfl
  | cons i l ih =>
    have hrest := ih (pos + 1)
    rw [gatherRows]
    dsimp only
    split <;> simp only [List.length_cons] <;> omega

/-! Rows are sent (R163, R295, R297). -/

@[simp] theorem cells_countSectors (s : State) (i stack n : Nat) : (s.countSectors i stack n).cells = s.cells := by
  have hexcess (s : State) (x : Inst) : (s.declExcess i x).cells = s.cells := by
    unfold State.declExcess
    split
    · rfl
    · simp [State.logP]
  unfold State.countSectors
  split
  · rfl
  · dsimp only
    rw [apply_ite State.cells, hexcess, state_setInst_cells, ite_self]

/-- What sending a row leaves of it: all but the mark of its priority. -/
def GatherRow.sent (r : GatherRow) : Nat × Nat × List (Nat × List Byte) × Option Nat := (r.pos, r.index, r.got, r.poison)

theorem sendRows_spec (s : State) (p i : Nat) (t : TableDesc) (rows : List GatherRow) :
    (s.sendRows p i t rows).1.map GatherRow.sent = rows.map GatherRow.sent ∧ (s.sendRows p i t rows).2.cells = s.cells := by
  induction rows generalizing s with
  | nil => exact ⟨rfl, rfl⟩
  | cons r rest ih =>
    rw [State.sendRows]
    dsimp only
    rw [List.map_cons, (ih _).1, (ih _).2, cells_countSectors, state_modParcel_cells]
    exact ⟨rfl, rfl⟩

/-! GATHER_ACCEPT (R289, R293). -/

/-- R289: the slot of an accepted gather that uses neither offsets nor weights, with its rows and the positions of its bad
indices. -/
def GatherSlot.accept (g : GatherSlot) (t : TableDesc) (idx : List Nat) (rows : List GatherRow) (bad : List Nat) : GatherSlot :=
  { g with
    phase := .reading, table := t, idx := idx, offs := [], wgt := [], rows := rows
    badIdx := bad.length, firstBad := bad.head?, firstBadIdx := bad.head? }

/-- R287 to R289: an issued gather that the Awl takes: its table entry is valid, its rows fit, and its list of indices, the only
one it uses, lies in the own store, without poison. -/
structure TakesOwnList (s : State) (c : Cell) (g : GatherSlot) (tb : TableDesc) : Prop where
  issued : g.phase = .issued
  entry : (s.parcel c.par).table g.desc.tid = some tb
  stride : tb.dim * ofmtBytes g.desc.ofmt ≤ g.desc.ostride
  size : g.desc.nbag * tb.dim * ofmtBytes g.desc.ofmt ≤ 16384
  form : g.desc.iform = 0
  offs : g.desc.offs = 0
  pool : g.desc.pool ≠ 3
  wgt : g.desc.wgt = 0
  window : g.desc.idx.toNat < 2 ^ 52
  clean : c.storeBad g.desc.idx.toNat (4 * g.desc.nidx) = false

/-- R288: the list of indices of a gather, read from the own store. -/
def Cell.indexList (c : Cell) (d : GatherDesc) : List Nat :=
  (List.range d.nidx).map (fun j => leNat (c.loadOwn (d.idx.toNat + 4 * j) 4))

theorem gatherAccept_reads {s : State} {cell : Fin 128} {k : Fin 2} {c : Cell} {g : GatherSlot} {tb : TableDesc}
    {idx : List Nat} (hc : c = s.cell cell) (hg : g = c.slot k) (host : HostLists) (htakes : TakesOwnList s c g tb)
    (hidx : idx = c.indexList g.desc) :
    ∃ (rows : List GatherRow) (t : State), exec (.gatherAccept cell k host) s = .next t ∧
      rows.map GatherRow.sent = (gatherRows tb.rows idx 0).1.map GatherRow.sent ∧
      t.cells = (s.modCell cell fun c => c.setSlot k (g.accept tb idx rows (gatherRows tb.rows idx 0).2)).cells := by
  obtain ⟨hphase, htable, hstride, hsize, hiform, hoffs, hpool, hwgt, hown, hclean⟩ := htakes
  have hlists : g.desc.listBytes = (4 * g.desc.nidx, 0, 0) := by simp [GatherDesc.listBytes, hiform, hpool]
  have hzero : (0 : W64).toNat < 2 ^ 52 := by decide
  have hlines : s.listLines cell g.desc.idx (4 * g.desc.nidx) + s.listLines cell g.desc.offs 0 +
      s.listLines cell g.desc.wgt 0 = 0 := by
    rw [hoffs, hwgt, listLines_own hown, listLines_own hzero]
  subst hidx hg hc
  rw [Cell.indexList, ← wordsOf_loadOwn, show exec (.gatherAccept cell k host) s = execGatherAccept cell k host s from rfl,
    execGatherAccept]
  dsimp only
  rw [if_neg (not_not.2 hphase), htable]
  dsimp only
  rw [if_neg (Nat.not_lt.2 hstride), if_neg (Nat.not_lt.2 hsize), hlists]
  dsimp only
  rw [hlines, if_neg (by simp), if_pos rfl]
  rcases (s.cell cell).inst with _ | i
  all_goals
    simp only [↓reduceIte]
    rw [withList_own hown (.inr hclean), withList_own (hoffs ▸ hzero) (.inl rfl),
      withList_own (hwgt ▸ hzero) (.inl rfl), if_neg fun h => by simp [hiform] at h]
  · exact ⟨_, _, rfl, rfl, cells_modCell_of_cells _ _ (state_trace_cells ..)⟩
  · obtain ⟨hrows, hcells⟩ := sendRows_spec (s.modParcel _ _) _ i tb _
    exact ⟨_, _, rfl, hrows, cells_modCell_of_cells _ _ ((state_trace_cells ..).trans hcells)⟩

/-! A sector of a row comes (R280, R293, R298). -/

/-- What a read under a table's placement finds depends on the parcel's configuration and the stacks alone. -/
theorem tableRead_congr {s u : State} {p : Nat} (hcfg : (u.parcel p).cfg = (s.parcel p).cfg) (hstk : u.stk = s.stk)
    (t : TableDesc) (a : Nat) : u.tableRead p t a = s.tableRead p t a := by
  have hspace (ph : Nat) : (u.parcel p).inSpace ph = (s.parcel p).inSpace ph := by rw [Parcel.inSpace, hcfg]; rfl
  simp only [State.tableRead, State.placedByte, hspace, hstk]

/-- R434: a misplaced access is counted and logged. -/
theorem placeFault_spec (s : State) (p a : Nat) : (s.placeFault p a).cells = s.cells ∧ (s.placeFault p a).stk = s.stk ∧
    ((s.placeFault p a).parcel p).cfg = (s.parcel p).cfg := by
  have hcfg : ((s.modParcel p fun x => { x with smPlace := satAdd32 x.smPlace 1, smPlaceLogged := true }).parcel p).cfg =
      (s.parcel p).cfg := by
    rw [parcel_modParcel_of_ne fun e => Bool.true_eq_false.mp (congrArg Parcel.smPlaceLogged e)]
  unfold State.placeFault
  dsimp only
  split
  · exact ⟨rfl, rfl, hcfg⟩
  · exact ⟨state_log_cells .., state_log_stk .., (congrArg Parcel.cfg (parcel_of_still (still_logP ..) p)).trans hcfg⟩

@[simp] theorem cells_countSector (s : State) (ev ph : Nat) (o : Option Nat) : (s.countSector ev ph o).cells = s.cells := by
  rw [State.countSector, cells_of_still (still_countEvent ..)]

/-- R434, R445: a clean read of a sector is counted, and where it is misplaced that is counted too. -/
theorem awlRead_clean_eq (s : State) (p : Nat) (t : TableDesc) (a : Nat) :
    let ph := placeAt t.base t.rstride (stackList t.stks.toNat) a
    s.awlRead p t a .clean =
      (if (s.parcel p).inSpace ph then s else s.placeFault p a).countSector 0x20 ph (some p) := rfl

/-- R445: a clean read of a sector leaves the cells, the stacks and the parcel's configuration as they are. -/
theorem awlRead_clean (s : State) (p : Nat) (t : TableDesc) (a : Nat) : (s.awlRead p t a .clean).cells = s.cells ∧
    (s.awlRead p t a .clean).stk = s.stk ∧ ((s.awlRead p t a .clean).parcel p).cfg = (s.parcel p).cfg := by
  rw [awlRead_clean_eq, cells_countSector, stk_countSector, parcel_of_core (core_countSector ..)]
  split
  · exact ⟨rfl, rfl, rfl⟩
  · exact placeFault_spec ..

/-- R293: a complete row is counted with its slot, whose rows stay. -/
theorem rowComplete_spec (s : State) (n : Nat) (k : Fin 2) (g : GatherSlot) (pos : Nat) (poison : Option Nat) :
    ∃ g', (s.rowComplete n k g pos poison).cells = (s.modCell n (·.setSlot k g')).cells ∧ g'.rows = g.rows := by
  cases poison with
  | none => exact ⟨g, rfl, rfl⟩
  | some bad => exact ⟨_, cells_modCell_of_cells _ _ (state_log_cells ..), rfl⟩

theorem takeSector_spec (s : State) (n : Nat) (k : Fin 2) (g : GatherSlot) (r : GatherRow) (sec a : Nat) :
    ∃ g', (s.takeSector n k g r sec a).cells = (s.modCell n (·.setSlot k g')).cells ∧
      g'.rows = (g.withSector r sec a (s.tableRead (s.cell n).par g.table a)).2.rows := by
  unfold State.takeSector
  dsimp only
  split
  · obtain ⟨g', hcells, hrows⟩ := rowComplete_spec (s.countEvent 0x30 _ _ 1) n k
      (g.withSector r sec a (s.tableRead (s.cell n).par g.table a)).2 r.pos _
    exact ⟨g', hcells.trans (cells_modCell_of_cells _ _ (cells_of_still (still_countEvent ..))), hrows⟩
  · exact ⟨_, rfl, rfl⟩

section
variable {g : GatherSlot} {r : GatherRow} {pos : Nat} (hrow : g.rows.find? (fun r => decide (r.pos = pos)) = some r)
include hrow

/-- The row that a sector came for is found with it, and no other row changes. -/
theorem find_withSector (sec a : Nat) (d : List Byte × Bool) (j : Nat) :
    (g.withSector r sec a d).2.rows.find? (fun r => decide (r.pos = j)) =
      if j = pos then some (g.withSector r sec a d).1 else g.rows.find? (fun r => decide (r.pos = j)) := by
  have hpos : r.pos = pos := by simpa using List.find?_some hrow
  have hsame : (fun x : GatherRow => decide (x.pos = j)) ∘
      (fun x => if x.pos = r.pos then (g.withSector r sec a d).1 else x) = fun x => decide (x.pos = j) := by
    funext x
    by_cases hx : x.pos = r.pos <;> simp [hx, GatherSlot.withSector]
  have hmap : (g.withSector r sec a d).2.rows.find? (fun r => decide (r.pos = j)) =
      (g.rows.find? (fun r => decide (r.pos = j))).map (fun x => if x.pos = r.pos then (g.withSector r sec a d).1 else x) :=
    List.find?_map.trans (congrArg (fun q => (g.rows.find? q).map _) hsame)
  rw [hmap]
  by_cases hj : j = pos
  · subst hj
    rw [hrow, if_pos rfl, Option.map_some, if_pos rfl]
  · rw [if_neg hj]
    cases hfind : g.rows.find? (fun r => decide (r.pos = j)) with
    | none => rfl
    | some x =>
      have hx : x.pos = j := by simpa using List.find?_some hfind
      rw [Option.map_some, if_neg (by omega)]

theorem awlSectorData_takes {s : State} {cell : Fin 128} {k : Fin 2} {c : Cell} {sec : Nat} (hc : c = s.cell cell)
    (hg : g = c.slot k) (hphase : g.phase = .reading) (hsec : sec < g.table.rstride / 32) (hnew : ∀ e ∈ r.got, e.1 ≠ sec)
    (hgone : c.goneGather = []) :
    let a := g.table.base + r.index * g.table.rstride + 32 * sec
    exec (.awlSectorData cell k pos sec .clean) s =
      .next ((s.awlRead c.par g.table a .clean).takeSector cell k g r sec a) := by
  have hcomes : ¬ (g.table.rstride / 32 ≤ sec ∨ r.got.any (fun e => decide (e.1 = sec)) = true) := by
    simp only [List.any_eq_true, decide_eq_true_eq, not_or, not_le]
    exact ⟨hsec, fun ⟨e, he, h⟩ => hnew e he h⟩
  subst hc hg
  rw [show exec (.awlSectorData cell k pos sec .clean) s = execAwlSectorData cell k pos sec .clean s from rfl,
    execAwlSectorData]
  dsimp only
  rw [hgone, List.findSome?_nil, hphase, hrow]
  exact if_neg hcomes

end

/-! The output rows and the status record are written (R290 to R294). -/

/-- R291: the bytes of output row j. -/
def GatherSlot.outBytes (g : GatherSlot) (j : Nat) : List Byte :=
  (g.outRow j).flatMap (fun e => leBytes (ofmtBytes g.desc.ofmt) e.1)

theorem length_outBytes (g : GatherSlot) (j : Nat) : (g.outBytes j).length = g.table.dim * ofmtBytes g.desc.ofmt := by
  simp [GatherSlot.outBytes, GatherSlot.outRow, List.length_flatMap, Function.comp_def]

/-- R292, R294: the cell once a gather has committed. -/
def Cell.commitGather (c : Cell) (g : GatherSlot) (record : List Byte) : Cell :=
  (c.storeRows g.desc.out g.desc.ostride g.outBytes g.desc.nbag).storeOwn g.desc.status record

theorem gather_commitGather (c : Cell) (g : GatherSlot) (record : List Byte) : (c.commitGather g record).gather = c.gather :=
  gather_storeRows c _

theorem gatherCommit_writes {s : State} {cell : Fin 128} {k : Fin 2} {c : Cell} {g : GatherSlot} (hc : c = s.cell cell)
    (hg : g = c.slot k) (hphase : g.phase = .reading) (hrows : ∀ r ∈ g.rows, r.got.length = g.table.rstride / 32) :
    ∃ flags sat t, exec (.gatherCommit cell k) s = .next t ∧ t.cells = (s.modCell cell fun c =>
      (c.commitGather g (statusRecord 0 flags g.rows.length g.badIdx g.poison sat (g.firstBad.getD 0xFFFFFFFF)
        s.datum)).setSlot k .none).cells := by
  have hall : g.rows.all (fun r => r.complete g.table) = true := List.all_eq_true.2 fun r hr => decide_eq_true (hrows r hr)
  have hfold (u : Cell) : ((List.range g.desc.nbag).zip ((List.range g.desc.nbag).map g.outRow)).foldl (fun c e =>
      c.storeOwn (g.desc.out + e.1 * g.desc.ostride) (e.2.flatMap (fun x => leBytes (ofmtBytes g.desc.ofmt) x.1))) u =
      u.storeRows g.desc.out g.desc.ostride g.outBytes g.desc.nbag := by
    rw [List.zip_map_right, List.zip_eq_zipWith, List.zipWith_self, List.map_map, List.foldl_map]
    rfl
  have hlog (u : State) (p : Nat) (first : Option Nat) : (u.logBadIndex p g first).cells = u.cells := by
    unfold State.logBadIndex
    split
    · exact state_log_cells ..
    · rfl
  subst hc hg
  rw [show exec (.gatherCommit cell k) s = execGatherCommit cell k s from rfl, execGatherCommit]
  dsimp only
  rw [if_neg (by simp [hphase, hall]), hfold]
  exact ⟨_, _, _, rfl, (state_trace_cells ..).trans (hlog ..)⟩

section
variable {c : Cell} {g : GatherSlot} {record : List Byte} (hw : spWf 0 c.store = true) (hlen : record.length = 32)
include hlen

/-- A byte of neither an output row nor the status record reads as before. -/
theorem storeByte_commitGather_out {a : Nat} (hrows : ∀ j, j < g.desc.nbag → a < g.desc.out + j * g.desc.ostride ∨
      g.desc.out + j * g.desc.ostride + g.table.dim * ofmtBytes g.desc.ofmt ≤ a)
    (hstatus : a < g.desc.status ∨ g.desc.status + 32 ≤ a) : (c.commitGather g record).storeByte a = c.storeByte a := by
  rw [Cell.commitGather, storeByte_storeOwn_out _ (by omega),
    storeByte_storeRows_out c (fun j _ => length_outBytes g j) hrows]

include hw

/-- Every part of the status record reads as written. -/
theorem loadOwn_commitGather_record {i n : Nat} (h : i + n ≤ 32) :
    (c.commitGather g record).loadOwn (g.desc.status + i) n = (record.drop i).take n :=
  loadOwn_storeOwn_in (wf_storeRows hw _) _ (by omega)

/-- R287, R288: apart from the status record, every output row reads as written. -/
theorem loadOwn_commitGather_row (hfits : g.table.dim * ofmtBytes g.desc.ofmt ≤ g.desc.ostride)
    (hapart : g.desc.out + g.desc.nbag * g.desc.ostride ≤ g.desc.status ∨ g.desc.status + 32 ≤ g.desc.out) {j : Nat}
    (hj : j < g.desc.nbag) : (c.commitGather g record).loadOwn (g.desc.out + j * g.desc.ostride)
      (g.table.dim * ofmtBytes g.desc.ofmt) = g.outBytes j := by
  have hend : (j + 1) * g.desc.ostride ≤ g.desc.nbag * g.desc.ostride := Nat.mul_le_mul_right _ hj
  rw [Nat.succ_mul] at hend
  rw [Cell.commitGather, loadOwn_storeOwn_out _ (by omega),
    loadOwn_storeRows hw (fun j _ => length_outBytes g j) hfits hj]

end

/-! What each command of a gather does. -/

section
variable {s : State} {cell : Fin 128} {k : Fin 2} {c : Cell} {g : GatherSlot} (hc : c = s.cell cell) (hg : g = c.slot k)
  (hcells : spWf Cell.zero s.cells = true) (hgather : spWf GatherSlot.none c.gather = true)
include hc hg hcells hgather

theorem gatherAccept_refuses (hstore : spWf 0 c.store = true) (host : HostLists) (hphase : g.phase = .issued)
    (htable : (s.parcel c.par).table g.desc.tid = none) :
    ∃ t, exec (.gatherAccept cell k host) s = .next t ∧ ((t.cell cell).slot k).phase = .idle ∧
      (t.cell cell).loadOwn g.desc.status 32 = statusRecord 1 0 0 0 0 0 0 s.datum := by
  subst hc hg
  exact ⟨_, gatherAccept_noTable rfl host hphase htable, gatherRefused_spec _ 1 0 hcells hgather hstore⟩

/-- R289, R293: of the indices of an accepted gather, those below ROWS are read, and the others are bad. -/
theorem gatherAccept_accepts {tb : TableDesc} {idx good : List Nat} (host : HostLists) (htakes : TakesOwnList s c g tb)
    (hidx : idx = c.indexList g.desc)
    (hgood : good = (List.range g.desc.nidx).filter (fun j => decide (idx.getD j 0 < tb.rows))) :
    ∃ t, exec (.gatherAccept cell k host) s = .next t ∧
      ((t.cell cell).slot k).phase = .reading ∧ ((t.cell cell).slot k).table = tb ∧ ((t.cell cell).slot k).idx = idx ∧
      ((t.cell cell).slot k).rows.map GatherRow.sent = good.map (fun j => (j, idx.getD j 0, [], none)) ∧
      ((t.cell cell).slot k).badIdx = g.desc.nidx - good.length ∧ ∀ a, (t.cell cell).storeByte a = c.storeByte a := by
  obtain ⟨rows, t, hexec, hrows, hwritten⟩ := gatherAccept_reads hc hg host htakes hidx
  have hlen : idx.length = g.desc.nidx := by simp [hidx, Cell.indexList]
  have hread : (gatherRows tb.rows idx 0).1 = good.map (fun j => ⟨0 + j, idx.getD j 0, [], none, false⟩) := by
    rw [gatherRows_good, hlen, hgood]
  have hbad := length_gatherRows tb.rows idx 0
  rw [hread, List.length_map, hlen] at hbad
  rw [hread, List.map_map] at hrows
  subst hc
  refine ⟨t, hexec, ?_⟩
  rw [cell_of_cells_modCell hcells hwritten, slot_setSlot_self hgather]
  refine ⟨rfl, rfl, rfl, hrows.trans (by simp [GatherRow.sent]), ?_, fun a => rfl⟩
  show (gatherRows tb.rows idx 0).2.length = _
  omega

theorem awlSectorData_brings {pos sec : Nat} {r : GatherRow} (hphase : g.phase = .reading)
    (hrow : g.rows.find? (fun r => decide (r.pos = pos)) = some r) (hsec : sec < g.table.rstride / 32)
    (hnew : ∀ e ∈ r.got, e.1 ≠ sec) (hgone : c.goneGather = []) :
    ∃ t, exec (.awlSectorData cell k pos sec .clean) s = .next t ∧
      (((t.cell cell).slot k).rows.find? (fun r => decide (r.pos = pos))).map (·.got) = some ((sec, (s.tableRead c.par g.table
        (g.table.base + r.index * g.table.rstride + 32 * sec)).1) :: r.got) ∧
      (∀ j, j ≠ pos → ((t.cell cell).slot k).rows.find? (fun r => decide (r.pos = j)) =
        g.rows.find? (fun r => decide (r.pos = j))) ∧
      (t.cell cell).store = c.store := by
  obtain ⟨hread, hstk, hcfg⟩ := awlRead_clean s c.par g.table (g.table.base + r.index * g.table.rstride + 32 * sec)
  obtain ⟨g', hwritten, hrows⟩ := takeSector_spec (s.awlRead c.par g.table _ .clean) cell k g r sec
    (g.table.base + r.index * g.table.rstride + 32 * sec)
  have hcell := cell_of_cells_modCell hcells (hwritten.trans (cells_modCell_of_cells _ _ hread))
  rw [cell_of_cells hread, ← hc, tableRead_congr hcfg hstk] at hrows
  refine ⟨_, awlSectorData_takes hrow hc hg hphase hsec hnew hgone, ?_⟩
  rw [hcell, ← hc, slot_setSlot_self hgather, hrows, find_withSector hrow, if_pos rfl]
  refine ⟨rfl, fun j hj => ?_, rfl⟩
  rw [find_withSector hrow, if_neg hj]

theorem gatherCommit_commits {d : GatherDesc} (hd : d = g.desc) (hstore : spWf 0 c.store = true) (hphase : g.phase = .reading)
    (hrows : ∀ r ∈ g.rows, r.got.length = g.table.rstride / 32) (hfits : g.table.dim * ofmtBytes d.ofmt ≤ d.ostride)
    (hapart : d.out + d.nbag * d.ostride ≤ d.status ∨ d.status + 32 ≤ d.out) :
    ∃ t, exec (.gatherCommit cell k) s = .next t ∧ ((t.cell cell).slot k).phase = .idle ∧
      (∀ j, j < d.nbag →
        (t.cell cell).loadOwn (d.out + j * d.ostride) (g.table.dim * ofmtBytes d.ofmt) = g.outBytes j) ∧
      (t.cell cell).storeByte d.status = 0 ∧ leNat ((t.cell cell).loadOwn (d.status + 4) 4) = g.rows.length % 2 ^ 32 ∧
      leNat ((t.cell cell).loadOwn (d.status + 24) 8) = s.datum % 2 ^ 64 ∧
      ∀ a, (∀ j, j < d.nbag → a < d.out + j * d.ostride ∨ d.out + j * d.ostride + g.table.dim * ofmtBytes d.ofmt ≤ a) →
        a < d.status ∨ d.status + 32 ≤ a → (t.cell cell).storeByte a = c.storeByte a := by
  obtain ⟨flags, sat, t, hexec, hwritten⟩ := gatherCommit_writes hc hg hphase hrows
  have hlen := length_statusRecord 0 flags g.rows.length g.badIdx g.poison sat (g.firstBad.getD 0xFFFFFFFF) s.datum
  refine ⟨t, hexec, ?_⟩
  rw [cell_of_cells_modCell hcells hwritten, ← hc, hd]
  simp only [storeByte_setSlot, loadOwn_setSlot]
  subst hd
  refine ⟨?_, fun j hj => loadOwn_commitGather_row hstore hlen hfits hapart hj, ?_, ?_, ?_,
    fun a hrow hstatus => storeByte_commitGather_out hlen hrow hstatus⟩
  · exact congrArg GatherSlot.phase (slot_setSlot_self (by rwa [gather_commitGather]) k .none)
  · exact storeByte_storeOwn_in (wf_storeRows hstore _) g.desc.status (i := 0) (by omega)
  · rw [loadOwn_commitGather_record hstore hlen (by decide)]
    exact leNat_leBytes 4 g.rows.length
  · rw [loadOwn_commitGather_record hstore hlen (by decide)]
    exact leNat_leBytes 8 s.datum

end

/-- Settles O35: a gather is refused or accepted, a sector of a row comes, and the gather commits, as each command's own law
says. -/
theorem gathersComplete : Obligations.GathersComplete := by
  intro s cell k hcells c g d hgather hstore
  refine ⟨fun host hphase htable => ?_, fun host tb hphase htable hstride hsize hiform hoffs hpool hwgt hown hclean => ?_,
    fun pos sec r hphase hrow hsec hnew hgone => ?_, fun hphase hrows hfits hapart => ?_⟩
  · exact gatherAccept_refuses rfl rfl hcells hgather hstore host hphase htable
  · exact gatherAccept_accepts rfl rfl hcells hgather host
      ⟨hphase, htable, hstride, hsize, hiform, hoffs, hpool, hwgt, hown, hclean⟩ rfl rfl
  · exact awlSectorData_brings rfl rfl hcells hgather hphase hrow hsec hnew hgone
  · exact gatherCommit_commits rfl rfl hcells hgather rfl hstore hphase hrows hfits hapart

end Sys2Proof.Machine

/-! SUPPORT. Live updates (R309 to R316): in an open window a due record is applied to the row of its table, and commits or is
rejected. -/

namespace Sys2Proof.Machine

/-! What a sector's read leaves of the parcels (R445 to R448). -/

@[simp] theorem still_vgAlertAll (s : State) (source : Nat) : (s.vgAlertAll source).still = s.still :=
  view_foldl State.still _ _ (fun s e _ => by dsimp only; (repeat' split) <;> simp) s

@[simp] theorem still_allFnEvent (s : State) (bit : Nat) : (s.allFnEvent bit).still = s.still :=
  view_foldl State.still _ _ (fun s f _ => still_fnEvent s (f + 1) bit) s

@[simp] theorem parcels_pldmEvent (s : State) (cls : Byte) (data : List Byte) : (s.pldmEvent cls data).parcels = s.parcels := by
  unfold State.pldmEvent
  dsimp only
  split <;> rfl

@[simp] theorem parcels_alert (s : State) (bit : Nat) (code : W16) : (s.alert bit code).parcels = s.parcels := by
  unfold State.alert
  dsimp only
  split
  · rfl
  · rw [parcels_of_still (still_vgAlertAll ..), parcels_of_still (still_allFnEvent ..), parcels_pldmEvent]

@[simp] theorem parcels_remapRow (s : State) (st row : Nat) : (s.remapRow st row).parcels = s.parcels := by
  unfold State.remapRow
  dsimp only
  split
  · rfl
  · split
    · rfl
    · rw [parcels_alert, state_log_parcels]

@[simp] theorem parcels_stackCE (s : State) (phys : Nat) : (s.stackCE phys).parcels = s.parcels := by
  unfold State.stackCE
  dsimp only
  split
  · rw [parcels_remapRow]
  · rfl

@[simp] theorem parcels_stackUE (s : State) (parcel : Option Nat) (phys dev : Nat) :
    (s.stackUE parcel phys dev).parcels = s.parcels := by
  unfold State.stackUE
  dsimp only
  split
  · rfl
  · rw [parcels_remapRow, state_log_parcels]

@[simp] theorem still_countSector (s : State) (ev phys : Nat) (parcel : Option Nat) :
    (s.countSector ev phys parcel).still = s.still := still_countEvent ..

@[simp] theorem parcels_stackEcc (s : State) (p phys dev : Nat) (ecc : Ecc) :
    (s.stackEcc p phys dev ecc).parcels = s.parcels := by
  have hcount := parcels_of_still (still_countSector s 0x20 phys (some p))
  cases ecc with
  | clean => exact hcount
  | corrected => exact (parcels_stackCE ..).trans hcount
  | uncorrectable => exact (parcels_stackUE ..).trans hcount

/-! What an access of stacked memory depends on (R433, R434). -/

theorem stk_of_still {s t : State} (h : t.still = s.still) : t.stk = s.stk := congrArg (·.stk) h

@[simp] theorem stk_countWrites (s : State) (p stks gran a n : Nat) : (s.countWrites p stks gran a n).stk = s.stk :=
  view_foldl State.stk _ _ (fun _ _ _ => stk_countSector ..) s

/-- What a read finds depends on the parcel and the stacks alone. -/
theorem stackRead_congr {s u : State} {p : Nat} (hparcel : u.parcel p = s.parcel p) (hstk : u.stk = s.stk)
    (stks gran a n : Nat) : u.stackRead p stks gran a n = s.stackRead p stks gran a n := by
  simp only [State.stackRead, State.stackByte, State.placedByte, hparcel, hstk]

/-- What a write leaves in the stacks depends on the parcel's configuration, its tables and the stacks alone. -/
theorem stk_stackWrite_congr {s u : State} {p : Nat} (hcfg : (u.parcel p).cfg = (s.parcel p).cfg)
    (htables : (u.parcel p).tables = (s.parcel p).tables) (hstk : u.stk = s.stk) (stks gran a : Nat) (bs : List Byte) :
    (u.stackWrite p stks gran a bs).stk = (s.stackWrite p stks gran a bs).stk := by
  have hplace (b : Nat) : (u.parcel p).place stks gran b = (s.parcel p).place stks gran b := by
    simp only [Parcel.place, Parcel.tableAt, hcfg, htables]
  have hspace (ph : Nat) : (u.parcel p).inSpace ph = (s.parcel p).inSpace ph := by simp only [Parcel.inSpace, hcfg]
  simp only [State.stackWrite, hplace, hspace, hstk]

/-- R434: what the count of a misplaced access changes of its parcel. -/
theorem countPlace_spec (s : State) (p stks gran a n : Nat) : (s.countPlace p stks gran a n).stk = s.stk ∧
    ∃ count logged, (s.countPlace p stks gran a n).parcel p =
      { s.parcel p with smPlace := count, smPlaceLogged := logged } := by
  unfold State.countPlace
  split
  · refine ⟨(placeFault_spec ..).2.1, satAdd32 (s.parcel p).smPlace 1, true, ?_⟩
    have hset : (s.modParcel p fun x => { x with smPlace := satAdd32 x.smPlace 1, smPlaceLogged := true }).parcel p =
        { s.parcel p with smPlace := satAdd32 (s.parcel p).smPlace 1, smPlaceLogged := true } :=
      parcel_modParcel_of_ne fun e => Bool.true_eq_false.mp (congrArg Parcel.smPlaceLogged e)
    unfold State.placeFault
    dsimp only
    split
    · exact hset
    · exact (parcel_of_still (still_logP ..) p).trans hset
  · exact ⟨rfl, _, _, rfl⟩

/-! An open window (R310, R316). -/

/-- The update window of parcel p is open: the records of its log, how many of them have committed in it, and how many records
the parcel has rejected. -/
structure WindowAt (s : State) (p : Nat) (log : List UpdRec) (done : Nat) (rejected : W32) : Prop where
  inWindow : (s.parcel p).inWindow = true
  log : (s.parcel p).log = log
  done : (s.parcel p).windowDone = done
  rejected : (s.parcel p).upReject = rejected

theorem WindowAt.of_open {s : State} {p : Nat} (h : (s.parcel p).inWindow = true) :
    WindowAt s p (s.parcel p).log (s.parcel p).windowDone (s.parcel p).upReject := ⟨h, rfl, rfl, rfl⟩

namespace WindowAt

/-- A change that keeps the window open is read back, in any list of parcels. -/
theorem modParcel {s : State} {p : Nat} {g : Parcel → Parcel} {log : List UpdRec} {done : Nat} {rejected : W32}
    (hwin : (g (s.parcel p)).inWindow = true) (hlog : (g (s.parcel p)).log = log)
    (hdone : (g (s.parcel p)).windowDone = done) (hrej : (g (s.parcel p)).upReject = rejected) :
    WindowAt (s.modParcel p g) p log done rejected := by
  have hset : (s.modParcel p g).parcel p = g (s.parcel p) :=
    parcel_modParcel_of_ne fun e => Bool.true_eq_false.mp (hwin.symm.trans (congrArg Parcel.inWindow e))
  exact ⟨hset ▸ hwin, hset ▸ hlog, hset ▸ hdone, hset ▸ hrej⟩

section
variable {s : State} {p : Nat} {log : List UpdRec} {done : Nat} {rejected : W32} (h : WindowAt s p log done rejected)
include h

theorem of_parcel {t : State} (hparcel : t.parcel p = s.parcel p) : WindowAt t p log done rejected := by
  obtain ⟨hwin, hlog, hdone, hrej⟩ := h
  exact ⟨hparcel ▸ hwin, hparcel ▸ hlog, hparcel ▸ hdone, hparcel ▸ hrej⟩

theorem of_still {t : State} (hstill : t.still = s.still) : WindowAt t p log done rejected :=
  h.of_parcel (parcel_of_still hstill p)

theorem countPlace (stks gran a n : Nat) : WindowAt (s.countPlace p stks gran a n) p log done rejected := by
  obtain ⟨-, _, _, hparcel⟩ := countPlace_spec s p stks gran a n
  obtain ⟨hwin, hlog, hdone, hrej⟩ := h
  exact ⟨hparcel ▸ hwin, hparcel ▸ hlog, hparcel ▸ hdone, hparcel ▸ hrej⟩

theorem windowMeets (r : UpdRec) : WindowAt (s.windowMeets p r) p log done rejected :=
  modParcel h.inWindow h.log h.done h.rejected

theorem windowBad (r : UpdRec) : WindowAt (s.windowBad p r) p log done rejected :=
  modParcel h.inWindow h.log h.done h.rejected

/-- R318: a retired record leaves the log. -/
theorem retireUpd (r : UpdRec) :
    WindowAt (s.retireUpd p r) p (log.filter (fun e => decide (e.lines ≠ r.lines))) done rejected :=
  (modParcel (s := s) h.inWindow (congrArg (List.filter _) h.log) h.done h.rejected).of_still (still_grantCredit ..)

end

end WindowAt

/-! A record is rejected or commits (R312 to R316, R323). -/

@[simp] theorem still_settleUpd (s : State) (sess : Fin 256 × Nat × W32 × Nat) (rep : Option (List Byte)) :
    (s.settleUpd sess rep).still = s.still := by
  have hgrant (u : State) (n : Nat) : (u.grantFor n).still = u.still := by
    unfold State.grantFor
    split
    · exact still_grantCredit ..
    · rfl
  unfold State.settleUpd
  dsimp only
  split
  · rfl
  · split
    · rfl
    · split
      · rw [still_vgAnswer, hgrant, still_modVg]
      · exact still_modVg ..

/-- R313: but for the reports, a rejected record is counted and leaves the log. -/
theorem still_rejectUpd (s : State) (p : Nat) (r : UpdRec) (cause : Nat) : (s.rejectUpd p r cause).still =
    ((((s.windowMeets p r).windowBad p r).modParcel p fun x => { x with upReject := satAdd32 x.upReject 1 }).retireUpd
      p r).still := by
  unfold State.rejectUpd
  dsimp only
  split
  · exact still_settleUpd ..
  · rfl

theorem stk_retireUpd (s : State) (p : Nat) (r : UpdRec) : (s.retireUpd p r).stk = s.stk :=
  (stk_of_still (still_grantCredit ..)).trans (state_modParcel_stk ..)

theorem stk_rejectUpd (s : State) (p : Nat) (r : UpdRec) (cause : Nat) : (s.rejectUpd p r cause).stk = s.stk :=
  (stk_of_still (still_rejectUpd ..)).trans (stk_retireUpd ..)

theorem stk_poisonUpd (s : State) (p : Nat) (r : UpdRec) (dev : Nat) : (s.poisonUpd p r dev).stk = s.stk :=
  (stk_rejectUpd ..).trans (state_log_stk ..)

/-- R314, R544: the row of a record is written, and the write counted. -/
def State.writeUpdRow (s : State) (p : Nat) (r : UpdRec) (t : TableDesc) (row : List Byte) : State :=
  let a := t.base + r.row * t.rstride
  let s := ((s.countPlace p 0 0 a t.rstride).countWrites p 0 0 a t.rstride).stackWrite p 0 0 a row
  s.countEvent 0x31 ((stackList t.stks.toNat).getD (r.row % (stackList t.stks.toNat).length) 0) (some p) 1

theorem stk_writeUpdRow (s : State) (p : Nat) (r : UpdRec) (t : TableDesc) (row : List Byte) :
    (s.writeUpdRow p r t row).stk = (s.stackWrite p 0 0 (t.base + r.row * t.rstride) row).stk := by
  have ⟨hstk, _, _, hparcel⟩ := countPlace_spec s p 0 0 (t.base + r.row * t.rstride) t.rstride
  have hcount := parcel_of_core (core_countWrites (s.countPlace p 0 0 (t.base + r.row * t.rstride) t.rstride) p 0 0
    (t.base + r.row * t.rstride) t.rstride) p
  refine (stk_of_still (still_countEvent ..)).trans (stk_stackWrite_congr ?_ ?_ ?_ ..)
  · rw [hcount, hparcel]
  · rw [hcount, hparcel]
  · rw [stk_countWrites, hstk]

/-- R323: the window meets a record that commits, on time or late. -/
def State.windowSees (s : State) (p : Nat) (r : UpdRec) (late : Nat) : State :=
  if late = 0 then s.windowMeets p r else (s.windowMeets p r).windowBad p r

theorem stk_windowSees (s : State) (p : Nat) (r : UpdRec) (late : Nat) : (s.windowSees p r late).stk = s.stk := by
  unfold State.windowSees
  split <;> rfl

/-- R314, R316: but for the reports, a record that commits writes its row, is counted and leaves the log. -/
theorem still_commitUpd (s : State) (p : Nat) (r : UpdRec) (t : TableDesc) (row : List Byte) (clamped : Nat) :
    let v := (s.writeUpdRow p r t row).windowSees p r (r.lateness s.tk.boundary)
    ∃ g : Parcel → Parcel, (∀ x, (g x).inWindow = x.inWindow ∧ (g x).log = x.log ∧
        (g x).windowDone = x.windowDone + 1 ∧ (g x).upReject = x.upReject) ∧
      (s.commitUpd p r t row clamped).still = ((v.modParcel p g).retireUpd p r).still := by
  intro v
  -- g is the update of the counts that stands in commitUpd, which the equation of the states finds by unification
  apply Exists.intro
  apply And.intro
  case right =>
    unfold State.commitUpd
    split
    · exact still_settleUpd ..
    · rfl
  case left => exact fun x => ⟨rfl, rfl, rfl, rfl⟩

/-- R314, R316: the bytes of a row that commits are written, and nothing else of the stacks. -/
theorem stk_commitUpd (s : State) (p : Nat) (r : UpdRec) (t : TableDesc) (row : List Byte) (clamped : Nat) :
    (s.commitUpd p r t row clamped).stk = (s.stackWrite p 0 0 (t.base + r.row * t.rstride) row).stk := by
  obtain ⟨g, -, hstill⟩ := still_commitUpd s p r t row clamped
  rw [stk_of_still hstill, stk_retireUpd, state_modParcel_stk, stk_windowSees, stk_writeUpdRow]

namespace WindowAt

variable {s : State} {p : Nat} {log : List UpdRec} {done : Nat} {rejected : W32} (h : WindowAt s p log done rejected)
include h

theorem rejectUpd (r : UpdRec) (cause : Nat) : WindowAt (s.rejectUpd p r cause) p
    (log.filter (fun e => decide (e.lines ≠ r.lines))) done (satAdd32 rejected 1) := by
  have hbad := (h.windowMeets r).windowBad r
  exact ((modParcel (s := (s.windowMeets p r).windowBad p r) hbad.inWindow hbad.log hbad.done
    (congrArg (satAdd32 · 1) hbad.rejected)).retireUpd r).of_still (still_rejectUpd ..)

theorem poisonUpd (r : UpdRec) (dev : Nat) : WindowAt (s.poisonUpd p r dev) p
    (log.filter (fun e => decide (e.lines ≠ r.lines))) done (satAdd32 rejected 1) :=
  (h.of_still (still_logP ..)).rejectUpd r 7

theorem writeUpdRow (r : UpdRec) (t : TableDesc) (row : List Byte) :
    WindowAt (s.writeUpdRow p r t row) p log done rejected := by
  have hwrite := (h.countPlace 0 0 (t.base + r.row * t.rstride) t.rstride).of_parcel
    (parcel_of_core (core_countWrites _ p 0 0 (t.base + r.row * t.rstride) t.rstride) p)
  exact (hwrite.of_parcel (parcel_of_core (core_stackWrite _ p 0 0 _ row) p)).of_still (still_countEvent ..)

theorem windowSees (r : UpdRec) (late : Nat) : WindowAt (s.windowSees p r late) p log done rejected := by
  unfold State.windowSees
  split
  · exact h.windowMeets r
  · exact (h.windowMeets r).windowBad r

theorem commitUpd (r : UpdRec) (t : TableDesc) (row : List Byte) (clamped : Nat) :
    WindowAt (s.commitUpd p r t row clamped) p (log.filter (fun e => decide (e.lines ≠ r.lines))) (done + 1) rejected := by
  obtain ⟨g, hg, hstill⟩ := still_commitUpd s p r t row clamped
  have hmet := (h.writeUpdRow r t row).windowSees r (r.lateness s.tk.boundary)
  obtain ⟨hwin, hlog, hdone, hrej⟩ := hg _
  exact ((modParcel (hwin.trans hmet.inWindow) (hlog.trans hmet.log) (hdone.trans (congrArg (· + 1) hmet.done))
    (hrej.trans hmet.rejected)).retireUpd r).of_still hstill

end WindowAt

/-! The first due record is applied (R312, R313). -/

/-- R445: the sector that brings what the ECC of a record's read found has been read: its row's, or with OVERWRITE that of its
first line. -/
def State.readUpd (s : State) (p : Nat) (r : UpdRec) (t : TableDesc) (ecc : Ecc) : State :=
  let x := s.parcel p
  let a := if field r.bytes 2 1 = 0 then x.lineAddr (r.lines.headD 0) else t.base + r.row * t.rstride
  s.stackEcc p (x.place 0 0 a) a ecc

theorem parcel_readUpd (s : State) (p : Nat) (r : UpdRec) (t : TableDesc) (ecc : Ecc) (k : Nat) :
    (s.readUpd p r t ecc).parcel k = s.parcel k := congrArg (spGet Parcel.zero · k) (parcels_stackEcc ..)

theorem still_readUpd_clean (s : State) (p : Nat) (r : UpdRec) (t : TableDesc) :
    (s.readUpd p r t .clean).still = s.still := still_countSector ..

/-- The row of a record's table as it reads before the record is applied, and whether it reads poisoned. -/
def State.oldRow (s : State) (p : Nat) (r : UpdRec) (t : TableDesc) : List Byte × Bool :=
  s.stackRead p 0 0 (t.base + r.row * t.rstride) t.rstride

/-- R313: a line of a record reads poisoned, or but for OVERWRITE its row. -/
def State.updPoisoned (s : State) (p : Nat) (r : UpdRec) (t : TableDesc) : Prop :=
  (∃ j ∈ r.lines, (s.stackRead p 0 0 ((s.parcel p).lineAddr j) 64).2 = true) ∨
    (field r.bytes 2 1 ≠ 0 ∧ (s.oldRow p r t).2 = true)

/-- R313: a new value of a row, or the new OPT word of mode 3, is not finite. -/
def UpdRec.nonFiniteNew (r : UpdRec) (new : List W32 × Nat) : Prop :=
  (∃ v ∈ new.1, nonFinite v = true) ∨ (field r.bytes 2 1 = 3 ∧ nonFinite (BitVec.ofNat 32 new.2) = true)

/-- R312 to R314: what the new values of a record come to, requantised. -/
def UpdRec.newRow (r : UpdRec) (t : TableDesc) (new : List W32 × Nat) : List Byte × Nat :=
  quantRow t new.1 new.2 (decide (field r.bytes 4 1 % 2 = 1)) r.uid r.row

/-- R312 to R314: a record is rejected for poison, rejected for a value that is not finite, or commits. -/
theorem applyUpd_cases (s : State) (p : Nat) (r : UpdRec) (t : TableDesc) (ecc : Ecc) :
    let v := s.readUpd p r t ecc
    let new := updValues t r.bytes (v.oldRow p r t).1
    (v.updPoisoned p r t ∧ ∃ dev, s.applyUpd p r t ecc = v.poisonUpd p r dev) ∨
    (¬ v.updPoisoned p r t ∧ r.nonFiniteNew new ∧ s.applyUpd p r t ecc = v.rejectUpd p r 6) ∨
    (¬ v.updPoisoned p r t ∧ ¬ r.nonFiniteNew new ∧
      s.applyUpd p r t ecc = v.commitUpd p r t (r.newRow t new).1 (r.newRow t new).2) := by
  intro v new
  have hread : (if field r.bytes 2 1 = 0 then
      s.stackEcc p ((s.parcel p).place 0 0 ((s.parcel p).lineAddr (r.lines.headD 0)))
        ((s.parcel p).lineAddr (r.lines.headD 0)) ecc
      else s.stackEcc p ((s.parcel p).place 0 0 (t.base + r.row * t.rstride)) (t.base + r.row * t.rstride) ecc) = v := by
    by_cases hmode : field r.bytes 2 1 = 0 <;> simp [v, State.readUpd, hmode]
  have hparcel : v.parcel p = s.parcel p := parcel_readUpd ..
  unfold State.applyUpd
  dsimp only
  rw [hread, ← hparcel]
  split
  case h_1 j hfind =>
    have hbad := List.find?_some (p := fun j => (v.stackRead p 0 0 ((v.parcel p).lineAddr j) 64).2) hfind
    exact .inl ⟨.inl ⟨j, List.mem_of_find?_eq_some hfind, hbad⟩, _, rfl⟩
  case h_2 hfind =>
    have hlines : ¬ ∃ j ∈ r.lines, (v.stackRead p 0 0 ((v.parcel p).lineAddr j) 64).2 = true := by
      simpa using hfind
    split
    · exact .inl ⟨.inr ‹_›, _, rfl⟩
    · have hclean : ¬ v.updPoisoned p r t := not_or.2 ⟨hlines, ‹_›⟩
      have hfinite : ((new.1.any nonFinite || (decide (field r.bytes 2 1 = 3) && nonFinite (BitVec.ofNat 32 new.2))) = true) ↔
          r.nonFiniteNew new := by simp [UpdRec.nonFiniteNew]
      split
      · exact .inr (.inl ⟨hclean, hfinite.1 ‹_›, rfl⟩)
      · exact .inr (.inr ⟨hclean, mt hfinite.2 ‹_›, rfl⟩)

/-- R318: however a record ends, it leaves the log, and the window stays open. -/
theorem applyUpd_leaves {s : State} {p : Nat} (hopen : (s.parcel p).inWindow = true) (r : UpdRec) (t : TableDesc) (ecc : Ecc) :
    ∃ done rejected, WindowAt (s.applyUpd p r t ecc) p
      ((s.parcel p).log.filter (fun e => decide (e.lines ≠ r.lines))) done rejected := by
  have hread := (WindowAt.of_open hopen).of_parcel (parcel_readUpd s p r t ecc p)
  obtain ⟨-, dev, happly⟩ | ⟨-, -, happly⟩ | ⟨-, -, happly⟩ := applyUpd_cases s p r t ecc
  · exact ⟨_, _, happly ▸ hread.poisonUpd r dev⟩
  · exact ⟨_, _, happly ▸ hread.rejectUpd r 6⟩
  · exact ⟨_, _, happly ▸ hread.commitUpd r t _ _⟩

section
variable {s u : State} (h : u.still = s.still) (p : Nat) (r : UpdRec) (t : TableDesc)
include h

theorem oldRow_of_still : u.oldRow p r t = s.oldRow p r t := stackRead_congr (parcel_of_still h p) (stk_of_still h) ..

theorem updPoisoned_of_still : u.updPoisoned p r t = s.updPoisoned p r t := by
  simp only [State.updPoisoned, oldRow_of_still h, stackRead_congr (parcel_of_still h p) (stk_of_still h),
    parcel_of_still h p]

end

/-- R312 to R314: what becomes of a record whose sectors read clean. -/
theorem applyUpd_clean_cases (s : State) (p : Nat) (r : UpdRec) (t : TableDesc) :
    let new := updValues t r.bytes (s.oldRow p r t).1
    ∃ v : State, v.still = s.still ∧
      (((s.updPoisoned p r t ∨ r.nonFiniteNew new) ∧
        ((∃ dev, s.applyUpd p r t .clean = v.poisonUpd p r dev) ∨ s.applyUpd p r t .clean = v.rejectUpd p r 6)) ∨
      (¬ s.updPoisoned p r t ∧ ¬ r.nonFiniteNew new ∧
        s.applyUpd p r t .clean = v.commitUpd p r t (r.newRow t new).1 (r.newRow t new).2)) := by
  have hstill := still_readUpd_clean s p r t
  have hcases := applyUpd_cases s p r t .clean
  dsimp only at hcases
  rw [updPoisoned_of_still hstill, oldRow_of_still hstill] at hcases
  obtain ⟨hbad, happly⟩ | ⟨-, hinf, happly⟩ | ⟨hbad, hinf, happly⟩ := hcases
  · exact ⟨_, hstill, .inl ⟨.inl hbad, .inl happly⟩⟩
  · exact ⟨_, hstill, .inl ⟨.inr hinf, .inr happly⟩⟩
  · exact ⟨_, hstill, .inr ⟨hbad, hinf, happly⟩⟩

section
variable {s : State} {p : Nat} (hopen : (s.parcel p).inWindow = true) (r : UpdRec) (t : TableDesc)
include hopen

/-- R313: a record that is rejected writes nothing, and is counted. -/
theorem applyUpd_rejects (h : s.updPoisoned p r t ∨ r.nonFiniteNew (updValues t r.bytes (s.oldRow p r t).1)) :
    WindowAt (s.applyUpd p r t .clean) p ((s.parcel p).log.filter (fun e => decide (e.lines ≠ r.lines)))
      (s.parcel p).windowDone (satAdd32 (s.parcel p).upReject 1) ∧ (s.applyUpd p r t .clean).stk = s.stk := by
  obtain ⟨v, hstill, ⟨-, ⟨dev, happly⟩ | happly⟩ | ⟨hbad, hinf, -⟩⟩ := applyUpd_clean_cases s p r t
  · rw [happly, stk_poisonUpd]
    exact ⟨((WindowAt.of_open hopen).of_still hstill).poisonUpd r dev, stk_of_still hstill⟩
  · rw [happly, stk_rejectUpd]
    exact ⟨((WindowAt.of_open hopen).of_still hstill).rejectUpd r 6, stk_of_still hstill⟩
  · exact absurd h (not_or.2 ⟨hbad, hinf⟩)

/-- R314, R316: a record that commits writes its requantised row, and the window counts it. -/
theorem applyUpd_commits (hbad : ¬ s.updPoisoned p r t)
    (hinf : ¬ r.nonFiniteNew (updValues t r.bytes (s.oldRow p r t).1)) :
    WindowAt (s.applyUpd p r t .clean) p ((s.parcel p).log.filter (fun e => decide (e.lines ≠ r.lines)))
      ((s.parcel p).windowDone + 1) (s.parcel p).upReject ∧
    (s.applyUpd p r t .clean).stk = (s.stackWrite p 0 0 (t.base + r.row * t.rstride)
      (r.newRow t (updValues t r.bytes (s.oldRow p r t).1)).1).stk := by
  obtain ⟨v, hstill, ⟨h, -⟩ | ⟨-, -, happly⟩⟩ := applyUpd_clean_cases s p r t
  · exact absurd h (not_or.2 ⟨hbad, hinf⟩)
  · have hparcel := parcel_of_still hstill p
    rw [happly, stk_commitUpd]
    exact ⟨((WindowAt.of_open hopen).of_still hstill).commitUpd r t _ _,
      stk_stackWrite_congr (congrArg Parcel.cfg hparcel) (congrArg Parcel.tables hparcel) (stk_of_still hstill) ..⟩

end

/-! UPDATE_APPLY (R309, R310). -/

/-- R310: whether the window of parcel p is open and not in its last 300 ns. -/
def State.windowTakes (s : State) (p : Nat) : Prop :=
  (s.parcel p).inWindow = true ∧ s.lc.ctr + 300 ≤ (s.parcel p).winStart + (s.parcel p).cfg.updWin * 1000

theorem updateApply_idle {s : State} {p : Fin 16} {at' : Nat} (ecc : Ecc)
    (h : ¬ (s.at at').windowTakes p ∨ (s.parcel p).due = []) : exec (.updateApply p at' ecc) s = .next (s.at at') := by
  show execUpdateApply p at' ecc s = _
  unfold execUpdateApply
  dsimp only
  split
  · rfl
  case isFalse hwin =>
    have htakes : (s.at at').windowTakes p := by simpa [State.windowTakes] using hwin
    have hnone : ((s.at at').parcel p).firstDue = none :=
      congrArg (List.foldl _ none) (h.resolve_left (not_not.2 htakes))
    rw [hnone]

theorem updateApply_takes {s : State} {p : Fin 16} {at' : Nat} {r : UpdRec} {t : TableDesc} (ecc : Ecc)
    (htakes : (s.at at').windowTakes p) (hdue : (s.parcel p).firstDue = some r) (htable : (s.parcel p).table r.tid = some t) :
    exec (.updateApply p at' ecc) s = .next ((s.at at').applyUpd p r t ecc) := by
  have hdue : ((s.at at').parcel p).firstDue = some r := hdue
  have htable : ((s.at at').parcel p).table r.tid = some t := htable
  show execUpdateApply p at' ecc s = _
  unfold execUpdateApply
  dsimp only
  split
  case isTrue hwin => exact absurd htakes (by simpa [State.windowTakes, imp_iff_not_or] using hwin)
  case isFalse =>
    rw [hdue]
    dsimp only
    rw [htable]

/-- Settles O25: UPDATE_APPLY either lets time pass or applies the first due record, which is rejected or commits. -/
theorem updateApplyCompletes : Obligations.UpdateApplyCompletes := by
  intro s p at' u x open'
  refine ⟨fun ecc hidle => updateApply_idle ecc hidle, fun r tb hopen hdue htable => ?_⟩
  intro gone mode a row bad new infinite
  have hwin : (u.parcel p).inWindow = true := hopen.1
  refine ⟨fun ecc => ⟨_, updateApply_takes ecc hopen hdue htable, ?_⟩,
    fun hrejects => ⟨_, updateApply_takes .clean hopen hdue htable, ?_⟩,
    fun hbad hinf => ⟨_, updateApply_takes .clean hopen hdue htable, ?_⟩⟩
  · obtain ⟨_, _, hafter⟩ := applyUpd_leaves hwin r tb ecc
    exact ⟨hafter.log, hafter.inWindow⟩
  · obtain ⟨hafter, hstk⟩ := applyUpd_rejects hwin r tb hrejects
    exact ⟨⟨hafter.log, hafter.inWindow⟩, congrArg Stacks.mem hstk, hafter.done, hafter.rejected⟩
  · obtain ⟨hafter, hstk⟩ := applyUpd_commits hwin r tb hbad hinf
    exact ⟨⟨hafter.log, hafter.inWindow⟩, congrArg Stacks.mem hstk, hafter.done, hafter.rejected⟩

end Sys2Proof.Machine

/-! SUPPORT. RETIRED (R469, R508, R520): from it, every command leads to RETIRED, to the start of start-up, to HALTED or to off. -/

namespace Sys2Proof.Machine

open Sys2Proof.Safety

/-! What leaves the run state alone. -/

theorem dev_of_kept {s t : State} (h : t.kept = s.kept) : t.dev = s.dev := congrArg (·.2.1) h

/-- R520: retiring a device that is RETIRED changes nothing. -/
theorem retire_retired {s : State} (h : s.dev = .retired) (cause : Nat) : s.retire cause = s := if_pos h

/-! Where an operation of a RETIRED device can lead. -/

/-- RETIRED, or the start of start-up: where a write of registers leads. -/
def State.retiredOrCold (s : State) : Prop := s.dev = .retired ∨ s.dev = .starting 0

/-- RETIRED, the start of start-up, HALTED or off: where a step leads. -/
def State.pastRetired (s : State) : Prop := s.dev = .retired ∨ s.dev = .starting 0 ∨ s.dev = .halted ∨ s.dev = .off

theorem retiredOrCold_of_kept {s t : State} (h : t.kept = s.kept) (hs : s.retiredOrCold) : t.retiredOrCold := by
  rwa [State.retiredOrCold, dev_of_kept h]

theorem State.retiredOrCold.past {s : State} (h : s.retiredOrCold) : s.pastRetired := h.imp_right .inl

theorem coldReset_dev (s : State) (cause : Nat) : (s.coldReset cause).dev = .starting 0 :=
  (dev_of_kept (kept_startRails _)).trans ((dev_of_kept (kept_log _ _)).trans (toDev_dev _ _))

/-- R469: a hard shutdown that names a unit halts the device. -/
theorem hardShutdown_cons_dev (s : State) (u : Nat × Nat × Nat) (units : List (Nat × Nat × Nat)) :
    (s.hardShutdown (u :: units)).dev = .halted := toDev_dev _ _

theorem hardShutdown_past {s : State} (hs : s.dev = .retired) (units : List (Nat × Nat × Nat)) :
    (s.hardShutdown units).pastRetired := by
  cases units with
  | nil => exact .inl hs
  | cons u units => exact .inr (.inr (.inl (hardShutdown_cons_dev s u units)))

/-- R578: the loss of the main rails of a RETIRED device leads to off. -/
theorem loseMain_retired {s : State} (hs : s.dev = .retired) : s.loseMain.dev = .off := by
  unfold State.loseMain
  rw [hs]
  exact toDev_dev _ _

theorem loseStack_retired {s : State} (hs : s.dev = .retired) (k chan cause : Nat) :
    (s.loseStack k chan cause).dev = .retired := by
  have hstays (u : State) (hu : u.dev = .retired) : (u.retire 1).dev = .retired := by rw [retire_retired hu, hu]
  refine hstays _ (Eq.trans (dev_of_kept ?_) hs)
  rw [kept_alert, kept_log]
  split <;> rfl

/-- R518: a WARM order of a RETIRED device is refused. -/
theorem judgeOrder_retired {s : State} (hs : s.dev = .retired) {who : Accessor} {op : Nat}
    (h : s.judgeOrder who op = some 0) : op ≠ 2 := by
  rintro rfl
  unfold State.judgeOrder at h
  rw [hs] at h
  split at h
  · cases h
  · simp only [↓reduceIte] at h
    split_ifs at h <;> cases h

/-- R518: during start-up no order is taken. -/
theorem judgeOrder_starting {s : State} {n : Nat} (hs : s.dev = .starting n) (who : Accessor) (op : Nat) :
    s.judgeOrder who op ≠ some 0 := by
  unfold State.judgeOrder
  rw [hs]
  split
  · simp
  · split_ifs <;> simp

/-- R518: in RETIRED only COLD acts, and during start-up no order does. -/
theorem deviceOrder_retiredOrCold {s : State} (hs : s.retiredOrCold) (who : Accessor) (op : Nat) :
    (s.deviceOrder who op).retiredOrCold := by
  unfold State.deviceOrder
  cases hjudge : s.judgeOrder who op with
  | none => exact hs
  | some c =>
    dsimp only
    split_ifs with hrefused hcold hwarm
    · exact hs
    · exact .inr (coldReset_dev _ _)
    · obtain rfl := not_not.1 hrefused
      obtain hdev | hdev := hs
      · exact absurd hwarm (judgeOrder_retired hdev hjudge)
      · exact absurd hjudge (judgeOrder_starting hdev who op)
    · obtain rfl := not_not.1 hrefused
      obtain hdev | hdev := hs
      · rw [retire_retired (s := s.orderCode 0) hdev]
        exact .inl hdev
      · exact absurd hjudge (judgeOrder_starting hdev who op)

/-! Writes of registers (R518). -/

theorem takeKeySlot_dev (s : State) (op slot : Nat) (qx qy : BitVec 384) (resv : Bool) :
    (s.takeKeySlot op slot qx qy resv).dev = s.dev := by
  unfold State.takeKeySlot
  dsimp only
  split <;> rfl

theorem writeMg_retiredOrCold {s : State} (hs : s.retiredOrCold) (who : Accessor) (r : Reg) (v : Nat) :
    (s.writeMg who r v).retiredOrCold := by
  unfold State.writeMg
  dsimp only
  split
  · exact deviceOrder_retiredOrCold hs who _
  · exact hs
  · split
    · rwa [State.retiredOrCold, State.goKey, takeKeySlot_dev]
    · exact hs
  · exact hs
  · exact hs
  · exact retiredOrCold_of_kept (kept_raiseFloor _ _) hs
  · exact hs

theorem setReg_retiredOrCold {s : State} (hs : s.retiredOrCold) (who : Accessor) (v : RegView) (r : Reg) (i x : Nat) :
    (s.setReg who v r i x).retiredOrCold := by
  cases v with
  | parcel p => exact retiredOrCold_of_kept (kept_writeParcel ..) hs
  | function => exact retiredOrCold_of_kept (kept_writeOwn ..) hs
  | device =>
    exact retiredOrCold_of_kept ((kept_writeOb ..).trans ((kept_writeTh ..).trans (kept_writeNp ..)))
      (writeMg_retiredOrCold hs who r x)

theorem writeRow_retiredOrCold {s : State} (hs : s.retiredOrCold) (who : Accessor) (off : Nat) (v : RegView) (row : RegRow)
    (i b width x : Nat) : (s.writeRow who off v row i b width x).retiredOrCold := by
  unfold State.writeRow
  dsimp only
  split_ifs
  · exact retiredOrCold_of_kept (kept_setWin ..) hs
  · exact setReg_retiredOrCold hs _ _ _ _ _
  · exact setReg_retiredOrCold hs _ _ _ _ _
  · exact hs
  · exact setReg_retiredOrCold (retiredOrCold_of_kept (kept_modOrd ..) hs) _ _ _ _ _

theorem bar0Put_retiredOrCold {s : State} (hs : s.retiredOrCold) (who : Accessor) (off width x : Nat) :
    (s.bar0Put who off width x).retiredOrCold := by
  have hbad : (s.badAccess who off).retiredOrCold := retiredOrCold_of_kept (kept_badAccess ..) hs
  unfold State.bar0Put
  dsimp only
  split
  · exact hbad
  · split
    · exact hbad
    · split_ifs
      · exact hbad
      · exact hs
      · exact writeRow_retiredOrCold hs _ _ _ _ _ _ _ _

theorem writeMany_retiredOrCold (who : Accessor) (width n : Nat) {s : State} (hs : s.retiredOrCold) (off : Nat)
    (data : List Byte) : (s.writeMany who width n off data).retiredOrCold := by
  induction n generalizing s off data with
  | zero => exact hs
  | succ n ih => exact ih (bar0Put_retiredOrCold hs _ _ _ _) _ _

theorem regAccessWrite_retiredOrCold {who : Requester} {tag width count : Byte} {off : W32} {data : List Byte} {bad : Bool}
    {s t : State} (hs : s.retiredOrCold) (h : execRegAccessWrite who tag width count off data bad s = .next t) :
    t.retiredOrCold := by
  have htouch : (s.touch who).retiredOrCold := retiredOrCold_of_kept (kept_touch ..) hs
  have hresponse {u : State} (hu : u.retiredOrCold) (status : Nat) :
      (u.regResponse who.eid 2 tag status count off []).retiredOrCold := retiredOrCold_of_kept (kept_regResponse ..) hu
  unfold execRegAccessWrite at h
  dsimp only at h
  split_ifs at h <;> obtain rfl := Host.Outcome.next.inj h
  · exact hresponse htouch 2
  · exact hresponse htouch 1
  · exact retiredOrCold_of_kept (kept_pump _) (hresponse (writeMany_retiredOrCold _ _ _ htouch _ _) 0)

/-! Commands and steps. -/

/-- R521: PERST_n leaves a RETIRED device RETIRED. -/
theorem perstAssert_retired_dev {s t : State} (hs : s.dev = .retired) (h : execPerstAssert s = .next t) : t.dev = .retired := by
  unfold execPerstAssert at h
  dsimp only at h
  split at h
  · obtain rfl := Host.Outcome.next.inj h
    exact hs
  · rw [show (s.modHost fun h => { h with perst := true }).dev = .retired from hs] at h
    obtain rfl := Host.Outcome.next.inj h
    exact (dev_of_kept ((kept_resetFunctions _).trans (kept_loseLink _))).trans hs

theorem deviceBuildEnd_retired {s t : State} (hs : s.dev = .retired) {at' : Nat} (h : execDeviceBuildEnd at' s = .next t) :
    t.dev = .retired := by
  unfold execDeviceBuildEnd at h
  dsimp only at h
  rw [show (s.at at').dev = .retired from hs] at h
  split at h <;> obtain rfl := Host.Outcome.next.inj h <;> exact hs

/-- Whatever the command, a RETIRED device stays RETIRED, starts start-up over, halts or loses its power. -/
theorem exec_pastRetired (i : Instr) {s t : State} (hs : s.dev = .retired) (h : exec i s = .next t) : t.pastRetired := by
  have gives {u : State} (hi : exec i s = .next u) (hu : u.pastRetired) : t.pastRetired := by
    rw [h] at hi
    exact Host.Outcome.next.inj hi ▸ hu
  have stays {u : State} (hi : exec i s = .next u) (hu : u.dev = .retired) : t.pastRetired := gives hi (.inl hu)
  have keeps (hi : Keeps s (exec i s)) : t.pastRetired := by
    rw [h] at hi
    exact .inl ((dev_of_kept hi).trans hs)
  have hcold : s.retiredOrCold := .inl hs
  cases i with
  | keySlotProgram who slot qx qy resv =>
    by_cases howner : s.ownerAccess who = true
    · exact stays (if_pos howner) ((takeKeySlot_dev ..).trans hs)
    · exact stays (if_neg howner) hs
  | keySlotRevoke who slot qx qy resv =>
    by_cases howner : s.ownerAccess who = true
    · exact stays (if_pos howner) ((takeKeySlot_dev ..).trans hs)
    · exact stays (if_neg howner) hs
  | standbySupplyLoss => exact gives rfl (.inr (.inr (.inr rfl)))
  | registerWrite who off width v =>
    by_cases hreaches : s.reaches who = true
    · exact gives (if_pos hreaches) (retiredOrCold_of_kept (kept_pump _) (bar0Put_retiredOrCold hcold _ _ _ _)).past
    · exact stays (if_neg hreaches) hs
  | regAccessWrite who tag width count off data bad => exact (regAccessWrite_retiredOrCold hcold h).past
  | deviceBuildEnd at' => exact .inl (deviceBuildEnd_retired hs h)
  | hubUncorrectableError unit addr =>
    by_cases hpower : s.powered = true
    · refine stays (if_neg (by simp [hpower])) ?_
      rw [retire_retired]
      all_goals exact (dev_of_kept (kept_log _ _)).trans hs
    · exact stays (if_pos (by simpa using hpower)) hs
  | imageFetch badA badB => exact stays (if_pos (by simp [hs])) hs
  | mainInputLoss => exact gives rfl (.inr (.inr (.inr (loseMain_retired hs))))
  | mgOrderCold who => exact gives rfl (deviceOrder_retiredOrCold hcold who 1).past
  | mgOrderRetire who => exact gives rfl (deviceOrder_retiredOrCold hcold who 3).past
  | mgOrderWarm who => exact gives rfl (deviceOrder_retiredOrCold hcold who 2).past
  | perstAssert => exact .inl (perstAssert_retired_dev hs h)
  | postPackageRepair => exact stays (if_pos (by simp [hs])) hs
  | powerOn sense => exact stays (if_pos (by simp [hs])) hs
  | powerOnSelfTest find => exact stays (if_pos (by simp [hs])) hs
  | pwrEnLow =>
    by_cases hsled : s.sled = true
    · exact gives (if_pos hsled) (.inr (.inr (.inr (loseMain_retired hs))))
    · exact stays (if_neg hsled) hs
  | railFault stage =>
    have hexec : exec (.railFault stage) s =
        if stage.val = 0 then .next s else .next (s.hardShutdown [(4, 0x80 + stage.val, temp16 s.vrHottest)]) := by
      show execRailFault stage s = _
      rw [execRailFault, hs]
    by_cases hstage : stage.val = 0
    · exact stays (hexec.trans (if_pos hstage)) hs
    · exact gives (hexec.trans (if_neg hstage)) (hardShutdown_past hs _)
  | ready at' => exact stays (if_pos (by simp [hs])) hs
  | sensorSample at' smp =>
    by_cases hpower : (s.at at').powered = true
    · exact gives (if_neg (by simp [hpower])) (hardShutdown_past ((dev_of_kept (by simp)).trans hs) _)
    · exact stays (if_pos (by simpa using hpower)) hs
  | stackLost stack chan cause =>
    by_cases hnone : (!s.powered) = true ∨ s.stk.lost.getLsbD stack = true ∨ cause = 0 ∨ 6 < cause.toNat
    · exact stays (if_pos hnone) hs
    · exact stays (if_neg hnone) (loseStack_retired hs _ _ _)
  | stackTraining fails => exact stays (if_pos (by simp [hs])) hs
  | startupBuild => exact stays (if_pos (by simp [hs])) hs
  | _ => exact keeps (by simp only [exec]; simp)

/-- Settles O1. -/
theorem stepTakesFront : Obligations.StepTakesFront := fun s c rest => step_cons { s with pending := c :: rest } c rest rfl

/-- Settles O60: a step is an idle cycle, which keeps the run state, or a command. -/
theorem retiredIsLeftOnlyByReset : Obligations.RetiredIsLeftOnlyByReset := by
  intro s t hs h
  cases hp : s.pending with
  | nil =>
    rw [step_nil s hp] at h
    exact .inl (Host.Outcome.next.inj h ▸ (dev_of_kept (kept_idle s)).trans hs)
  | cons c rest =>
    rw [step_cons s c rest hp] at h
    exact exec_pastRetired (s := { s with pending := rest }) c hs h

end Sys2Proof.Machine

/-! SUPPORT. Stacked memory and errors of the hub die (R443, R447 to R454, R497, R520, R522): what refresh, scrubbing and remap
copies leave alone, and how a device without parcels and Welt lines retires. -/

namespace Sys2Proof.Machine

open Sys2Proof.Safety

/-! Alerts (R532, R593). -/

/-- R532: the sticky block's bit and the pin are raised. -/
def State.raiseAlert (s : State) (bit : Nat) (code : W16) : State :=
  { s with
    er := { s.er with
      alertCause := s.er.alertCause ||| BitVec.ofNat 10 (2 ^ bit)
      alertFirst := if s.er.alertCause = 0 then code else s.er.alertFirst }
    mg := { s.mg with alertPin := true } }

/-- R532, R593: an alert that is not raised yet is told to the platform, the functions and the sessions. -/
theorem alert_cases (s : State) (bit : Nat) (code : W16) : s.alert bit code = s ∨
    ∃ data, s.alert bit code = (((s.raiseAlert bit code).pldmEvent 0xF0 data).allFnEvent 2).vgAlertAll 1 := by
  by_cases hbit : s.er.alertCause.getLsbD bit = true
  · exact .inl (if_pos hbit)
  · exact .inr ⟨_, if_neg hbit⟩

/-- The state but for what the device reports, and for its management plane. -/
def State.quiet (s : State) : State := { s.still with mg := {} }

theorem quiet_of_still {s t : State} (h : t.still = s.still) : t.quiet = s.quiet :=
  congrArg (fun u : State => { u with mg := {} }) h

theorem quiet_pldmEvent (s : State) (cls : Byte) (data : List Byte) : (s.pldmEvent cls data).quiet = s.quiet := by
  unfold State.pldmEvent
  dsimp only
  split <;> rfl

/-- R532: an alert touches what the device reports and its management plane alone. -/
theorem quiet_alert (s : State) (bit : Nat) (code : W16) : (s.alert bit code).quiet = s.quiet := by
  obtain hsame | ⟨data, hraised⟩ := alert_cases s bit code
  · rw [hsame]
  · rw [hraised, quiet_of_still (still_vgAlertAll _ 1), quiet_of_still (still_allFnEvent _ 2), quiet_pldmEvent]
    rfl

section
variable {s t : State} (h : t.quiet = s.quiet)
include h

theorem dev_of_quiet : t.dev = s.dev := congrArg (·.dev) h
theorem datum_of_quiet : t.datum = s.datum := congrArg (·.datum) h
theorem cells_of_quiet : t.cells = s.cells := congrArg (·.cells) h
theorem stk_of_quiet : t.stk = s.stk := congrArg (·.stk) h
theorem th_of_quiet : t.th = s.th := congrArg (·.th) h

end

/-! What a sector's read leaves of the stacks (R445 to R450). -/

/-- The bytes of the stacks and what scrubbing has counted. -/
def State.scrubView (s : State) : Sparse Byte × Nat × W32 := (s.stk.mem, s.stk.scrubCount, s.stk.scrubPasses)

theorem scrubView_remapRow (s : State) (st row : Nat) : (s.remapRow st row).scrubView = s.scrubView := by
  unfold State.remapRow
  dsimp only
  split
  · rfl
  · split
    · rfl
    · simp only [State.scrubView, stk_of_quiet (quiet_alert ..), state_log_stk]

theorem scrubView_stackCE (s : State) (phys : Nat) : (s.stackCE phys).scrubView = s.scrubView := by
  unfold State.stackCE
  dsimp only
  split
  · exact scrubView_remapRow _ _ _
  · rfl

theorem scrubView_stackUE (s : State) (parcel : Option Nat) (phys dev : Nat) :
    (s.stackUE parcel phys dev).scrubView = s.scrubView := by
  unfold State.stackUE
  split
  · rfl
  · dsimp only
    rw [scrubView_remapRow, State.scrubView, state_log_stk]
    rfl

/-- R447: a scrub read is counted, and its pass when it is the last sector of all stacks. -/
def State.countScrub (s : State) : State :=
  if s.stk.scrubCount + 1 = 8 * stackSectors then
    { s with stk := { s.stk with scrubCount := 0, scrubPasses := satAdd32 s.stk.scrubPasses 1 } }
  else { s with stk := { s.stk with scrubCount := s.stk.scrubCount + 1 } }

/-- R445, R446: what the ECC of a scrub read found is applied. -/
def State.scrubFound (s : State) (p : Option Nat) (phys dev : Nat) (ecc : Ecc) : State :=
  match ecc with
  | .clean => s
  | .corrected => s.stackCE phys
  | .uncorrectable => s.stackUE p phys dev

theorem scrubView_scrubFound (s : State) (p : Option Nat) (phys dev : Nat) (ecc : Ecc) :
    (s.scrubFound p phys dev ecc).scrubView = s.scrubView := by
  cases ecc with
  | clean => rfl
  | corrected => exact scrubView_stackCE s phys
  | uncorrectable => exact scrubView_stackUE s p phys dev

theorem scrubRead_eq {s : State} (hp : s.powered = true) (k : Fin 8) {sector : Nat} (hs : sector < stackSectors) (ecc : Ecc) :
    let phys := k * 2 ^ 36 + sector * 32
    let whose := s.whoseAddr phys
    exec (.scrubRead k sector ecc) s =
      .next (((s.countSector 0x20 phys whose.1).countScrub).scrubFound whose.1 phys whose.2 ecc) :=
  if_neg (by simp [hp, hs])

/-- R447: a scrub read changes no byte and counts its sector, whatever its ECC finds. -/
theorem scrubRead_counts {s : State} (hp : s.powered = true) (k : Fin 8) {sector : Nat} (hs : sector < stackSectors) (ecc : Ecc) :
    ∃ t, exec (.scrubRead k sector ecc) s = .next t ∧ t.scrubView = s.countScrub.scrubView := by
  refine ⟨_, scrubRead_eq hp k hs ecc, ?_⟩
  rw [scrubView_scrubFound]
  simp only [State.countScrub, stk_countSector]
  split <;> simp only [State.scrubView]

/-! A device without parcels and Welt lines retires (R520). -/

/-- The run state, the tick machine, the stacks, MG_RETIRE, the count of SRAM errors, and what a device in service holds for
others: its parcels, the lines of its Welt and the CONTROL requests that wait. -/
def State.retireView (s : State) :
    DevState × TickSt × Stacks × Byte × W32 × Sparse Parcel × Sparse (Option WLine) × List Nat :=
  (s.dev, s.tk, s.stk, s.mg.retire, s.er.sramUe, s.parcels, s.host.lines, s.net.ctlOrder)

/-- The device has no parcels, no lines in the Welt and no CONTROL request that waits. -/
structure NothingServed (s : State) : Prop where
  noParcels : s.parcels = []
  noLines : s.host.lines = []
  noneWaits : s.net.ctlOrder = []

theorem NothingServed.of_view {s t : State} (h : NothingServed s) (ht : t.retireView = s.retireView) : NothingServed t where
  noParcels := (congrArg (·.2.2.2.2.2.1) ht).trans h.noParcels
  noLines := (congrArg (·.2.2.2.2.2.2.1) ht).trans h.noLines
  noneWaits := (congrArg (·.2.2.2.2.2.2.2) ht).trans h.noneWaits

theorem retireView_log (s : State) (e : LogEntry) : (s.log e).retireView = s.retireView := by
  have hue : (s.log e).er.sramUe = s.er.sramUe := by
    unfold State.log
    dsimp only
    (repeat' split) <;> rfl
  simp [State.retireView, hue]

theorem retireView_pldmEvent (s : State) (cls : Byte) (data : List Byte) : (s.pldmEvent cls data).retireView = s.retireView := by
  unfold State.pldmEvent
  dsimp only
  split <;> rfl

theorem retireView_allFnEvent (s : State) (bit : Nat) : (s.allFnEvent bit).retireView = s.retireView :=
  view_foldl State.retireView _ _ (fun s f _ => by unfold State.fnEvent; split <;> rfl) s

theorem retireView_alert {s : State} (h : NothingServed s) (bit : Nat) (code : W16) :
    (s.alert bit code).retireView = s.retireView := by
  obtain hsame | ⟨data, hraised⟩ := alert_cases s bit code
  · rw [hsame]
  · have hview : (((s.raiseAlert bit code).pldmEvent 0xF0 data).allFnEvent 2).retireView = s.retireView := by
      rw [retireView_allFnEvent, retireView_pldmEvent]
      rfl
    rw [hraised, vgAlertAll_noParcel (h.of_view hview).noParcels, hview]

/-- The state of a device that enters RETIRED, before it ends what it serves. -/
def State.enterRetired (s : State) (cause : Nat) : State :=
  ({ s with tk := {}, mg := { s.mg with retire := BitVec.ofNat 8 cause }
            img := { s.img with building := false } } : State).toDev .retired |>.stopTrace

theorem retireView_enterRetired (s : State) (cause : Nat) : (s.enterRetired cause).retireView =
    (.retired, {}, s.stk, BitVec.ofNat 8 cause, s.er.sramUe, s.parcels, s.host.lines, s.net.ctlOrder) := by
  have hstop (u : State) : u.stopTrace.retireView = u.retireView := by
    unfold State.stopTrace
    split <;> rfl
  rw [State.enterRetired, hstop, State.toDev]
  dsimp only
  split
  · rfl
  · rw [retireView_pldmEvent]
    rfl

/-- R520: a device in service that serves nothing retires: it records the cause and stops the tick machine. -/
theorem retire_nothingServed {s : State} (h : NothingServed s) (hd : s.dev ≠ .retired) (cause : Nat) :
    (s.retire cause).retireView = (.retired, {}, s.stk, BitVec.ofNat 8 cause, s.er.sramUe, [], [], []) := by
  have hview := retireView_enterRetired s cause
  rw [h.noParcels, h.noLines, h.noneWaits] at hview
  have hserved : NothingServed (s.enterRetired cause) :=
    ⟨congrArg (·.2.2.2.2.2.1) hview, congrArg (·.2.2.2.2.2.2.1) hview, congrArg (·.2.2.2.2.2.2.2) hview⟩
  generalize hu : s.enterRetired cause = u at hview hserved
  have hlog := retireView_log u { logEntry u 0x1001 with cls := 4, aux := BitVec.ofNat 8 cause }
  generalize hv : u.log { logEntry u 0x1001 with cls := 4, aux := BitVec.ofNat 8 cause } = v at hlog
  have halert := (retireView_allFnEvent _ 3).trans (retireView_alert (hserved.of_view hlog) 9 0x1001)
  have hend := (hserved.of_view hlog).of_view halert
  have hretire : s.retire cause = (v.alert 9 0x1001).allFnEvent 3 := by
    unfold State.retire
    rw [if_neg hd]
    dsimp only
    have henter : (State.toDev _ .retired).stopTrace = u := hu
    rw [henter, hserved.noParcels, List.map_nil, List.foldl_nil, State.evictAll, hserved.noLines, List.map_nil, List.foldl_nil, hv,
      vgAlertAll_noParcel hend.noParcels, pump_quiet _ hend.noneWaits]
  rw [hretire, halert, hlog, hview]

/-! A stack is lost, a hub-die structure fails (R453, R454, R520, R522). -/

/-- R454: the first loss is recorded with its cause, channel and datum. -/
def Stacks.lose (t : Stacks) (k chan cause : Nat) (now : Nat) : Stacks :=
  let t := { t with lost := t.lost ||| (1#8 <<< k) }
  if t.loss.getLsbD 15 then t else { t with
    loss := BitVec.ofNat 32 (2 ^ 15 + cause * 256 + chan * 16 + k), lossDatum := BitVec.ofNat 64 now }

theorem retireView_loseStack {s : State} (h : NothingServed s) (k chan cause : Nat) : (s.loseStack k chan cause).retireView =
    (.retired, if s.dev = .retired then s.tk else {}, s.stk.lose k chan cause s.datum,
      if s.dev = .retired then s.mg.retire else 1, s.er.sramUe, [], [], []) := by
  obtain ⟨u, hu, hlose⟩ : ∃ u : State, u = { s with stk := s.stk.lose k chan cause s.datum } ∧ s.loseStack k chan cause =
      ((u.log { logEntry u 0x0904 with
        cls := 4, unit := BitVec.ofNat 16 k, aux := BitVec.ofNat 8 cause
        arg := BitVec.ofNat 64 chan }).alert 3 0x0904).retire 1 := by
    refine ⟨_, rfl, ?_⟩
    unfold State.loseStack Stacks.lose
    dsimp only
    split <;> rfl
  have hserved : NothingServed u := hu ▸ ⟨h.noParcels, h.noLines, h.noneWaits⟩
  have hlog := retireView_log u { logEntry u 0x0904 with
    cls := 4, unit := BitVec.ofNat 16 k, aux := BitVec.ofNat 8 cause, arg := BitVec.ofNat 64 chan }
  have halert := (retireView_alert (hserved.of_view hlog) 3 0x0904).trans hlog
  rw [hlose]
  generalize State.alert _ 3 0x0904 = v at halert
  have hview : v.retireView = (s.dev, s.tk, s.stk.lose k chan cause s.datum, s.mg.retire, s.er.sramUe, [], [], []) := by
    rw [halert, hu, State.retireView, ← h.noParcels, ← h.noLines, ← h.noneWaits]
  have hdev : v.dev = s.dev := congrArg Prod.fst hview
  by_cases hret : s.dev = .retired
  · rw [retire_retired (hdev.trans hret), hview, if_pos hret, if_pos hret, hret]
  · obtain ⟨-, -, hstk, -, hue, -⟩ : _ ∧ _ ∧ v.stk = _ ∧ _ ∧ v.er.sramUe = _ ∧ _ := by
      simpa only [State.retireView, Prod.mk.injEq] using hview
    rw [retire_nothingServed (hserved.of_view halert) (hdev ▸ hret), hstk, hue, if_neg hret, if_neg hret]
    rfl

/-- R453, R454: the lost stack is marked, and the first loss stays recorded. -/
theorem lose_spec (t : Stacks) (k : Fin 8) (chan cause now : Nat) : (t.lose k chan cause now).lost.getLsbD k = true ∧
    (t.loss.getLsbD 15 = true → (t.lose k chan cause now).loss = t.loss) ∧
    (t.loss.getLsbD 15 = false → (t.lose k chan cause now).lossDatum = BitVec.ofNat 64 now ∧
      (t.lose k chan cause now).loss = BitVec.ofNat 32 (2 ^ 15 + cause * 256 + chan * 16 + k)) := by
  have hbit : (t.lost ||| (1#8 <<< k.val)).getLsbD k = true := by simp
  unfold Stacks.lose
  dsimp only
  split
  case isTrue h => exact ⟨hbit, fun _ => rfl, fun h' => absurd (h.symm.trans h') nofun⟩
  case isFalse h => exact ⟨hbit, fun h' => absurd h' h, fun _ => ⟨rfl, rfl⟩⟩

/-- Settles O52: each clause is the law of the command that it names. -/
theorem stackedMemoryCompletes : Obligations.StackedMemoryCompletes := by
  intro s k
  refine ⟨fun pch bank => ?_, fun sector ecc hp hs => ?_, fun htested => if_pos htested, fun hfree => ?_,
    fun chan cause hp hlost hc hc' hparcels hlines hctl => ?_, fun unit addr hp hd hparcels hlines hctl => ?_,
    fun results hrun => if_pos (.inl hrun)⟩
  · by_cases hp : s.powered = true
    · exact ⟨_, if_neg (by simp [hp]), countEvent_frame ..⟩
    · exact ⟨s, if_pos (by simpa using hp), rfl⟩
  · obtain ⟨t, hexec, hview⟩ := scrubRead_counts hp k hs ecc
    simp only [State.scrubView, Prod.mk.injEq] at hview
    obtain ⟨hmem, hcount, hpasses⟩ := hview
    rw [State.countScrub] at hmem hcount hpasses
    refine ⟨t, hexec, ?_, fun hmore => ?_, fun hlast => ?_⟩
    · rw [hmem]
      split <;> rfl
    · have hmore : s.stk.scrubCount + 1 ≠ 8 * stackSectors := hmore.ne
      rw [hcount, hpasses, if_neg hmore]
      exact ⟨rfl, rfl⟩
    · have hlast : s.stk.scrubCount + 1 = 8 * stackSectors := hlast
      rw [hcount, hpasses, if_pos hlast]
      exact ⟨rfl, rfl⟩
  · exact ⟨_, if_neg (by simpa using hfree), rfl, fun hwf => spGet_spMod_self hwf _ _⟩
  · have hview := retireView_loseStack ⟨hparcels, hlines, hctl⟩ k chan cause.toNat
    simp only [State.retireView, Prod.mk.injEq] at hview
    obtain ⟨hdev, htk, hstk, hcause, -⟩ := hview
    obtain ⟨hmarked, hkept, hrecorded⟩ := lose_spec s.stk k chan cause.toNat s.datum
    have hacts : ¬((!s.powered) = true ∨ s.stk.lost.getLsbD k = true ∨ cause = 0 ∨ 6 < cause.toNat) := by
      rw [hp, hlost, not_or, not_or, not_or]
      exact ⟨by decide, by decide, hc, not_lt.2 hc'⟩
    refine ⟨_, if_neg hacts, hdev, ?_, hstk ▸ hmarked, fun hret => hcause.trans (if_neg hret), hstk ▸ hkept, hstk ▸ hrecorded⟩
    rw [htk]
    by_cases hret : s.dev = .retired
    · simp [hret]
    · simp [hret]
  · generalize hu : ({ s with er := { s.er with sramUe := satAdd32 s.er.sramUe 1 } } : State) = u
    have hserved : NothingServed u := hu ▸ ⟨hparcels, hlines, hctl⟩
    have hlog := retireView_log u { logEntry u 0x0D02 with cls := 4, unit := unit, arg := addr }
    have hnot : (u.log { logEntry u 0x0D02 with cls := 4, unit := unit, arg := addr }).dev ≠ .retired := by
      rw [state_log_dev, ← hu]
      exact hd
    have hview := retire_nothingServed (hserved.of_view hlog) hnot 2
    simp only [State.retireView, Prod.mk.injEq] at hview hlog
    obtain ⟨-, -, -, -, hsramUe, -⟩ := hlog
    obtain ⟨hdev, htk, -, hcause, hue, -⟩ := hview
    refine ⟨_, (if_neg (by simp [hp])).trans ?_, hdev, hcause, htk, hue.trans (hsramUe.trans ?_)⟩ <;> rw [← hu]

end Sys2Proof.Machine

/-! SUPPORT. Temperature and power (R462 to R474): what a change of a cell's clock, an entry into the emergency and a cap step are,
and what a list of such steps makes of each cell and stack. -/

namespace Sys2Proof.Machine

/-! A step for each of a list. -/

/-- Steps of a list without repetition, each of which changes the entry that it names and no other, change each of these once. -/
theorem foldl_each {σ γ : Type} {f : σ → Nat → γ} {g : σ → Nat → σ} {upd : γ → γ} {p : γ → Prop}
    (hself : ∀ s n, p (f s n) → f (g s n) n = upd (f s n)) (hne : ∀ s n m, m ≠ n → f (g s n) m = f s m)
    {l : List Nat} (hl : l.Nodup) {s : σ} (hp : ∀ n ∈ l, p (f s n)) :
    (∀ m ∈ l, f (l.foldl g s) m = upd (f s m)) ∧ ∀ m, m ∉ l → f (l.foldl g s) m = f s m := by
  induction l generalizing s with
  | nil => exact ⟨nofun, fun _ _ => rfl⟩
  | cons a l ih =>
    obtain ⟨ha, hl⟩ := List.nodup_cons.1 hl
    have hother {m : Nat} (hm : m ∈ l) : m ≠ a := fun h => ha (h ▸ hm)
    obtain ⟨hin, hout⟩ := ih hl (s := g s a) fun n hn => by
      rw [hne s a n (hother hn)]
      exact hp n (List.mem_cons_of_mem a hn)
    refine ⟨fun m hm => ?_, fun m hm => ?_⟩
    · obtain rfl | hm := List.mem_cons.1 hm
      · exact (hout m ha).trans (hself s m (hp m List.mem_cons_self))
      · exact (hin m hm).trans (congrArg upd (hne s a m (hother hm)))
    · obtain ⟨hma, hml⟩ := not_or.1 (mt List.mem_cons.2 hm)
      exact (hout m hml).trans (hne s a m hma)

/-! The clock of a cell changes (R463, R467, R581). -/

theorem cell_setClock_self {s : State} {n : Nat} (h : (s.cell n).graph.isSome = true) (code reason : Nat) :
    (s.setClock n code reason).cell n = { s.cell n with clk := code } := by
  have hne : ({ s.cell n with clk := code } : Cell) ≠ Cell.zero := fun hz => by
    have hgraph : (s.cell n).graph = none := congrArg Cell.graph hz
    rw [hgraph] at h
    cases h
  refine (congrArg (spGet Cell.zero · n) (state_trace_cells ..)).trans ?_
  exact spGet_spPut_of_ne s.cells n hne

theorem cell_setClock_ne (s : State) {n m : Nat} (h : m ≠ n) (code reason : Nat) :
    (s.setClock n code reason).cell m = s.cell m :=
  (congrArg (spGet Cell.zero · m) (state_trace_cells ..)).trans (spGet_spPut_ne _ _ s.cells h)

/-- What the throttle notes of a cell whose clock changes: the instant of its rise, or of its fall. -/
def ThCell.clocked (now reason : Nat) (h : ThCell) : ThCell :=
  if reason = 3 then { h with rise := some now } else { h with low := some now }

theorem clocked_ne_zero (now reason : Nat) (h : ThCell) : h.clocked now reason ≠ ThCell.zero := by
  unfold ThCell.clocked
  split
  · exact fun hz => nomatch (congrArg ThCell.rise hz : some now = none)
  · exact fun hz => nomatch (congrArg ThCell.low hz : some now = none)

theorem thCell_setClock_self (s : State) (n code reason : Nat) :
    (s.setClock n code reason).thCell n = (s.thCell n).clocked s.datum reason := by
  refine (congrArg (fun th : Th => spGet ThCell.zero th.cells n) (state_trace_th ..)).trans ?_
  exact spGet_spPut_of_ne s.th.cells n (clocked_ne_zero s.datum reason (s.thCell n))

theorem thCell_setClock_ne (s : State) {n m : Nat} (h : m ≠ n) (code reason : Nat) :
    (s.setClock n code reason).thCell m = s.thCell m :=
  (congrArg (fun th : Th => spGet ThCell.zero th.cells m) (state_trace_th ..)).trans (spGet_spPut_ne _ _ s.th.cells h)

/-- The throttle but for what it keeps of the cells and of the dies' rails. -/
def Th.common (t : Th) : Th := { t with cells := [], die := [] }

/-- What a change of clocks leaves: the run state, the datum, the parcels and the throttle's own registers. -/
def State.clockView (s : State) : DevState × Nat × Sparse Parcel × Th := (s.dev, s.datum, s.parcels, s.th.common)

theorem clockView_setClock (s : State) (n code reason : Nat) : (s.setClock n code reason).clockView = s.clockView := by
  have htrace (u : State) (cls event : Nat) (parcel q : Option Nat) (unit aux : Nat) (arg : W64) :
      (u.trace cls event parcel q unit aux arg).clockView = u.clockView := by simp [State.clockView]
  exact (htrace ..).trans rfl

section
variable {s t : State} (h : t.clockView = s.clockView)
include h

theorem datum_of_clockView : t.datum = s.datum := congrArg (·.2.1) h
theorem emergs_of_clockView : t.th.emergs = s.th.emergs := congrArg (·.2.2.2.emergs) h
theorem pemerg_of_clockView : t.th.pemerg = s.th.pemerg := congrArg (·.2.2.2.pemerg) h
theorem lastCell_of_clockView : t.th.lastCell = s.th.lastCell := congrArg (·.2.2.2.lastCell) h
theorem lastStep_of_clockView : t.th.lastStep = s.th.lastStep := congrArg (·.2.2.2.lastStep) h

end

/-! A cell falls below its floor (R466, R467). -/

theorem markThermal_frame (s : State) (n : Nat) : s.markThermal n = { s with insts := (s.markThermal n).insts } := by
  unfold State.markThermal
  split <;> rfl

/-- What the throttle notes of a cell that falls below its floor. -/
theorem thCell_fallBelow_emerg (s : State) (n : Nat) : ((s.fallBelow n).thCell n).emerg = true := by
  unfold State.fallBelow
  dsimp only
  rw [markThermal_frame]
  have hne : ({ (s.setClock n ((s.cell n).clk - 1) 5).thCell n with emerg := true } : ThCell) ≠ ThCell.zero :=
    fun hz => nomatch (congrArg ThCell.emerg hz : true = false)
  exact congrArg ThCell.emerg (spGet_spPut_of_ne _ n hne)

theorem cells_fallBelow (s : State) (n : Nat) : (s.fallBelow n).cells = (s.setClock n ((s.cell n).clk - 1) 5).cells := by
  unfold State.fallBelow
  dsimp only
  rw [markThermal_frame]
  rfl

theorem clockView_fallBelow (s : State) (n : Nat) : (s.fallBelow n).clockView = s.clockView := by
  unfold State.fallBelow
  dsimp only
  rw [markThermal_frame]
  exact clockView_setClock s n _ 5

/-! The emergency (R467). -/

/-- R467: an entry into the emergency is counted, and reported. -/
theorem quiet_enterEmergency (s : State) (kind unit reading : Nat) : (s.enterEmergency kind unit reading).quiet =
    ({ s with th := { s.th with emergs := satAdd32 s.th.emergs 1 } } : State).quiet := by
  unfold State.enterEmergency
  dsimp only
  rw [quiet_alert]
  have hlog (e : LogEntry) : (s.log e).quiet = s.quiet := quiet_of_still (still_log s e)
  rw [state_log_th]
  exact congrArg (fun u : State => { u with th := { s.th with emergs := satAdd32 s.th.emergs 1 } }) (hlog _)

theorem th_enterEmergency (s : State) (kind unit reading : Nat) :
    (s.enterEmergency kind unit reading).th = { s.th with emergs := satAdd32 s.th.emergs 1 } :=
  th_of_quiet (quiet_enterEmergency s kind unit reading)

theorem cells_enterEmergency (s : State) (kind unit reading : Nat) : (s.enterEmergency kind unit reading).cells = s.cells :=
  (cells_of_quiet (quiet_enterEmergency s kind unit reading) :)

theorem datum_enterEmergency (s : State) (kind unit reading : Nat) : (s.enterEmergency kind unit reading).datum = s.datum :=
  (datum_of_quiet (quiet_enterEmergency s kind unit reading) :)

theorem thCell_enterEmergency (s : State) (kind unit reading n : Nat) :
    (s.enterEmergency kind unit reading).thCell n = s.thCell n := by
  rw [State.thCell, th_enterEmergency]
  rfl

/-! CELL_THROTTLE_STEP (R462, R467). -/

theorem argMax_mem {f : Nat → Int} {l : List Nat} {n : Nat} (h : argMax f l = some n) : n ∈ l := by
  induction l generalizing n with
  | nil => cases h
  | cons a l ih =>
    rw [argMax] at h
    split at h
    · exact List.mem_cons.2 (.inl (Option.some.inj h).symm)
    case h_2 b hb =>
      split at h <;> obtain rfl := Option.some.inj h
      · exact List.mem_cons_of_mem _ (ih hb)
      · exact List.mem_cons_self

theorem mem_ungated {s : State} {p : Nat → Bool} {n : Nat} :
    n ∈ s.ungated.filter p ↔ n < 128 ∧ (s.cell n).graph.isSome = true ∧ p n = true := by
  simp [State.ungated, Cell.gated, and_comm (a := p n = true)]

theorem ungated_nodup (s : State) (p : Nat → Bool) : (s.ungated.filter p).Nodup := (List.nodup_range.filter _).filter _

/-- R462, R467: cell n is lowered a step; one at its floor or below enters the emergency. -/
def State.throttleDown (u : State) (n : Nat) : State :=
  if u.floorOf n < (u.cell n).clk then u.setClock n ((u.cell n).clk - 1) 1
  else if (!(u.thCell n).emerg) = true then (u.fallBelow n).enterEmergency 1 n (temp16 ((u.fallBelow n).cellTemp n))
  else u.fallBelow n

/-- The state in which the step of a cell is taken. -/
def State.noteCellStep (s : State) (at' : Nat) : State :=
  { s.at at' with th := { s.th with lastCell := some (max s.datum at') } }

theorem cellThrottleStep_lowers {s : State} (hp : s.powered = true) {at' n : Nat}
    (hn : argMax s.cellTemp (s.ungated.filter s.throttles) = some n) (hdue : since (max s.datum at') s.th.lastCell 2000 = true) :
    exec (.cellThrottleStep at') s = .next ((s.noteCellStep at').throttleDown n) := by
  have hacts : ¬((!(s.at at').powered) = true ∨ (!since (s.at at').datum (s.at at').th.lastCell 2000) = true) := by
    rw [show (s.at at').powered = true from hp, show since (s.at at').datum (s.at at').th.lastCell 2000 = true from hdue]
    decide
  have hn' : argMax (s.at at').cellTemp ((s.at at').ungated.filter (s.at at').throttles) = some n := hn
  show execCellThrottleStep at' s = _
  unfold execCellThrottleStep
  dsimp only
  rw [if_neg hacts, hn']
  exact (apply_ite Host.Outcome.next _ _ _).symm

theorem cellThrottleStep_idle {s : State} {at' : Nat} (h : argMax s.cellTemp (s.ungated.filter s.throttles) = none ∨
    since (max s.datum at') s.th.lastCell 2000 = false) : exec (.cellThrottleStep at') s = .next (s.at at') := by
  show execCellThrottleStep at' s = _
  unfold execCellThrottleStep
  dsimp only
  split
  · rfl
  case isFalse hacts =>
    have hn' : argMax (s.at at').cellTemp ((s.at at').ungated.filter (s.at at').throttles) = none :=
      h.resolve_right fun hdue => hacts (.inr (by rw [show since (s.at at').datum (s.at at').th.lastCell 2000 = false from hdue]; rfl))
    rw [hn']

/-- R462: a step of a candidate lowers its clock alone, and above its floor counts no emergency. -/
theorem throttleDown_spec {u : State} {n : Nat} (hg : (u.cell n).graph.isSome = true) : let t := u.throttleDown n
    t.cell n = { u.cell n with clk := (u.cell n).clk - 1 } ∧ (∀ m, m ≠ n → t.cell m = u.cell m) ∧ t.datum = u.datum ∧
    t.th.lastCell = u.th.lastCell ∧
    (u.floorOf n < (u.cell n).clk → (t.thCell n).low = some u.datum ∧ t.th.emergs = u.th.emergs) ∧
    ((u.cell n).clk ≤ u.floorOf n → (t.thCell n).emerg = true ∧
      t.th.emergs = if (u.thCell n).emerg then u.th.emergs else satAdd32 u.th.emergs 1) := by
  by_cases hfloor : u.floorOf n < (u.cell n).clk
  · simp only [State.throttleDown, if_pos hfloor]
    have hview := clockView_setClock u n ((u.cell n).clk - 1) 1
    refine ⟨cell_setClock_self hg _ _, fun m hm => cell_setClock_ne u hm _ _, datum_of_clockView hview,
      lastCell_of_clockView hview, fun _ => ⟨?_, emergs_of_clockView hview⟩, fun h => absurd hfloor (not_lt.2 h)⟩
    rw [thCell_setClock_self]
    rfl
  · have hcells := cells_fallBelow u n
    have hview := clockView_fallBelow u n
    have hself : (u.fallBelow n).cell n = { u.cell n with clk := (u.cell n).clk - 1 } := by
      rw [cell_of_cells hcells, cell_setClock_self hg]
    have hother (m : Nat) (hm : m ≠ n) : (u.fallBelow n).cell m = u.cell m := by
      rw [cell_of_cells hcells, cell_setClock_ne u hm]
    simp only [State.throttleDown, if_neg hfloor]
    split
    case isTrue hnew =>
      refine ⟨(cell_of_cells (cells_enterEmergency ..) n).trans hself,
        fun m hm => (cell_of_cells (cells_enterEmergency ..) m).trans (hother m hm),
        (datum_enterEmergency ..).trans (datum_of_clockView hview), ?_, fun h => absurd h hfloor, fun _ => ⟨?_, ?_⟩⟩
      · rw [th_enterEmergency]
        exact lastCell_of_clockView hview
      · rw [thCell_enterEmergency]
        exact thCell_fallBelow_emerg u n
      · rw [th_enterEmergency, if_neg (by simpa using hnew), ← emergs_of_clockView hview]
    case isFalse hold =>
      refine ⟨hself, hother, datum_of_clockView hview, lastCell_of_clockView hview, fun h => absurd h hfloor,
        fun _ => ⟨thCell_fallBelow_emerg u n, ?_⟩⟩
      rw [if_pos (by simpa using hold), emergs_of_clockView hview]

/-! CELL_CLOCK_RISE (R463, R466). -/

/-- R463, R466: a cell rises a step, and at its floor leaves the emergency. -/
def State.riseCell (s : State) (n : Nat) : State := (s.setClock n ((s.cell n).clk + 1) 3).leaveEmergency n

theorem leaveEmergency_frame (s : State) (n : Nat) :
    s.leaveEmergency n = { s with th := (s.leaveEmergency n).th } := by
  unfold State.leaveEmergency
  split <;> rfl

theorem cellClockRise_eq {s : State} (hp : s.powered = true) (at' : Nat) :
    ∃ th, exec (.cellClockRise at') s = .next { ((s.at at').ungated.filter (s.at at').rises).foldl State.riseCell (s.at at') with
      th := th } := by
  show ∃ th, execCellClockRise at' s = _
  unfold execCellClockRise
  dsimp only
  rw [if_neg (by simp [show (s.at at').powered = true from hp])]
  split
  · exact ⟨_, rfl⟩
  · exact ⟨_, rfl⟩

theorem cells_riseCell (s : State) (n : Nat) : (s.riseCell n).cells = (s.setClock n ((s.cell n).clk + 1) 3).cells := by
  rw [State.riseCell, leaveEmergency_frame]

/-- R463: every cell that may rise does, one step; the others stay as they are. -/
theorem cell_rises (u : State) {n : Nat} (hn : n < 128) : ((u.ungated.filter u.rises).foldl State.riseCell u).cell n =
    if (u.cell n).graph.isSome = true ∧ u.rises n = true then { u.cell n with clk := (u.cell n).clk + 1 } else u.cell n := by
  obtain ⟨hin, hout⟩ := foldl_each (f := State.cell) (g := State.riseCell) (upd := fun c => { c with clk := c.clk + 1 })
    (p := fun c => c.graph.isSome = true) (fun s n hg => by rw [cell_of_cells (cells_riseCell s n), cell_setClock_self hg])
    (fun s n m hm => by rw [cell_of_cells (cells_riseCell s n), cell_setClock_ne s hm])
    (ungated_nodup u u.rises) (s := u) fun n hn => (mem_ungated.1 hn).2.1
  split
  case isTrue h => exact hin n (mem_ungated.2 ⟨hn, h⟩)
  case isFalse h => exact hout n fun hm => h (mem_ungated.1 hm).2

theorem datum_riseCells (l : List Nat) (u : State) : (l.foldl State.riseCell u).datum = u.datum := by
  refine view_foldl State.datum l _ (fun s n _ => ?_) u
  have hclock := datum_of_clockView (clockView_setClock s n ((s.cell n).clk + 1) 3)
  rw [State.riseCell, leaveEmergency_frame]
  exact hclock

/-! STACK_CAP_STEP and STACK_CAP_RELEASE (R465 to R467). -/

theorem thStack_modStack_ne (s : State) {k j : Nat} (h : j ≠ k) (f : ThStack → ThStack) :
    (s.modStack k f).thStack j = s.thStack j := spGet_spMod_ne _ _ f h

theorem thStack_modStack_of_ne {s : State} {k : Nat} {f : ThStack → ThStack} (h : f (s.thStack k) ≠ ThStack.zero) :
    (s.modStack k f).thStack k = f (s.thStack k) := spGet_spPut_of_ne s.th.stks k h

/-- R465: the cap of a stack takes a step; one that reaches into the parcels' shares is in the emergency. -/
def ThStack.tighten (free : Nat) (h : ThStack) : ThStack :=
  { h with cap := h.cap + 1, emerg := h.emerg || decide (free ≤ h.cap) }

/-- The state in which the cap of a stack takes its step. -/
def State.noteCapStep (s : State) (at' : Nat) : State :=
  { s.at at' with th := { s.th with lastCap := some (max s.datum at') } }

/-- R465, R467: stack k's cap takes a step, and enters the emergency where it reaches into the shares. -/
def State.capDown (u : State) (k : Nat) : State :=
  let t := u.modStack k (ThStack.tighten (u.capFree k))
  if (decide (u.capFree k ≤ (u.thStack k).cap) && !(u.thStack k).emerg) = true then t.enterEmergency 2 k (temp16 (t.stackTemp k))
  else t

theorem stackCapStep_tightens {s : State} (hp : s.powered = true) {at' k : Nat}
    (hk : argMax s.stackTemp ((List.range 8).filter s.canTighten) = some k)
    (hdue : since (max s.datum at') s.th.lastCap 100000 = true) :
    exec (.stackCapStep at') s = .next ((s.noteCapStep at').capDown k) := by
  have hacts : ¬((!(s.at at').powered) = true ∨ (!since (s.at at').datum (s.at at').th.lastCap 100000) = true) := by
    rw [show (s.at at').powered = true from hp, show since (s.at at').datum (s.at at').th.lastCap 100000 = true from hdue]
    decide
  have hk' : argMax (s.at at').stackTemp ((List.range 8).filter (s.at at').canTighten) = some k := hk
  show execStackCapStep at' s = _
  unfold execStackCapStep
  dsimp only
  rw [if_neg hacts, hk']
  rfl

theorem capDown_spec (u : State) (k : Nat) : let t := u.capDown k
    t.th.lastCap = u.th.lastCap ∧ t.thStack k = (u.thStack k).tighten (u.capFree k) ∧
    ∀ j, j ≠ k → t.thStack j = u.thStack j := by
  have hne : (u.thStack k).tighten (u.capFree k) ≠ ThStack.zero :=
    fun hz => nomatch (congrArg ThStack.cap hz : (u.thStack k).cap + 1 = 0)
  have hself := thStack_modStack_of_ne hne
  have hother (j : Nat) (hj : j ≠ k) := thStack_modStack_ne u hj (ThStack.tighten (u.capFree k))
  simp only [State.capDown]
  split
  · simp only [State.thStack, th_enterEmergency]
    exact ⟨rfl, hself, hother⟩
  · exact ⟨rfl, hself, hother⟩

/-- R466: whether a stack's cap may release a step. -/
def State.mayRelease (s : State) (k : Nat) : Bool :=
  decide (0 < (s.thStack k).cap) && since s.datum (s.thStack k).release 1000000 &&
    decide (s.stackTemp k < (if (s.thStack k).emerg then 776 else 696))

/-- R466: a stack's cap releases a step. -/
def State.releaseCap (s : State) (k : Nat) : State :=
  s.modStack k (fun h => { h with
    cap := h.cap - 1, release := some s.datum, emerg := h.emerg && decide (s.capFree k < h.cap - 1) })

theorem stackCapRelease_eq {s : State} (hp : s.powered = true) (at' : Nat) : exec (.stackCapRelease at') s =
    .next (((List.range 8).filter (s.at at').mayRelease).foldl State.releaseCap (s.at at')) :=
  if_neg (by simp [show (s.at at').powered = true from hp])

theorem cap_releases (u : State) {k : Nat} (hk : k < 8) :
    ((((List.range 8).filter u.mayRelease).foldl State.releaseCap u).thStack k).cap =
      if u.mayRelease k = true then (u.thStack k).cap - 1 else (u.thStack k).cap := by
  obtain ⟨hin, hout⟩ := foldl_each (f := fun s k => (State.thStack s k).cap) (g := State.releaseCap) (upd := (· - 1))
    (p := fun _ => True)
    (fun s k _ => congrArg ThStack.cap (thStack_modStack_of_ne fun hz =>
      nomatch (congrArg ThStack.release hz : some s.datum = none)))
    (fun s k j hj => congrArg ThStack.cap (thStack_modStack_ne s hj _)) (List.nodup_range.filter u.mayRelease) (s := u)
    fun _ _ => trivial
  split
  case isTrue h => exact hin k (List.mem_filter.2 ⟨List.mem_range.2 hk, h⟩)
  case isFalse h => exact hout k fun hm => h (List.mem_filter.1 hm).2

/-! POWER_LIMITER_STEP and POWER_EMERGENCY (R473, R474). -/

/-- R473: a cell above its floor is lowered a step and held. -/
def State.limitCell (s : State) (n : Nat) : State :=
  (s.setClock n ((s.cell n).clk - 1) 2).modThCell n (fun h => { h with held := true })

/-- R474: in the power emergency every cell is lowered. -/
def State.emergencyCell (s : State) (n : Nat) : State :=
  if s.floorOf n < (s.cell n).clk then s.setClock n ((s.cell n).clk - 1) 2 else s.fallBelow n

/-- The cells above their floors. -/
def State.aboveFloor (s : State) : List Nat := s.ungated.filter (fun n => decide (s.floorOf n < (s.cell n).clk))

/-- The state in which the limiter takes a step. -/
def State.noteLimiterStep (s : State) : State := { s with th := { s.th with lastStep := some s.datum } }

theorem limiterStep_cases (s : State) : s.limiterStep = s ∨
    s.limiterStep = (s.ungated.filter (fun n => decide (0 < (s.cell n).clk))).foldl State.emergencyCell s.noteLimiterStep ∨
    s.limiterStep = s.aboveFloor.foldl State.limitCell s.noteLimiterStep := by
  unfold State.limiterStep
  dsimp only
  split
  · exact .inl rfl
  · split
    · exact .inr (.inl rfl)
    · exact .inr (.inr rfl)

/-- R473: over the limit, outside the power emergency. -/
theorem limiterStep_over {s : State} (hover : s.effLimit < s.powerAvg) (hdue : since s.datum s.th.lastStep 50000 = true)
    (hpemerg : s.th.pemerg = false) : s.limiterStep = s.aboveFloor.foldl State.limitCell s.noteLimiterStep := by
  have hacts : ¬(s.powerAvg ≤ s.effLimit ∨ (!since s.datum s.th.lastStep 50000) = true) := by
    rw [hdue, not_or, not_le]
    exact ⟨hover, by decide⟩
  have hpemerg' : ¬s.noteLimiterStep.th.pemerg = true := by
    rw [show s.noteLimiterStep.th.pemerg = false from hpemerg]
    decide
  exact (if_neg hacts).trans (if_neg hpemerg')

theorem clockView_limitCell (s : State) (n : Nat) : (s.limitCell n).clockView = s.clockView :=
  (rfl : (s.limitCell n).clockView = (s.setClock n ((s.cell n).clk - 1) 2).clockView).trans (clockView_setClock s n _ 2)

theorem clockView_emergencyCell (s : State) (n : Nat) : (s.emergencyCell n).clockView = s.clockView := by
  unfold State.emergencyCell
  split
  · exact clockView_setClock s n _ 2
  · exact clockView_fallBelow s n

theorem clockView_foldl {g : State → Nat → State} (h : ∀ s n, (g s n).clockView = s.clockView) (l : List Nat) (s : State) :
    (l.foldl g s).clockView = s.clockView := view_foldl State.clockView l g (fun s n _ => h s n) s

/-- R473, R474: the limiter counts no emergency and ends none. -/
theorem limiterStep_counts (s : State) : s.limiterStep.th.emergs = s.th.emergs ∧ s.limiterStep.th.pemerg = s.th.pemerg := by
  have hstep {g : State → Nat → State} (h : ∀ s n, (g s n).clockView = s.clockView) (l : List Nat) :
      (l.foldl g s.noteLimiterStep).th.emergs = s.th.emergs ∧ (l.foldl g s.noteLimiterStep).th.pemerg = s.th.pemerg := by
    have hview := clockView_foldl h l s.noteLimiterStep
    exact ⟨(emergs_of_clockView hview :), (pemerg_of_clockView hview :)⟩
  obtain h | h | h := limiterStep_cases s
  · rw [h]
    exact ⟨rfl, rfl⟩
  · rw [h]
    exact hstep clockView_emergencyCell _
  · rw [h]
    exact hstep clockView_limitCell _

theorem held_limitCell (s : State) (n : Nat) : ((s.limitCell n).thCell n).held = true := by
  have hne : ({ (s.setClock n ((s.cell n).clk - 1) 2).thCell n with held := true } : ThCell) ≠ ThCell.zero :=
    fun hz => nomatch (congrArg ThCell.held hz : true = false)
  exact congrArg ThCell.held (spGet_spPut_of_ne (s.setClock n ((s.cell n).clk - 1) 2).th.cells n hne)

theorem thCell_limitCell_ne (s : State) {n m : Nat} (h : m ≠ n) : (s.limitCell n).thCell m = s.thCell m :=
  (spGet_spPut_ne _ _ (s.setClock n ((s.cell n).clk - 1) 2).th.cells h).trans (thCell_setClock_ne s h _ 2)

/-- R473: the limiter lowers and holds every cell above its floor, and no other. -/
theorem limitCells_spec (s : State) {n : Nat} (hn : n < 128) : let t := s.aboveFloor.foldl State.limitCell s.noteLimiterStep
    ((s.cell n).graph.isSome = true → s.floorOf n < (s.cell n).clk →
      t.cell n = { s.cell n with clk := (s.cell n).clk - 1 } ∧ (t.thCell n).held = true) ∧
    ((s.cell n).graph = none ∨ (s.cell n).clk ≤ s.floorOf n → t.cell n = s.cell n) := by
  obtain ⟨hin, hout⟩ := foldl_each (f := fun s n => (State.cell s n, (State.thCell s n).held)) (g := State.limitCell)
    (upd := fun x => ({ x.1 with clk := x.1.clk - 1 }, true)) (p := fun x => x.1.graph.isSome = true)
    (fun s n hg => Prod.ext (cell_setClock_self hg _ 2) (held_limitCell s n))
    (fun s n m hm => Prod.ext (cell_setClock_ne s hm _ 2) (congrArg ThCell.held (thCell_limitCell_ne s hm)))
    (ungated_nodup s fun n => decide (s.floorOf n < (s.cell n).clk)) (s := s.noteLimiterStep)
    fun n hn => (mem_ungated.1 hn).2.1
  refine ⟨fun hg hfloor => ?_, fun hnot => ?_⟩
  · have hboth := hin n (mem_ungated.2 ⟨hn, hg, by simpa using hfloor⟩)
    exact ⟨congrArg Prod.fst hboth, congrArg Prod.snd hboth⟩
  · refine congrArg Prod.fst (hout n fun hm => ?_)
    obtain ⟨-, hg, hfloor⟩ := mem_ungated.1 hm
    obtain hnone | hle := hnot
    · rw [hnone] at hg
      cases hg
    · exact absurd hle (not_le.2 (by simpa using hfloor))

/-- R474: 2 ms over the limit with every cell at its floor, the power emergency begins, and the limiter takes a step. -/
theorem powerEmergency_enters {s : State} (hp : s.powered = true) {a at' : Nat} (hover : s.th.overAt = some a)
    (hpemerg : s.th.pemerg = false) (hdue : a + 2000000 ≤ max s.datum at') :
    exec (.powerEmergency at') s =
      .next (({ s.at at' with th := { s.th with pemerg := true } } : State).enterEmergency 0 0 s.powerAvg).limiterStep := by
  have hacts : ¬((!(s.at at').powered) = true ∨ (s.at at').th.pemerg = true ∨ (s.at at').datum < a + 2000000) := by
    rw [show (s.at at').powered = true from hp, show (s.at at').th.pemerg = false from hpemerg, not_or, not_or]
    exact ⟨by decide, by decide, not_lt.2 hdue⟩
  show execPowerEmergency at' s = _
  unfold execPowerEmergency
  dsimp only
  split
  case h_1 b hb =>
    obtain rfl : a = b := Option.some.inj (hover.symm.trans hb)
    exact if_neg hacts
  case h_2 hnone => exact nomatch hover.symm.trans hnone

/-- Settles O49: each clause is the law of the command that it names. -/
theorem throttlesComplete : Obligations.ThrottlesComplete := by
  intro s at' hp now u
  have hpower : exec (.powerLimiterStep at') s = .next u.limiterStep := if_neg (by
    rw [show (s.at at').powered = true from hp]
    decide)
  have hcap (h : since now s.th.lastCap 100000 = false) : exec (.stackCapStep at') s = .next u := if_pos (.inr (by
    rw [show since (s.at at').datum (s.at at').th.lastCap 100000 = false from h]
    rfl))
  refine ⟨fun h => cellThrottleStep_idle (.inl h), fun h => cellThrottleStep_idle (.inr h), fun n hn hdue => ?_, ?_,
    hcap, fun k hk hdue => ?_, ?_, fun h => ?_, fun hover hdue hpemerg => ?_,
    fun a hover hpemerg hdue => ?_⟩
  · obtain ⟨-, hg, -⟩ := mem_ungated.1 (argMax_mem hn)
    obtain ⟨hself, hother, hdatum, hlast, habove, hbelow⟩ := throttleDown_spec (u := s.noteCellStep at') hg
    exact ⟨_, cellThrottleStep_lowers hp hn hdue, hlast, hdatum, hself, hother, habove, hbelow⟩
  · obtain ⟨th, hexec⟩ := cellClockRise_eq hp at'
    exact ⟨_, hexec, datum_riseCells _ u, fun n hn => cell_rises u hn⟩
  · obtain ⟨hlast, hself, hother⟩ := capDown_spec (s.noteCapStep at') k
    exact ⟨_, stackCapStep_tightens hp hk hdue, hlast, by rw [hself]; rfl, by rw [hself]; rfl, hother⟩
  · refine ⟨_, stackCapRelease_eq hp at', view_foldl State.datum _ State.releaseCap (fun s k _ => rfl) _, fun k hk => ?_⟩
    rw [cap_releases u hk]
    simp only [State.mayRelease, Bool.and_eq_true, decide_eq_true_eq, and_assoc]
    rfl
  · rw [hpower]
    exact congrArg Host.Outcome.next (if_pos (.inl h))
  · have hview := clockView_foldl clockView_limitCell u.aboveFloor u.noteLimiterStep
    rw [hpower, limiterStep_over (s := u) hover hdue hpemerg]
    exact ⟨_, rfl, lastStep_of_clockView hview, fun n hn => limitCells_spec u hn⟩
  · obtain ⟨hemergs, hpemerg'⟩ := limiterStep_counts
      (({ u with th := { s.th with pemerg := true } } : State).enterEmergency 0 0 s.powerAvg)
    rw [th_enterEmergency] at hemergs hpemerg'
    exact ⟨_, powerEmergency_enters hp hover hpemerg hdue, hpemerg', hemergs⟩

end Sys2Proof.Machine

/-! SUPPORT. The management bus (R584, R585, R591 to R593): the answer that each message gets, and the sensors and their records. -/

namespace Sys2Proof.Machine

open Sys2Proof.Safety

section
variable {s : State} (h : s.mg.standby = true)
include h

/-! Answers (R585). -/

/-- A powered management plane answers with the bytes of the command, the completion code and the values. -/
theorem answer_bytes {type cmd code : Nat} {eid : Byte} {data bytes : List Byte}
    (hb : leBytes 1 cmd ++ leBytes 1 code ++ data = bytes) :
    (.next (s.answer type eid cmd code data) : Out) = .next (s.emit (.mctp type eid bytes)) := by
  rw [answer_powered h, hb]

/-! Addresses (R584, R585, R591, R593). -/

/-- R584: an E40 without a dynamic address takes one. -/
theorem takeAddr_free (ha : s.mg.addr = none) (a : BitVec 7) : s.takeAddr a = { s with mg := { s.mg with addr := some a } } :=
  if_pos (by rw [h, ha]; rfl)

omit h in
/-- R584: an E40 with a dynamic address takes no other. -/
theorem takeAddr_taken (ha : s.mg.addr ≠ none) (a : BitVec 7) : s.takeAddr a = s :=
  if_neg fun ht => ha (Option.isNone_iff_eq_none.1 (Bool.and_eq_true_iff.1 ht).2)

theorem setEndpointId_legal {e : Byte} (he : e ≠ 0) (he' : e ≠ 0xFF) : exec (.setEndpointId e) s =
    .next ({ s with mg := { s.mg with eid := e } }.emit (.mctp 0 0 [1, 0, e])) :=
  (if_neg (not_or.2 ⟨he, he'⟩)).trans ((if_pos h).trans
    (answer_bytes (s := { s with mg := { s.mg with eid := e } }) h rfl))

theorem setTid_legal {e : Byte} (he : e ≠ 0) (he' : e ≠ 0xFF) : exec (.setTid e) s =
    .next ({ s with mg := { s.mg with tid := e } }.emit (.mctp 1 0 [1, 0])) :=
  (if_neg (not_or.2 ⟨he, he'⟩)).trans ((if_pos h).trans
    (answer_bytes (s := { s with mg := { s.mg with tid := e } }) h rfl))

theorem setEventReceiver_mctp (e : Byte) : exec (.setEventReceiver e true) s =
    .next ({ s with mg := { s.mg with receiver := some e } }.emit (.mctp 1 0 [4, 0])) :=
  (if_pos h).trans (answer_bytes (s := { s with mg := { s.mg with receiver := some e } }) h rfl)

/-! Versions, types and commands (R585, R591, R594). -/

theorem getMctpVersionSupport_known {e : Byte} (he : e = 0xFF ∨ mctpTypes.contains e = true) :
    exec (.getMctpVersionSupport e) s = .next (s.emit (.mctp 0 0 ([4, 0] ++ Config.versions e.toNat))) :=
  (if_pos he).trans (answer_bytes h rfl)

theorem getPldmVersion_known {e : Byte} {l : List Nat} (he : pldmCommands e.toNat = some l) :
    exec (.getPldmVersion e) s = .next (s.emit (.mctp 1 0 ([3, 0] ++ Config.versions (256 + e.toNat)))) := by
  show execGetPldmVersion e s = _
  rw [execGetPldmVersion, he]
  exact answer_bytes h rfl

omit h in
theorem bitField_types : leBytes 8 (bitField [0, 2, 5]) = [0x25, 0, 0, 0, 0, 0, 0, 0] := by decide +kernel
omit h in
theorem bitField_base : leBytes 32 (bitField [1, 2, 3, 4, 5]) = 0x3E :: List.replicate 31 0 := by decide +kernel

/-! Sensors (R592). -/

theorem getSensorReading_of {id : W16} {x : Sensor} (hx : s.sensor id.toNat = some x) (hstate : x.state = false) :
    exec (.getSensorReading id) s = .next (s.emit (.mctp 1 0 (if unavailable id.toNat x then [0x11, 0, 2, 0]
      else [0x11, 0, 0] ++ leBytes 1 x.level ++ leBytes 4 (BitVec.ofInt 32 x.value).toNat))) := by
  show execGetSensorReading id s = _
  rw [execGetSensorReading, hx]
  dsimp only
  rw [hstate]
  by_cases hu : unavailable id.toNat x = true
  · rw [if_pos hu, if_pos hu]
    exact answer_bytes h rfl
  · rw [if_neg hu, if_neg hu]
    exact answer_bytes h rfl

/-- A number that is no sensor's, or is a state sensor's, gets no reading. -/
theorem getSensorReading_none {id : W16} (hx : ∀ x, s.sensor id.toNat = some x → x.state = true) :
    exec (.getSensorReading id) s = .next (s.emit (.mctp 1 0 [0x11, 0x80])) := by
  show execGetSensorReading id s = _
  rw [execGetSensorReading]
  split
  · next x hsome => exact (if_pos (hx x hsome)).trans (answer_bytes h rfl)
  · exact answer_bytes h rfl

omit h in
/-- R592: the sensor of cell n. -/
theorem sensor_cell {n : Nat} (hn : n < 128) : s.sensor (0x100 + n) = some (tempSensor (s.cellTemp n) 95 100 110) := by
  rw [State.sensor, if_neg (by omega), if_pos (by omega), Nat.add_sub_cancel_left]

omit h in
/-- R592: the state of a cell's reading against 95, 100 and 110 °C. -/
theorem level_cellSensor (v : Int) : leBytes 1 (tempSensor v 95 100 110).level =
    [if 880 ≤ v then 10 else if 800 ≤ v then 9 else if 760 ≤ v then 8 else 1] := by
  by_cases hfatal : 880 ≤ v
  · simp [Sensor.level, tempSensor, hfatal, leBytes]
  by_cases hcrit : 800 ≤ v
  · simp [Sensor.level, tempSensor, hfatal, hcrit, leBytes]
  by_cases hwarn : 760 ≤ v
  · simp [Sensor.level, tempSensor, hfatal, hcrit, hwarn, leBytes]
  · simp [Sensor.level, tempSensor, hfatal, hcrit, hwarn, leBytes]

/-- R592: the reading of a cell. -/
theorem getSensorReading_cell {n : Nat} (hn : n < 128) : exec (.getSensorReading (BitVec.ofNat 16 (0x100 + n))) s =
    .next (s.emit (.mctp 1 0 ([0x11, 0, 0,
      if 880 ≤ s.cellTemp n then 10 else if 800 ≤ s.cellTemp n then 9 else if 760 ≤ s.cellTemp n then 8 else 1] ++
      leBytes 4 (BitVec.ofInt 32 (s.cellTemp n)).toNat))) := by
  have hid : (BitVec.ofNat 16 (0x100 + n)).toNat = 0x100 + n := by
    rw [BitVec.toNat_ofNat]
    omega
  have hbelow : unavailable (0x100 + n) (tempSensor (s.cellTemp n) 95 100 110) = false := by
    have hlt : ¬(0x0400 ≤ 0x100 + n) := by omega
    simp [unavailable, hlt]
  rw [getSensorReading_of h (hid.symm ▸ sensor_cell hn) rfl, hid, hbelow, level_cellSensor, if_neg Bool.false_ne_true]
  rfl

/-! The records of the sensors (R591, R592). -/

omit h in
/-- A choice that gives nothing has met none of its conditions. -/
theorem ite_some_eq_none {α : Type} {c : Prop} [Decidable c] {x : α} {o : Option α} :
    (if c then some x else o) = none ↔ ¬c ∧ o = none := by
  by_cases hc : c <;> simp [hc]

omit h in
set_option maxRecDepth 20000 in
/-- R592: every number of the list is a sensor's. -/
theorem sensor_none {id : Nat} (hnone : s.sensor id = none) : id ∉ sensorIds := by
  have hnumbers : ∀ id ∈ sensorIds, id = 1 ∨ (0x100 ≤ id ∧ id < 0x180) ∨ (0x200 ≤ id ∧ id < 0x208) ∨ id = 0x210 ∨
      (0x220 ≤ id ∧ id < 0x228) ∨ id = 0x230 ∨ (0x300 ≤ id ∧ id < 0x302) ∨ (0x400 ≤ id ∧ id < 0x403) ∨ id = 0x410 ∨
      (0x500 ≤ id ∧ id < 0x503) := by decide
  intro hid
  have hnumber := hnumbers id hid
  simp only [State.sensor, ite_some_eq_none] at hnone
  omega

omit h in
theorem length_sensorIds : sensorIds.length = 156 := by simp [sensorIds]

/-- R591, R592: the record of the sensor at a place of the list. -/
theorem getPdr_listed {k : Nat} (hk : k < 156) : ∃ kind rest,
    exec (.getPdr (BitVec.ofNat 32 (k + 1))) s = .next (s.emit (.mctp 1 0 ([0x51, 0] ++
      leBytes 4 (if k = 155 then 0 else k + 2) ++ [kind] ++ leBytes 2 (sensorIds.getD k 0) ++ rest))) := by
  have hto : (BitVec.ofNat 32 (k + 1)).toNat = k + 1 := by
    rw [BitVec.toNat_ofNat]
    omega
  have hplace : (if BitVec.ofNat 32 (k + 1) = 0 then 0 else (BitVec.ofNat 32 (k + 1)).toNat - 1) = k := by
    have hne : BitVec.ofNat 32 (k + 1) ≠ 0 := fun hz => by
      rw [hz] at hto
      exact absurd hto (Nat.succ_ne_zero k).symm
    rw [if_neg hne, hto, Nat.add_sub_cancel]
  have hlen : k < sensorIds.length := by rw [length_sensorIds]; exact hk
  obtain ⟨x, hx⟩ := Option.ne_none_iff_exists'.1 fun hnone => sensor_none (s := s) hnone (List.getElem_mem hlen)
  have hnext : (if k + 1 < sensorIds.length then k + 2 else 0) = if k = 155 then 0 else k + 2 := by
    rw [length_sensorIds]
    split <;> split <;> omega
  refine ⟨if x.state then 4 else 2, thresholdBytes x.warn ++ thresholdBytes x.crit ++ thresholdBytes x.fatal, ?_⟩
  show execGetPdr _ s = _
  unfold execGetPdr
  dsimp only
  rw [hplace, List.getElem?_eq_getElem hlen]
  dsimp only
  rw [hx]
  dsimp only
  rw [hnext, List.getD_eq_getElem _ _ hlen]
  refine answer_bytes h ?_
  cases x.state <;> simp [leBytes, ccSuccess]

theorem getPdr_unlisted {r : W32} (hr : 156 < r.toNat) : exec (.getPdr r) s = .next (s.emit (.mctp 1 0 [0x51, 0x82])) := by
  have hnone : sensorIds[if r = 0 then 0 else r.toNat - 1]? = none := by
    have hne : r ≠ 0 := fun hz => by simp [hz] at hr
    rw [if_neg hne, List.getElem?_eq_none]
    rw [length_sensorIds]
    omega
  show execGetPdr r s = _
  unfold execGetPdr
  dsimp only
  rw [hnone]
  exact answer_bytes h rfl

/-! Platform events (R593). -/

omit h in
theorem pldmEventResend_none (hr : s.mg.receiver = none) (at' : Nat) : exec (.pldmEventResend at') s = .next (s.at at') := by
  show execPldmEventResend at' s = _
  unfold execPldmEventResend
  dsimp only
  rw [show (s.at at').mg.receiver = none from hr]

/-- R593: the held events are sent again to receiver r. -/
def State.resendEvents (s : State) (r : Byte) : State :=
  (s.mg.events.filter (fun e => decide (e.sent + 1000000000 ≤ s.datum))).foldl
    (fun s e => s.emit (.mctp 1 r (leBytes 2 e.id.toNat ++ [e.cls] ++ e.data)))
    { s with mg := { s.mg with events := s.mg.events.map (fun e =>
      if decide (e.sent + 1000000000 ≤ s.datum) then { e with sent := s.datum } else e) } }

omit h in
theorem pldmEventResend_some {r : Byte} (hr : s.mg.receiver = some r) (at' : Nat) :
    exec (.pldmEventResend at') s = .next ((s.at at').resendEvents r) := by
  show execPldmEventResend at' s = _
  unfold execPldmEventResend
  dsimp only
  split
  case h_1 hnone => exact nomatch hr.symm.trans hnone
  case h_2 q hq =>
    obtain rfl : r = q := Option.some.inj (hr.symm.trans hq)
    rfl

omit h in
/-- R593: one held event: sent a second ago or more, it is sent again now. -/
theorem resendEvents_one {e : PldmEvent} (he : s.mg.events = [e]) (r : Byte) : let t := s.resendEvents r
    t.datum = s.datum ∧
    (e.sent + 1000000000 ≤ s.datum → t.mg.events = [{ e with sent := s.datum }] ∧
      t.out = .mctp 1 r (leBytes 2 e.id.toNat ++ [e.cls] ++ e.data) :: s.out) ∧
    (s.datum < e.sent + 1000000000 → t.mg.events = [e] ∧ t.out = s.out) := by
  by_cases hold : e.sent + 1000000000 ≤ s.datum
  · simp [State.resendEvents, he, hold, State.emit]
  · simp [State.resendEvents, he, hold, State.emit]

end

/-- Settles O53: each clause is the answer of the message that it names. -/
theorem managementBusCompletes : Obligations.ManagementBusCompletes := by
  intro s h answers
  have hsetaddr (a : BitVec 7) : exec (.i3cSetdasa 0x4A a) s = .next (s.takeAddr a) := rfl
  have hstate {id : W16} {x : Sensor} (hx : s.sensor id.toNat = some x) :
      exec (.getStateSensorReadings id) s = if x.state then .next (s.answer 1 0 0x21 ccSuccess (leBytes 1 0 ++ leBytes 1 x.value.toNat))
        else .next (s.answer 1 0 0x21 0x80 []) := by
    show execGetStateSensorReadings id s = _
    rw [execGetStateSensorReadings, hx]
  refine ⟨fun a => ⟨fun ha => ?_, fun ha => ?_, fun b hb => if_neg hb⟩, fun e => ⟨fun he he' => ?_, fun he => ?_, ?_, ?_⟩,
    answer_bytes h rfl, answer_bytes h rfl, fun e he => getMctpVersionSupport_known h ?_, answer_bytes h rfl,
    answer_bytes h rfl, answer_bytes h rfl, fun e he => (if_neg he).trans (answer_bytes h rfl), answer_bytes h rfl,
    fun e he => ?_, answer_bytes h rfl, ?_, ?_, answer_bytes h rfl, fun n hn => getSensorReading_cell h hn, fun he => ?_, ?_, ?_,
    ?_, ?_, answer_bytes h ?_, fun k hk => getPdr_listed h hk, fun r hr => getPdr_unlisted h hr, fun id => ⟨rfl, rfl⟩,
    fun he => ?_, fun e rest he => ?_, fun at' => ⟨fun hr => pldmEventResend_none hr at', fun r e hr he => ?_⟩⟩
  · exact ⟨congrArg Host.Outcome.next (takeAddr_free h ha a), (hsetaddr a).trans (congrArg Host.Outcome.next (takeAddr_free h ha a))⟩
  · exact ⟨congrArg Host.Outcome.next (takeAddr_taken ha a), (hsetaddr a).trans (congrArg Host.Outcome.next (takeAddr_taken ha a))⟩
  · exact ⟨setEndpointId_legal h he he', setTid_legal h he he'⟩
  · exact ⟨(if_pos he).trans (answer_bytes h rfl), (if_pos he).trans (answer_bytes h rfl)⟩
  · exact setEventReceiver_mctp h e
  · exact answer_bytes h rfl
  · fin_cases he <;> decide
  · fin_cases he
    · exact getPldmVersion_known h rfl
    · exact getPldmVersion_known h rfl
    · exact getPldmVersion_known h rfl
  · exact answer_bytes h (by rw [bitField_types]; rfl)
  · exact answer_bytes h (by rw [bitField_base]; rfl)
  · have hx : s.sensor 0x400 = some { value := s.we.eolNow.toNat } := rfl
    refine (getSensorReading_of (id := 0x400) h hx rfl).trans ?_
    rw [he]
    rfl
  · exact getSensorReading_none h fun x hx => (Option.some.inj hx ▸ rfl : x.state = true)
  · exact getSensorReading_none h fun x hx => nomatch hx
  · exact (hstate (id := 0x500) rfl).trans (answer_bytes h (by cases s.dev <;> rfl))
  · exact (hstate (id := 0x100) rfl).trans (answer_bytes h rfl)
  · rw [length_sensorIds]
    rfl
  · show execPollForPlatformEventMessage none s = _
    rw [execPollForPlatformEventMessage, he]
    exact answer_bytes h rfl
  · show execPollForPlatformEventMessage none s = _
    unfold execPollForPlatformEventMessage
    dsimp only
    rw [he]
    exact answer_bytes h (by simp [leBytes, ccSuccess])
  · obtain ⟨hdatum, hagain, hwaits⟩ := resendEvents_one (s := s.at at') he r
    exact ⟨_, pldmEventResend_some hr at', hdatum, hagain, hwaits⟩

end Sys2Proof.Machine

/-! SUPPORT. Register messages (R587, R589, R590): what a request that is refused gets, and what the owner's access of one register
reads or writes. -/

namespace Sys2Proof.Machine

open Sys2Proof.Safety

/-- R589: the response of a powered management plane to a register message. -/
def regMessage (eid op tag status count : Byte) (off : W32) (bytes : List Byte) : Output :=
  .mctp 0x7E eid ([op + 0x80, tag, status, count] ++ leBytes 4 off.toNat ++ bytes)

section
variable {s : State} (h : s.mg.standby = true) {who : Requester} (tag : Byte) {width count : Byte} {off : W32}
include h

theorem touch_powered (who : Requester) : (s.touch who).mg.standby = true := by rw [touch_standby, h]

theorem regResponse_powered {op status : Nat} {opByte statusByte : Byte} (hop : BitVec.ofNat 8 (op + 0x80) = opByte + 0x80)
    (hstatus : BitVec.ofNat 8 status = statusByte) (eid count : Byte) (off : W32) (data : List Byte) :
    s.regResponse eid op tag status count off data = s.emit (regMessage eid opByte tag statusByte count off data) := by
  rw [State.regResponse, if_pos h, regMessage, ← hop, ← hstatus]
  simp [leBytes]

/-! Refused requests (R587, R590). -/

theorem regAccessRead_other (ho : s.ownerAccess (asAccessor who) = false) (bad lf : Bool) :
    exec (.regAccessRead who tag width count off bad lf) s =
      .next ((s.touch who).emit (regMessage who.eid 1 tag 2 count off [])) :=
  (if_pos (by rw [touch_ownerAccess, ho]; rfl)).trans
    (congrArg Host.Outcome.next (regResponse_powered (touch_powered h who) tag (op := 1) (status := 2) rfl rfl ..))

theorem regAccessWrite_other (ho : s.ownerAccess (asAccessor who) = false) (data : List Byte) (bad : Bool) :
    exec (.regAccessWrite who tag width count off data bad) s =
      .next ((s.touch who).emit (regMessage who.eid 2 tag 2 count off [])) :=
  (if_pos (by rw [touch_ownerAccess, ho]; rfl)).trans
    (congrArg Host.Outcome.next (regResponse_powered (touch_powered h who) tag (op := 2) (status := 2) rfl rfl ..))

theorem regAccessRead_outside (ho : s.ownerAccess (asAccessor who) = true) {bad : Bool}
    (hout : regAccessOk width count off bad = false) (lf : Bool) : exec (.regAccessRead who tag width count off bad lf) s =
      .next ((s.touch who).emit (regMessage who.eid 1 tag 1 count off [])) :=
  (if_neg (by rw [touch_ownerAccess, ho]; decide)).trans ((if_pos (by rw [hout]; rfl)).trans
    (congrArg Host.Outcome.next (regResponse_powered (touch_powered h who) tag (op := 1) (status := 1) rfl rfl ..)))

theorem regAccessWrite_outside (ho : s.ownerAccess (asAccessor who) = true) {bad : Bool} {data : List Byte}
    (hout : regAccessOk width count off (bad || decide (data.length ≠ count.toNat * width.toNat)) = false) :
    exec (.regAccessWrite who tag width count off data bad) s =
      .next ((s.touch who).emit (regMessage who.eid 2 tag 1 count off [])) :=
  (if_neg (by rw [touch_ownerAccess, ho]; decide)).trans ((if_pos (by rw [hout]; rfl)).trans
    (congrArg Host.Outcome.next (regResponse_powered (touch_powered h who) tag (op := 2) (status := 1) rfl rfl ..)))

end

/-- R589: fields that lie outside the table. -/
theorem regAccessOk_outside {width count : Byte} {off : W32} {bad : Bool}
    (hout : bad = true ∨ (width ≠ 4 ∧ width ≠ 8) ∨ count = 0 ∨ 16 < count.toNat ∨ 0x2000000 ≤ off.toNat ∨
      off.toNat % width.toNat ≠ 0) : regAccessOk width count off bad = false := by
  rw [← Bool.not_eq_true]
  intro hok
  simp only [regAccessOk, Bool.and_eq_true, Bool.or_eq_true, Bool.not_eq_true', decide_eq_true_eq] at hok
  obtain ⟨⟨⟨⟨⟨hbad, hwidth⟩, hcount⟩, hcount'⟩, hoff⟩, halign⟩ := hok
  obtain hb | ⟨h4, h8⟩ | hzero | hmore | hfar | hodd := hout
  · rw [hbad] at hb
    cases hb
  · exact hwidth.elim h4 h8
  · rw [hzero] at hcount
    exact absurd hcount (by decide)
  · exact absurd hcount' (not_le.2 hmore)
  · exact absurd hoff (not_lt.2 hfar)
  · exact hodd halign

/-- A request that lies outside whatever its body lies outside with a body of the wrong length too. -/
theorem regAccessOk_or {width count : Byte} {off : W32} {bad : Bool} (h : regAccessOk width count off bad = false) (b : Bool) :
    regAccessOk width count off (bad || b) = false := by
  cases b with
  | false => rwa [Bool.or_false]
  | true => simp [regAccessOk]

/-! The owner's access of one register (R590). -/

theorem readRows_touch {e : Nat × (State → Nat)} (he : e ∈ readRows) (s : State) (who : Requester) :
    e.2 (s.touch who) = e.2 s := by
  simp only [readRows, List.mem_cons, List.not_mem_nil, or_false] at he
  rw [touch_frame]
  obtain rfl | rfl | rfl | rfl | rfl | rfl := he <;> rfl

theorem rows_inTable : (∀ e ∈ readRows, e.1 < 0x2000000) ∧ ∀ e ∈ writeRows, e.1 < 0x2000000 := by
  simp [readRows, writeRows]

theorem toNat_offset {n : Nat} (hn : n < 0x2000000) : (BitVec.ofNat 32 n).toNat = n := by
  rw [BitVec.toNat_ofNat]
  omega

theorem regAccessOk_word {n : Nat} (hn : n < 0x2000000) (halign : n % 4 = 0) :
    regAccessOk 4 1 (BitVec.ofNat 32 n) false = true := by
  simp only [regAccessOk, toNat_offset hn]
  simp [hn, halign]

/-- None of the writes touches the standby supply. -/
theorem writeRows_keeps {e : Nat × (State → W32 → State)} (he : e ∈ writeRows) (s : State) (v : W32) :
    (e.2 s v).mg.standby = s.mg.standby := by
  simp only [writeRows, List.mem_cons, List.not_mem_nil, or_false] at he
  obtain rfl | rfl | rfl | rfl | rfl := he <;> rfl

theorem touch_live (s : State) (who : Requester) : (s.touch who).live = s.live := by
  rw [touch_frame]
  rfl

section
variable {s : State} (h : s.mg.standby = true) (hq : s.net.ctlOrder = []) {who : Requester}
  (ho : s.ownerAccess (asAccessor who) = true) (hl : s.live = true)
include h hq ho hl

theorem regAccessRead_word {e : Nat × (State → Nat)} (he : e ∈ readRows) (hv : e.2 s < 2 ^ 32) (tag : Byte) :
    exec (.regAccessRead who tag 4 1 (BitVec.ofNat 32 e.1) false false) s =
      .next ((s.touch who).emit (regMessage who.eid 1 tag 0 1 (BitVec.ofNat 32 e.1) (leBytes 4 (e.2 s)))) := by
  obtain ⟨r, w, hword, hvalue⟩ := readRows_sound he
  have hn := rows_inTable.1 e he
  have hread : (s.touch who).readMany (asAccessor who) 4 false 1 e.1 [] = (s.touch who, leBytes 4 (e.2 s)) := by
    rw [State.readMany, bar0Get_word hword ((touch_live s who).trans hl), hvalue, readRows_touch he, Nat.mod_eq_of_lt hv]
    rfl
  refine (if_neg ?_).trans ((if_neg ?_).trans (congrArg Host.Outcome.next ?_))
  · rw [touch_ownerAccess, ho]
    decide
  · rw [regAccessOk_word hn hword.1]
    decide
  · rw [show (4 : Byte).toNat = 4 from rfl, show (1 : Byte).toNat = 1 from rfl, toNat_offset hn, hread,
      regResponse_powered (touch_powered h who) tag (op := 1) (status := 0) (opByte := 1) (statusByte := 0) rfl rfl]
    exact pump_quiet _ (by rw [touch_frame]; exact hq)

theorem regAccessWrite_word {e : Nat × (State → W32 → State)} (he : e ∈ writeRows) (v : W32) (tag : Byte) :
    exec (.regAccessWrite who tag 4 1 (BitVec.ofNat 32 e.1) (leBytes 4 v.toNat) false) s =
      .next ((e.2 (s.touch who) v).emit (regMessage who.eid 2 tag 0 1 (BitVec.ofNat 32 e.1) [])) := by
  obtain ⟨r, hword, hset⟩ := writeRows_sound he
  obtain ⟨hsets, hwaits⟩ := hset (s.touch who) (asAccessor who) v
  have hn := rows_inTable.2 e he
  have ho' : (s.touch who).ownerAccess (asAccessor who) = true := by rw [touch_ownerAccess, ho]
  have hwrite : (s.touch who).writeMany (asAccessor who) 4 1 e.1 (leBytes 4 v.toNat) = e.2 (s.touch who) v := by
    have hm := meets_word hword
    have honce : r.perUnit = false := hword.2.2.2.1
    have hvalue : leNat ((leBytes 4 v.toNat).take 4) % 2 ^ (8 * 4) = v.toNat := by
      rw [List.take_of_length_le (by simp), leNat_leBytes]
      have := v.isLt
      omega
    rw [State.writeMany, State.writeMany, bar0Put_meets hm (sees_device ((touch_live s who).trans hl) honce (asAccessor who) 0)
      (mayWrite_owner ho' rfl), hvalue, ← hsets]
    rfl
  refine (if_neg ?_).trans ((if_neg ?_).trans (congrArg Host.Outcome.next ?_))
  · rw [ho']
    decide
  · rw [length_leBytes]
    exact by rw [show decide (4 ≠ (1 : Byte).toNat * (4 : Byte).toNat) = false from rfl, Bool.or_self,
      regAccessOk_word hn hword.1]; decide
  · rw [show (4 : Byte).toNat = 4 from rfl, show (1 : Byte).toNat = 1 from rfl, toNat_offset hn, hwrite,
      regResponse_powered ((writeRows_keeps he _ v).trans (touch_powered h who)) tag (op := 2) (status := 0) (opByte := 2) (statusByte := 0) rfl rfl]
    refine pump_quiet _ (hwaits.trans ?_)
    rw [touch_frame]
    exact hq

end

/-- Settles O54: a request is refused for its sender, refused for its fields, or is one access of the register it names. -/
theorem registerMessagesComplete : Obligations.RegisterMessagesComplete := by
  intro s who tag width count off data h hq u resp
  refine ⟨fun ho bad lf => ⟨regAccessRead_other h tag ho bad lf, regAccessWrite_other h tag ho data bad⟩,
    fun ho bad lf hout => ⟨regAccessRead_outside h tag ho (regAccessOk_outside hout) lf,
      regAccessWrite_outside h tag ho (regAccessOk_or (regAccessOk_outside hout) _)⟩,
    fun ho hl => ⟨fun e he hv => ⟨_, regAccessRead_word h hq ho hl he hv tag, ?_⟩, fun e he v =>
      regAccessWrite_word h hq ho hl he v tag⟩⟩
  rw [emit_out, touch_out]
  rfl

end Sys2Proof.Machine

/-! SUPPORT. SPDM (R588, R597, R598): how a request is taken, what each answers outside and inside a session, and how a session is
begun, authenticated, completed and ended. -/

namespace Sys2Proof.Machine

open Sys2Proof.Safety

/-- The MCTP type of what a requester gets: secured in a session. -/
def spdmType (who : Requester) : Nat := if who.sess.isSome then 6 else 5

/-! A request is taken (R588, R597). -/

section
variable {s : State} (h : s.mg.standby = true) {who : Requester}
include h

theorem spdmAnswer_bytes {code : Nat} {data bytes : List Byte} (hb : leBytes 1 code ++ leBytes 1 0 ++ data = bytes) :
    s.spdmAnswer who code data = s.emit (.mctp (spdmType who) who.eid bytes) := by
  rw [State.spdmAnswer, answer_powered h, hb]
  rfl

theorem spdmError_bytes {e : Nat} {b : Byte} (hb : BitVec.ofNat 8 e = b) :
    s.spdmError who e = s.emit (.mctp (spdmType who) who.eid [0x7F, b]) := by
  rw [State.spdmError, answer_powered h, ← hb]
  rfl

/-- R588: a request that names a session which is not its requester's gets an error. -/
theorem spdmTake_stranger (hin : s.inSession who = false) (f : State → State) :
    s.spdmTake who f = .next (s.emit (.mctp (spdmType who) who.eid [0x7F, 2])) := by
  rw [State.spdmTake, h, hin, spdmError_bytes h (e := seInvalidSession) (b := 2) rfl]
  rfl

theorem spdmTake_in (hin : s.inSession who = true) (f : State → State) : s.spdmTake who f = .next (f (s.touch who)) := by
  rw [State.spdmTake, h, hin]
  rfl

/-- A request that is answered without another effect. -/
theorem spdmTake_answers (hin : s.inSession who = true) {f : State → State} {bytes : List Byte}
    (hf : f (s.touch who) = (s.touch who).emit (.mctp (spdmType who) who.eid bytes)) :
    s.spdmTake who f = .next ((s.touch who).emit (.mctp (spdmType who) who.eid bytes)) := by
  rw [spdmTake_in h hin, hf]

end

theorem touch_outside {who : Requester} (hout : who.sess = none) (s : State) : s.touch who = s := by
  rw [State.touch, hout]

theorem inSession_outside {who : Requester} (hout : who.sess = none) (s : State) : s.inSession who = true := by
  rw [State.inSession, hout]

theorem spdmType_outside {who : Requester} (hout : who.sess = none) : spdmType who = 5 := by rw [spdmType, hout]; rfl

theorem spdmType_inside {who : Requester} {k : Fin 4} (hk : who.sess = some k) : spdmType who = 6 := by rw [spdmType, hk]; rfl

theorem touch_fresh (s : State) (who : Requester) : (s.touch who).fresh = s.fresh := by rw [touch_frame]

/-- R597: a request in its session restarts it. -/
theorem touch_inside {s : State} {who : Requester} {k : Fin 4} {x : SpdmSess} (hk : who.sess = some k)
    (hx : s.spdm k = some x) (hin : s.inSession who = true) : s.touch who = s.setSpdm k (some { x with last := s.datum }) := by
  rw [State.touch, hk]
  dsimp only
  rw [hx]
  exact if_pos hin

theorem spdm_setSpdm_some (s : State) (k : Nat) (x : SpdmSess) : (s.setSpdm k (some x)).spdm k = some x :=
  spGet_spPut_of_ne s.mg.spdm k (by simp)

theorem spdm_setSpdm_self {s : State} (hwf : spWf none s.mg.spdm = true) (k : Nat) (o : Option SpdmSess) :
    (s.setSpdm k o).spdm k = o := spGet_spPut_self hwf o k

/-! Algorithms, certificates and measurements (R597, R598). -/

section
variable {s : State} (h : s.mg.standby = true) {who : Requester}
include h

theorem touch_answers {code : Nat} {data bytes : List Byte} (hb : leBytes 1 code ++ leBytes 1 0 ++ data = bytes) :
    (s.touch who).spdmAnswer who code data = (s.touch who).emit (.mctp (spdmType who) who.eid bytes) :=
  spdmAnswer_bytes (touch_powered h who) hb

theorem touch_refuses {e : Nat} {b : Byte} (hb : BitVec.ofNat 8 e = b) :
    (s.touch who).spdmError who e = (s.touch who).emit (.mctp (spdmType who) who.eid [0x7F, b]) :=
  spdmError_bytes (touch_powered h who) hb

/-- R597: an answer that carries what the E40 draws uses one free value. -/
theorem touch_draws {code : Nat} {data bytes : List Byte} (hb : leBytes 1 code ++ leBytes 1 0 ++ data = bytes) :
    ((s.touch who).spdmAnswer who code data).useFresh =
      { (s.touch who).emit (.mctp (spdmType who) who.eid bytes) with fresh := s.fresh + 1 } := by
  rw [touch_answers h hb, State.useFresh, ← touch_fresh s who]
  rfl

theorem challenge_signs (hin : s.inSession who = true) (nonce : BitVec 256) : exec (.challenge who 0 nonce) s =
    .next { (s.touch who).emit (.mctp (spdmType who) who.eid ([0x03, 0] ++
      (digestBytes (Config.sha384 Config.certChain) ++ freshBytes s.fresh 128))) with fresh := s.fresh + 1 } := by
  show execChallenge who 0 nonce s = _
  rw [execChallenge, spdmTake_in h hin, if_neg (not_not.2 rfl), touch_fresh]
  exact congrArg Host.Outcome.next (touch_draws h rfl)

theorem getMeasurements_signs (hin : s.inSession who = true) {i : Byte} (hi : 1 ≤ i.toNat) (hi' : i.toNat ≤ 6)
    (nonce : BitVec 256) : exec (.getMeasurements who i true nonce) s =
      .next { (s.touch who).emit (.mctp (spdmType who) who.eid
        ([0x60, 0, 1, i] ++ (digestBytes ((s.touch who).measurement i.toNat) ++ freshBytes s.fresh 128))) with
        fresh := s.fresh + 1 } := by
  have hmany : ¬(6 < i.toNat ∧ i.toNat ≠ 0xFF) := fun hm => absurd hi' (not_le.2 hm.1)
  have hzero : ¬i.toNat = 0 := by omega
  have hall : ¬i.toNat = 0xFF := by omega
  have hbyte : leBytes 1 i.toNat = [i] := by simp [leBytes]
  show execGetMeasurements who i true nonce s = _
  rw [execGetMeasurements, spdmTake_in h hin]
  dsimp only
  rw [if_neg (by decide), if_neg hmany, if_neg hzero, if_neg hall, if_neg hzero, List.flatMap_singleton, hbyte, touch_fresh]
  exact congrArg Host.Outcome.next (touch_draws h rfl)

theorem getMeasurements_refuses (hin : s.inSession who = true) {i : Byte} {sig : Bool} {b : Byte} (nonce : BitVec 256)
    (hb : sig = false ∧ b = 7 ∨ sig = true ∧ (6 < i.toNat ∧ i ≠ 0xFF) ∧ b = 1) : exec (.getMeasurements who i sig nonce) s =
      .next ((s.touch who).emit (.mctp (spdmType who) who.eid [0x7F, b])) := by
  show execGetMeasurements who i sig nonce s = _
  rw [execGetMeasurements, spdmTake_in h hin]
  refine congrArg Host.Outcome.next ?_
  obtain ⟨rfl, rfl⟩ | ⟨rfl, ⟨hi, hi'⟩, rfl⟩ := hb
  · exact touch_refuses h rfl
  · have hmany : 6 < i.toNat ∧ i.toNat ≠ 0xFF := ⟨hi, fun hz => hi' (BitVec.eq_of_toNat_eq hz)⟩
    exact (if_neg (by decide)).trans ((if_pos hmany).trans (touch_refuses h rfl))

theorem getCertificate_portion (hin : s.inSession who = true) (off len : W16) :
    let part := (Config.certChain.drop off.toNat).take len.toNat
    exec (.getCertificate who 0 off len) s = .next ((s.touch who).emit (.mctp (spdmType who) who.eid
      ([0x02, 0] ++ leBytes 2 part.length ++ leBytes 2 (Config.certChain.length - off.toNat - part.length) ++ part))) := by
  intro part
  show execGetCertificate who 0 off len s = _
  rw [execGetCertificate, spdmTake_in h hin, if_neg (not_not.2 rfl)]
  refine congrArg Host.Outcome.next (touch_answers h ?_)
  simp only [List.append_assoc]
  rfl

/-! A session is begun and authenticated (R588, R597). -/

theorem encapsulatedRequest_authenticates (hout : who.sess = none) {k : Fin 4} {x : SpdmSess} (hx : s.spdm k = some x)
    (heid : x.eid = who.eid) (hopen : x.open_ = false) (root : BitVec 384 × BitVec 384) (verified : Bool) :
    exec (.encapsulatedRequest who k root verified) s = .next
      ((s.setSpdm k (some { x with auth := verified && s.usableKey root, last := s.datum })).emit
        (.mctp 5 who.eid [0x6B, 0])) := by
  show execEncapsulatedRequest who k root verified s = _
  rw [execEncapsulatedRequest, spdmTake_in h (inSession_outside hout s), touch_outside hout, hx]
  dsimp only
  rw [if_pos ⟨heid, by rw [hopen]; rfl⟩, ← spdmType_outside hout]
  refine congrArg Host.Outcome.next (spdmAnswer_bytes ?_ rfl)
  exact h

theorem keyExchange_begins (hout : who.sess = none) (hfree : s.spdm 0 = none) (at' : Nat) : exec (.keyExchange who 0 at') s =
    .next ((((s.at at').setSpdm 0 (some { eid := who.eid, open_ := false, auth := false, last := (s.at at').datum })).emit
      (.mctp 5 who.eid ([0x64, 0] ++ (leBytes 1 60 ++ leBytes 1 0 ++ freshBytes s.fresh 128)))).useFresh) := by
  have hin := inSession_outside hout (s.at at')
  have hfind : (List.range 4).find? (fun k => ((s.at at').spdm k).isNone) = some 0 := by
    rw [show List.range 4 = 0 :: (List.range 3).map (· + 1) from rfl, List.find?_cons_of_pos]
    rw [show (s.at at').spdm 0 = none from hfree]
    rfl
  show execKeyExchange who 0 at' s = _
  rw [execKeyExchange, spdmTake_in (s := s.at at') h hin, touch_outside hout, hout, if_neg (by decide), if_neg (not_not.2 rfl),
    hfind]
  dsimp only
  rw [spdmAnswer_bytes (s := (s.at at').setSpdm 0 _) h rfl, spdmType_outside hout]
  rfl

theorem keyExchange_full (hout : who.sess = none) (hfull : ∀ k, k < 4 → s.spdm k ≠ none) (at' : Nat) :
    exec (.keyExchange who 0 at') s = .next ((s.at at').emit (.mctp 5 who.eid [0x7F, 10])) := by
  have hin := inSession_outside hout (s.at at')
  have hfind : (List.range 4).find? (fun k => ((s.at at').spdm k).isNone) = none :=
    List.find?_eq_none.2 fun k hk => by
      rw [Option.isNone_iff_eq_none]
      exact hfull k (List.mem_range.1 hk)
  show execKeyExchange who 0 at' s = _
  rw [execKeyExchange, spdmTake_in (s := s.at at') h hin, touch_outside hout, hout, if_neg (by decide), if_neg (not_not.2 rfl),
    hfind, ← spdmType_outside hout]
  exact congrArg Host.Outcome.next (spdmError_bytes (s := s.at at') h rfl)

/-! A session is completed (R70, R588). -/

/-- R588: a FINISH that does not verify drops the session that it names. -/
theorem finish_fails (hout : who.sess = none) {k : Fin 4} {x : SpdmSess} (hx : s.spdm k = some x)
    (heid : x.eid = who.eid) (hopen : x.open_ = false) (at' : Nat) : exec (.finish who k false at') s =
      .next (((s.at at').setSpdm k none).emit (.mctp 5 who.eid [0x7F, 6])) := by
  have hin := inSession_outside hout (s.at at')
  show execFinish who k false at' s = _
  rw [execFinish, spdmTake_in (s := s.at at') h hin, touch_outside hout, show (s.at at').spdm k = some x from hx]
  dsimp only
  rw [if_neg (by simp [heid, hopen]), ← spdmType_outside hout]
  exact congrArg Host.Outcome.next (spdmError_bytes (s := (s.at at').setSpdm k none) h rfl)

/-- R588: a FINISH that verifies completes the session that it names. -/
theorem finish_completes (hout : who.sess = none) {k : Fin 4} {x : SpdmSess} (hx : s.spdm k = some x)
    (heid : x.eid = who.eid) (hopen : x.open_ = false) (at' : Nat) :
    ∃ u : State, u = (s.at at').setSpdm k (some { x with open_ := true, auth := s.enough x, last := (s.at at').datum }) ∧
      exec (.finish who k true at') s = .next ((u.claimOwner who.eid (s.enough x)).emit (.mctp 5 who.eid [0x65, 0])) := by
  have hin := inSession_outside hout (s.at at')
  refine ⟨_, rfl, ?_⟩
  show execFinish who k true at' s = _
  rw [execFinish, spdmTake_in (s := s.at at') h hin, touch_outside hout, show (s.at at').spdm k = some x from hx]
  dsimp only
  rw [if_neg (by simp [heid, hopen]), ← spdmType_outside hout]
  refine congrArg Host.Outcome.next (spdmAnswer_bytes ?_ rfl)
  unfold State.claimOwner
  split <;> exact h

/-! Requests of a session (R597). -/

theorem spdmInside_outside (hout : who.sess = none) (f : Fin 4 → State → State) :
    s.spdmInside who f = .next (s.emit (.mctp 5 who.eid [0x7F, 4])) := by
  rw [State.spdmInside, spdmTake_in h (inSession_outside hout s), touch_outside hout, hout, ← spdmType_outside hout]
  exact congrArg Host.Outcome.next (spdmError_bytes h rfl)

theorem spdmInside_session (hin : s.inSession who = true) {k : Fin 4} {x : SpdmSess} (hk : who.sess = some k)
    (hx : s.spdm k = some x) (f : Fin 4 → State → State) :
    s.spdmInside who f = .next (f k (s.setSpdm k (some { x with last := s.datum }))) := by
  rw [State.spdmInside, spdmTake_in h hin, touch_inside hk hx hin, hk]

theorem spdmInside_answers (hin : s.inSession who = true) {k : Fin 4} {x : SpdmSess} (hk : who.sess = some k)
    (hx : s.spdm k = some x) (code : Nat) : s.spdmInside who (fun _ s => s.spdmAnswer who code []) =
      .next ((s.setSpdm k (some { x with last := s.datum })).emit (.mctp 6 who.eid [BitVec.ofNat 8 code, 0])) := by
  rw [spdmInside_session h hin hk hx, ← spdmType_inside hk]
  refine congrArg Host.Outcome.next (spdmAnswer_bytes ?_ rfl)
  exact h

theorem endSession_ends (hin : s.inSession who = true) {k : Fin 4} {x : SpdmSess} (hk : who.sess = some k)
    (hx : s.spdm k = some x) : exec (.endSession who) s =
      .next (((s.setSpdm k (some { x with last := s.datum })).emit (.mctp 6 who.eid [0x6C, 0])).setSpdm k none) := by
  show execEndSession who s = _
  rw [execEndSession, spdmInside_session h hin hk hx, ← spdmType_inside hk]
  refine congrArg (fun u : State => Host.Outcome.next (u.setSpdm k none)) (spdmAnswer_bytes ?_ rfl)
  exact h

end

/-- The sessions, the run state, the owner and the clock of a state in which an owner is claimed. -/
theorem claimOwner_frame (s : State) (eid : Byte) (good : Bool) :
    s.claimOwner eid good = { s with mg := { s.mg with owner := (s.claimOwner eid good).mg.owner } } := by
  unfold State.claimOwner
  split <;> rfl

/-- R70: in UNLASTED the first endpoint that completes a session with rights is the owner. -/
theorem claimOwner_first {s : State} (hd : s.dev = .unlasted) (himg : s.img.on = false) (hnone : s.mg.owner = none) (eid : Byte) :
    (s.claimOwner eid true).mg.owner = some eid := by
  rw [State.claimOwner, if_pos (by simp [hd, himg, hnone])]

theorem claimOwner_none {s : State} (hs : s.dev ≠ .unlasted ∨ s.mg.owner ≠ none) (eid : Byte) (good : Bool) :
    s.claimOwner eid good = s := by
  refine if_neg fun hc => ?_
  simp only [Bool.and_eq_true, decide_eq_true_eq, Option.isNone_iff_eq_none] at hc
  obtain ⟨⟨⟨-, hd⟩, -⟩, hnone⟩ := hc
  exact hs.elim (· hd) (· hnone)

/-- R597: a session without a message for three periods ends. -/
theorem spdmSessionExpiry_eq {s : State} {k : Fin 4} {x : SpdmSess} (hx : s.spdm k = some x) (at' : Nat) :
    exec (.spdmSessionExpiry k at') s =
      .next (if x.last + 180000000000 ≤ max s.datum at' then (s.at at').setSpdm k none else s.at at') := by
  show execSpdmSessionExpiry k at' s = _
  unfold execSpdmSessionExpiry
  dsimp only
  rw [show (s.at at').spdm k = some x from hx]
  exact (apply_ite Host.Outcome.next _ _ _).symm

/-- Settles O56: outside its session a request is refused; in it, each clause is the law of the request that it names. -/
theorem spdmCompletes : Obligations.SpdmCompletes := by
  intro s who h hwf mtype b answers chain
  have hstranger (hin : s.inSession who = false) (f : State → State) := spdmTake_stranger h hin f
  refine ⟨fun hin i hi => ?_, fun hin => ⟨?_, ?_, fun p h' d a => ?_, ?_, getCertificate_portion h hin, challenge_signs h hin,
    fun i nonce => ⟨fun hi hi' => getMeasurements_signs h hin hi hi' nonce, ?_, fun hi hi' => ?_⟩,
    fun k x hx heid hopen hout root verified => ?_, fun at' => ⟨fun hout => ⟨fun hfree => ?_, ?_, ?_, ?_, ?_,
      fun k x hx heid hopen => ⟨?_, ?_⟩⟩, fun k x hk hx => ⟨?_, ?_, ?_⟩⟩⟩, fun k x at' hx => ?_⟩
  · simp only [List.mem_cons, List.not_mem_nil, or_false] at hi
    obtain rfl | rfl | rfl | rfl | rfl | rfl | rfl | rfl := hi
    · exact hstranger hin _
    · exact hstranger hin _
    · exact hstranger hin _
    · exact hstranger hin _
    · show execGetCertificate who 0 0 0 s = _
      exact hstranger hin _
    · show execChallenge who 0 0 s = _
      exact hstranger hin _
    · show execGetMeasurements who 0 true 0 s = _
      exact hstranger hin _
    · show execEndSession who s = _
      rw [execEndSession, State.spdmInside]
      exact hstranger hin _
  · exact spdmTake_answers h hin (touch_answers h rfl)
  · exact spdmTake_answers h hin (touch_answers h rfl)
  · exact spdmTake_answers h hin (touch_answers h rfl)
  · exact spdmTake_answers h hin (touch_answers h rfl)
  · exact getMeasurements_refuses h hin nonce (.inl ⟨rfl, rfl⟩)
  · exact getMeasurements_refuses h hin nonce (.inr ⟨rfl, ⟨hi, hi'⟩, rfl⟩)
  · exact ⟨_, encapsulatedRequest_authenticates h hout hx heid hopen root verified, rfl, spdm_setSpdm_some ..⟩
  · exact ⟨_, keyExchange_begins h hout hfree at', rfl, spdm_setSpdm_some .., rfl⟩
  · exact fun hfull => keyExchange_full h hout hfull at'
  · exact spdmInside_outside (s := s.at at') h hout _
  · exact spdmInside_outside (s := s.at at') h hout _
  · show execEndSession who s = .next ((s.touch who).emit (.mctp (spdmType who) who.eid [0x7F, 4]))
    rw [spdmType_outside hout, touch_outside hout]
    exact spdmInside_outside h hout _
  · exact ⟨_, finish_fails h hout hx heid hopen at', spdm_setSpdm_self (s := s.at at') hwf k none, rfl⟩
  · obtain ⟨u, hu, hexec⟩ := finish_completes h hout hx heid hopen at'
    refine ⟨_, hexec, ?_, ?_, fun hgood hd himg hnone => ?_, fun hs => ?_⟩
    · rw [claimOwner_frame, hu]
      rfl
    · rw [claimOwner_frame, hu]
      exact spdm_setSpdm_some ..
    · rw [hgood]
      have hfirst := claimOwner_first (s := u) (by rw [hu]; exact hd) (by rw [hu]; exact himg) (by rw [hu]; exact hnone) who.eid
      exact hfirst
    · rw [claimOwner_none (by rw [hu]; exact hs), hu]
      rfl
  · exact ⟨_, spdmInside_answers (s := s.at at') h hin hk hx 0x68, spdm_setSpdm_some .., rfl⟩
  · exact ⟨_, spdmInside_answers (s := s.at at') h hin hk hx 0x69, spdm_setSpdm_some .., rfl⟩
  · exact ⟨_, endSession_ends h hin hk hx, spGet_spPut_self (spWf_spPut hwf _ _) _ _, rfl⟩
  · refine ⟨_, spdmSessionExpiry_eq hx at', ?_, ?_⟩
    · split <;> rfl
    · split
      · exact spdm_setSpdm_self (s := s.at at') hwf k none
      · exact hx

end Sys2Proof.Machine

/-! SUPPORT. Modules, sub-ports and next hops (R375, R379, R380, R399): what a change of a cage or of a sub-port leaves, and
the case of each row that acts. -/

namespace Sys2Proof.Machine

open Sys2Proof.Safety

/-! One rule per operation on a sub-port. -/

theorem sub_of_net {s t : State} (h : t.net = s.net) (i : Nat) : t.sub i = s.sub i := by simp only [State.sub, h]

@[simp] theorem sub_log (s : State) (e : LogEntry) (i : Nat) : (s.log e).sub i = s.sub i := sub_of_net (state_log_net s e) i

theorem sub_modSub_ne (s : State) (f : SubPort → SubPort) {i j : Nat} (h : j ≠ i) : (s.modSub i f).sub j = s.sub j :=
  spGet_spMod_ne SubPort.zero s.net.subs f h

/-- The sub-ports are listed canonically. -/
def SubsWf (s : State) : Prop := spWf SubPort.zero s.net.subs = true

section
variable {s : State} (h : SubsWf s)
include h

theorem sub_modSub_self (i : Nat) (f : SubPort → SubPort) : (s.modSub i f).sub i = f (s.sub i) := spGet_spMod_self h i f

theorem SubsWf.modSub (i : Nat) (f : SubPort → SubPort) : SubsWf (s.modSub i f) := spWf_spMod h i f

theorem SubsWf.log (e : LogEntry) : SubsWf (s.log e) := by rw [SubsWf, state_log_net]; exact h

theorem txq_queueFrame (i : Nat) (f : TxFrame) : ((s.queueFrame i f).sub i).txq = (s.sub i).txq ++ [f] := by
  rw [State.queueFrame, sub_modSub_self h]

theorem neigh_queueFrame (i : Nat) (f : TxFrame) : ((s.queueFrame i f).sub i).neigh = (s.sub i).neigh := by
  rw [State.queueFrame, sub_modSub_self h]

theorem up_modSub {f : SubPort → SubPort} (hf : ∀ u, (f u).up = u.up) (i j : Nat) : ((s.modSub i f).sub j).up = (s.sub j).up := by
  by_cases hij : j = i
  · subst hij
    rw [sub_modSub_self h, hf]
  · rw [sub_modSub_ne s f hij]

/-- The time of the last flap's entry is all that the entry changes of a sub-port. -/
theorem sub_flapLogged (i j : Nat) (d : Option Nat) :
    ∃ l, (s.modSub j (fun u => { u with lastFlapLog := d })).sub i = { s.sub i with lastFlapLog := l } := by
  by_cases hij : i = j
  · subst hij
    exact ⟨d, sub_modSub_self h i _⟩
  · exact ⟨(s.sub i).lastFlapLog, sub_modSub_ne s _ hij⟩

end

/-! A sub-port goes down (R380). -/

section
variable {s : State} (h : SubsWf s)
include h

theorem SubsWf.subDown (i : Nat) : SubsWf (s.subDown i) := by
  unfold State.subDown
  split
  · exact h
  · dsimp only
    split
    · exact ((h.modSub i _).modSub _ _).log _
    · exact h.modSub i _

/-- R380: a sub-port that is up goes down and counts a flap. -/
theorem sub_subDown_self {i : Nat} (hu : (s.sub i).up = true) :
    ∃ l, (s.subDown i).sub i = { s.sub i with up := false, flaps := satAdd16 (s.sub i).flaps 1, lastFlapLog := l } := by
  unfold State.subDown
  rw [if_neg (by simp [hu])]
  dsimp only
  have hw := h.modSub i (fun u => { u with up := false, flaps := satAdd16 u.flaps 1 })
  split
  · rw [sub_log]
    obtain ⟨l, hl⟩ := sub_flapLogged hw i (i / 4 * 4) (some s.datum)
    exact ⟨l, by rw [sub_modSub_self h] at hl; exact hl⟩
  · exact ⟨(s.sub i).lastFlapLog, sub_modSub_self h i _⟩

theorem up_subDown_self (i : Nat) : ((s.subDown i).sub i).up = false := by
  cases hu : (s.sub i).up with
  | false => rw [State.subDown, if_pos (by simp [hu]), hu]
  | true =>
    obtain ⟨l, hl⟩ := sub_subDown_self h hu
    rw [hl]

/-- R380: no other sub-port comes up or goes down. -/
theorem up_subDown_ne {i j : Nat} (hj : j ≠ i) : ((s.subDown i).sub j).up = (s.sub j).up := by
  unfold State.subDown
  split
  · rfl
  · dsimp only
    have hne := sub_modSub_ne s (fun u => { u with up := false, flaps := satAdd16 u.flaps 1 }) hj
    split
    · rw [sub_log]
      exact (up_modSub (f := fun u => { u with lastFlapLog := some s.datum }) (h.modSub i _) (fun _ => rfl) _ _).trans
        (congrArg SubPort.up hne)
    · exact congrArg SubPort.up hne

/-- A sub-port that is down stays down. -/
theorem up_subDown_of_down (i : Nat) {j : Nat} (hj : (s.sub j).up = false) : ((s.subDown i).sub j).up = false := by
  by_cases hij : j = i
  · exact hij ▸ up_subDown_self h i
  · rw [up_subDown_ne h hij, hj]

end

/-- What a flap leaves of the cages. -/
theorem mods_subDown (s : State) (i : Nat) : (s.subDown i).net.mods = s.net.mods := by
  unfold State.subDown
  split
  · rfl
  · dsimp only
    split
    · rw [state_log_net]; rfl
    · rfl

theorem mods_downs (l : List Nat) (p : Nat) (s : State) :
    (l.foldl (fun s k => s.subDown (4 * p + k)) s).net.mods = s.net.mods := by
  induction l generalizing s with
  | nil => rfl
  | cons k l ih => exact (ih _).trans (mods_subDown s _)

/-- Every sub-port that goes down in a run is down after it. -/
theorem up_downs {l : List Nat} (p j : Nat) {s : State} (h : SubsWf s)
    (hd : (s.sub j).up = false ∨ ∃ k ∈ l, j = 4 * p + k) :
    ((l.foldl (fun s k => s.subDown (4 * p + k)) s).sub j).up = false := by
  induction l generalizing s with
  | nil => obtain hd | ⟨_, hm, _⟩ := hd
           · exact hd
           · cases hm
  | cons a l ih =>
    refine ih (h.subDown _) ?_
    obtain hd | ⟨k, hm, hk⟩ := hd
    · exact .inl (up_subDown_of_down h _ hd)
    · obtain rfl | hm := List.mem_cons.1 hm
      · exact .inl (hk ▸ up_subDown_self h _)
      · exact .inr ⟨k, hm, hk⟩

/-! Cages (R379). -/

/-- Cage p holds v in t, and every other what it holds in s. -/
def State.ModIs (s t : State) (p v : Nat) : Prop :=
  spGet 0 t.net.mods p = v ∧ ∀ k, k ≠ p → spGet 0 t.net.mods k = spGet 0 s.net.mods k

theorem modIs_of_mods {s t u : State} {p v : Nat} (h : s.ModIs u p v) (ht : t.net.mods = u.net.mods) : s.ModIs t p v := by
  rw [State.ModIs, ht]
  exact h

theorem modIs_setMod {s : State} (h : spWf 0 s.net.mods = true) (p v : Nat) : s.ModIs (s.setMod p v) p v :=
  ⟨spGet_spPut_self h v p, fun _ hk => spGet_spPut_ne 0 v _ hk⟩

section
variable {s : State}

/-- R379: a module of the right host interface is ready, another is held in low power. -/
theorem exec_moduleReady (h : spWf 0 s.net.mods = true) {p : Fin 4} (hm : spGet 0 s.net.mods p % 4 = 1)
    (hmode : (s.port p).mode ≠ 0) (hp : s.powered = true) :
    ∃ t, exec (.moduleReady p) s = .next t ∧
      s.ModIs t p (spGet 0 s.net.mods p / 4 * 4 + if spGet 0 s.net.mods p / 4 = (s.port p).mode then 2 else 3) := by
  show ∃ t, execModuleReady p s = .next t ∧ _
  unfold execModuleReady
  rw [if_neg (by simp [hm, hmode, hp])]
  by_cases hv : spGet 0 s.net.mods p / 4 = (s.port p).mode
  · rw [if_pos hv, if_pos hv]
    exact ⟨_, rfl, modIs_setMod h _ _⟩
  · rw [if_neg hv, if_neg hv]
    exact ⟨_, rfl, modIs_of_mods (modIs_setMod h _ _) (by rw [state_log_net])⟩

/-- R380: an empty cage has no sub-port up. -/
theorem exec_moduleRemoval (h : SubsWf s) (hm : spWf 0 s.net.mods = true) (p : Fin 4) :
    ∃ t, exec (.moduleRemoval p) s = .next t ∧ s.ModIs t p 0 ∧ ∀ k, k < 4 → (t.sub (4 * p + k)).up = false :=
  ⟨_, rfl, modIs_of_mods (modIs_setMod hm _ _) (mods_downs _ _ _),
    fun k hk => up_downs _ _ (s := s.setMod p 0) h (.inr ⟨k, List.mem_range.2 hk, rfl⟩)⟩

theorem exec_subportUp (h : SubsWf s) {i : Fin 16} (ht : s.portsTrain = true) (he : s.subExists i = true)
    (hm : spGet 0 s.net.mods (i / 4) % 4 = 2) :
    ∃ t, exec (.subportUp i) s = .next t ∧ t.sub i = { s.sub i with up := true } := by
  refine ⟨s.modSub i (fun u => { u with up := true }), ?_, sub_modSub_self h _ _⟩
  show execSubportUp i s = _
  rw [execSubportUp, if_pos (by simp [ht, he, hm])]

theorem exec_subportDown (h : SubsWf s) {i : Fin 16} (hu : (s.sub i).up = true) :
    ∃ t, exec (.subportDown i) s = .next t ∧ (t.sub i).up = false ∧ (t.sub i).flaps = satAdd16 (s.sub i).flaps 1 := by
  obtain ⟨l, hl⟩ := sub_subDown_self h hu
  exact ⟨_, rfl, by rw [hl], by rw [hl]⟩

/-! Next hops (R399). -/

section
variable (h : SubsWf s) {i : Fin 16} (hr : s.subReceives i = true)
include h hr

/-- R399: an own address is advertised to its asker. -/
theorem exec_neighborSolicitation (src : BitVec 128) (mac : BitVec 48) (ho : s.ownAddr i false ≠ 0) :
    ∃ t, exec (.neighborSolicitation i (s.ownAddr i false) src mac) s = .next t ∧
      (t.sub i).txq.map (fun f => (f.dst, f.etype)) = (s.sub i).txq.map (fun f => (f.dst, f.etype)) ++ [(mac, 0x86DD)] := by
  refine ⟨_, (if_neg ?_ : execNeighborSolicitation i _ src mac s = _), ?_⟩
  · simpa [hr] using ho
  · rw [txq_queueFrame h]
    simp

/-- R399: an own address is answered to its asker. -/
theorem exec_arpRequest {target : BitVec 32} (src : BitVec 32) (mac : BitVec 48) (ht : v4Mapped target = s.ownAddr i true)
    (ho : v4Mapped target ≠ 0) :
    ∃ t, exec (.arpRequest i target src mac) s = .next t ∧
      (t.sub i).txq.map (fun f => (f.dst, f.etype)) = (s.sub i).txq.map (fun f => (f.dst, f.etype)) ++ [(mac, 0x0806)] := by
  refine ⟨_, (if_neg ?_ : execArpRequest i target src mac s = _), ?_⟩
  · simpa [hr, ← ht] using ho
  · rw [txq_queueFrame h]
    simp

theorem exec_neighborResolved {e : Neigh} (mac : BitVec 48) (hn : (s.sub i).neigh = [e]) :
    ∃ t, exec (.neighborResolved i e.addr mac) s = .next t ∧ (t.sub i).neigh = [{ e with mac := some mac, asked := 0 }] := by
  refine ⟨_, (if_neg ?_ : execNeighborResolved i e.addr mac s = _), ?_⟩
  · simp [hr]
  · rw [sub_modSub_self h]
    simp [hn]

end

/-- R399: an entry solicited again: it counts one more, or is unreachable after three. -/
def Neigh.askedAgain (e : Neigh) : Neigh := if 3 ≤ e.asked then { e with mac := none } else { e with asked := e.asked + 1 }

theorem exec_neighborRefresh (h : SubsWf s) {i : Fin 16} {e : Neigh} (hn : (s.sub i).neigh = [e]) :
    ∃ t, exec (.neighborRefresh i e.addr) s = .next t ∧ (t.sub i).neigh = [e.askedAgain] ∧
      (t.sub i).txq = (s.sub i).txq ++ [solicitation e.addr] := by
  refine ⟨_, (if_neg ?_ : execNeighborRefresh i e.addr s = _), ?_, ?_⟩
  · simp [hn]
  · rw [neigh_queueFrame (h.modSub _ _), sub_modSub_self h]
    simp [hn, Neigh.askedAgain]
  · rw [txq_queueFrame (h.modSub _ _), sub_modSub_self h]

end

/-- Settles O44: each row by its lemma above. -/
theorem portsComplete : Obligations.PortsComplete := by
  intro s p i hsubs hmods
  exact ⟨fun h => ⟨_, rfl, modIs_setMod hmods _ _⟩,
    fun hm hmode hp => exec_moduleReady hmods hm hmode hp,
    exec_moduleRemoval hsubs hmods p,
    fun ht he hm => exec_subportUp hsubs ht he hm,
    fun hu => exec_subportDown hsubs hu,
    fun hr => ⟨fun src mac ho => exec_neighborSolicitation hsubs hr src mac ho,
      fun _ src mac ht ho => exec_arpRequest hsubs hr src mac ht ho,
      fun _ mac hn => exec_neighborResolved hsubs hr mac hn⟩,
    fun _ hn => exec_neighborRefresh hsubs hn⟩

end Sys2Proof.Machine

/-! SUPPORT. The time receiver (R388 to R392): what a report leaves of it, what it keeps of a port, and the case of each of its
messages. -/

namespace Sys2Proof.Machine

open Sys2Proof.Safety

/-! The time receiver through a report. -/

/-- The time receiver. -/
def State.ptp (s : State) : PtpSt := s.net.ptp

theorem ptp_of_net {s t : State} (h : t.net = s.net) : t.ptp = s.ptp := congrArg Net.ptp h

@[simp] theorem ptp_log (s : State) (e : LogEntry) : (s.log e).ptp = s.ptp := ptp_of_net (state_log_net s e)

@[simp] theorem ptp_countEvent (s : State) (ev unit : Nat) (parcel : Option Nat) (k : Nat) :
    (s.countEvent ev unit parcel k).ptp = s.ptp := ptp_of_net (net_countEvent s ev unit parcel k)

@[simp] theorem ptp_modVg (s : State) (n : Nat) (f : VgSess → VgSess) : (s.modVg n f).ptp = s.ptp := rfl

@[simp] theorem ptp_vgTransmit (s : State) (n : Nat) (bytes : List Byte) : (s.vgTransmit n bytes).ptp = s.ptp := by
  unfold State.vgTransmit
  split
  · rfl
  · split
    · rfl
    · unfold State.startResolve
      (repeat' split) <;> rfl

@[simp] theorem ptp_vgReliable (s : State) (n kind op : Nat) (rseq : W32) (body : List Byte) (answer : Bool) :
    (s.vgReliable n kind op rseq body answer).ptp = s.ptp := by
  unfold State.vgReliable
  dsimp only
  split <;> simp

@[simp] theorem ptp_vgAlertAll (s : State) (source : Nat) : (s.vgAlertAll source).ptp = s.ptp := by
  refine view_foldl State.ptp _ _ (fun s e _ => ?_) s
  split
  · split
    · rfl
    · dsimp only
      (repeat' split) <;> simp
  · rfl

@[simp] theorem ptp_allFnEvent (s : State) (bit : Nat) : (s.allFnEvent bit).ptp = s.ptp :=
  view_foldl State.ptp _ _ (fun s f _ => by unfold State.fnEvent; split <;> rfl) s

@[simp] theorem ptp_pldmEvent (s : State) (cls : Byte) (data : List Byte) : (s.pldmEvent cls data).ptp = s.ptp := by
  unfold State.pldmEvent
  dsimp only
  split <;> rfl

@[simp] theorem ptp_alert (s : State) (bit : Nat) (code : W16) : (s.alert bit code).ptp = s.ptp := by
  obtain hsame | ⟨data, hraised⟩ := alert_cases s bit code
  · rw [hsame]
  · rw [hraised, ptp_vgAlertAll, ptp_allFnEvent, ptp_pldmEvent]
    rfl

@[simp] theorem ptp_ptpUnlock (s : State) : s.ptpUnlock.ptp = s.ptp := by rw [State.ptpUnlock, ptp_alert, ptp_log]

theorem ctlOrder_ptpUnlock (s : State) : s.ptpUnlock.net.ctlOrder = s.net.ctlOrder := by
  have hq : s.ptpUnlock.quiet = s.quiet := by rw [State.ptpUnlock, quiet_alert, quiet_of_still (still_log _ _)]
  exact congrArg (·.net.ctlOrder) hq

/-! What is kept of a port. -/

section
variable {s : State}

theorem ptpPort_modPtpPort_of_ne {p : Nat} {f : PtpPort → PtpPort} (h : f (s.ptpPort p) ≠ PtpPort.zero) :
    (s.modPtpPort p f).ptpPort p = f (s.ptpPort p) := spGet_spPut_of_ne _ _ h

theorem ptpPort_modPtpPort_self (h : spWf PtpPort.zero s.net.ptp.ports = true) (p : Nat) (f : PtpPort → PtpPort) :
    (s.modPtpPort p f).ptpPort p = f (s.ptpPort p) := spGet_spMod_self h p f

theorem ptpPort_modPtpPort_ne {p q : Nat} (f : PtpPort → PtpPort) (h : q ≠ p) : (s.modPtpPort p f).ptpPort q = s.ptpPort q :=
  spGet_spMod_ne PtpPort.zero s.net.ptp.ports f h

theorem ptpOn_of_receives {p : Nat} (h : s.ptpReceives p = true) : s.ptpOn p = true := (Bool.and_eq_true _ _ ▸ h).1

/-- R390: with one qualified port, it is the best. -/
theorem bestPort_only {p : Fin 4} (hon : s.ptpOn p = true) (hq : (s.ptpPort p).qualified = true)
    (ho : ∀ q, q < 4 → q ≠ p.val → (s.ptpPort q).qualified = false) : s.bestPort = some p.val := by
  have hf : (List.range 4).filter (fun q => s.ptpOn q && (s.ptpPort q).qualified) = [p.val] := by
    have hp : ∀ q ∈ List.range 4, (s.ptpOn q && (s.ptpPort q).qualified) = decide (q = p.val) := fun q hm => by
      by_cases hqp : q = p.val
      · simp [hqp, hon, hq]
      · simp [hqp, ho q (List.mem_range.1 hm) hqp]
    rw [List.filter_congr hp]
    exact (by decide : ∀ p : Fin 4, (List.range 4).filter (fun q => decide (q = p.val)) = [p.val]) p
  rw [State.bestPort, hf]
  rfl

/-- R390: with no qualified port there is no source. -/
theorem bestPort_none (ho : ∀ q, q < 4 → (s.ptpPort q).qualified = false) : s.bestPort = none := by
  have hf : (List.range 4).filter (fun q => s.ptpOn q && (s.ptpPort q).qualified) = [] :=
    List.filter_eq_nil_iff.2 fun q hm => by simp [ho q (List.mem_range.1 hm)]
  rw [State.bestPort, hf]
  rfl

/-! PTP_SYNC and PTP_DELAY_RESP (R388, R391). -/

/-- A port that has a Sync. -/
def PtpPort.synced (x : PtpPort) (origin : Nat) (corr : Int) (rx : Nat) : PtpPort :=
  { x with sync := some (origin + corr, (rx : Int)) }

/-- The state that a Sync leaves before its measurement. -/
def State.synced (s : State) (p origin : Nat) (corr : Int) (rx : Nat) : State :=
  s.modPtpPort p (fun x => x.synced origin corr rx)

theorem ptpPort_synced (p origin : Nat) (corr : Int) (rx : Nat) :
    (s.synced p origin corr rx).ptpPort p = (s.ptpPort p).synced origin corr rx :=
  ptpPort_modPtpPort_of_ne fun h => by cases congrArg PtpPort.sync h

theorem exec_ptpSync {p : Fin 4} (hr : s.ptpReceives p = true) (origin : Nat) (corr : Int) (rx : Nat) :
    exec (.ptpSync p origin corr rx) s = if s.net.ptp.src ≠ some p.val then .next (s.synced p origin corr rx)
      else match ((s.synced p origin corr rx).ptpPort p).offset with
        | some o => .next ((s.synced p origin corr rx).measure o)
        | none => .next (s.synced p origin corr rx) :=
  if_neg (by simp [hr])

theorem ptpSync_other {p : Fin 4} (hr : s.ptpReceives p = true) (origin : Nat) (corr : Int) (rx : Nat)
    (hsrc : s.net.ptp.src ≠ some p.val) : ∃ u, exec (.ptpSync p origin corr rx) s = .next u ∧
      u.ptpPort p = (s.ptpPort p).synced origin corr rx ∧ u.datum = s.datum :=
  ⟨_, (exec_ptpSync hr origin corr rx).trans (if_pos hsrc), ptpPort_synced _ _ _ _, rfl⟩

/-- R391: the servo keeps the filtered offset. -/
theorem servo_offset (o : Int) : (s.servo o).ptp.offset = s.ptp.offset := by
  unfold State.servo
  dsimp only
  split <;> rfl

theorem ctlOrder_servo (o : Int) : (s.servo o).net.ctlOrder = s.net.ctlOrder := by
  unfold State.servo
  dsimp only
  split <;> rfl

/-- R391: the filtered offset is kept, and the Syncs near it are counted. -/
def State.filtered (s : State) (f : Int) (near : Bool) : State :=
  s.modPtp (fun t => { t with offset := f, good := if near then t.good + 1 else 0 })

/-- R392: the datum is LOCKED, or no longer. -/
def State.judgeLock (s : State) (near : Bool) : State :=
  if s.net.ptp.state = 2 ∧ !near then s.ptpUnlock.modPtp (fun t => { t with state := 1 })
  else if s.net.ptp.state = 1 ∧ 64 ≤ s.net.ptp.good then s.modPtp (fun t => { t with state := 2 })
  else s

theorem judgeLock_offset (near : Bool) : (s.judgeLock near).ptp.offset = s.ptp.offset := by
  unfold State.judgeLock
  split
  · show s.ptpUnlock.ptp.offset = s.ptp.offset
    rw [ptp_ptpUnlock]
  · split <;> rfl

theorem ctlOrder_judgeLock (near : Bool) : (s.judgeLock near).net.ctlOrder = s.net.ctlOrder := by
  unfold State.judgeLock
  split
  · exact ctlOrder_ptpUnlock s
  · split <;> rfl

theorem measure_eq (o : Int) : ∃ near, s.measure o =
    (((s.filtered (Config.filterOffset s.net.ptp.offset o) near).judgeLock near).servo o).pump := ⟨_, rfl⟩

/-- R391: a measurement filters the offset. -/
theorem measure_offset (h : s.net.ctlOrder = []) (o : Int) :
    (s.measure o).net.ptp.offset = Config.filterOffset s.net.ptp.offset o := by
  obtain ⟨near, hm⟩ := measure_eq (s := s) o
  rw [hm, pump_quiet _ (by rw [ctlOrder_servo, ctlOrder_judgeLock]; exact h)]
  exact (servo_offset o).trans (judgeLock_offset near)

theorem ptpSync_source (h : s.net.ctlOrder = []) {p : Fin 4} (hr : s.ptpReceives p = true) (origin : Nat) (corr : Int) (rx : Nat)
    {d : Int} (hsrc : s.net.ptp.src = some p.val) (hd : (s.ptpPort p).delay = some d) :
    ∃ u, exec (.ptpSync p origin corr rx) s = .next u ∧
      u.net.ptp.offset = Config.filterOffset s.net.ptp.offset (rx - (origin + corr) - d - (s.ptpPort p).asym.toInt) := by
  refine ⟨_, ?_, measure_offset (s := s.synced p origin corr rx) h _⟩
  rw [exec_ptpSync hr, if_neg (not_not.2 hsrc), ptpPort_synced]
  simp only [PtpPort.offset, PtpPort.synced, hd]

theorem ptpDelayResp_again {p : Fin 4} (hr : s.ptpReceives p = true) {t1 t2 : Int} (t3 t4 : Nat) (corr : Int)
    (hs : (s.ptpPort p).sync = some (t1, t2)) (hd : (s.ptpPort p).delay.isSome = true) :
    ∃ u, exec (.ptpDelayResp p t3 t4 corr) s = .next u ∧
      u.ptpPort p = { s.ptpPort p with delay := some ((t2 - t1 + (t4 - t3 - corr)) / 2) } := by
  have hn : (s.ptpPort p).delay.isNone = false := by simpa [Option.isSome_iff_ne_none] using hd
  refine ⟨s.modPtpPort p (fun x => { x with delay := some ((t2 - t1 + (t4 - t3 - corr)) / 2) }), ?_,
    ptpPort_modPtpPort_of_ne fun h => by cases congrArg PtpPort.delay h⟩
  show execPtpDelayResp p t3 t4 corr s = _
  rw [execPtpDelayResp, if_neg (by simp [hr])]
  simp only [hs, hn]

/-! PTP_ANNOUNCE and ANNOUNCE_TIMEOUT (R390, R392). -/

/-- A port that has another Announce. -/
def PtpPort.announced (d : PtpDataset) (x : PtpPort) : PtpPort :=
  { x with data := some d, announces := x.announces + 1, qualified := x.qualified || decide (3 ≤ x.announces) }

theorem ptpPort_announced (p : Nat) (d : PtpDataset) :
    (s.modPtpPort p (PtpPort.announced d)).ptpPort p = (s.ptpPort p).announced d :=
  ptpPort_modPtpPort_of_ne fun h => by cases congrArg PtpPort.data h

/-- R390: what an Announce of port p makes of the source, once the port's count is kept. -/
def State.judgeAnnounce (s : State) (p : Fin 4) (d : PtpDataset) : Out :=
  if !(s.ptpPort p).qualified then .next s
  else match s.net.ptp.src with
    | none => match s.bestPort with
      | some q => .next (s.takeSource q)
      | none => .next s
    | some src => if src = p.val then .next s else .next (s.compareSource p src d)

theorem exec_ptpAnnounce {p : Fin 4} (hr : s.ptpReceives p = true) (d : PtpDataset) :
    exec (.ptpAnnounce p d) s = (s.modPtpPort p (PtpPort.announced d)).judgeAnnounce p d := if_neg (by simp [hr])

/-- R390, R392: the only qualified port becomes the source. -/
theorem judgeAnnounce_first {p : Fin 4} {d : PtpDataset} (hq : (s.ptpPort p).qualified = true) (hsrc : s.net.ptp.src = none)
    (hbest : s.bestPort = some p.val) : s.judgeAnnounce p d = .next (s.takeSource p) := by
  rw [State.judgeAnnounce, hq, hsrc, hbest]
  rfl

/-- R390: fewer than three Announces after the first qualify nothing. -/
theorem ptpAnnounce_early {p : Fin 4} (hr : s.ptpReceives p = true) (d : PtpDataset) (hq : (s.ptpPort p).qualified = false)
    (ha : (s.ptpPort p).announces < 3) : ∃ u, exec (.ptpAnnounce p d) s = .next u ∧
      u.ptpPort p = { s.ptpPort p with data := some d, announces := (s.ptpPort p).announces + 1 } ∧
      u.net.ptp.src = s.net.ptp.src := by
  have hnew : (s.ptpPort p).announced d = { s.ptpPort p with data := some d, announces := (s.ptpPort p).announces + 1 } := by
    simp only [PtpPort.announced, hq, Bool.false_or, decide_eq_false (Nat.not_le.2 ha)]
  refine ⟨s.modPtpPort p (PtpPort.announced d), ?_, (ptpPort_announced _ _).trans hnew, rfl⟩
  refine (exec_ptpAnnounce hr d).trans (if_pos ?_)
  rw [ptpPort_announced, hnew, hq]
  rfl

/-- R390, R392: the first time transmitter that is qualified is the source, and the datum is ACQUIRING. -/
theorem ptpAnnounce_qualifies {p : Fin 4} (hr : s.ptpReceives p = true) (d : PtpDataset)
    (ha : 3 ≤ (s.ptpPort p).announces) (hsrc : s.net.ptp.src = none)
    (ho : ∀ q, q < 4 → (s.ptpPort q).qualified = false) :
    ∃ u, exec (.ptpAnnounce p d) s = .next u ∧ u.net.ptp.src = some p.val ∧ u.net.ptp.state = 1 ∧
      (u.ptpPort p).qualified = true := by
  have hnew := ptpPort_announced (s := s) p d
  have hq : ((s.modPtpPort p (PtpPort.announced d)).ptpPort p).qualified = true := by
    rw [hnew, PtpPort.announced, decide_eq_true ha, Bool.or_true]
  have hbest := bestPort_only (p := p) (s := s.modPtpPort p (PtpPort.announced d)) (ptpOn_of_receives hr) hq
    fun q hlt hne => by rw [ptpPort_modPtpPort_ne _ hne, ho q hlt]
  have hsrc' : (s.modPtpPort p (PtpPort.announced d)).net.ptp.src = none := hsrc
  refine ⟨(s.modPtpPort p (PtpPort.announced d)).takeSource p,
    (exec_ptpAnnounce hr d).trans (judgeAnnounce_first hq hsrc' hbest), rfl, ?_, ?_⟩
  · show (if (s.modPtpPort p (PtpPort.announced d)).net.ptp.src.isNone then 1 else _) = 1
    rw [hsrc']
    rfl
  · have hkept : (((s.modPtpPort p (PtpPort.announced d)).takeSource p).ptpPort p) =
        { (s.modPtpPort p (PtpPort.announced d)).ptpPort p with better := 0, sync := none } :=
      spGet_spPut_of_ne _ _ fun h => by
        have hz := congrArg PtpPort.qualified h
        exact Bool.noConfusion (hq.symm.trans hz)
    rw [hkept]
    exact hq

/-- What is kept of a port whose time transmitter is lost. -/
def PtpPort.lost (x : PtpPort) : PtpPort := { delay := x.delay, asym := x.asym }

/-- R390, R392: the datum of a device that loses its only source enters HOLDOVER. -/
theorem announceTimeout_only (h : s.net.ctlOrder = []) {p : Fin 4} (hsrc : s.net.ptp.src = some p.val)
    (hst : s.net.ptp.state ≠ 2) (ho : ∀ q, q < 4 → q ≠ p.val → (s.ptpPort q).qualified = false)
    (hw : spWf PtpPort.zero s.net.ptp.ports = true) :
    ∃ u, exec (.announceTimeout p) s = .next u ∧ u.net.ptp.src = none ∧ u.net.ptp.state = 3 ∧ u.net.ptp.holdFrom = s.datum ∧
      (u.ptpPort p).qualified = false ∧ (u.ptpPort p).asym = (s.ptpPort p).asym := by
  have hp := ptpPort_modPtpPort_self hw p PtpPort.lost
  have hbest : (s.modPtpPort p PtpPort.lost).bestPort = none := bestPort_none fun q hlt => by
    by_cases hqp : q = p.val
    · rw [hqp, hp]
      rfl
    · rw [ptpPort_modPtpPort_ne _ hqp, ho q hlt hqp]
  let u : State := (s.modPtpPort p PtpPort.lost).modPtp (fun t => { t with src := none, state := 3, good := 0, holdFrom := s.datum })
  refine ⟨u, ?_, rfl, rfl, rfl, (congrArg PtpPort.qualified hp :), (congrArg PtpPort.asym hp :)⟩
  refine (if_neg (not_not.2 hsrc) : execAnnounceTimeout p s = _).trans ?_
  show (match (s.modPtpPort p PtpPort.lost).bestPort with | some _ => _ | none => _) = _
  rw [hbest]
  simp only [if_neg hst]
  exact congrArg Host.Outcome.next (pump_quiet u h)

end

/-- Settles O46: each row by its lemma above. -/
theorem ptpCompletes : Obligations.PtpCompletes := by
  intro s p hctl
  have hoff : ∀ {f : State → Out}, s.ptpReceives p = false → (if !s.ptpReceives p then .next s else f s) = .next s :=
    fun h => if_pos (by rw [h]; rfl)
  exact ⟨fun hr origin corr rx => ⟨fun hsrc => ptpSync_other hr origin corr rx hsrc,
      fun _ hsrc hd => ptpSync_source hctl hr origin corr rx hsrc hd⟩,
    fun hr _ _ t3 t4 corr hs hd => ptpDelayResp_again hr t3 t4 corr hs hd,
    fun hr d hq => ⟨fun ha => ptpAnnounce_early hr d hq ha, fun ha hsrc ho => ptpAnnounce_qualifies hr d ha hsrc ho⟩,
    fun hr _ _ _ _ _ _ => ⟨if_pos (by rw [hr]; rfl), if_pos (by rw [hr]; rfl), if_pos (by rw [hr]; rfl)⟩,
    fun hsrc hst ho hw => announceTimeout_only hctl hsrc hst ho hw⟩

end Sys2Proof.Machine

/-! SUPPORT. Host snoops and responses (R359 to R366): what a line that arrives leaves of the Welt, which way it stands in, and
how the load that waits for it is served. -/

namespace Sys2Proof.Machine

open Sys2Proof.Safety

/-- The cells and the Welt. -/
def State.welt (s : State) : Sparse Cell × HostPort := (s.cells, s.host)

section
variable {s t : State} (h : t.welt = s.welt)
include h

theorem cells_of_welt : t.cells = s.cells := congrArg Prod.fst h
theorem host_of_welt : t.host = s.host := congrArg Prod.snd h
theorem line_of_welt (k : Nat) : t.line k = s.line k := congrArg (fun w : Sparse Cell × HostPort => spGet none w.2.lines k) h

end

theorem welt_of_still {s t : State} (h : t.still = s.still) : t.welt = s.welt := (congrArg State.welt h :)

/-! R364: how long an answer took changes neither the cells nor the Welt. -/

theorem welt_noteLatency (s : State) (n addr took : Nat) : (s.noteLatency n addr took).welt = s.welt := by
  unfold State.noteLatency
  dsimp only
  split
  · rfl
  · refine (welt_of_still (still_trace _ _ _ _ _ _ _ _)).trans ?_
    split <;> rfl

theorem welt_noteAnswer (s : State) (k took : Nat) : (s.noteAnswer k took).welt = s.welt := by
  unfold State.noteAnswer
  dsimp only
  refine (view_foldl State.welt _ (fun s p => s.noteTook p took) (fun _ _ _ => rfl) _).trans (view_foldl State.welt _ _ (fun s n _ => ?_) s)
  refine (view_foldl State.welt _ _ (fun s e _ => welt_noteLatency s n e.addr took) _).trans ?_
  split <;> rfl

/-! A Welt that serves. -/

/-- The Welt serves, no store waits at it, and its lines are listed canonically. -/
structure WeltOpen (s : State) : Prop where
  alive : s.host.dead = false
  enabled : s.host.disabled = false
  steady : s.host.flushing = false
  noStores : s.host.stores = []
  wf : spWf none s.host.lines = true

theorem WeltOpen.of_host {s t : State} (h : WeltOpen s) (ht : t.host = s.host) : WeltOpen t := by
  obtain ⟨ha, he, hs, hn, hw⟩ := h
  exact ⟨ht ▸ ha, ht ▸ he, ht ▸ hs, ht ▸ hn, ht ▸ hw⟩

section
variable {s : State} (h : WeltOpen s)
include h

theorem WeltOpen.setLine (k : Nat) (l : Option WLine) : WeltOpen (s.setLine k l) :=
  ⟨h.alive, h.enabled, h.steady, h.noStores, spWf_spPut h.wf l k⟩

theorem line_setLine_self (k : Nat) (l : Option WLine) : (s.setLine k l).line k = l := spGet_spPut_self h.wf l k

theorem WeltOpen.evict (k : Nat) : WeltOpen (s.evict k) := by
  unfold State.evict
  split
  · exact h
  · dsimp only
    split <;> exact (h.setLine k none).of_host rfl

theorem line_evict_self (k : Nat) : (s.evict k).line k = none := by
  unfold State.evict
  split
  · assumption
  · dsimp only
    split <;> exact line_setLine_self h k none

theorem WeltOpen.allocWay (p k : Nat) : WeltOpen (s.allocWay p k).2 := by
  unfold State.allocWay
  dsimp only
  split
  · exact h
  · split
    · exact h.evict _
    · exact h

end

theorem line_setLine_ne (s : State) (l : Option WLine) {j k : Nat} (h : j ≠ k) : (s.setLine k l).line j = s.line j :=
  spGet_spPut_ne none l s.host.lines h

/-! The way of a line (R359). -/

/-- The ways of parcel p that a line of set k may stand in. -/
def State.usableWays (s : State) (p k : Nat) : List Nat :=
  ((List.range (s.parcel p).cfg.weltWays).map (s.wayBase p + ·)).filter
    (fun w => !spGet false s.host.masked (k % 65536 * 16 + w))

/-- The less recently used of a line found before, if any, and another. -/
def olderLine (b : Option (Nat × WLine)) (e : Nat × WLine) : Option (Nat × WLine) :=
  match b with
  | some x => if e.2.used < x.2.used then some e else b
  | none => some e

theorem olderLine_cases (b : Option (Nat × WLine)) (e : Nat × WLine) :
    olderLine b e = some e ∨ olderLine b e = b ∧ b.isSome = true := by
  cases b with
  | none => exact .inl rfl
  | some x =>
    by_cases hx : e.2.used < x.2.used
    · exact .inl (if_pos hx)
    · exact .inr ⟨if_neg hx, rfl⟩

/-- The least recently used of some lines, and of one found before. -/
def oldestLine (b : Option (Nat × WLine)) (l : List (Nat × WLine)) : Option (Nat × WLine) := l.foldl olderLine b

theorem oldestLine_mem {l : List (Nat × WLine)} {b : Option (Nat × WLine)} {v : Nat × WLine} (h : oldestLine b l = some v) :
    v ∈ l ∨ b = some v := by
  induction l generalizing b with
  | nil => exact .inr h
  | cons e l ih =>
    obtain hm | hb := ih h
    · exact .inl (List.mem_cons_of_mem _ hm)
    · obtain he | ⟨hsame, -⟩ := olderLine_cases b e
      · exact .inl (Option.some.inj (he.symm.trans hb) ▸ List.mem_cons_self)
      · exact .inr (hsame.symm.trans hb)

theorem oldestLine_isSome {l : List (Nat × WLine)} {b : Option (Nat × WLine)} (h : b.isSome = true ∨ l ≠ []) :
    (oldestLine b l).isSome = true := by
  induction l generalizing b with
  | nil => exact h.resolve_right (· rfl)
  | cons e l ih =>
    refine ih (b := olderLine b e) (.inl ?_)
    obtain he | ⟨hsame, hb⟩ := olderLine_cases b e
    · rw [he]
      rfl
    · rw [hsame, hb]

section
variable {s : State} {p k : Nat}

/-- The lines of the set of k that stand in usable ways of parcel p. -/
def State.usedLines (s : State) (p k : Nat) : List (Nat × WLine) :=
  (s.setLines (k % 65536)).filter (fun e => (s.usableWays p k).contains e.2.way)

theorem allocWay_eq : s.allocWay p k =
    match (s.usableWays p k).find? (fun w => (s.usedLines p k).all (fun e => decide (e.2.way ≠ w))) with
    | some w => (some w, s)
    | none => match oldestLine none (s.usedLines p k) with
      | some v => (some v.2.way, s.evict v.1)
      | none => (none, s) := rfl

/-- A line is given a usable way. -/
theorem allocWay_mem {w : Nat} (h : (s.allocWay p k).1 = some w) : w ∈ s.usableWays p k := by
  rw [allocWay_eq] at h
  split at h
  next v hv =>
    exact Option.some.inj h ▸ List.mem_of_find?_eq_some hv
  next =>
    split at h
    next v hv =>
      have hin := (List.mem_filter.1 ((oldestLine_mem hv).resolve_right nofun)).2
      exact Option.some.inj h ▸ List.contains_iff_mem.1 hin
    next => cases h

/-- With a usable way, a line is given one. -/
theorem allocWay_isSome {w : Nat} (h : w ∈ s.usableWays p k) : (s.allocWay p k).1.isSome = true := by
  rw [allocWay_eq]
  split
  · rfl
  next hnone =>
    have hused := List.find?_eq_none.1 hnone w h
    have hne : s.usedLines p k ≠ [] := fun hnil => hused (by rw [hnil]; rfl)
    obtain ⟨v, hv⟩ := Option.isSome_iff_exists.1 (oldestLine_isSome (b := none) (.inr hne))
    rw [hv]
    rfl

theorem mem_usableWays {w : Nat} : w ∈ s.usableWays p k ↔
    ∃ i, i < (s.parcel p).cfg.weltWays ∧ s.wayBase p + i = w ∧ spGet false s.host.masked (k % 65536 * 16 + w) = false := by
  simp only [State.usableWays, List.mem_filter, List.mem_map, List.mem_range, Bool.not_eq_true']
  exact ⟨fun ⟨⟨i, hi, hw⟩, hm⟩ => ⟨i, hi, hw, hm⟩, fun ⟨i, hi, hw, hm⟩ => ⟨⟨i, hi, hw⟩, hm⟩⟩

/-- R46, R359: w is one of the sixteen ways where parcel p has a usable one for line k, and none of them, 16, where all
are masked. -/
def State.WayFor (s : State) (p k w : Nat) : Prop :=
  (s.wayBase p + (s.parcel p).cfg.weltWays ≤ 16 → (∃ i, i < (s.parcel p).cfg.weltWays ∧
    spGet false s.host.masked (k % 65536 * 16 + (s.wayBase p + i)) = false) → w < 16) ∧
  ((∀ i, i < (s.parcel p).cfg.weltWays → spGet false s.host.masked (k % 65536 * 16 + (s.wayBase p + i)) = true) → w = 16)

theorem wayFor_of_same {t : State} {w : Nat} (hp : t.parcels = s.parcels) (hh : t.host = s.host) (h : t.WayFor p k w) :
    s.WayFor p k w := by
  simpa only [State.WayFor, State.wayBase, State.parcel, hp, hh] using h

theorem wayFor_allocWay : s.WayFor p k ((s.allocWay p k).1.getD 16) := by
  refine ⟨fun h16 ⟨i, hi, hm⟩ => ?_, fun hm => ?_⟩
  · obtain ⟨w, hw⟩ := Option.isSome_iff_exists.1 (allocWay_isSome (mem_usableWays.2 ⟨i, hi, rfl, hm⟩))
    obtain ⟨j, hj, hjw, -⟩ := mem_usableWays.1 (allocWay_mem hw)
    rw [hw]
    show w < 16
    omega
  · cases hw : (s.allocWay p k).1 with
    | none => rfl
    | some w =>
      obtain ⟨i, hi, hiw, hfree⟩ := mem_usableWays.1 (allocWay_mem hw)
      exact Bool.noConfusion (hfree.symm.trans (hiw ▸ hm i hi))

end

/-! A line that arrives (R361, R366). -/

/-- A line shared and clean, in a way. -/
def sharedLine (b : List Byte) (w used : Nat) : WLine := { st := .s, bytes := b, poison := false, way := w, used := used }

/-- What a line that arrives in way w leaves. -/
structure Filled (s t : State) (k : Nat) (b : List Byte) (w : Nat) : Prop where
  line : ∃ used, t.line k = some (sharedLine b w used)
  cells : t.cells = s.cells
  isOpen : WeltOpen t

/-- A line stands in a way, at a time. -/
def State.placeLine (s : State) (k : Nat) (b : List Byte) (now w : Nat) : State :=
  (s.setLine k (some (sharedLine b w now))).modHost (fun h => { h with clock := now + 1, invalid := false })

theorem filled_placeLine {s t : State} (h : WeltOpen t) (hc : t.cells = s.cells) (k : Nat) (b : List Byte) (now w : Nat) :
    Filled s (t.placeLine k b now w) k b w := by
  obtain ⟨ha, he, hs, hn, hw⟩ := h.setLine k (some (sharedLine b w now))
  exact ⟨⟨now, line_setLine_self h k _⟩, hc, ⟨ha, he, hs, hn, hw⟩⟩

/-- The line of parcel p that was not held stands in its way, or in none of them. -/
theorem fill_new {s : State} (h : WeltOpen s) {p k : Nat} (b : List Byte) (hnone : s.line k = none) :
    ∃ w, s.WayFor p k w ∧ Filled s (s.fill p k .s b false) k b w := by
  let u : State := s.countEvent 0x50 p (some p) 1
  have hstill : u.still = s.still := still_countEvent s 0x50 p (some p) 1
  have hwelt : u.welt = s.welt := welt_of_still hstill
  have hu : WeltOpen u := h.of_host (host_of_welt hwelt)
  refine ⟨(u.allocWay p k).1.getD 16, wayFor_of_same (parcels_of_still hstill) (host_of_welt hwelt) wayFor_allocWay, ?_⟩
  have hcells : (u.allocWay p k).2.cells = u.cells := (congrArg State.cells (offHost_allocWay u p k) :)
  have hfilled := filled_placeLine (hu.allocWay p k) (hcells.trans (cells_of_welt hwelt)) k b s.host.clock ((u.allocWay p k).1.getD 16)
  have hfill : s.fill p k .s b false = (u.allocWay p k).2.placeLine k b s.host.clock ((u.allocWay p k).1.getD 16) := by
    unfold State.fill
    dsimp only
    rw [show (s.countEvent 0x50 p (some p) 1).line k = none from (line_of_welt hwelt k).trans hnone]
    show (match u.allocWay p k with | (some w, s) => _ | (none, s) => _) = _
    obtain ⟨_ | w, v⟩ := u.allocWay p k <;> rfl
  rw [hfill]
  exact hfilled

/-! The load that waits is served (R204, R366). -/

/-- A fold of steps of which one alone changes the state. -/
theorem foldl_one {σ α : Type} {f : σ → α → σ} {l : List α} {a : α} {s t : σ} (hl : l.Nodup) (ha : a ∈ l)
    (hs : ∀ b ∈ l, b ≠ a → f s b = s) (hat : f s a = t) (ht : ∀ b ∈ l, b ≠ a → f t b = t) : l.foldl f s = t := by
  induction l with
  | nil => cases ha
  | cons b l ih =>
    obtain ⟨hb, hl⟩ := List.nodup_cons.1 hl
    rw [List.foldl_cons]
    by_cases hba : b = a
    · subst hba
      rw [hat]
      exact foldl_stays fun c hc => ht c (List.mem_cons_of_mem _ hc) fun h => hb (h ▸ hc)
    · rw [hs b List.mem_cons_self hba]
      exact ih hl ((List.mem_cons.1 ha).resolve_left fun h => hba h.symm) (fun c hc => hs c (List.mem_cons_of_mem _ hc))
        fun c hc => ht c (List.mem_cons_of_mem _ hc)

/-- Cell n waits for nothing at the Welt. -/
structure CellIdle (s : State) (n : Nat) : Prop where
  ext : (s.cell n).ext = []
  gone : (s.cell n).gone = []
  sweep : (s.cell n).sweep = none

theorem waitingOn_of_ext {s : State} {n k : Nat} (h : (s.cell n).ext = []) : s.waitingOn n k = [] := by
  rw [State.waitingOn, h, List.filter_nil]

theorem goneOn_of_gone {s : State} {n k : Nat} (h : (s.cell n).gone = []) : s.goneOn n k = [] := by
  rw [State.goneOn, h, List.filter_nil]

/-- Nothing is served where nothing waits. -/
theorem serveCell_idle {s : State} {n : Nat} (h : CellIdle s n) (k : Nat) : s.serveCell n k = s := by
  have hleft : s.serveLeft n k = s := by rw [State.serveLeft, goneOn_of_gone h.gone, List.foldl_nil]
  unfold State.serveCell
  dsimp only
  rw [hleft, waitingOn_of_ext h.ext, List.foldl_nil, h.sweep]

/-- Cell n waits at the Welt for the load e of host line k alone. -/
structure LoadWaits (s : State) (n k : Nat) (e : ExtAcc) (rd : Fin 32) (size : Nat) (signed : Bool) : Prop where
  ext : (s.cell n).ext = [e]
  gone : (s.cell n).gone = []
  sweep : (s.cell n).sweep = none
  kind : e.kind = .load rd size signed
  waits : e.waitsFor k = true
  addr : e.addr / 64 = k
  inHost : k < 2 ^ 46

/-- The state that a load served leaves: its line is the most recently used, its register has its data. -/
def State.loadServed (s : State) (n : Nat) (e : ExtAcc) (rd : Fin 32) (v : W64) : State :=
  ((s.weltTouch e.addr).modCell n (fun c => { c with ext := c.ext.erase e })).modCell n (fun c => c.setG rd v)

section
variable {s : State} {n k : Nat} {e : ExtAcc} {rd : Fin 32} {v : W64}

theorem cells_weltTouch (s : State) (addr : Nat) : (s.weltTouch addr).cells = s.cells :=
  (congrArg State.cells (offHost_weltTouch s addr) :)

theorem cell_loadServed_ne {m : Nat} (hm : m ≠ n) : (s.loadServed n e rd v).cell m = s.cell m := by
  rw [State.loadServed, cell_modCell_ne _ _ hm, cell_modCell_ne _ _ hm, cell_of_cells (cells_weltTouch s _)]

theorem cell_loadServed (hw : spWf Cell.zero s.cells = true) :
    (s.loadServed n e rd v).cell n = ({ s.cell n with ext := (s.cell n).ext.erase e } : Cell).setG rd v := by
  have hw' : spWf Cell.zero (s.weltTouch e.addr).cells = true := (cells_weltTouch s _).symm ▸ hw
  rw [State.loadServed, cell_modCell_self (by exact spWf_spPut hw' _ _), cell_modCell_self hw',
    cell_of_cells (cells_weltTouch s _)]

/-- What a load uses of the Welt: the line's time. -/
theorem line_loadServed (ho : WeltOpen s) (hk : e.addr / 64 = k) {b : List Byte} {w used : Nat}
    (hl : s.line k = some (sharedLine b w used)) :
    WeltOpen (s.loadServed n e rd v) ∧ ∃ used', (s.loadServed n e rd v).line k = some (sharedLine b w used') := by
  have ht : s.weltTouch e.addr =
      (s.setLine k (some (sharedLine b w s.host.clock))).modHost (fun h => { h with clock := h.clock + 1 }) := by
    rw [State.weltTouch, hk, hl]
    rfl
  obtain ⟨ha, he, hs, hn, hw⟩ := ho.setLine k (some (sharedLine b w s.host.clock))
  have hhost : (s.loadServed n e rd v).host = (s.weltTouch e.addr).host := rfl
  refine ⟨WeltOpen.of_host (s := s.weltTouch e.addr) (ht ▸ ⟨ha, he, hs, hn, hw⟩) hhost, s.host.clock, ?_⟩
  have hline : (s.loadServed n e rd v).line k = (s.weltTouch e.addr).line k := rfl
  rw [hline, ht]
  exact line_setLine_self ho k _

end

section
variable {s : State} {n k : Nat} {e : ExtAcc} {rd : Fin 32} {size : Nat} {signed : Bool} (h : LoadWaits s n k e rd size signed)
include h

theorem LoadWaits.waitingOn : s.waitingOn n k = [e] := by
  simp [State.waitingOn, h.ext, h.waits]

/-- R204: a load of a line that the Welt holds gets its bytes. -/
theorem serveCell_load (ho : WeltOpen s) (hw : spWf Cell.zero s.cells = true) {b : List Byte} {w used : Nat}
    (hl : s.line k = some (sharedLine b w used)) :
    s.serveCell n k = s.loadServed n e rd (extend (((b.drop (e.addr % 64)).take (64 - e.addr % 64)).take size) signed) := by
  have hleft : s.serveLeft n k = s := by rw [State.serveLeft, goneOn_of_gone h.gone, List.foldl_nil]
  have hserve : s.weltServe e.addr (64 - e.addr % 64) e.needsOwn =
      some ((b.drop (e.addr % 64)).take (64 - e.addr % 64), false) := by
    have hk := h.inHost
    have ha := h.addr
    rw [State.weltServe, if_neg (by rw [ho.alive]; simp; omega), if_neg (by rw [ho.enabled, ho.steady]; decide), h.addr, hl]
    simp [sharedLine, ExtAcc.needsOwn, h.kind]
  have hgot : s.serveExt n e ((b.drop (e.addr % 64)).take (64 - e.addr % 64)) false =
      s.loadServed n e rd (extend (((b.drop (e.addr % 64)).take (64 - e.addr % 64)).take size) signed) := by
    unfold State.serveExt
    simp only [h.kind]
    rfl
  have hsweep (v : W64) : ((s.loadServed n e rd v).cell n).sweep = none := by
    rw [cell_loadServed hw, Cell.setG]
    split <;> exact h.sweep
  unfold State.serveCell
  dsimp only
  rw [hleft, h.waitingOn, List.foldl_cons, List.foldl_nil, if_neg (by simp [h.ext]), hserve]
  dsimp only
  rw [hgot, hsweep]

end

/-- The load of cell n is all that waits for line k. -/
structure OnlyLoad (s : State) (n k : Nat) (e : ExtAcc) (rd : Fin 32) (size : Nat) (signed : Bool) : Prop where
  cell : n < 128
  load : LoadWaits s n k e rd size signed
  others : ∀ m, m < 128 → m ≠ n → CellIdle s m
  noRecords : s.recordsOn k = []
  wf : spWf Cell.zero s.cells = true

section
variable {s t : State} {n k : Nat} {e : ExtAcc} {rd : Fin 32} {size : Nat} {signed : Bool}

theorem cellIdle_of_cell {m : Nat} (h : CellIdle s m) (hc : t.cell m = s.cell m) : CellIdle t m := by
  obtain ⟨he, hg, hs⟩ := h
  exact ⟨hc ▸ he, hc ▸ hg, hc ▸ hs⟩

theorem loadWaits_of_cell (h : LoadWaits s n k e rd size signed) (hc : t.cell n = s.cell n) :
    LoadWaits t n k e rd size signed := by
  obtain ⟨he, hg, hs, hk, hw, ha, hh⟩ := h
  exact ⟨hc ▸ he, hc ▸ hg, hc ▸ hs, hk, hw, ha, hh⟩

section
variable (h : OnlyLoad s n k e rd size signed)
include h

theorem OnlyLoad.cellsOn : s.cellsOn k = [n] := by
  have hp : ∀ m ∈ List.range 128, (!(s.waitingOn m k).isEmpty || !(s.goneOn m k).isEmpty) = decide (m = n) := fun m hm => by
    by_cases hmn : m = n
    · subst hmn
      simp [h.load.waitingOn]
    · have hidle := h.others m (List.mem_range.1 hm) hmn
      simp [waitingOn_of_ext hidle.ext, goneOn_of_gone hidle.gone, hmn]
  rw [State.cellsOn, List.filter_congr hp, List.filter_eq, List.count_eq_one_of_mem List.nodup_range (List.mem_range.2 h.cell),
    List.replicate_one]

theorem OnlyLoad.parcelOn : s.parcelOn k = some (s.cell n).par := by
  rw [State.parcelOn, h.cellsOn]

/-- The whole answer serves the load alone. -/
theorem serveLine_load {b : List Byte} {w used : Nat} (hc : t.cells = s.cells) (ho : WeltOpen t)
    (hl : t.line k = some (sharedLine b w used)) :
    t.serveLine k = t.loadServed n e rd (extend (((b.drop (e.addr % 64)).take (64 - e.addr % 64)).take size) signed) := by
  have hidle (m : Nat) (hm : m ∈ List.range 128) (hmn : m ≠ n) : CellIdle t m :=
    cellIdle_of_cell (h.others m (List.mem_range.1 hm) hmn) (cell_of_cells hc m)
  exact foldl_one List.nodup_range (List.mem_range.2 h.cell) (fun m hm hmn => serveCell_idle (hidle m hm hmn) k)
    (serveCell_load (loadWaits_of_cell h.load (cell_of_cells hc n)) ho (hc ▸ h.wf) hl)
    fun m hm hmn => serveCell_idle (cellIdle_of_cell (hidle m hm hmn) (cell_loadServed_ne hmn)) k

/-- R361, R366: the answer fills the line and serves the load, and a line in no way leaves again. -/
theorem exec_hostResponse_load (ho : WeltOpen s) (hnone : s.line k = none) {b : List Byte} (hb : b.length = 64) {addr : Nat}
    (hk : addr / 64 = k) (took : Nat) :
    ∃ u w used, exec (.hostResponse addr (.line b) took) s = .next (u.dropSpare k) ∧ s.WayFor (s.cell n).par k w ∧
      WeltOpen u ∧ u.line k = some (sharedLine b w used) ∧
      u.cell n = ({ s.cell n with ext := [] } : Cell).setG rd
        (extend (((b.drop (e.addr % 64)).take (64 - e.addr % 64)).take size) signed) := by
  obtain ⟨w, hway, hfilled⟩ := fill_new ho (p := (s.cell n).par) b hnone
  obtain ⟨used, hline⟩ := hfilled.line
  let f : State := s.fill (s.cell n).par k .s b false
  let t : State := f.noteAnswer k took
  have hwelt : t.welt = f.welt := welt_noteAnswer f k took
  have hcells : t.cells = s.cells := (cells_of_welt hwelt).trans hfilled.cells
  have hopen : WeltOpen t := hfilled.isOpen.of_host (host_of_welt hwelt)
  have htline : t.line k = some (sharedLine b w used) := (line_of_welt hwelt k).trans hline
  obtain ⟨hopen', used', hline'⟩ := line_loadServed (n := n) (rd := rd)
    (v := extend (((b.drop (e.addr % 64)).take (64 - e.addr % 64)).take size) signed) hopen h.load.addr htline
  refine ⟨_, w, used', ?_, hway, hopen', hline', ?_⟩
  · show execHostResponse addr (.line b) took s = _
    have hpad : (b ++ List.replicate 64 0).take 64 = b := by rw [← hb, List.take_left]
    have hfill (own noData : Bool) : s.fillAnswer (s.cell n).par k (.line b) own noData = f := by
      rw [State.fillAnswer]
      dsimp only
      rw [hpad]
    unfold execHostResponse
    dsimp only
    rw [hk, h.parcelOn, h.noRecords]
    dsimp only
    rw [hfill, serveLine_load h hcells hopen htline, runStores_quiet _ _ hopen'.noStores, List.foldl_nil]
  · rw [cell_loadServed (hcells ▸ h.wf), cell_of_cells hcells, h.load.ext, List.erase_cons_head]

end

theorem cell_dropSpare (s : State) (k n : Nat) : (s.dropSpare k).cell n = s.cell n :=
  cell_of_cells (congrArg State.cells (offHost_dropSpare s k) :) n

/-- A line in a way stays, one in none leaves. -/
theorem line_dropSpare (ho : WeltOpen s) {b : List Byte} {w used : Nat} (hl : s.line k = some (sharedLine b w used)) :
    (w < 16 → (s.dropSpare k).line k = some (sharedLine b w used)) ∧ (w = 16 → (s.dropSpare k).line k = none) := by
  have hd : s.dropSpare k = if w = 16 then s.evict k else s := by
    rw [State.dropSpare, hl]
    rfl
  rw [hd]
  refine ⟨fun hw => ?_, fun hw => ?_⟩
  · rw [if_neg (by omega), hl]
  · rw [if_pos hw, line_evict_self ho]

end

/-! Snoops (R360, R366). -/

/-- The state of a line after a snoop. -/
def WLine.snooped (l : WLine) : Snoop → Option LineSt
  | .inv => none
  | .data => if l.poison = true ∧ l.st = .m then none else some .s
  | .cur => some l.st

section
variable {s : State} {addr : Nat}

theorem hostSnoop_absent (h : s.line (addr / 64) = none) (kind : Snoop) :
    exec (.hostSnoop kind addr) s = .next (s.emit (.snoopRsp (64 * (addr / 64)) false none none false)) := by
  show execHostSnoop kind addr s = _
  unfold execHostSnoop
  dsimp only
  rw [h]

/-- The state that a snoop leaves of a device that holds the line. -/
def State.snooped (s : State) (kind : Snoop) (k : Nat) (l : WLine) : State :=
  (s.emit (.snoopRsp (64 * k) true (l.snooped kind) (if l.st = .m then some l.bytes else none) l.poison)).setLine k
    ((l.snooped kind).map (fun st => { l with st := st }))

theorem exec_hostSnoop (kind : Snoop) {l : WLine} (h : s.line (addr / 64) = some l) :
    exec (.hostSnoop kind addr) s = .next (s.snooped kind (addr / 64) l) := by
  show execHostSnoop kind addr s = _
  unfold execHostSnoop
  dsimp only
  rw [h]
  dsimp only
  have hafter : (if (decide (kind = .inv) || (decide (kind = .data) && l.poison && decide (l.st = .m))) = true then none
      else if kind = .data then some .s else some l.st) = l.snooped kind := by
    cases kind <;> simp [WLine.snooped]
  rw [hafter, State.snooped]
  cases l.snooped kind <;> rfl

theorem hostSnoop_held (kind : Snoop) (hw : spWf none s.host.lines = true) {l : WLine} (h : s.line (addr / 64) = some l) :
    ∃ t, exec (.hostSnoop kind addr) s = .next t ∧
      t.out = .snoopRsp (64 * (addr / 64)) true (l.snooped kind) (if l.st = .m then some l.bytes else none) l.poison :: s.out ∧
      t.line (addr / 64) = (l.snooped kind).map (fun st => { l with st := st }) ∧
      ∀ j, j ≠ addr / 64 → t.line j = s.line j :=
  ⟨_, exec_hostSnoop kind h, rfl, spGet_spPut_self hw _ _, fun _ hj => line_setLine_ne (s.emit _) _ hj⟩

/-- R361: an answer that nothing waits for changes nothing. -/
theorem hostResponse_unasked (a : HostAnswer) (took : Nat)
    (hc : ∀ n, n < 128 → s.waitingOn n (addr / 64) = [] ∧ s.goneOn n (addr / 64) = []) (hs : s.storesOn (addr / 64) = [])
    (hr : s.recordsOn (addr / 64) = []) : exec (.hostResponse addr a took) s = .next s := by
  have hcells : s.cellsOn (addr / 64) = [] := List.filter_eq_nil_iff.2 fun n hn => by
    obtain ⟨hw, hg⟩ := hc n (List.mem_range.1 hn)
    simp [hw, hg]
  have hnone : s.parcelOn (addr / 64) = none := by rw [State.parcelOn, hcells, hs, hr]
  show execHostResponse addr a took s = _
  unfold execHostResponse
  dsimp only
  rw [hnone]

end

/-- Settles O48: the snoops, the answer that nothing waits for, and the load's. -/
theorem snoopsAndResponsesComplete : Obligations.SnoopsAndResponsesComplete := by
  intro s addr
  refine ⟨fun h kind => hostSnoop_absent h kind, fun kind l hw h => ?_, hostResponse_unasked, ?_⟩
  · cases kind <;> exact hostSnoop_held _ hw h
  · intro n e rd size signed b took hn hext hkind htarget hdone haddr hin hsize hb hothers hcells hstores hrecs hdead hdis hflush
      hnone hlines hwf
    have ho : WeltOpen s := ⟨hdead, hdis, hflush, hstores, hlines⟩
    have hload : OnlyLoad s n (addr / 64) e rd size signed :=
      ⟨hn, ⟨hext, (hcells n hn).2, (hcells n hn).1, hkind, by simp [ExtAcc.waitsFor, htarget, haddr, hdone], haddr, hin⟩,
        fun m hm hmn => ⟨hothers m hm hmn, (hcells m hm).2, (hcells m hm).1⟩, hrecs, hwf⟩
    obtain ⟨u, w, used, hexec, ⟨hway, hmasked⟩, hopen, hline, hcell⟩ := exec_hostResponse_load hload ho hnone hb rfl took
    obtain ⟨hstays, hleaves⟩ := line_dropSpare hopen hline
    rw [List.take_take, Nat.min_eq_left (by omega)] at hcell
    exact ⟨u.dropSpare (addr / 64), hexec, (cell_dropSpare _ _ _).trans hcell,
      fun h16 hfree => ⟨_, hstays (hway h16 hfree), rfl, rfl, rfl⟩, fun hm => hleaves (hmasked hm)⟩

end Sys2Proof.Machine

/-! SUPPORT. Sensors, hard shutdown and the losses of supply (R458 to R470, R577 to R583): what a sample leaves of the readings,
which unit a shutdown names, and what each loss leaves. -/

namespace Sys2Proof.Machine

open Sys2Proof.Safety

/-! What a sample leaves (R458, R459). -/

/-- The run state, the datum and the sensors. -/
def State.sensors (s : State) :
    DevState × Nat × Sparse ThCell × Sparse ThStack × Sparse (List Int) × Sparse (List Int) :=
  (s.dev, s.datum, s.th.cells, s.th.stks, s.th.hub, s.th.vr)

theorem sensors_of_quiet {s t : State} (h : t.quiet = s.quiet) : t.sensors = s.sensors := (congrArg State.sensors h :)

/-- A report of a reading: its entry and its alert. -/
theorem sensors_report (s : State) (e : LogEntry) (bit : Nat) (code : W16) : ((s.log e).alert bit code).sensors = s.sensors :=
  sensors_of_quiet ((quiet_alert _ _ _).trans (quiet_of_still (still_log s e)))

theorem sensors_report_if (c : Prop) [Decidable c] (s : State) (e : LogEntry) (bit : Nat) (code : W16) :
    (if c then (s.log e).alert bit code else s).sensors = s.sensors := by
  split
  · exact sensors_report s e bit code
  · rfl

theorem sensors_coolAlerts (s : State) : s.coolAlerts.sensors = s.sensors :=
  (sensors_report_if _ _ _ 8 0x0A02).trans (sensors_report_if _ _ _ 7 0x0A01)

/-- The sample of one cell's sensor alone. -/
def cellSample (n : Fin 128) (v : W16) : Sample :=
  { cells := [(n, v)], stks := [], hub := [], vr := [], cool := none, power := none, filtered := [] }

/-- The state in which the sample of a cell's sensor is kept. -/
def State.sampled (s : State) (at' : Nat) (n : Fin 128) (v : W16) : State :=
  (s.at at').modThCell n (fun h => { h with temps := pushSample v h.temps })

/-- The state that the sample leaves before its conditions are timed. -/
def State.reported (s : State) (at' : Nat) (n : Fin 128) (v : W16) : State :=
  (((s.sampled at' n v).refreshRate.derate).coolAlerts).addWear

theorem sensors_refreshRate (s : State) : s.refreshRate.sensors = s.sensors := rfl
theorem sensors_derate (s : State) : s.derate.sensors = s.sensors := rfl
theorem sensors_addWear (s : State) : s.addWear.sensors = s.sensors := by simp only [State.sensors, State.addWear]

theorem sensors_reported (s : State) (at' : Nat) (n : Fin 128) (v : W16) :
    (s.reported at' n v).sensors = (s.sampled at' n v).sensors := by
  rw [State.reported, sensors_addWear, sensors_coolAlerts, sensors_derate, sensors_refreshRate]

theorem exec_sensorSample {s : State} (hp : s.powered = true) (at' : Nat) (n : Fin 128) (v : W16) :
    exec (.sensorSample at' (cellSample n v)) s =
      .next ((s.reported at' n v).timePower.hardShutdown (s.reported at' n v).timePower.overLimit) :=
  (if_neg (by rw [show (s.at at').powered = true from hp]; decide) : execSensorSample at' (cellSample n v) s = _)

/-! The readings after it. -/

/-- What the readings of the units are taken from. -/
structure SameReadings (s t : State) : Prop where
  dev : t.dev = s.dev
  datum : t.datum = s.datum
  temps : ∀ n, (t.thCell n).temps = (s.thCell n).temps
  stks : t.th.stks = s.th.stks
  hub : t.th.hub = s.th.hub
  vr : t.th.vr = s.th.vr

/-- What the throttle keeps of a cell that is no longer held. -/
def ThCell.released (h : ThCell) : ThCell := { h with held := false }

theorem thCell_modThCell_ne (s : State) (f : ThCell → ThCell) {n m : Nat} (h : m ≠ n) :
    (s.modThCell n f).thCell m = s.thCell m := spGet_spMod_ne ThCell.zero s.th.cells f h

section
variable {s t : State} (h : SameReadings s t)
include h

theorem SameReadings.stackTemp (k : Nat) : t.stackTemp k = s.stackTemp k := by
  have hk : t.stackSensor k = s.stackSensor k := funext fun j => by
    rw [State.stackSensor, State.thStack, h.stks, State.stackSensor, State.thStack]
  rw [State.stackTemp, hk, State.stackTemp]

theorem SameReadings.hubTemp : t.hubTemp = s.hubTemp := by
  have hk : t.hubSensor = s.hubSensor := funext fun j => by rw [State.hubSensor, h.hub, State.hubSensor]
  rw [State.hubTemp, hk, State.hubTemp]

theorem SameReadings.vrTemp (k : Nat) : t.vrTemp k = s.vrTemp k := by rw [State.vrTemp, h.vr, State.vrTemp]

end

section
variable {s : State} (hw : spWf ThCell.zero s.th.cells = true)
include hw

theorem thCell_modThCell_self (n : Nat) (f : ThCell → ThCell) : (s.modThCell n f).thCell n = f (s.thCell n) :=
  spGet_spMod_self hw n f

theorem wf_modThCell (n : Nat) (f : ThCell → ThCell) : spWf ThCell.zero (s.modThCell n f).th.cells = true :=
  spWf_spMod hw n f

/-- R473: no longer being held changes no reading. -/
theorem temps_released (n m : Nat) : ((s.modThCell n ThCell.released).thCell m).temps = (s.thCell m).temps := by
  by_cases hm : m = n
  · rw [hm, thCell_modThCell_self hw]
    rfl
  · exact congrArg ThCell.temps (thCell_modThCell_ne s ThCell.released hm)

end

theorem sameReadings_releases (l : List Nat) {s : State} (hw : spWf ThCell.zero s.th.cells = true) :
    SameReadings s (l.foldl (fun s n => s.modThCell n ThCell.released) s) := by
  induction l generalizing s with
  | nil => exact ⟨rfl, rfl, fun _ => rfl, rfl, rfl, rfl⟩
  | cons n l ih =>
    obtain ⟨hd, ht, hc, hs, hh, hv⟩ := ih (wf_modThCell hw n ThCell.released)
    exact ⟨hd, ht, fun m => (hc m).trans (temps_released hw n m), hs, hh, hv⟩

/-- The state in which the conditions of the power average are timed. -/
def State.timeConditions (s : State) : State :=
  let low := decide (s.powerAvg + 50 ≤ s.effLimit)
  let high := decide (s.effLimit < s.powerAvg) && s.ungated.all (fun n => decide ((s.cell n).clk ≤ s.floorOf n))
  { s with th := { s.th with
    under := if low then some (s.th.under.getD s.datum) else none, overAt := if high then some (s.th.overAt.getD s.datum) else none
    peak := BitVec.ofNat 32 (max s.th.peak.toNat s.powerAvg) } }

theorem timePower_eq (s : State) : s.timePower = if s.timeConditions.subsided then
    (List.range 128).foldl (fun s n => s.modThCell n ThCell.released) s.timeConditions else s.timeConditions := rfl

theorem sameReadings_timeConditions (s : State) : SameReadings s s.timeConditions := ⟨rfl, rfl, fun _ => rfl, rfl, rfl, rfl⟩

theorem SameReadings.trans {s t u : State} (h : SameReadings s t) (h' : SameReadings t u) : SameReadings s u :=
  ⟨h'.dev.trans h.dev, h'.datum.trans h.datum, fun n => (h'.temps n).trans (h.temps n), h'.stks.trans h.stks,
    h'.hub.trans h.hub, h'.vr.trans h.vr⟩

/-- R473, R474: the timed conditions change no reading. -/
theorem sameReadings_timePower {s : State} (hw : spWf ThCell.zero s.th.cells = true) : SameReadings s s.timePower := by
  rw [timePower_eq]
  split
  · exact (sameReadings_timeConditions s).trans (sameReadings_releases _ (s := s.timeConditions) hw)
  · exact sameReadings_timeConditions s

/-- The state that a sample of a cell's sensor leaves before a shutdown. -/
def State.timed (s : State) (at' : Nat) (n : Fin 128) (v : W16) : State := (s.reported at' n v).timePower

section
variable {s : State} (hw : spWf ThCell.zero s.th.cells = true) (at' : Nat) (n : Fin 128) (v : W16)
include hw

theorem sameReadings_timed : SameReadings (s.sampled at' n v) (s.timed at' n v) := by
  have hj := sensors_reported s at' n v
  simp only [State.sensors, Prod.mk.injEq] at hj
  obtain ⟨hd, ht, hc, hs, hh, hv⟩ := hj
  have hwf : spWf ThCell.zero (s.reported at' n v).th.cells = true := hc ▸ wf_modThCell (s := s.at at') hw n _
  exact SameReadings.trans ⟨hd, ht, fun m => congrArg (fun l => (spGet ThCell.zero l m).temps) hc, hs, hh, hv⟩
    (sameReadings_timePower hwf)

/-- R458: the sensor keeps its last four samples. -/
theorem temps_timed_self : ((s.timed at' n v).thCell n).temps = (v.toInt :: (s.thCell n).temps).take 4 :=
  ((sameReadings_timed hw at' n v).temps n).trans (congrArg ThCell.temps (thCell_modThCell_self (s := s.at at') hw n _))

theorem temps_timed_ne {m : Nat} (hm : m ≠ n.val) : ((s.timed at' n v).thCell m).temps = (s.thCell m).temps :=
  ((sameReadings_timed hw at' n v).temps m).trans (congrArg ThCell.temps (thCell_modThCell_ne (s.at at') _ hm))

theorem cellTemp_timed_ne {m : Nat} (hm : m ≠ n.val) : (s.timed at' n v).cellTemp m = s.cellTemp m :=
  congrArg meanOf (temps_timed_ne hw at' n v hm)

end

/-! The units at their limit (R468, R470). -/

/-- The units of a kind at their limit. -/
def unitsOver (kind n : Nat) (f : Nat → Int) (lim : Int) : List (Nat × Nat × Nat) :=
  ((List.range n).filter (fun i => decide (lim ≤ f i))).map (fun i => (kind, i, temp16 (f i)))

theorem overLimit_eq (s : State) : s.overLimit = unitsOver 1 128 s.cellTemp 880 ++ unitsOver 2 8 s.stackTemp 840 ++
    unitsOver 3 1 (fun _ => s.hubTemp) 880 ++ unitsOver 4 8 s.vrTemp 1000 := rfl

theorem unitsOver_none {n : Nat} {f : Nat → Int} {lim : Int} (h : ∀ i, i < n → f i < lim) (kind : Nat) :
    unitsOver kind n f lim = [] := by
  rw [unitsOver, List.filter_eq_nil_iff.2 fun i hi => by simpa using h i (List.mem_range.1 hi), List.map_nil]

/-- The first unit of a kind at its limit. -/
theorem unitsOver_first {n i : Nat} {f : Nat → Int} {lim : Int} (hi : i < n) (h : lim ≤ f i) (hl : ∀ j, j < i → f j < lim)
    (kind : Nat) : ∃ rest, unitsOver kind n f lim = (kind, i, temp16 (f i)) :: rest := by
  have hfind : (List.range n).find? (fun j => decide (lim ≤ f j)) = some i :=
    List.find?_range_eq_some.2 ⟨by simpa using h, List.mem_range.2 hi, fun j hj => by simpa using hl j hj⟩
  obtain ⟨rest, hrest⟩ := List.head?_eq_some_iff.1 (List.head?_filter.trans hfind)
  exact ⟨_, by rw [unitsOver, hrest, List.map_cons]⟩

/-! Hard shutdown (R469, R470). -/

/-- The entries of a hard shutdown. -/
def State.logUnits (s : State) (units : List (Nat × Nat × Nat)) : State :=
  units.foldl (fun s u => s.log { logEntry s 0x0A04 with
    cls := 4, aux := BitVec.ofNat 8 u.1, unit := BitVec.ofNat 16 u.2.1, arg := BitVec.ofNat 64 u.2.2 }) s

theorem still_logUnits (units : List (Nat × Nat × Nat)) (s : State) : (s.logUnits units).still = s.still :=
  view_foldl State.still _ _ (fun s _ _ => still_log s _) s

/-- R469, R470: what a hard shutdown leaves, the first of its units latched. -/
structure ShutDown (s t : State) (kind index temp : Nat) : Prop where
  dev : t.dev = .halted
  cells : t.cells = []
  parcels : t.parcels = []
  mem : t.stk.mem = []
  tk : t.tk = {}
  pin : t.th.hotstopPin = true
  hotstop : t.th.hotstop = BitVec.ofNat 32 (2 ^ 31 + kind * 2 ^ 24 + index % 256 * 2 ^ 16 + temp % 65536)
  datum : t.th.hotstopDatum = BitVec.ofNat 64 s.datum
  slots : t.mg.slots = s.mg.slots

theorem shutDown_hardShutdown (s : State) (kind index temp : Nat) (rest : List (Nat × Nat × Nat)) :
    ShutDown s (s.hardShutdown ((kind, index, temp) :: rest)) kind index temp where
  dev := hardShutdown_cons_dev s _ rest
  cells := by rw [State.hardShutdown, toDev_frame]; rfl
  parcels := by rw [State.hardShutdown, toDev_frame]; rfl
  mem := by rw [State.hardShutdown, toDev_frame]; rfl
  tk := by rw [State.hardShutdown, toDev_frame]; rfl
  pin := by rw [State.hardShutdown, toDev_frame]; rfl
  hotstop := by rw [State.hardShutdown, toDev_frame]; rfl
  datum := by
    rw [State.hardShutdown, toDev_frame]
    exact congrArg (BitVec.ofNat 64) (datum_of_still (still_logUnits ((kind, index, temp) :: rest) s))
  slots := congrArg Prod.fst (fuses_hardShutdown s _)

theorem temp16_lt (x : Int) : temp16 x < 65536 := (BitVec.ofInt 16 x).isLt

/-! A sample (R458, R468). -/

section
variable {s : State} (hp : s.powered = true) (hw : spWf ThCell.zero s.th.cells = true) (at' : Nat) (n : Fin 128) (v : W16)
include hp hw

/-- R458: a sample below every limit is kept. -/
theorem sensorSample_below (hn : meanOf ((v.toInt :: (s.thCell n).temps).take 4) < 880)
    (hc : ∀ m, m < 128 → m ≠ n.val → s.cellTemp m < 880) (hs : ∀ k, k < 8 → s.stackTemp k < 840) (hh : s.hubTemp < 880)
    (hv : ∀ k, k < 8 → s.vrTemp k < 1000) : ∃ t, exec (.sensorSample at' (cellSample n v)) s = .next t ∧ t.dev = s.dev ∧
      t.datum = max s.datum at' ∧ (t.thCell n).temps = (v.toInt :: (s.thCell n).temps).take 4 ∧
      ∀ m, m ≠ n.val → (t.thCell m).temps = (s.thCell m).temps := by
  have hsame := sameReadings_timed hw at' n v
  have hcells (m : Nat) (hm : m < 128) : (s.timed at' n v).cellTemp m < 880 := by
    by_cases hmn : m = n.val
    · rw [hmn, State.cellTemp, temps_timed_self hw]
      exact hn
    · rw [cellTemp_timed_ne hw at' n v hmn]
      exact hc m hm hmn
  have hnone : (s.timed at' n v).overLimit = [] := by
    rw [overLimit_eq, unitsOver_none hcells, unitsOver_none fun k hk => by rw [hsame.stackTemp]; exact hs k hk,
      unitsOver_none fun _ _ => by rw [hsame.hubTemp]; exact hh,
      unitsOver_none fun k hk => by rw [hsame.vrTemp]; exact hv k hk]
    rfl
  refine ⟨s.timed at' n v, ?_, hsame.dev, hsame.datum, temps_timed_self hw at' n v, fun m hm => temps_timed_ne hw at' n v hm⟩
  rw [exec_sensorSample hp, ← State.timed, hnone]
  rfl

/-- R468 to R470: a cell at its limit shuts the device down, and the first one is latched. -/
theorem sensorSample_over (hn : 880 ≤ meanOf ((v.toInt :: (s.thCell n).temps).take 4)) (hc : ∀ m, m < n.val → s.cellTemp m < 880) :
    ∃ t, exec (.sensorSample at' (cellSample n v)) s = .next t ∧
      ShutDown (s.timed at' n v) t 1 n (temp16 (meanOf ((v.toInt :: (s.thCell n).temps).take 4))) := by
  have htemp : (s.timed at' n v).cellTemp n = meanOf ((v.toInt :: (s.thCell n).temps).take 4) :=
    congrArg meanOf (temps_timed_self hw at' n v)
  obtain ⟨rest, hrest⟩ := unitsOver_first n.isLt (htemp ▸ hn)
    (fun m hm => by rw [cellTemp_timed_ne hw at' n v (Nat.ne_of_lt hm)]; exact hc m hm) 1
  refine ⟨_, exec_sensorSample hp at' n v, ?_⟩
  rw [← State.timed, overLimit_eq, hrest, ← htemp]
  exact shutDown_hardShutdown _ _ _ _ _

end

/-! The losses of supply (R577 to R583). -/

section
variable {s : State}

/-- R578: a device that has the main rails loses them. -/
theorem loseMain_up (hoff : s.dev ≠ .off) (hhalt : s.dev ≠ .halted) : s.loseMain = s.dropMain.toDev .off := by
  unfold State.loseMain
  split
  · contradiction
  · contradiction
  · rfl

theorem loseMain_halted (h : s.dev = .halted) : s.loseMain = { s with mg := { s.mg with rails := false } } := by
  unfold State.loseMain
  rw [h]

theorem exec_railFault (hoff : s.dev ≠ .off) (hhalt : s.dev ≠ .halted) (stage : Fin 11) : exec (.railFault stage) s =
    if stage.val = 0 then .next s else .next (s.hardShutdown [(4, 0x80 + stage.val, temp16 s.vrHottest)]) := by
  show execRailFault stage s = _
  unfold execRailFault
  split
  · contradiction
  · contradiction
  · rfl

/-- R562, R564: without a write in the instant of the loss, the fuses and the floor stand. -/
theorem slots_cutOff (h : s.mg.fusing = none) : s.cutOff.mg.slots = s.mg.slots := by
  unfold State.cutOff
  rw [h]

theorem floor_cutOff (h : s.img.floorOld = none) : s.cutOff.img.floor = s.img.floor := by
  unfold State.cutOff
  rw [h]

theorem floor_dropUpdate (s : State) : s.dropUpdate.img.floor = s.img.floor := by
  unfold State.dropUpdate
  split <;> rfl

/-- R579: what a loss of the standby supply leaves. -/
theorem standbySupplyLoss_leaves (s : State) : ∃ t, exec .standbySupplyLoss s = .next t ∧ t.dev = .off ∧ t.er = {} ∧
    t.cells = [] ∧ t.mg.standby = false ∧ t.stk.pprUsed = s.stk.pprUsed ∧
    (s.mg.fusing = none → t.mg.slots = s.mg.slots) ∧ (s.img.floorOld = none → t.img.floor = s.img.floor) := by
  refine ⟨_, rfl, rfl, rfl, rfl, rfl, ?_, fun h => ?_, fun h => ?_⟩
  · show s.cutOff.dropUpdate.stk.pprUsed = _
    rw [dropUpdate_frame]
    rfl
  · exact (congrArg Prod.fst (fuses_dropUpdate s.cutOff)).trans (slots_cutOff h)
  · exact (floor_dropUpdate s.cutOff).trans (floor_cutOff h)

end

/-- Settles O50: the sample of a sensor and each loss by its lemma above. -/
theorem suppliesAndShutdownComplete : Obligations.SuppliesAndShutdownComplete := by
  intro s
  refine ⟨fun at' n v hp hw => ⟨fun hn hc hs hh hv => sensorSample_below hp hw at' n v hn hc hs hh hv, fun hn hc => ?_⟩,
    fun stage hoff hhalt => ⟨fun hst => ?_, fun hst => (exec_railFault hoff hhalt stage).trans (if_pos hst)⟩,
    fun hoff hhalt => ?_, fun h => congrArg Host.Outcome.next (loseMain_halted h), fun h => if_pos h,
    fun h => if_neg (by rw [h]; decide), fun a b hp hcap => ⟨?_, ?_⟩, standbySupplyLoss_leaves s⟩
  · obtain ⟨t, hexec, hdev, hcells, hparcels, hmem, htk, hpin, hhot, hdatum, -⟩ := sensorSample_over hp hw at' n v hn hc
    refine ⟨t, hexec, hdev, hcells, hparcels, hmem, htk, hpin, ?_, ?_⟩
    · rw [hhot, Nat.mod_eq_of_lt (by omega : n.val < 256), Nat.mod_eq_of_lt (temp16_lt _), Nat.one_mul]
    · rw [hdatum, (sameReadings_timed hw at' n v).datum]
      rfl
  · obtain ⟨hdev, hcells, hparcels, -, -, -, hhot, -, hslots⟩ :=
      shutDown_hardShutdown s 4 (0x80 + stage.val) (temp16 s.vrHottest) []
    refine ⟨_, (exec_railFault hoff hhalt stage).trans (if_neg hst), hdev, hcells, hparcels, ?_, hslots⟩
    rw [hhot, Nat.mod_eq_of_lt (by omega : 0x80 + stage.val < 256), Nat.mod_eq_of_lt (temp16_lt _)]
  · refine ⟨_, congrArg Host.Outcome.next (loseMain_up hoff hhalt), toDev_dev _ _, ?_, toDev_parcels _ _, ?_, toDev_tk _ _,
      toDev_er _ _, congrArg Prod.fst (fuses_toDev s.dropMain .off), ?_⟩
    · rw [toDev_frame]
      rfl
    · rw [toDev_stk]
      rfl
    · rw [toDev_img]
      rfl
  · refine (if_neg (by rw [hp]; decide) : execCblPresDeassert 0 s = _).trans ?_
    rw [hcap]
    rfl
  · refine (if_neg (by rw [hp]; decide) : execCblPresDeassert 1 s = _).trans ?_
    rw [hcap]
    rfl

end Sys2Proof.Machine

/-! SUPPORT. Device-wide orders (R508, R509, R518, R520): how an order is judged, what a cold and a warm reset leave, and what
entry into RETIRED leaves of the run state, the tick machine and the order's result. -/

namespace Sys2Proof.Machine

open Sys2Proof.Safety

/-! An order is judged (R518). -/

section
variable {s : State} {who : Accessor}

/-- R518: the management owner's order of a device in service is taken. -/
theorem judgeOrder_owner (ho : s.ownerAccess who = true) (h : s.hasOwner = true) (hd : s.dev = .running ∨ s.dev = .unlasted)
    {op : Nat} (hop : 1 ≤ op ∧ op ≤ 3) : s.judgeOrder who op = some 0 := by
  cases who with
  | fn f => cases ho
  | mgmt eid k =>
    have hjudge : s.judgeOrder (.mgmt eid k) op = match s.dev with
        | .starting _ => some 4
        | .retired => some (if op = 2 then 2 else if 1 ≤ op ∧ op ≤ 3 then 0 else 1)
        | .halted => some (if op = 1 then 0 else 1)
        | _ => some (if 1 ≤ op ∧ op ≤ 3 then 0 else 1) := by
      rw [State.judgeOrder, h, ho]
      rfl
    rw [hjudge]
    rcases hd with hd | hd <;> rw [hd] <;> exact congrArg some (if_pos hop)

/-- R518: during start-up the owner's order is told that the device is busy. -/
theorem judgeOrder_busy (ho : s.ownerAccess who = true) (h : s.hasOwner = true) {n : Nat} (hd : s.dev = .starting n) (op : Nat) :
    s.judgeOrder who op = some 4 := by
  cases who with
  | fn f => cases ho
  | mgmt eid k =>
    rw [State.judgeOrder, h, ho, hd]
    rfl

theorem judgeOrder_stranger {eid : Byte} {k : Option (Fin 4)} (ho : s.ownerAccess (.mgmt eid k) = false) (h : s.hasOwner = true)
    (op : Nat) : s.judgeOrder (.mgmt eid k) op = some 3 := by
  rw [State.judgeOrder, h, ho]
  rfl

theorem deviceOrder_unjudged {op : Nat} (h : s.judgeOrder who op = none) : s.deviceOrder who op = s := by
  rw [State.deviceOrder, h]

/-- R518: an order that is refused leaves its code alone. -/
theorem deviceOrder_refused {op c : Nat} (h : s.judgeOrder who op = some c) (hc : c ≠ 0) : s.deviceOrder who op = s.orderCode c := by
  rw [State.deviceOrder, h]
  exact if_pos hc

theorem deviceOrder_taken {op : Nat} (h : s.judgeOrder who op = some 0) : s.deviceOrder who op =
    if op = 1 then (s.orderCode 0).coldReset 2 else if op = 2 then (s.orderCode 0).warmReset 3 else (s.orderCode 0).retire 4 := by
  rw [State.deviceOrder, h]
  rfl

/-- R518: who gives no order that acts: a function, another endpoint, and the owner during start-up. -/
theorem deviceOrder_refusals (op : Nat) : (∀ f, who = .fn f → s.deviceOrder who op = s) ∧
    (∀ eid k, who = .mgmt eid k → s.hasOwner = true →
      (s.ownerAccess who = false → s.deviceOrder who op = { s with mg := { s.mg with orderDone := true, orderCode := 3 } }) ∧
      (s.ownerAccess who = true → ∀ n, s.dev = .starting n →
        s.deviceOrder who op = { s with mg := { s.mg with orderDone := true, orderCode := 4 } })) := by
  refine ⟨fun f hf => ?_, fun eid k hk h => ⟨fun ho => ?_, fun ho n hd => ?_⟩⟩
  · subst hf
    exact deviceOrder_unjudged rfl
  · subst hk
    exact deviceOrder_refused (judgeOrder_stranger ho h op) (by decide)
  · exact deviceOrder_refused (judgeOrder_busy ho h hd op) (by decide)

end

/-! A cold reset (R508, R509). -/

/-- The rails of step 1 touch the management plane and the error log alone. -/
theorem quiet_startRails (s : State) : s.startRails.quiet = s.quiet := by
  unfold State.startRails
  split
  · split
    · exact (quiet_of_still (still_log _ _)).trans rfl
    · rfl
  · rfl

theorem resetCause_startRails (s : State) : s.startRails.mg.resetCause = s.mg.resetCause := by
  unfold State.startRails
  split
  · split
    · rw [state_log_mg]
    · rfl
  · rfl

/-- R508, R509: what a cold reset leaves: nothing in the cells, parcels and stacks, the datum at 0, the image slots and the
serial floor as they were. -/
structure ColdStart (s t : State) (cause : Nat) : Prop where
  dev : t.dev = .starting 0
  datum : t.datum = 0
  cells : t.cells = []
  parcels : t.parcels = []
  insts : t.insts = []
  mem : t.stk.mem = []
  tk : t.tk = {}
  cause : t.mg.resetCause = BitVec.ofNat 8 cause
  floor : t.img.floor = s.img.floor
  slotA : t.img.slotA = s.img.slotA
  slotB : t.img.slotB = s.img.slotB
  pending : t.pending = s.pending

theorem ColdStart.of_quiet {s t u : State} {cause : Nat} (h : ColdStart s t cause) (hq : u.quiet = t.quiet)
    (hc : u.mg.resetCause = t.mg.resetCause) : ColdStart s u cause where
  dev := (dev_of_quiet hq).trans h.dev
  datum := (datum_of_quiet hq).trans h.datum
  cells := (cells_of_quiet hq).trans h.cells
  parcels := (congrArg State.parcels hq :).trans h.parcels
  insts := (congrArg State.insts hq :).trans h.insts
  mem := (congrArg Stacks.mem (stk_of_quiet hq)).trans h.mem
  tk := (congrArg State.tk hq :).trans h.tk
  cause := hc.trans h.cause
  floor := (congrArg (fun u => u.img.floor) hq :).trans h.floor
  slotA := (congrArg (fun u => u.img.slotA) hq :).trans h.slotA
  slotB := (congrArg (fun u => u.img.slotB) hq :).trans h.slotB
  pending := (congrArg State.pending hq :).trans h.pending

theorem slots_dropUpdate (s : State) : s.dropUpdate.img.slotA = s.img.slotA ∧ s.dropUpdate.img.slotB = s.img.slotB := by
  unfold State.dropUpdate
  split <;> exact ⟨rfl, rfl⟩

/-- The state of a cold reset before its entry in the error log and its rails. -/
def State.coldState (s : State) (cause : Nat) : State :=
  { s.toDev (.starting 0) with
    datum := 0, tk := {}, lc := {}, cells := [], parcels := [], insts := [], cyc := {}, ords := [], sv := {}, ob := {}, er := {}
    stk := { remap := s.stk.remap, pprUsed := s.stk.pprUsed }
    img := s.img.flash
    net := { mods := restartMods s.net.mods }
    host := { perst := s.host.perst, masked := s.host.masked }
    th := { capacity := s.th.capacity }
    we := s.we.clearRegs
    mg := { s.mg.clearRegs cause with retire := 0, alertPin := false, step := 1 } }

theorem coldReset_eq (s : State) (cause : Nat) : s.coldReset cause =
    ((((s.dropUpdate.foldCycles s.th.cyc).commitWear).coldState cause).logReset 1).startRails := rfl

theorem coldStart_coldState (s : State) (cause : Nat) : ColdStart s (s.coldState cause) cause where
  dev := toDev_dev s _
  datum := rfl
  cells := rfl
  parcels := rfl
  insts := rfl
  mem := rfl
  tk := rfl
  cause := rfl
  floor := rfl
  slotA := rfl
  slotB := rfl
  pending := by rw [State.coldState, toDev_frame]

/-- R508: a cold reset starts start-up over. -/
theorem coldStart_coldReset (s : State) (cause : Nat) : ColdStart s (s.coldReset cause) cause := by
  obtain ⟨hdev, hdatum, hcells, hparcels, hinsts, hmem, htk, hcause, hfloor, hA, hB, hpending⟩ :=
    coldStart_coldState (s.dropUpdate.foldCycles s.th.cyc).commitWear cause
  obtain ⟨hA', hB'⟩ := slots_dropUpdate s
  have hstart : ColdStart s (((s.dropUpdate.foldCycles s.th.cyc).commitWear).coldState cause) cause :=
    ⟨hdev, hdatum, hcells, hparcels, hinsts, hmem, htk, hcause, hfloor.trans (floor_dropUpdate s), hA.trans hA', hB.trans hB',
      hpending.trans (by rw [dropUpdate_frame]; rfl)⟩
  rw [coldReset_eq]
  refine hstart.of_quiet ((quiet_startRails _).trans (quiet_of_still (still_log _ _))) ?_
  rw [resetCause_startRails, State.logReset, state_log_mg]

/-! A warm reset (R508 to R510). -/

theorem ob_pldmEvent (s : State) (cls : Byte) (data : List Byte) : (s.pldmEvent cls data).ob = s.ob := by
  unfold State.pldmEvent
  dsimp only
  split <;> rfl

theorem ob_allFnEvent (s : State) (bit : Nat) : (s.allFnEvent bit).ob = s.ob :=
  view_foldl State.ob _ _ (fun s f _ => by unfold State.fnEvent; split <;> rfl) s

theorem parcels_allFnEvent (s : State) (bit : Nat) : (s.allFnEvent bit).parcels = s.parcels :=
  parcels_of_still (still_allFnEvent s bit)

/-- Without parcels, an alert leaves the counters and the trace. -/
theorem ob_alert {s : State} (h : s.parcels = []) (bit : Nat) (code : W16) : (s.alert bit code).ob = s.ob := by
  obtain hsame | ⟨data, hraised⟩ := alert_cases s bit code
  · rw [hsame]
  · rw [hraised, vgAlertAll_noParcel (by rw [parcels_allFnEvent, parcels_pldmEvent]; exact h), ob_allFnEvent, ob_pldmEvent]
    rfl

theorem ob_ptpWarm {s : State} (h : s.parcels = []) (old : PtpSt) : (s.ptpWarm old).ob = s.ob := by
  unfold State.ptpWarm
  dsimp only
  split
  · rw [State.ptpUnlock, ob_alert (by rw [parcels_of_still (still_log _ _)]; exact h), state_log_ob]
  · rfl

/-- R508: a warm reset where no graph runs and no region is under test keeps the hub-die cycle count. -/
theorem warmReset_cycle {s : State} (hi : s.insts = []) (ht : ∀ k, k < 385 → s.testing k = false) (cause : Nat) :
    (s.warmReset cause).ob.cycle = s.ob.cycle ∧ (s.warmReset cause).pending = s.pending := by
  have hinsts : s.dropUpdate.insts = [] := by rw [dropUpdate_frame]; exact hi
  have hends : (List.range 385).foldl (fun s k => if s.testing k then s.endTest k else s) s.dropUpdate = s.dropUpdate :=
    foldl_stays fun k hk => by
      have hk : s.dropUpdate.testing k = false := by rw [dropUpdate_frame]; exact ht k (List.mem_range.1 hk)
      rw [hk, if_neg Bool.false_ne_true]
  unfold State.warmReset
  dsimp only
  rw [hends, hinsts, List.filterMap_nil, List.foldl_nil, ob_ptpWarm (by rw [State.logReset, parcels_of_still (still_log _ _)]),
    State.logReset, state_log_ob]
  refine ⟨?_, ?_⟩
  · show s.dropUpdate.ob.cycle = _
    rw [dropUpdate_frame]
  · refine (congrArg Prod.fst (kept_ptpWarm _ _)).trans ?_
    rw [kept_log]
    show (s.dropUpdate.toDev (.starting 3)).pending = _
    rw [toDev_frame, dropUpdate_frame]

/-! Entry into RETIRED (R520): what no report, no end of a request and no answer changes. -/

/-- The run state, whether the tick machine runs, why the device retired, and the result of a device-wide order. -/
def State.orderView (s : State) : DevState × Bool × Byte × Bool × Byte :=
  (s.dev, s.tk.run, s.mg.retire, s.mg.orderDone, s.mg.orderCode)

theorem orderView_of_core {s t : State} (h : t.core = s.core) : t.orderView = s.orderView := (congrArg State.orderView h :)
theorem orderView_of_still {s t : State} (h : t.still = s.still) : t.orderView = s.orderView := orderView_of_core (core_of_still h)

theorem orderView_foldl {α : Type} {g : State → α → State} (h : ∀ s a, (g s a).orderView = s.orderView) (l : List α) (s : State) :
    (l.foldl g s).orderView = s.orderView := view_foldl State.orderView l g (fun s a _ => h s a) s

theorem orderView_if {c : Prop} [Decidable c] {s t u : State} (ht : t.orderView = s.orderView) (hu : u.orderView = s.orderView) :
    (if c then t else u).orderView = s.orderView := by split <;> assumption

/-! Reports. -/

theorem orderView_pldmEvent (s : State) (cls : Byte) (data : List Byte) : (s.pldmEvent cls data).orderView = s.orderView := by
  unfold State.pldmEvent
  dsimp only
  split <;> rfl

theorem orderView_alert (s : State) (bit : Nat) (code : W16) : (s.alert bit code).orderView = s.orderView := by
  obtain hsame | ⟨data, hraised⟩ := alert_cases s bit code
  · rw [hsame]
  · rw [hraised, orderView_of_still (still_vgAlertAll _ 1), orderView_of_still (still_allFnEvent _ 2), orderView_pldmEvent]
    rfl

theorem orderView_stopTrace (s : State) : s.stopTrace.orderView = s.orderView := orderView_if rfl rfl

theorem orderView_logP (s : State) (code p : Nat) (f : LogEntry → LogEntry) : (s.logP code p f).orderView = s.orderView :=
  orderView_of_still (still_logP ..)

theorem orderView_trace (s : State) (cls event : Nat) (parcel q : Option Nat) (unit aux : Nat) (arg : W64) :
    (s.trace cls event parcel q unit aux arg).orderView = s.orderView := orderView_of_still (still_trace ..)

theorem orderView_countEvent (s : State) (ev unit : Nat) (parcel : Option Nat) (k : Nat) :
    (s.countEvent ev unit parcel k).orderView = s.orderView := orderView_of_still (still_countEvent ..)

theorem orderView_modParcel (s : State) (p : Nat) (f : Parcel → Parcel) : (s.modParcel p f).orderView = s.orderView := rfl
theorem orderView_modCell (s : State) (n : Nat) (f : Cell → Cell) : (s.modCell n f).orderView = s.orderView := rfl
theorem orderView_setInst (s : State) (i : Nat) (v : Option Inst) : (s.setInst i v).orderView = s.orderView := rfl
theorem orderView_modQueue (s : State) (p q : Nat) (f : Queue → Queue) : (s.modQueue p q f).orderView = s.orderView := rfl
theorem orderView_modHost (s : State) (f : HostPort → HostPort) : (s.modHost f).orderView = s.orderView := rfl

theorem orderView_endWindow (s : State) (p : Nat) : (s.endWindow p).orderView = s.orderView := by
  unfold State.endWindow
  dsimp only
  refine orderView_if rfl (orderView_if ?_ ?_)
  · rw [orderView_trace, orderView_modParcel]
  · rw [orderView_logP, orderView_trace, orderView_modParcel]

/-! The stores of a cell (R185, R204). -/

theorem orderView_notePoison (s : State) (p addr : Nat) : (s.notePoison p addr).orderView = s.orderView := by
  rw [State.notePoison, orderView_modParcel, orderView_logP]

theorem orderView_storeLine (s : State) (p addr : Nat) (bs : List Byte) : (s.storeLine p addr bs).orderView = s.orderView := by
  unfold State.storeLine
  split
  next l _ =>
    rw [orderView_modHost, State.setLine, orderView_modHost]
    exact orderView_if (orderView_notePoison s p addr) rfl
  next => rfl

theorem orderView_hostQueue (s : State) (p addr : Nat) (bs : List Byte) : (s.hostQueue p addr bs).orderView = s.orderView := by
  rw [State.hostQueue, orderView_modHost]
  exact orderView_if rfl rfl

theorem orderView_hostStore (s : State) (p addr : Nat) (bs : List Byte) : (s.hostStore p addr bs).orderView = s.orderView :=
  orderView_if (orderView_notePoison ..) (orderView_if (orderView_storeLine ..) (orderView_hostQueue ..))

theorem orderView_placeFault (s : State) (p a : Nat) : (s.placeFault p a).orderView = s.orderView := by
  refine orderView_if (orderView_modParcel ..) ?_
  rw [orderView_logP, orderView_modParcel]

theorem orderView_countPlace (s : State) (p stks gran a n : Nat) : (s.countPlace p stks gran a n).orderView = s.orderView :=
  orderView_if (orderView_placeFault ..) rfl

theorem orderView_performStore (s : State) (n : Nat) (e : SbEntry) : (s.performStore n e).orderView = s.orderView := by
  unfold State.performStore
  split
  · rfl
  · rfl
  · rfl
  · exact (orderView_of_core ((core_stackWrite ..).trans (core_countWrites ..))).trans (orderView_countPlace ..)
  · exact orderView_hostStore ..

theorem orderView_countServed (s : State) (n : Nat) (t : ExtTarget) : (s.countServed n t).orderView = s.orderView := by
  unfold State.countServed
  split
  · exact orderView_if rfl (orderView_countEvent ..)
  · exact orderView_if rfl (orderView_countEvent ..)
  · rfl

theorem orderView_performLate (s : State) (n : Nat) (e : SbEntry) : (s.performLate n e).orderView = s.orderView := by
  unfold State.performLate
  dsimp only
  refine orderView_if (orderView_hostQueue ..) ?_
  split
  · exact (orderView_performStore ..).trans (orderView_countServed ..)
  · exact orderView_performStore ..

theorem orderView_drainAll (s : State) (n : Nat) : (s.drainAll n).orderView = s.orderView := by
  rw [State.drainAll, orderView_modCell, orderView_foldl fun s e => orderView_performLate s n e]

theorem orderView_logBadIndex (s : State) (p : Nat) (g : GatherSlot) (first : Option Nat) :
    (s.logBadIndex p g first).orderView = s.orderView := by
  unfold State.logBadIndex
  split
  · exact orderView_logP ..
  · rfl

theorem orderView_abortCell (s : State) (n : Nat) : (s.abortCell n).orderView = s.orderView := by
  rw [State.abortCell, orderView_modCell, orderView_foldl fun s _ => orderView_logBadIndex s _ _ _, orderView_drainAll]

/-! Requests and instances end (R137, R139). -/

theorem orderView_complete (s : State) (p q : Nat) (r : Request) (code detail : Byte) (ret : W32) (overrun share : Bool)
    (payload : List Byte) (pstat cell : Nat) :
    (s.complete p q r code detail ret overrun share payload pstat cell).orderView = s.orderView := by
  have hend : (s.noteEnd p q r code detail).orderView = s.orderView := orderView_of_still (still_noteEnd ..)
  rw [complete_eq]
  dsimp only
  split
  · rw [orderView_modQueue, hend]
  · rw [orderView_of_still (still_vgAnswer ..), orderView_of_still (still_traceRecord ..), hend]

theorem orderView_refuse (s : State) (p q : Nat) (r : Request) (code detail : Byte) :
    (s.refuse p q r code detail).orderView = s.orderView := orderView_complete ..

theorem orderView_flushQueue (s : State) (p q : Nat) (code detail : Byte) :
    (s.flushQueue p q code detail).orderView = s.orderView := by
  rw [State.flushQueue, orderView_foldl fun s r => orderView_refuse s p q r code detail, orderView_modQueue]

theorem orderView_reportOverrun (s : State) (x : Inst) (cause : Nat) : (s.reportOverrun x cause).orderView = s.orderView := by
  rw [State.reportOverrun, orderView_modParcel]
  exact (orderView_logP s 0x0101 x.parcel.val _ :)

/-- The request that is held, if any, ends. -/
def State.endHeld (s : State) (x : Inst) (code detail : Byte) : State :=
  match x.req with
  | some r => s.endRequest x r code detail
  | none => s

theorem orderView_endHeld (s : State) (x : Inst) (code detail : Byte) : (s.endHeld x code detail).orderView = s.orderView := by
  unfold State.endHeld
  split
  · exact orderView_complete ..
  · rfl

/-- One whose cells stopped goes, or its task waits to restart. -/
def State.leave (s : State) (i : Nat) (x : Inst) : State :=
  if x.launched then (s.setInst i none).startReady x.parcel
  else if x.removing then s.removeTask i x
  else s.restartTask i x

theorem orderView_leave (s : State) (i : Nat) (x : Inst) : (s.leave i x).orderView = s.orderView := by
  refine orderView_if ?_ (orderView_if (orderView_of_core (core_removeTask ..)) rfl)
  rw [orderView_of_core (core_startReady ..), orderView_setInst]

theorem abortInst_some {s : State} {i : Nat} {x : Inst} (h : s.inst i = some x) (code detail : Byte) :
    s.abortInst i code detail =
      ((if x.overrun then (x.cells.foldl (fun s n => s.abortCell n) s).reportOverrun x (s.causeOf x)
        else x.cells.foldl (fun s n => s.abortCell n) s).endHeld x code detail).leave i x := by
  rw [State.abortInst, h]
  rfl

theorem orderView_abortInst (s : State) (i : Nat) (code detail : Byte) : (s.abortInst i code detail).orderView = s.orderView := by
  cases hi : s.inst i with
  | none => rw [State.abortInst, hi]
  | some x =>
    rw [abortInst_some hi, orderView_leave, orderView_endHeld]
    have hcells := orderView_foldl (fun s n => orderView_abortCell s n) x.cells s
    exact orderView_if ((orderView_reportOverrun ..).trans hcells) hcells

/-! Orders and updates end (R144, R415). -/

theorem orderView_orderResult (s : State) (p : Nat) (r : OrdRef) (code detail : Byte) :
    (s.orderResult p r code detail).orderView = s.orderView := orderView_of_still (still_orderResult ..)

theorem orderView_settleUpd (s : State) (sess : Fin 256 × Nat × W32 × Nat) (rep : Option (List Byte)) :
    (s.settleUpd sess rep).orderView = s.orderView := orderView_of_still (still_settleUpd ..)

theorem orderView_retireParcel (s : State) (p : Nat) : (s.retireParcel p).orderView = s.orderView := by
  unfold State.retireParcel
  dsimp only
  refine (orderView_foldl (fun s r => ?updates) _ _).trans ?_
  case updates =>
    split
    · exact orderView_settleUpd ..
    · rfl
  rw [orderView_modParcel]
  refine (orderView_foldl (fun s o => ?resets) _ _).trans ?_
  case resets =>
    split
    · exact orderView_orderResult ..
    · rfl
  rw [orderView_modParcel]
  refine (orderView_foldl (fun s w => orderView_orderResult ..) _ _).trans ?_
  rw [orderView_modParcel]
  refine (orderView_foldl (fun s f => orderView_orderResult ..) _ _).trans ?_
  rw [orderView_modParcel]
  refine (orderView_foldl (fun s e => ?unbinds) _ _).trans ?_
  case unbinds =>
    split
    · rw [orderView_orderResult, orderView_modQueue]
    · rfl
  refine (orderView_foldl (fun s e => ?loads) _ _).trans ?_
  case loads =>
    split
    · rw [orderView_orderResult]
      exact orderView_if rfl rfl
    · rfl
  refine (orderView_foldl (fun s e => orderView_abortInst ..) _ _).trans ?_
  rw [orderView_foldl fun s q => orderView_flushQueue s p q ccRetired 0, orderView_modParcel, orderView_endWindow]

/-! CONTROL requests of a device in RETIRED (R144, R416). -/

theorem orderView_ctlReply (s : State) (n inc op : Nat) (rseq : W32) (body : List Byte) :
    (s.ctlReply n inc op rseq body).orderView = s.orderView := orderView_of_still (still_ctlReply ..)

section
variable {s : State} (hd : s.dev = .retired)
include hd

/-- R144: an order ends with RETIRED. -/
theorem orderView_takeOrder (src : Source) (id : W64) (inc : Nat) (o : Option (Order × Bool)) (same : Bool) :
    (s.takeOrder src id inc o same).orderView = s.orderView := by
  unfold State.takeOrder
  dsimp only
  split
  · exact orderView_orderResult ..
  · rw [if_pos hd]
    exact orderView_orderResult ..

theorem ctlGate_retired (p n : Nat) (bad : Bool) : s.ctlGate p n bad = some (ccRetired, 0) := if_pos hd

theorem orderView_takeCtl (n : Fin 256) : (s.takeCtl n).orderView = s.orderView := by
  have hd' : (s.modVg n (fun v => { v with ctlBusy := true })).dev = .retired := hd
  unfold State.takeCtl
  dsimp only
  split
  · split
    · exact orderView_takeOrder hd' ..
    · rw [orderView_ctlReply, State.stageData, ctlGate_retired hd']
      rfl
    · rw [orderView_ctlReply, State.pushWindow, ctlGate_retired hd']
      exact orderView_of_still (still_log ..)
    · rfl
  · rfl

/-- R113, R144: whatever waits is answered, and nothing else. -/
theorem orderView_pump : s.pump.orderView = s.orderView := by
  refine List.foldlRecOn (motive := fun t : State => t.orderView = s.orderView) _ _ rfl fun t ht n _ => ?_
  have hdev : t.dev = .retired := (congrArg Prod.fst ht).trans hd
  exact orderView_if (s := s) ht ((orderView_takeCtl hdev _).trans ht)

end

theorem orderView_enterRetired (s : State) (cause : Nat) : (s.enterRetired cause).orderView =
    (.retired, false, BitVec.ofNat 8 cause, s.mg.orderDone, s.mg.orderCode) := by
  rw [State.enterRetired, orderView_stopTrace]
  refine (orderView_if (c := s.dev.code = DevState.retired.code) rfl (orderView_pldmEvent _ _ _) :)

/-- R520: the device retires: the tick machine stops, the cause is kept, and the order's result stands. -/
theorem orderView_retire {s : State} (hd : s.dev ≠ .retired) (cause : Nat) : (s.retire cause).orderView =
    (.retired, false, BitVec.ofNat 8 cause, s.mg.orderDone, s.mg.orderCode) := by
  obtain ⟨u, hu⟩ : ∃ u, s.enterRetired cause = u := ⟨_, rfl⟩
  obtain ⟨v, hv⟩ : ∃ v, ((u.parcels.map (·.1)).foldl (fun s p => s.retireParcel p) u).evictAll = v := ⟨_, rfl⟩
  have hretire : s.retire cause =
      ((((v.log { logEntry v 0x1001 with cls := 4, aux := BitVec.ofNat 8 cause }).alert 9 0x1001).allFnEvent 3).vgAlertAll 2).pump := by
    rw [State.retire, if_neg hd, ← hv, ← hu]
    rfl
  have hview : ((((v.log { logEntry v 0x1001 with cls := 4, aux := BitVec.ofNat 8 cause }).alert 9
      0x1001).allFnEvent 3).vgAlertAll 2).orderView = (.retired, false, BitVec.ofNat 8 cause, s.mg.orderDone, s.mg.orderCode) := by
    rw [orderView_of_still (still_vgAlertAll ..), orderView_of_still (still_allFnEvent ..), orderView_alert,
      orderView_of_still (still_log ..), ← hv, State.evictAll, orderView_foldl fun s k => orderView_of_core (core_evict s k),
      orderView_foldl fun s p => orderView_retireParcel s p, ← hu, orderView_enterRetired]
  rw [hretire, orderView_pump (congrArg Prod.fst hview), hview]

/-! The three orders. -/

theorem slots_of_fuses {s t : State} (h : t.fuses = s.fuses) : t.mg.slots = s.mg.slots := congrArg Prod.fst h

section
variable {s : State} {who : Accessor} (ho : s.ownerAccess who = true) (h : s.hasOwner = true)
  (hd : s.dev = .running ∨ s.dev = .unlasted)
include ho h hd

theorem mgOrderCold_taken : exec (.mgOrderCold who) s = .next ((s.orderCode 0).coldReset 2) :=
  congrArg Host.Outcome.next (deviceOrder_taken (judgeOrder_owner ho h hd (op := 1) (by decide)))

theorem mgOrderWarm_taken : exec (.mgOrderWarm who) s = .next ((s.orderCode 0).warmReset 3) :=
  congrArg Host.Outcome.next (deviceOrder_taken (judgeOrder_owner ho h hd (op := 2) (by decide)))

theorem mgOrderRetire_taken : exec (.mgOrderRetire who) s = .next ((s.orderCode 0).retire 4) :=
  congrArg Host.Outcome.next (deviceOrder_taken (judgeOrder_owner ho h hd (op := 3) (by decide)))

/-- R508, R509, R518: COLD starts start-up over. -/
theorem mgOrderCold_spec : ∃ t, exec (.mgOrderCold who) s = .next t ∧ ColdStart s t 2 ∧ t.mg.slots = s.mg.slots := by
  obtain ⟨hdev, hdatum, hcells, hparcels, hinsts, hmem, htk, hcause, hfloor, hA, hB, hpending⟩ :=
    coldStart_coldReset (s.orderCode 0) 2
  exact ⟨_, mgOrderCold_taken ho h hd, ⟨hdev, hdatum, hcells, hparcels, hinsts, hmem, htk, hcause, hfloor, hA, hB, hpending⟩,
    slots_of_fuses (fuses_coldReset (s.orderCode 0) 2)⟩

/-- R508, R518: WARM keeps the stacks, the datum and the hub-die cycle count. -/
theorem mgOrderWarm_spec (hi : s.insts = []) (ht : ∀ k, k < 385 → s.testing k = false) :
    ∃ t, exec (.mgOrderWarm who) s = .next t ∧ t.dev = .starting 3 ∧ t.datum = s.datum ∧ t.parcels = [] ∧
      t.stk.mem = s.stk.mem ∧ t.tk = {} ∧ t.mg.resetCause = 3 ∧ t.mg.slots = s.mg.slots ∧ t.ob.cycle = s.ob.cycle ∧
      t.pending = s.pending := by
  have hview := warmReset_quiet (s := s.orderCode 0) hi ht 3
  simp only [State.warmView, Prod.mk.injEq] at hview
  obtain ⟨hdev, hdatum, htk, hmem, -, hparcels, hcause⟩ := hview
  obtain ⟨hcycle, hpending⟩ := warmReset_cycle (s := s.orderCode 0) hi ht 3
  have hslots : ((s.orderCode 0).warmReset 3).mg.slots = s.mg.slots :=
    slots_of_fuses (fuses_warmReset (s.orderCode 0) 3)
  have hwarm := mgOrderWarm_taken ho h hd
  generalize (s.orderCode 0).warmReset 3 = t at *
  exact ⟨t, hwarm, hdev, hdatum, hparcels, hmem, htk, hcause, hslots, hcycle, hpending⟩

/-- R518, R520: RETIRE retires. -/
theorem mgOrderRetire_spec : ∃ t, exec (.mgOrderRetire who) s = .next t ∧ t.dev = .retired ∧ t.mg.retire = 4 ∧
    t.tk.run = false ∧ t.mg.orderDone = true ∧ t.mg.orderCode = 0 := by
  have hview := orderView_retire (s := s.orderCode 0) (fun hr => by
    have hr' : s.dev = .retired := hr
    rcases hd with hd | hd <;> exact absurd (hd.symm.trans hr') (by decide)) 4
  simp only [State.orderView, Prod.mk.injEq] at hview
  obtain ⟨hdev, hrun, hretire, hdone, hcode⟩ := hview
  exact ⟨_, mgOrderRetire_taken ho h hd, hdev, hretire, hrun, hdone, hcode⟩

end

/-- Settles O39: each order of the owner by its lemma above, and who else gives one. -/
theorem deviceOrdersComplete : Obligations.DeviceOrdersComplete := by
  intro s who
  refine ⟨fun ho h hd => ⟨?_, mgOrderWarm_spec ho h hd, mgOrderRetire_spec ho h hd⟩, fun i hi => ?_⟩
  · obtain ⟨t, hexec, hcold, hslots⟩ := mgOrderCold_spec ho h hd
    exact ⟨t, hexec, hcold.dev, hcold.datum, hcold.cells, hcold.parcels, hcold.insts, hcold.mem, hcold.tk, hcold.cause, hslots,
      hcold.floor, hcold.slotA, hcold.slotB, hcold.pending⟩
  · obtain ⟨op, hop⟩ : ∃ op, exec i s = .next (s.deviceOrder who op) := by
      simp only [List.mem_cons, List.not_mem_nil, or_false] at hi
      rcases hi with rfl | rfl | rfl
      exacts [⟨1, rfl⟩, ⟨2, rfl⟩, ⟨3, rfl⟩]
    obtain ⟨hfn, hmgmt⟩ := deviceOrder_refusals (s := s) (who := who) op
    rw [hop]
    refine ⟨fun f hf => congrArg Host.Outcome.next (hfn f hf), fun eid k hk h => ?_⟩
    obtain ⟨hother, hbusy⟩ := hmgmt eid k hk h
    exact ⟨fun ho => congrArg Host.Outcome.next (hother ho), fun ho n hn => congrArg Host.Outcome.next (hbusy ho n hn)⟩

end Sys2Proof.Machine

/-! SUPPORT. A device that refutes O31: in the present hub-die cycle the management owner has given parcel 0 a RESUME, which found
it ACTIVE. Its ingress 0 lies below that of session 0, so an ORDER of the session is evaluated in the same cycle (R113), and a
QUIESCE conflicts with the RESUME (R143): it ends with CONFLICT and the parcel stays ACTIVE. -/

namespace Sys2Proof.Machine

open Sys2Proof.Safety

/-- Session 0 as an image gives it, on sub-port 0. -/
def ownerCfg : SessCfg := ⟨0, 0, false, 0, 50000, 1⟩

/-- Parcel 0, ACTIVE and owned by its session 0. -/
def ownedParcel : Parcel :=
  { state := .active, cfg := { Parcel.zero.cfg with ownerSess := true, ownerId := 0, sessions := [ownerCfg] } }

/-- A running device with that parcel and its session open, before the RESUME. -/
def ownedDevice : State :=
  { dev := .running, parcels := [(0, ownedParcel)]
    img := { on := true, cfg := { ports := [{ mode := 1, macsec := false, ptp := false, mac := 0x10 }]
                                  subs := [{ v6 := 1, v4 := 0, enabled := true }] } }
    net := { sess := [(0, { isOpen := true })], subs := [(0, { up := true })] } }

/-- The cycle after the RESUME. -/
def resumedDevice : State := { ownedDevice with cyc := { orders := [⟨0, 10, none, none, true⟩], ings := [0] } }

/-- A QUIESCE as a session spells it. -/
def quiesceDesc : List Byte := 9 :: List.replicate 63 0

/-- The header of the session's next message. -/
def nextHdr : VHdr := ⟨0, false, false, true, 0, 0⟩

theorem resumedDevice_next : NextMessage resumedDevice nextHdr 0 ownerCfg :=
  ⟨⟨by decide, by decide, by decide, by decide, by decide, by decide⟩, by decide, by decide, by decide, by decide, by decide,
    by decide⟩

/-- The RESUME of the management owner leaves such a cycle. -/
theorem resume_leaves_cycle : ∃ t, exec (.resume ⟨.mgmt 0, 5, false, false⟩) ownedDevice = .next t ∧
    t.cyc = resumedDevice.cyc ∧ (t.parcel 0).state = .active := ⟨_, rfl, by decide +kernel, by decide +kernel⟩

/-- The ORDER that gives the QUIESCE leaves the parcel ACTIVE. -/
theorem resumedDevice_order : ∃ t, exec (.order nextHdr quiesceDesc) resumedDevice = .next t ∧ (t.parcel 0).state = .active :=
  ⟨_, rfl, by decide +kernel⟩

/-- Refutes O31: what is said of an ORDER asks nothing of the orders that the hub-die cycle has met. In `resumedDevice` a
QUIESCE in an ORDER of the owner session meets a RESUME of its cycle, and the parcel does not drain. -/
theorem not_sessionsComplete : ¬ Obligations.SessionsComplete := by
  rintro ⟨hmessages, -, -⟩
  obtain ⟨-, -, horder, -⟩ := hmessages resumedDevice nextHdr 0 ownerCfg resumedDevice_next rfl
  obtain ⟨t, ht, -, hdrains⟩ := horder quiesceDesc (by decide) (by decide) (by decide) (by decide) (by decide)
  obtain ⟨u, hu, hactive⟩ := resumedDevice_order
  obtain rfl : t = u := Host.Outcome.next.inj (ht.symm.trans hu)
  exact PState.noConfusion (hdrains.symm.trans hactive)

end Sys2Proof.Machine
